-- ==== Sys2Proof/Word.lean ====
section
/-! DEFINITION. The words of the GN-M512 model: strokes, register words, agent codes, lines and bytes. -/

namespace Sys2Proof

/-- A 32-bit register word (R56). -/
abbrev Word := BitVec 32
/-- One byte (R13: byte 0 of a structure holds its bits [7:0]). -/
abbrev Byte := BitVec 8
/-- A 48-bit stroke number, compared modulo 2^48 (R32, R34). -/
abbrev Stroke := BitVec 48
/-- A 64-byte line; byte b is bits [8b+7:8b] (R13). -/
abbrev Line := BitVec 512
/-- The 72-byte codeword of a line: bits [511:0] are the line, bits [575:512] its check word (R189). -/
abbrev Codeword := BitVec 576
/-- An 8-bit agent identifier (R71). -/
abbrev Agent := BitVec 8
/-- The three 256-bit keys of a context, K1 in bits [255:0], K2 in [511:256], KM in [767:512] (R234). -/
abbrev KeyMaterial := BitVec 768

end Sys2Proof
end

