-- ==== Sys2Proof/Machine/Maps.lean ====
section
/-! DEFINITION. Sparse stores in one canonical form: a list of (key, value) pairs, keys strictly rising, no value equal to
the store's default. Registers, memory lines, the directory and every other large store of the block are held this way. -/

namespace Sys2Proof.Machine

/-- A sparse store from a numeric key to a value. -/
abbrev SMap (α : Type) := List (Nat × α)

/-- The value at `k`: the listed one, else the default `d`. -/
def sget {α : Type} (d : α) : SMap α → Nat → α
  | [], _ => d
  | (k, v) :: r, a => if a = k then v else sget d r a

/-- Put `v` at `a`, keys kept strictly rising. -/
def sput {α : Type} : SMap α → Nat → α → SMap α
  | [], a, v => [(a, v)]
  | (k, w) :: r, a, v =>
    if a < k then (a, v) :: (k, w) :: r
    else if a = k then (a, v) :: r
    else (k, w) :: sput r a v

/-- Remove whatever stands at `a`. -/
def sdel {α : Type} (m : SMap α) (a : Nat) : SMap α := m.filter (fun p => p.1 ≠ a)

/-- Write `v` at `a`: writing the default removes the entry, so equal stores are equal lists. -/
def sset {α : Type} [DecidableEq α] (d : α) (m : SMap α) (a : Nat) (v : α) : SMap α :=
  if v = d then sdel m a else sput m a v

/-- The listed value at `k`, if any. -/
def sfind {α : Type} : SMap α → Nat → Option α
  | [], _ => none
  | (k, v) :: r, a => if a = k then some v else sfind r a

/-- The keys are strictly rising. -/
def keysRising {α : Type} : SMap α → Bool
  | [] => true
  | [_] => true
  | (k, _) :: (l, w) :: r => decide (k < l) && keysRising ((l, w) :: r)

/-- The canonical form: keys strictly rising and no entry equal to the default. -/
def swf {α : Type} [DecidableEq α] (d : α) (m : SMap α) : Bool :=
  keysRising m && m.all (fun p => decide (p.2 ≠ d))

/-- Drop every entry whose key lies in [lo, hi). -/
def sdropRange {α : Type} (m : SMap α) (lo hi : Nat) : SMap α :=
  m.filter (fun p => !(decide (lo ≤ p.1) && decide (p.1 < hi)))

end Sys2Proof.Machine
end

