-- ==== Sys2Proof/Machine/RegTable.lean ====
section
/-! DEFINITION. The register fields of the spec, one definition per field, transcribed from the register tables of its
chapters: byte offset within the block, bit position and width, stride and number of instances, access code (R59) and
reset value. Fields named Reserved are left out: they read zero and ignore writes (R16, R57). -/

namespace Sys2Proof.Machine

/-- Access codes of R59. -/
inductive Acc
  | ro | rw | w1c | w1s | wo | rwl
deriving DecidableEq, Repr

/-- One register field. Instance `i` sits at bit `8 * off + lo + bst * i` of its block. -/
structure Fld where
  off : Nat
  lo : Nat
  w : Nat
  acc : Acc
  /-- reset value of each instance; the first stands for every instance not listed -/
  rst : List Nat := [0]
  /-- distance of two instances in bits -/
  bst : Nat := 0
  cnt : Nat := 1
deriving DecidableEq, Repr

namespace F

/-! ### SLAB: fields of ['01_architecture_and_timebase.md'] -/

def SLAB_STATUS_PEER_PRESENT : Fld := { off := 0x100, lo := 0, w := 1, acc := .ro }
def SLAB_STATUS_SEAM_UP : Fld := { off := 0x100, lo := 1, w := 1, acc := .ro }
def SLAB_STATUS_MGMT_PRIMARY : Fld := { off := 0x100, lo := 2, w := 1, acc := .ro }
def SLAB_STATUS_SECP_PRIMARY : Fld := { off := 0x100, lo := 3, w := 1, acc := .ro }
def SLAB_STATUS_SERVES_MODULE : Fld := { off := 0x100, lo := 4, w := 1, acc := .ro }
def SLAB_HEARTBEAT_MISSED : Fld := { off := 0x104, lo := 0, w := 16, acc := .ro }
def SLAB_HEARTBEAT_LAST_MISS : Fld := { off := 0x104, lo := 16, w := 16, acc := .ro }
def SLAB_DIE_DIE_ID : Fld := { off := 0x108, lo := 0, w := 32, acc := .ro }
def SLAB_TEMP_TEMP : Fld := { off := 0x10C, lo := 0, w := 16, acc := .ro }

/-! ### TMB: fields of ['01_architecture_and_timebase.md'] -/

def TMB_STROKE_LO_STROKE_LO : Fld := { off := 0x100, lo := 0, w := 32, acc := .ro }
def TMB_STROKE_HI_STROKE_HI : Fld := { off := 0x104, lo := 0, w := 16, acc := .ro }
def TMB_PHASE_PHASE : Fld := { off := 0x108, lo := 0, w := 8, acc := .ro }
def TMB_STATUS_SOURCE : Fld := { off := 0x10C, lo := 0, w := 2, acc := .ro }
def TMB_STATUS_IN_SPEC : Fld := { off := 0x10C, lo := 2, w := 1, acc := .ro, rst := [1] }
def TMB_STATUS_SLEWING : Fld := { off := 0x10C, lo := 3, w := 1, acc := .ro }
def TMB_STATUS_HOT_REFRESH : Fld := { off := 0x10C, lo := 4, w := 1, acc := .ro }
def TMB_STATUS_ADOPTED : Fld := { off := 0x10C, lo := 5, w := 1, acc := .w1c }
def TMB_STATUS_OUT_OF_SPEC : Fld := { off := 0x10C, lo := 6, w := 1, acc := .w1c }
def TMB_LOCAL_ELAPSED_ELAPSED : Fld := { off := 0x110, lo := 0, w := 32, acc := .ro }

/-! ### HDR: fields of ['02_register_pages.md'] -/

def HDR_IDENT_BLOCK_ID : Fld := { off := 0x0, lo := 0, w := 8, acc := .ro }
def HDR_IDENT_INSTANCE : Fld := { off := 0x0, lo := 8, w := 8, acc := .ro }
def HDR_IDENT_REVISION : Fld := { off := 0x0, lo := 16, w := 8, acc := .ro, rst := [11] }
def HDR_IDENT_LOCATION : Fld := { off := 0x0, lo := 24, w := 2, acc := .ro }
def HDR_VERSION_MINOR : Fld := { off := 0x4, lo := 0, w := 8, acc := .ro }
def HDR_VERSION_MAJOR : Fld := { off := 0x4, lo := 8, w := 8, acc := .ro, rst := [1] }
def HDR_CAP_RESET_OK : Fld := { off := 0x8, lo := 0, w := 1, acc := .ro }
def HDR_CAP_ASSIGNABLE : Fld := { off := 0x8, lo := 1, w := 1, acc := .ro }
def HDR_CAP_ALWAYS_SECURE : Fld := { off := 0x8, lo := 2, w := 1, acc := .ro }
def HDR_CAP_HAS_COMMIT : Fld := { off := 0x8, lo := 3, w := 1, acc := .ro }
def HDR_CAP_RING_WRITABLE : Fld := { off := 0x8, lo := 4, w := 1, acc := .ro }
def HDR_CAP_PAGES : Fld := { off := 0x8, lo := 8, w := 4, acc := .ro }
def HDR_CAP_BLOCK_CAP : Fld := { off := 0x8, lo := 16, w := 16, acc := .ro }
/-- DESIGN CHOICE (notes/assumptions/3): R60 says "Per block" and no chapter gives the value; 1 for every block. -/
def HDR_CTL_ENABLE : Fld := { off := 0xC, lo := 0, w := 1, acc := .rw, rst := [1] }
def HDR_CTL_COMMIT : Fld := { off := 0xC, lo := 1, w := 1, acc := .wo }
def HDR_CTL_UNLOCK : Fld := { off := 0xC, lo := 2, w := 1, acc := .wo }
def HDR_CTL_BLOCK_RESET : Fld := { off := 0xC, lo := 3, w := 1, acc := .wo }
def HDR_STATUS_IDLE : Fld := { off := 0x10, lo := 0, w := 1, acc := .ro, rst := [1] }
def HDR_STATUS_ENABLED : Fld := { off := 0x10, lo := 1, w := 1, acc := .ro }
def HDR_STATUS_OPEN : Fld := { off := 0x10, lo := 2, w := 1, acc := .ro, rst := [1] }
def HDR_STATUS_COMMIT_PENDING : Fld := { off := 0x10, lo := 3, w := 1, acc := .ro }
def HDR_STATUS_STICKY_LOCKED : Fld := { off := 0x10, lo := 4, w := 1, acc := .ro }
def HDR_STATUS_COMMIT_REJECTED : Fld := { off := 0x10, lo := 5, w := 1, acc := .w1c }
def HDR_STATUS_RESET_REFUSED : Fld := { off := 0x10, lo := 6, w := 1, acc := .w1c }
def HDR_STATUS_WRITE_IGNORED : Fld := { off := 0x10, lo := 7, w := 1, acc := .w1c }
def HDR_STATUS_CTL_CONFLICT : Fld := { off := 0x10, lo := 8, w := 1, acc := .w1c }
def HDR_STATUS_LOST_ARB : Fld := { off := 0x10, lo := 9, w := 1, acc := .w1c }
def HDR_STATUS_ERROR : Fld := { off := 0x10, lo := 10, w := 1, acc := .ro }
def HDR_INT_STATUS_INT_ERROR : Fld := { off := 0x14, lo := 0, w := 1, acc := .w1c }
def HDR_INT_STATUS_INT_COMMIT_DONE : Fld := { off := 0x14, lo := 1, w := 1, acc := .w1c }
def HDR_INT_STATUS_INT_RESET_DONE : Fld := { off := 0x14, lo := 2, w := 1, acc := .w1c }
def HDR_INT_STATUS_INT_LOST_ARB : Fld := { off := 0x14, lo := 3, w := 1, acc := .w1c }
def HDR_INT_STATUS_INT_BLOCK : Fld := { off := 0x14, lo := 16, w := 16, acc := .w1c }
def HDR_INT_ENABLE_INT_EN : Fld := { off := 0x18, lo := 0, w := 32, acc := .rw }
def HDR_INT_FORCE_INT_SET : Fld := { off := 0x1C, lo := 0, w := 32, acc := .wo }
def HDR_ERR_PTR_HQ_INDEX : Fld := { off := 0x20, lo := 0, w := 5, acc := .ro }
def HDR_ERR_PTR_VALID : Fld := { off := 0x20, lo := 5, w := 1, acc := .ro }
def HDR_ERR_PTR_HQ_SEQ : Fld := { off := 0x20, lo := 8, w := 16, acc := .ro }
def HDR_OWNER_WORLD : Fld := { off := 0x24, lo := 0, w := 2, acc := .ro }
def HDR_OWNER_OWNER_FIXED : Fld := { off := 0x24, lo := 2, w := 1, acc := .ro }
def HDR_LOCK_STICKY : Fld := { off := 0x28, lo := 0, w := 1, acc := .w1s }
def HDR_LOCK_LOCK_AGENT : Fld := { off := 0x28, lo := 8, w := 8, acc := .ro }
def HDR_COMMIT_SEQ_SEQ : Fld := { off := 0x2C, lo := 0, w := 16, acc := .ro }
def HDR_COMMIT_RESULT_CODE : Fld := { off := 0x30, lo := 0, w := 8, acc := .ro }
def HDR_COMMIT_RESULT_DETAIL : Fld := { off := 0x30, lo := 8, w := 24, acc := .ro }

/-! ### MOD: fields of ['02_register_pages.md'] -/

def MOD_READY_READY : Fld := { off := 0x100, lo := 0, w := 1, acc := .ro }
def MOD_READY_FILL_DONE : Fld := { off := 0x100, lo := 1, w := 1, acc := .ro }
def MOD_HOST_GRANT_GRANT : Fld := { off := 0x104, lo := 0, w := 2, acc := .rw, rst := [1431655765], bst := 2, cnt := 16 }
def MOD_AUX_GRANT_I3C_GRANT : Fld := { off := 0x108, lo := 0, w := 2, acc := .rw, rst := [2] }
def MOD_DENIED_STAT_COUNT : Fld := { off := 0x10C, lo := 0, w := 16, acc := .ro }
def MOD_DENIED_STAT_LAST_AGENT : Fld := { off := 0x10C, lo := 16, w := 8, acc := .ro }
def MOD_DENIED_STAT_CLEAR : Fld := { off := 0x10C, lo := 24, w := 1, acc := .wo }
def MOD_DENIED_ADDR_OFFSET : Fld := { off := 0x110, lo := 0, w := 24, acc := .ro }
def MOD_DENIED_ADDR_WRITE : Fld := { off := 0x110, lo := 24, w := 1, acc := .ro }
def MOD_DENIED_ADDR_CAUSE : Fld := { off := 0x110, lo := 25, w := 2, acc := .ro }
def MOD_INT_SUM_S0_PENDING : Fld := { off := 0x114, lo := 0, w := 32, acc := .ro }
def MOD_INT_SUM_S1_PENDING : Fld := { off := 0x118, lo := 0, w := 32, acc := .ro }
def MOD_INT_SUM_M_PENDING : Fld := { off := 0x11C, lo := 0, w := 32, acc := .ro }

/-! ### PORT: fields of ['03_addressing_and_tiers.md', '08_host_ports.md'] -/

def PORT_ALIAS_KEY_CTX : Fld := { off := 0x800, lo := 0, w := 14, acc := .rwl, bst := 32, cnt := 64 }
def PORT_ALIAS_VALID : Fld := { off := 0x800, lo := 16, w := 1, acc := .rwl, bst := 32, cnt := 64 }
def PORT_DEC_ALIAS_WIDTH : Fld := { off := 0x900, lo := 0, w := 3, acc := .rwl, rst := [2], bst := 32, cnt := 8 }
def PORT_DEC_ALIAS_ALIAS_BASE : Fld := { off := 0x900, lo := 8, w := 6, acc := .rwl, rst := [0, 4, 8, 12, 16, 20, 24, 28], bst := 32, cnt := 8 }
def PORT_CFG_SPLIT : Fld := { off := 0x100, lo := 0, w := 1, acc := .rwl }
def PORT_CFG_MAX_SPEED : Fld := { off := 0x100, lo := 1, w := 3, acc := .rwl, rst := [5] }
def PORT_CFG_IDE_REQUIRED : Fld := { off := 0x100, lo := 4, w := 1, acc := .rwl }
def PORT_CFG_DEVLOAD_EN : Fld := { off := 0x100, lo := 5, w := 1, acc := .rwl, rst := [1] }
def PORT_LINK_UP : Fld := { off := 0x104, lo := 0, w := 1, acc := .ro, bst := 32, cnt := 2 }
def PORT_LINK_WIDTH : Fld := { off := 0x104, lo := 1, w := 2, acc := .ro, bst := 32, cnt := 2 }
def PORT_LINK_SPEED : Fld := { off := 0x104, lo := 3, w := 3, acc := .ro, bst := 32, cnt := 2 }
def PORT_LINK_FLIT256 : Fld := { off := 0x104, lo := 6, w := 1, acc := .ro, bst := 32, cnt := 2 }
def PORT_LINK_MEM_EN : Fld := { off := 0x104, lo := 7, w := 1, acc := .ro, bst := 32, cnt := 2 }
def PORT_LINK_DEGRADED : Fld := { off := 0x104, lo := 8, w := 1, acc := .ro, bst := 32, cnt := 2 }
def PORT_LINK_TRAIN_NARROW : Fld := { off := 0x104, lo := 9, w := 1, acc := .ro, bst := 32, cnt := 2 }
def PORT_LINK_IDE_SECURE : Fld := { off := 0x104, lo := 10, w := 1, acc := .ro, bst := 32, cnt := 2 }
def PORT_LINK_VIRAL : Fld := { off := 0x104, lo := 11, w := 1, acc := .ro, bst := 32, cnt := 2 }
def PORT_LINK_READY : Fld := { off := 0x104, lo := 12, w := 1, acc := .ro, bst := 32, cnt := 2 }
def PORT_INGRESS_DEPTH : Fld := { off := 0x10C, lo := 0, w := 10, acc := .ro, bst := 32, cnt := 2 }
def PORT_INGRESS_LEVEL : Fld := { off := 0x10C, lo := 10, w := 3, acc := .ro, bst := 32, cnt := 2 }
def PORT_INGRESS_SIZE : Fld := { off := 0x10C, lo := 13, w := 10, acc := .ro, rst := [512], bst := 32, cnt := 2 }
def PORT_PAGE_IRQ_BLOCK_MASK : Fld := { off := 0x114, lo := 0, w := 32, acc := .rw, bst := 32, cnt := 2 }
def PORT_IRQ_REARM_REARM_0 : Fld := { off := 0x11C, lo := 0, w := 1, acc := .wo }
def PORT_IRQ_REARM_REARM_1 : Fld := { off := 0x11C, lo := 1, w := 1, acc := .wo }
def PORT_VIRAL_CAUSE : Fld := { off := 0x120, lo := 0, w := 8, acc := .ro, bst := 32, cnt := 2 }
def PORT_VIRAL_HQ_SEQ : Fld := { off := 0x120, lo := 8, w := 16, acc := .ro, bst := 32, cnt := 2 }
def PORT_DC_CTL_OFFER_TIMEOUT : Fld := { off := 0x128, lo := 0, w := 8, acc := .rwl, rst := [16] }
def PORT_POISON_SENT_COUNT : Fld := { off := 0x130, lo := 0, w := 32, acc := .ro, bst := 32, cnt := 2 }
def PORT_NOT_READY_COUNT : Fld := { off := 0x138, lo := 0, w := 32, acc := .ro, bst := 32, cnt := 2 }
def PORT_IDE_FAIL_COUNT : Fld := { off := 0x140, lo := 0, w := 32, acc := .ro, bst := 32, cnt := 2 }
def PORT_RETRAIN_COUNT : Fld := { off := 0x148, lo := 0, w := 32, acc := .ro, bst := 32, cnt := 2 }

/-! ### TIER: fields of ['03_addressing_and_tiers.md'] -/

def TIER_HOT_HOT_SHARE : Fld := { off := 0x100, lo := 0, w := 11, acc := .rwl, rst := [102] }
def TIER_CAP_LOGICAL_CAP : Fld := { off := 0x104, lo := 0, w := 14, acc := .rwl, rst := [4000] }
def TIER_CAP_STATIC_CAP : Fld := { off := 0x104, lo := 16, w := 14, acc := .rwl, rst := [4000] }
def TIER_HEAT_PROMOTE_THRESH : Fld := { off := 0x108, lo := 0, w := 5, acc := .rwl, rst := [8] }
def TIER_HEAT_DEMOTE_THRESH : Fld := { off := 0x108, lo := 5, w := 5, acc := .rwl, rst := [2] }
def TIER_HEAT_DECAY_SHIFT : Fld := { off := 0x108, lo := 10, w := 3, acc := .rwl, rst := [1] }
def TIER_HEAT_PROMOTE_ON_READ : Fld := { off := 0x108, lo := 13, w := 1, acc := .rwl, rst := [1] }
def TIER_FREE_FREE_LOW : Fld := { off := 0x10C, lo := 0, w := 16, acc := .rwl, rst := [16] }
def TIER_FREE_FREE_HIGH : Fld := { off := 0x10C, lo := 16, w := 16, acc := .rwl, rst := [64] }
def TIER_SPILL_DONATE : Fld := { off := 0x110, lo := 0, w := 16, acc := .rwl }
def TIER_SPILL_SPILL_ENABLE : Fld := { off := 0x110, lo := 16, w := 1, acc := .rwl }
def TIER_SPILL_TGT_DONOR : Fld := { off := 0x114, lo := 0, w := 18, acc := .rw }
def TIER_SPILL_TGT_HOPS : Fld := { off := 0x114, lo := 18, w := 3, acc := .rw }
def TIER_SPILL_TGT_VALID : Fld := { off := 0x114, lo := 21, w := 1, acc := .rw }
def TIER_SPILL_ALLOW_ALLOW : Fld := { off := 0x118, lo := 0, w := 16, acc := .rw }
def TIER_HOT_FREE_FREE_FRAMES : Fld := { off := 0x120, lo := 0, w := 24, acc := .ro }
def TIER_DEEP_FREE_FREE_ROWS : Fld := { off := 0x124, lo := 0, w := 28, acc := .ro }
def TIER_RATIO_RATIO : Fld := { off := 0x128, lo := 0, w := 16, acc := .ro, rst := [256] }
def TIER_EFFECTIVE_EFFECTIVE : Fld := { off := 0x12C, lo := 0, w := 14, acc := .ro }
def TIER_COUNT_HOT_PAGES : Fld := { off := 0x130, lo := 0, w := 30, acc := .ro }
def TIER_COUNT_DEEP_PAGES : Fld := { off := 0x134, lo := 0, w := 30, acc := .ro }
def TIER_COUNT_PLAIN_PAGES : Fld := { off := 0x138, lo := 0, w := 30, acc := .ro }
def TIER_COUNT_SPILLED_PAGES : Fld := { off := 0x13C, lo := 0, w := 30, acc := .ro }
def TIER_COUNT_LENT_PAGES : Fld := { off := 0x140, lo := 0, w := 30, acc := .ro }
def TIER_STATUS_REBALANCING : Fld := { off := 0x144, lo := 0, w := 1, acc := .ro }
def TIER_STATUS_OVERCOMMIT : Fld := { off := 0x144, lo := 1, w := 1, acc := .ro }
def TIER_STATUS_EXHAUSTED : Fld := { off := 0x144, lo := 2, w := 1, acc := .ro }

/-! ### PMAP: fields of ['03_addressing_and_tiers.md'] -/

def PMAP_PAGE_PAGE : Fld := { off := 0x100, lo := 0, w := 29, acc := .rw }
def PMAP_CMD_OP : Fld := { off := 0x104, lo := 0, w := 3, acc := .wo }
def PMAP_CMD_STATUS_BUSY : Fld := { off := 0x108, lo := 0, w := 1, acc := .ro }
def PMAP_CMD_STATUS_DONE : Fld := { off := 0x108, lo := 1, w := 1, acc := .w1c }
def PMAP_CMD_STATUS_NOT_HOME : Fld := { off := 0x108, lo := 2, w := 1, acc := .w1c }
def PMAP_CMD_STATUS_OUT_OF_RANGE : Fld := { off := 0x108, lo := 3, w := 1, acc := .w1c }
def PMAP_CMD_STATUS_PIN_FULL : Fld := { off := 0x108, lo := 4, w := 1, acc := .w1c }
def PMAP_ENTRY_LO_ENTRY_LO : Fld := { off := 0x10C, lo := 0, w := 32, acc := .ro }
def PMAP_ENTRY_HI_ENTRY_HI : Fld := { off := 0x110, lo := 0, w := 32, acc := .ro }
def PMAP_CACHE_HIT_HITS : Fld := { off := 0x114, lo := 0, w := 32, acc := .ro }
def PMAP_CACHE_MISS_MISSES : Fld := { off := 0x118, lo := 0, w := 32, acc := .ro }

/-! ### VEIN: fields of ['04_vein_memory_channels.md'] -/

def VEIN_SCHED_CTL_HINT_HOLD : Fld := { off := 0x100, lo := 0, w := 8, acc := .rwl, rst := [32] }
def VEIN_SCHED_CTL_WQ_HIGH : Fld := { off := 0x100, lo := 8, w := 6, acc := .rwl, rst := [48] }
def VEIN_SCHED_CTL_WQ_LOW : Fld := { off := 0x100, lo := 14, w := 6, acc := .rwl, rst := [16] }
def VEIN_PANIC_CTL_PANIC_MASK : Fld := { off := 0x104, lo := 0, w := 16, acc := .rwl }
def VEIN_PANIC_CTL_PANIC_ON : Fld := { off := 0x104, lo := 16, w := 3, acc := .rwl, rst := [6] }
def VEIN_PANIC_CTL_PANIC_OFF : Fld := { off := 0x104, lo := 19, w := 3, acc := .rwl, rst := [3] }
def VEIN_FB_CTL_FB_MODERATE : Fld := { off := 0x108, lo := 0, w := 11, acc := .rwl, rst := [64] }
def VEIN_FB_CTL_FB_HEAVY : Fld := { off := 0x108, lo := 11, w := 11, acc := .rwl, rst := [192] }
def VEIN_STATUS_PLAN : Fld := { off := 0x10C, lo := 0, w := 2, acc := .ro }
def VEIN_STATUS_SOLO : Fld := { off := 0x10C, lo := 2, w := 1, acc := .ro }
def VEIN_STATUS_PANIC : Fld := { off := 0x10C, lo := 3, w := 1, acc := .ro }
def VEIN_STATUS_CONGESTION : Fld := { off := 0x10C, lo := 4, w := 2, acc := .ro }
def VEIN_STATUS_SPEED : Fld := { off := 0x10C, lo := 6, w := 2, acc := .ro, rst := [2] }
def VEIN_STATUS_CHAN_RETIRED : Fld := { off := 0x10C, lo := 8, w := 8, acc := .ro }
def VEIN_STATUS_CHAN_HOT : Fld := { off := 0x10C, lo := 16, w := 8, acc := .ro }
def VEIN_DELIVERABLE_SLOTS : Fld := { off := 0x110, lo := 0, w := 16, acc := .ro }
def VEIN_DELIVERABLE_SLOTS_HOT : Fld := { off := 0x110, lo := 16, w := 16, acc := .ro }
def VEIN_QUEUE_ADMITTED_DEPTH : Fld := { off := 0x114, lo := 0, w := 11, acc := .ro }
def VEIN_QUEUE_WRITE_DEPTH : Fld := { off := 0x114, lo := 11, w := 10, acc := .ro }
def VEIN_QUEUE_OTHER_DEPTH : Fld := { off := 0x114, lo := 21, w := 11, acc := .ro }
def VEIN_PREC_STATUS_QE_LOST_PANIC : Fld := { off := 0x118, lo := 0, w := 1, acc := .w1c }
def VEIN_PREC_STATUS_BG_LOST_PANIC : Fld := { off := 0x118, lo := 1, w := 1, acc := .w1c }
def VEIN_PREC_STATUS_QE_LOST_DRAIN : Fld := { off := 0x118, lo := 2, w := 1, acc := .w1c }
def VEIN_PREC_STATUS_RESERVE_EXHAUSTED : Fld := { off := 0x118, lo := 3, w := 1, acc := .w1c }
def VEIN_PREC_STATUS_ENGINE_MASK : Fld := { off := 0x118, lo := 8, w := 16, acc := .w1c }
def VEIN_CHAN_INT_SUM_PENDING : Fld := { off := 0x11C, lo := 0, w := 8, acc := .ro }
def VEIN_STEER_COUNT_COUNT : Fld := { off := 0x120, lo := 0, w := 32, acc := .ro }
def VEIN_REBUILD_COUNT_COUNT : Fld := { off := 0x124, lo := 0, w := 32, acc := .ro }
def VEIN_FORCED_REF_COUNT : Fld := { off := 0x128, lo := 0, w := 32, acc := .ro }

/-! ### CHAN: fields of ['04_vein_memory_channels.md'] -/

def CHAN_CFG_BYTE_MODE : Fld := { off := 0x100, lo := 0, w := 1, acc := .ro }
def CHAN_CFG_TWO_RANKS : Fld := { off := 0x100, lo := 1, w := 1, acc := .ro, rst := [1] }
def CHAN_CFG_DENSITY : Fld := { off := 0x100, lo := 2, w := 4, acc := .ro, rst := [4] }
def CHAN_CFG_MR5_VENDOR : Fld := { off := 0x100, lo := 6, w := 8, acc := .ro }
def CHAN_STATUS_TRAINED : Fld := { off := 0x104, lo := 0, w := 1, acc := .ro }
def CHAN_STATUS_TRAIN_FAILED : Fld := { off := 0x104, lo := 1, w := 1, acc := .ro }
def CHAN_STATUS_RETIRED : Fld := { off := 0x104, lo := 2, w := 1, acc := .ro }
def CHAN_STATUS_MR4_CODE : Fld := { off := 0x104, lo := 3, w := 3, acc := .ro, rst := [3] }
def CHAN_STATUS_DEBT : Fld := { off := 0x104, lo := 6, w := 4, acc := .ro }
def CHAN_TRAIN_CTL_EYE_MIN : Fld := { off := 0x108, lo := 0, w := 7, acc := .rwl, rst := [16] }
def CHAN_TRAIN_CTL_PERIODIC_EN : Fld := { off := 0x108, lo := 7, w := 1, acc := .rwl, rst := [1] }
def CHAN_REYE_LEFT : Fld := { off := 0x110, lo := 0, w := 7, acc := .ro, bst := 32, cnt := 4 }
def CHAN_REYE_RIGHT : Fld := { off := 0x110, lo := 7, w := 7, acc := .ro, bst := 32, cnt := 4 }
def CHAN_REYE_CENTRE : Fld := { off := 0x110, lo := 14, w := 7, acc := .ro, bst := 32, cnt := 4 }
def CHAN_REYE_VREF_SEL : Fld := { off := 0x110, lo := 21, w := 3, acc := .ro, bst := 32, cnt := 4 }
def CHAN_WEYE_LEFT : Fld := { off := 0x120, lo := 0, w := 7, acc := .ro, bst := 32, cnt := 4 }
def CHAN_WEYE_RIGHT : Fld := { off := 0x120, lo := 7, w := 7, acc := .ro, bst := 32, cnt := 4 }
def CHAN_WEYE_CENTRE : Fld := { off := 0x120, lo := 14, w := 7, acc := .ro, bst := 32, cnt := 4 }
def CHAN_WEYE_WL_TAP : Fld := { off := 0x120, lo := 21, w := 7, acc := .ro, bst := 32, cnt := 4 }
def CHAN_CA_CA_CENTRE : Fld := { off := 0x130, lo := 0, w := 7, acc := .ro, bst := 32, cnt := 2 }
def CHAN_CA_VREF_CA : Fld := { off := 0x130, lo := 7, w := 6, acc := .ro, bst := 32, cnt := 2 }

/-! ### CODC: fields of ['05_strata_compression.md'] -/

def CODC_CTL_EFFORT_MAX : Fld := { off := 0x100, lo := 0, w := 2, acc := .rwl, rst := [2] }
def CODC_CTL_RECOMP_EFFORT : Fld := { off := 0x100, lo := 2, w := 2, acc := .rwl, rst := [3] }
def CODC_CTL_RECOMP_EN : Fld := { off := 0x100, lo := 4, w := 1, acc := .rwl, rst := [1] }
def CODC_EFFORT_GRANTED : Fld := { off := 0x104, lo := 0, w := 2, acc := .ro }
def CODC_LANE_BUSY_BUSY : Fld := { off := 0x108, lo := 0, w := 16, acc := .ro }
def CODC_LANE_BUSY_OFFLOAD : Fld := { off := 0x108, lo := 16, w := 16, acc := .ro }
def CODC_LANE_STATUS_OFLD_LOST : Fld := { off := 0x10C, lo := 0, w := 1, acc := .w1c }
def CODC_PAGES_CODED_COUNT : Fld := { off := 0x110, lo := 0, w := 32, acc := .ro }
def CODC_PAGES_RAW_COUNT : Fld := { off := 0x114, lo := 0, w := 32, acc := .ro }
def CODC_VERIFY_FAIL_COUNT : Fld := { off := 0x118, lo := 0, w := 32, acc := .ro }
def CODC_DECODE_ERR_COUNT : Fld := { off := 0x11C, lo := 0, w := 32, acc := .ro }
def CODC_ERR_PAGE_PAGE : Fld := { off := 0x120, lo := 0, w := 29, acc := .ro }
def CODC_ERR_PAGE_CAUSE : Fld := { off := 0x120, lo := 29, w := 3, acc := .ro }
def CODC_RECOMP_COUNT_COUNT : Fld := { off := 0x124, lo := 0, w := 32, acc := .ro }

/-! ### OFLD: fields of ['05_strata_compression.md'] -/

def OFLD_CTX_BASE_PAGE : Fld := { off := 0x100, lo := 0, w := 29, acc := .rwl }
def OFLD_CTX_KEY_KEY_CTX : Fld := { off := 0x104, lo := 0, w := 14, acc := .rwl }
def OFLD_CTX_KEY_CTX_VALID : Fld := { off := 0x104, lo := 16, w := 1, acc := .rwl }
def OFLD_STATUS_ACTIVE_CTX : Fld := { off := 0x108, lo := 0, w := 7, acc := .ro }
def OFLD_STATUS_JOBS_RUNNING : Fld := { off := 0x108, lo := 8, w := 8, acc := .ro }
def OFLD_JOB_COUNT_COUNT : Fld := { off := 0x10C, lo := 0, w := 32, acc := .ro }
def OFLD_CTX_SAVES_COUNT : Fld := { off := 0x110, lo := 0, w := 32, acc := .ro }
def OFLD_QUEUE_EN_ENABLE : Fld := { off := 0x180, lo := 0, w := 8, acc := .rw }
def OFLD_QUEUE_EN_ABORT : Fld := { off := 0x180, lo := 8, w := 8, acc := .wo }
def OFLD_SQ_BASE_PAGE : Fld := { off := 0x200, lo := 0, w := 29, acc := .rwl, bst := 512, cnt := 8 }
def OFLD_SQ_CTL_LOG2_SIZE : Fld := { off := 0x204, lo := 0, w := 4, acc := .rwl, rst := [4], bst := 512, cnt := 8 }
def OFLD_SQ_CTL_KEY_CTX : Fld := { off := 0x204, lo := 4, w := 14, acc := .rwl, bst := 512, cnt := 8 }
def OFLD_SQ_CTL_ATTACH : Fld := { off := 0x204, lo := 18, w := 4, acc := .rwl, bst := 512, cnt := 8 }
def OFLD_SQ_TAIL_TAIL : Fld := { off := 0x208, lo := 0, w := 12, acc := .rw, bst := 512, cnt := 8 }
def OFLD_SQ_HEAD_HEAD : Fld := { off := 0x20C, lo := 0, w := 12, acc := .ro, bst := 512, cnt := 8 }
def OFLD_CQ_BASE_PAGE : Fld := { off := 0x210, lo := 0, w := 29, acc := .rwl, bst := 512, cnt := 8 }
def OFLD_CQ_HEAD_HEAD : Fld := { off := 0x218, lo := 0, w := 12, acc := .rw, bst := 512, cnt := 8 }
def OFLD_CQ_TAIL_TAIL : Fld := { off := 0x21C, lo := 0, w := 12, acc := .ro, bst := 512, cnt := 8 }
def OFLD_Q_STATUS_FULL_STALL : Fld := { off := 0x220, lo := 0, w := 1, acc := .ro, bst := 512, cnt := 8 }
def OFLD_Q_STATUS_DOORBELL_BAD : Fld := { off := 0x220, lo := 1, w := 1, acc := .w1c, bst := 512, cnt := 8 }
def OFLD_Q_STATUS_FETCH_ERROR : Fld := { off := 0x220, lo := 2, w := 1, acc := .w1c, bst := 512, cnt := 8 }

/-! ### DPRT: fields of ['06_diptych_and_data_protection.md'] -/

def DPRT_SCRUB_CTL_SCRUB_EN : Fld := { off := 0x100, lo := 0, w := 1, acc := .rwl, rst := [1] }
def DPRT_SCRUB_CTL_RATE : Fld := { off := 0x100, lo := 8, w := 16, acc := .rwl, rst := [7] }
def DPRT_SCRUB_CTL_FAST_RETURN : Fld := { off := 0x100, lo := 24, w := 1, acc := .rwl, rst := [1] }
def DPRT_SCRUB_STATUS_PASSES : Fld := { off := 0x104, lo := 0, w := 16, acc := .ro }
def DPRT_SCRUB_STATUS_BEHIND : Fld := { off := 0x104, lo := 16, w := 1, acc := .ro }
def DPRT_SCRUB_SHORT_SHORTFALL : Fld := { off := 0x108, lo := 0, w := 32, acc := .ro }
def DPRT_BUCKET_CFG_LEAK : Fld := { off := 0x10C, lo := 0, w := 8, acc := .rwl, rst := [1] }
def DPRT_BUCKET_CFG_THRESH : Fld := { off := 0x10C, lo := 8, w := 8, acc := .rwl, rst := [64] }
def DPRT_BUCKET_CFG_W_CE1 : Fld := { off := 0x10C, lo := 16, w := 4, acc := .rwl, rst := [1] }
def DPRT_BUCKET_CFG_W_CE4 : Fld := { off := 0x10C, lo := 20, w := 4, acc := .rwl, rst := [4] }
def DPRT_BUCKET_CFG_W_UE_T : Fld := { off := 0x10C, lo := 24, w := 4, acc := .rwl, rst := [8] }
def DPRT_BUCKET_CFG_W_UE_P : Fld := { off := 0x10C, lo := 28, w := 4, acc := .rwl, rst := [15] }
def DPRT_FLIP_CTL_ARM : Fld := { off := 0x110, lo := 0, w := 1, acc := .w1s }
def DPRT_FLIP_CTL_FIRED : Fld := { off := 0x110, lo := 1, w := 1, acc := .w1c }
def DPRT_FLIP_CTL_STAGE : Fld := { off := 0x110, lo := 2, w := 2, acc := .rw }
def DPRT_FLIP_CTL_SEL : Fld := { off := 0x110, lo := 4, w := 4, acc := .rw }
def DPRT_FLIP_CTL_COPY : Fld := { off := 0x110, lo := 8, w := 2, acc := .rw, rst := [3] }
def DPRT_FLIP_CTL_OFLD : Fld := { off := 0x110, lo := 10, w := 1, acc := .rw }
def DPRT_FLIP_CTL_LINE : Fld := { off := 0x110, lo := 16, w := 6, acc := .rw }
def DPRT_FLIP_PAGE_PAGE : Fld := { off := 0x114, lo := 0, w := 29, acc := .rw }
def DPRT_FLIP_MASK_LO_MASK_LO : Fld := { off := 0x118, lo := 0, w := 32, acc := .rw }
def DPRT_FLIP_MASK_HI_MASK_HI : Fld := { off := 0x11C, lo := 0, w := 32, acc := .rw }
def DPRT_FLIP_STAMP_STAMP : Fld := { off := 0x120, lo := 0, w := 32, acc := .ro }
def DPRT_CE_COUNT_COUNT : Fld := { off := 0x124, lo := 0, w := 32, acc := .ro }
def DPRT_UE_COUNT_COUNT : Fld := { off := 0x128, lo := 0, w := 32, acc := .ro }
def DPRT_REBUILD_COUNT_COUNT : Fld := { off := 0x12C, lo := 0, w := 32, acc := .ro }
def DPRT_POISON_COUNT_COUNT : Fld := { off := 0x130, lo := 0, w := 32, acc := .ro }
def DPRT_PARITY_FIX_COUNT : Fld := { off := 0x134, lo := 0, w := 32, acc := .ro }
def DPRT_PEER_PEER_ABSENT : Fld := { off := 0x138, lo := 0, w := 1, acc := .ro }
def DPRT_PEER_SR_SAFE : Fld := { off := 0x138, lo := 1, w := 1, acc := .ro }
def DPRT_PEER_ACTING_HOME : Fld := { off := 0x138, lo := 2, w := 1, acc := .ro }
def DPRT_PEER_LOSSES : Fld := { off := 0x138, lo := 8, w := 8, acc := .ro }
def DPRT_BUCKET_LEVEL : Fld := { off := 0x200, lo := 0, w := 16, acc := .ro, bst := 32, cnt := 64 }
def DPRT_BUCKET_PERMANENT : Fld := { off := 0x200, lo := 16, w := 1, acc := .ro, bst := 32, cnt := 64 }

/-! ### DIPT: fields of ['06_diptych_and_data_protection.md'] -/

def DIPT_STATUS_STATE : Fld := { off := 0x100, lo := 0, w := 3, acc := .ro }
def DIPT_STATUS_SIDE : Fld := { off := 0x100, lo := 3, w := 1, acc := .ro }
def DIPT_STATUS_RET_OFS_LO : Fld := { off := 0x100, lo := 4, w := 3, acc := .ro }
def DIPT_STATUS_RET_LO : Fld := { off := 0x100, lo := 7, w := 1, acc := .ro }
def DIPT_STATUS_RET_OFS_HI : Fld := { off := 0x100, lo := 8, w := 3, acc := .ro }
def DIPT_STATUS_RET_HI : Fld := { off := 0x100, lo := 11, w := 1, acc := .ro }
def DIPT_STATUS_VEIN_RET_LO : Fld := { off := 0x100, lo := 12, w := 1, acc := .ro }
def DIPT_STATUS_VEIN_RET_HI : Fld := { off := 0x100, lo := 13, w := 1, acc := .ro }
def DIPT_STATUS_FULL_RESYNC : Fld := { off := 0x100, lo := 14, w := 1, acc := .ro }
def DIPT_FRAMES_FRAMES : Fld := { off := 0x104, lo := 0, w := 24, acc := .ro }
def DIPT_RESYNC_LEFT_FRAMES : Fld := { off := 0x108, lo := 0, w := 24, acc := .ro }
def DIPT_RELOC_LEFT_ITEMS : Fld := { off := 0x10C, lo := 0, w := 30, acc := .ro }
def DIPT_CTL_STREAM_SPLIT : Fld := { off := 0x110, lo := 0, w := 1, acc := .rwl, rst := [1] }
def DIPT_RETIRE_OFS : Fld := { off := 0x114, lo := 0, w := 3, acc := .wo }
def DIPT_RETIRE_SIDE : Fld := { off := 0x114, lo := 3, w := 1, acc := .wo }
def DIPT_RETIRE_GO : Fld := { off := 0x114, lo := 4, w := 1, acc := .wo }
def DIPT_RETIRE_REFUSED : Fld := { off := 0x114, lo := 5, w := 1, acc := .w1c }
def DIPT_READS_LO_COUNT : Fld := { off := 0x118, lo := 0, w := 32, acc := .ro }
def DIPT_READS_HI_COUNT : Fld := { off := 0x11C, lo := 0, w := 32, acc := .ro }

/-! ### CRYP: fields of ['07_encryption_and_integrity.md'] -/

def CRYP_CTL_EARLY_EN : Fld := { off := 0x100, lo := 0, w := 1, acc := .rwl }
def CRYP_STATUS_DEBUG_BLOCK : Fld := { off := 0x104, lo := 0, w := 1, acc := .ro }
def CRYP_STATUS_REBUILDING : Fld := { off := 0x104, lo := 1, w := 1, acc := .ro }
def CRYP_STATUS_OWNED : Fld := { off := 0x104, lo := 8, w := 8, acc := .ro }
def CRYP_MAC_FAIL_COUNT : Fld := { off := 0x108, lo := 0, w := 32, acc := .ro }
def CRYP_LATE_ALARM_COUNT : Fld := { off := 0x10C, lo := 0, w := 32, acc := .ro }
def CRYP_REMAC_COUNT : Fld := { off := 0x110, lo := 0, w := 32, acc := .ro }
def CRYP_TREE_LOSS_COUNT : Fld := { off := 0x114, lo := 0, w := 32, acc := .ro }
def CRYP_CTR_HIT_COUNT : Fld := { off := 0x118, lo := 0, w := 32, acc := .ro }
def CRYP_CTR_MISS_COUNT : Fld := { off := 0x11C, lo := 0, w := 32, acc := .ro }
def CRYP_ALARM_STAT_LAST_SEQ : Fld := { off := 0x120, lo := 0, w := 16, acc := .ro }
def CRYP_ALARM_STAT_ANY : Fld := { off := 0x120, lo := 16, w := 1, acc := .ro }
def CRYP_ALARM_SEL_ENTRY : Fld := { off := 0x124, lo := 0, w := 4, acc := .rw }
def CRYP_ALARM_DATA_DATA : Fld := { off := 0x140, lo := 0, w := 32, acc := .ro, bst := 32, cnt := 8 }

/-! ### KEYS: fields of ['07_encryption_and_integrity.md'] -/

def KEYS_SEL_CTX : Fld := { off := 0x100, lo := 0, w := 14, acc := .rw, rst := [1] }
def KEYS_CMD_OP : Fld := { off := 0x104, lo := 0, w := 3, acc := .wo }
def KEYS_STATUS_BUSY : Fld := { off := 0x108, lo := 0, w := 1, acc := .ro }
def KEYS_STATUS_DONE : Fld := { off := 0x108, lo := 1, w := 1, acc := .w1c }
def KEYS_STATUS_ERR : Fld := { off := 0x108, lo := 4, w := 4, acc := .ro }
def KEYS_ATTR_VALID : Fld := { off := 0x10C, lo := 0, w := 1, acc := .ro }
def KEYS_ATTR_RELEASE : Fld := { off := 0x10C, lo := 1, w := 1, acc := .rw }
def KEYS_ATTR_PROTECTED : Fld := { off := 0x10C, lo := 2, w := 1, acc := .rw }
def KEYS_ATTR_ATTACH_MASK : Fld := { off := 0x10C, lo := 16, w := 16, acc := .rw, rst := [65535] }
def KEYS_MATERIAL_DATA : Fld := { off := 0x110, lo := 0, w := 32, acc := .wo, bst := 32, cnt := 28 }
def KEYS_RETAIN_RETAIN : Fld := { off := 0x180, lo := 0, w := 1, acc := .rwl, rst := [1] }
def KEYS_PRIMER_DRAWS : Fld := { off := 0x184, lo := 0, w := 16, acc := .ro, rst := [1] }
def KEYS_COUNT_VALID_CTX : Fld := { off := 0x188, lo := 0, w := 15, acc := .ro, rst := [1] }

/-! ### HOME: fields of ['09_coherence_and_home.md'] -/

def HOME_CTL_SPEC_EN : Fld := { off := 0x100, lo := 0, w := 1, acc := .rwl, rst := [1] }
def HOME_CTL_ATOMIC_MODE : Fld := { off := 0x100, lo := 1, w := 2, acc := .rwl }
def HOME_CTL_PRED_THRESH : Fld := { off := 0x100, lo := 3, w := 3, acc := .rwl, rst := [4] }
def HOME_CTL_NEAR_MIN : Fld := { off := 0x100, lo := 6, w := 8, acc := .rwl, rst := [16] }
def HOME_STATUS_ACTING : Fld := { off := 0x104, lo := 0, w := 1, acc := .ro }
def HOME_STATUS_HANDBACK : Fld := { off := 0x104, lo := 1, w := 1, acc := .ro }
def HOME_STATUS_SWEEPING : Fld := { off := 0x104, lo := 2, w := 1, acc := .ro }
def HOME_STATUS_DEPARTED : Fld := { off := 0x104, lo := 16, w := 16, acc := .ro }
def HOME_DIR_VALID_ENTRIES : Fld := { off := 0x108, lo := 0, w := 23, acc := .ro }
def HOME_VICTIM_OCCUPANCY : Fld := { off := 0x10C, lo := 0, w := 11, acc := .ro }
def HOME_TRACKER_OCCUPANCY : Fld := { off := 0x110, lo := 0, w := 12, acc := .ro }
def HOME_TRACKER_RESERVED_USED : Fld := { off := 0x110, lo := 12, w := 10, acc := .ro }
def HOME_DIR_EVICT_COUNT : Fld := { off := 0x114, lo := 0, w := 32, acc := .ro }
def HOME_VICTIM_FULL_COUNT : Fld := { off := 0x118, lo := 0, w := 32, acc := .ro }
def HOME_BISNP_SENT_COUNT : Fld := { off := 0x11C, lo := 0, w := 32, acc := .ro }
def HOME_BI_CONFLICT_COUNT : Fld := { off := 0x120, lo := 0, w := 32, acc := .ro }
def HOME_SPEC_DISCARD_COUNT : Fld := { off := 0x124, lo := 0, w := 32, acc := .ro }
def HOME_WSTAMP_SQUASH_COUNT : Fld := { off := 0x128, lo := 0, w := 32, acc := .ro }
def HOME_FAR_OPS_COUNT : Fld := { off := 0x12C, lo := 0, w := 32, acc := .ro }
def HOME_FAR_MERGED_COUNT : Fld := { off := 0x130, lo := 0, w := 32, acc := .ro }
def HOME_NEAR_GRANTS_COUNT : Fld := { off := 0x134, lo := 0, w := 32, acc := .ro }
def HOME_UNKNOWN_REGIONS_REGIONS : Fld := { off := 0x138, lo := 0, w := 20, acc := .ro }
def HOME_DEPARTED_DROPS_COUNT : Fld := { off := 0x13C, lo := 0, w := 32, acc := .ro }
def HOME_DIRQ_PAGE_PAGE : Fld := { off := 0x1000, lo := 0, w := 29, acc := .rw }
def HOME_DIRQ_CTL_LINE : Fld := { off := 0x1004, lo := 0, w := 6, acc := .rw }
def HOME_DIRQ_CTL_GO : Fld := { off := 0x1004, lo := 6, w := 1, acc := .wo }
def HOME_DIRQ_STATUS_BUSY : Fld := { off := 0x1008, lo := 0, w := 1, acc := .ro }
def HOME_DIRQ_STATUS_DONE : Fld := { off := 0x1008, lo := 1, w := 1, acc := .w1c }
def HOME_DIRQ_STATUS_HIT : Fld := { off := 0x1008, lo := 2, w := 1, acc := .ro }
def HOME_DIRQ_STATUS_NOT_HOME : Fld := { off := 0x1008, lo := 3, w := 1, acc := .w1c }
def HOME_DIRQ_STATUS_UNKNOWN : Fld := { off := 0x1008, lo := 4, w := 1, acc := .ro }
def HOME_DIRQ_ENTRY_LO_ENTRY_LO : Fld := { off := 0x100C, lo := 0, w := 32, acc := .ro }
def HOME_DIRQ_ENTRY_HI_ENTRY_HI : Fld := { off := 0x1010, lo := 0, w := 16, acc := .ro }
def HOME_CENSUS_SEL_REGION : Fld := { off := 0x1014, lo := 0, w := 19, acc := .rw }
def HOME_CENSUS_COUNT : Fld := { off := 0x1018, lo := 0, w := 16, acc := .ro }
def HOME_CENSUS_UNKNOWN : Fld := { off := 0x1018, lo := 16, w := 1, acc := .ro }
def HOME_CENSUS_MIRROR : Fld := { off := 0x1018, lo := 17, w := 1, acc := .ro }

/-! ### HCAC: fields of ['10_hub_cache.md'] -/

def HCAC_CTL_FILL_EN : Fld := { off := 0x100, lo := 0, w := 1, acc := .rwl, rst := [1] }
def HCAC_CTL_PREFETCH_EN : Fld := { off := 0x100, lo := 1, w := 1, acc := .rwl, rst := [1] }
def HCAC_CTL_RUNAHEAD_EN : Fld := { off := 0x100, lo := 2, w := 1, acc := .rwl, rst := [1] }
def HCAC_CTL_QE_ALLOC : Fld := { off := 0x100, lo := 3, w := 1, acc := .rwl }
def HCAC_CTL_RUNAHEAD_MAX : Fld := { off := 0x100, lo := 8, w := 9, acc := .rwl, rst := [128] }
def HCAC_PART_SECURE_WAYS : Fld := { off := 0x104, lo := 0, w := 4, acc := .rw }
def HCAC_PART_REPART_BUSY : Fld := { off := 0x104, lo := 4, w := 1, acc := .ro }
def HCAC_STATUS_RUNAHEAD_USED : Fld := { off := 0x108, lo := 0, w := 9, acc := .ro }
def HCAC_STATUS_SWEEPING : Fld := { off := 0x108, lo := 9, w := 1, acc := .ro }
def HCAC_STATUS_VLB_FULL : Fld := { off := 0x108, lo := 10, w := 8, acc := .ro }
def HCAC_CMD_PAGE_PAGE : Fld := { off := 0x10C, lo := 0, w := 29, acc := .rw }
def HCAC_CMD_OP : Fld := { off := 0x110, lo := 0, w := 3, acc := .wo }
def HCAC_CMD_SET : Fld := { off := 0x110, lo := 8, w := 15, acc := .wo }
def HCAC_CMD_WAY : Fld := { off := 0x110, lo := 24, w := 4, acc := .wo }
def HCAC_CMD_STATUS_BUSY : Fld := { off := 0x114, lo := 0, w := 1, acc := .ro }
def HCAC_CMD_STATUS_DONE : Fld := { off := 0x114, lo := 1, w := 1, acc := .w1c }
def HCAC_CMD_STATUS_NOT_HOME : Fld := { off := 0x114, lo := 2, w := 1, acc := .w1c }
def HCAC_CMD_STATUS_OUT_OF_RANGE : Fld := { off := 0x114, lo := 3, w := 1, acc := .w1c }
def HCAC_CMD_STATUS_WORLD_DENIED : Fld := { off := 0x114, lo := 4, w := 1, acc := .w1c }
def HCAC_HIT_COUNT : Fld := { off := 0x118, lo := 0, w := 32, acc := .ro }
def HCAC_MISS_COUNT : Fld := { off := 0x11C, lo := 0, w := 32, acc := .ro }
def HCAC_PREFETCH_ISSUED_COUNT : Fld := { off := 0x120, lo := 0, w := 32, acc := .ro }
def HCAC_PREFETCH_USED_COUNT : Fld := { off := 0x124, lo := 0, w := 32, acc := .ro }
def HCAC_INSTALL_DROP_COUNT : Fld := { off := 0x128, lo := 0, w := 32, acc := .ro }
def HCAC_RUNAHEAD_FILLS_COUNT : Fld := { off := 0x12C, lo := 0, w := 32, acc := .ro }
def HCAC_RUNAHEAD_HITS_COUNT : Fld := { off := 0x130, lo := 0, w := 32, acc := .ro }
def HCAC_ZERO_LINES_COUNT : Fld := { off := 0x134, lo := 0, w := 32, acc := .ro }
def HCAC_INVAL_EVENTS_COUNT : Fld := { off := 0x138, lo := 0, w := 32, acc := .ro }

/-! ### QENG: fields of ['11_query_engines.md'] -/

def QENG_SQ_BASE_PAGE : Fld := { off := 0x100, lo := 0, w := 29, acc := .rwl }
def QENG_SQ_CTL_LOG2_SIZE : Fld := { off := 0x104, lo := 0, w := 4, acc := .rwl, rst := [4] }
def QENG_SQ_CTL_KEY_CTX : Fld := { off := 0x104, lo := 4, w := 14, acc := .rwl }
def QENG_SQ_CTL_ATTACH : Fld := { off := 0x104, lo := 18, w := 4, acc := .rwl }
def QENG_SQ_CTL_CQ : Fld := { off := 0x104, lo := 22, w := 2, acc := .rwl }
def QENG_SQ_CTL_CQ_SLAB : Fld := { off := 0x104, lo := 24, w := 1, acc := .rwl }
def QENG_SQ_TAIL_TAIL : Fld := { off := 0x108, lo := 0, w := 12, acc := .rw }
def QENG_SQ_HEAD_HEAD : Fld := { off := 0x10C, lo := 0, w := 12, acc := .ro }
def QENG_CTL_ENABLE : Fld := { off := 0x110, lo := 0, w := 1, acc := .rw }
def QENG_CTL_ABORT : Fld := { off := 0x110, lo := 1, w := 1, acc := .wo }
def QENG_CTL_CACHE_FLUSH : Fld := { off := 0x110, lo := 2, w := 1, acc := .wo }
def QENG_STATUS_RUNNING : Fld := { off := 0x114, lo := 0, w := 1, acc := .ro }
def QENG_STATUS_FULL_STALL : Fld := { off := 0x114, lo := 1, w := 1, acc := .ro }
def QENG_STATUS_THROTTLED : Fld := { off := 0x114, lo := 2, w := 1, acc := .ro }
def QENG_STATUS_HELD : Fld := { off := 0x114, lo := 3, w := 3, acc := .ro }
def QENG_STATUS_CQ_ABSENT : Fld := { off := 0x114, lo := 6, w := 1, acc := .ro }
def QENG_STATUS_CQ_WORLD : Fld := { off := 0x114, lo := 7, w := 1, acc := .ro }
def QENG_STATUS_FLUSH_BUSY : Fld := { off := 0x114, lo := 8, w := 1, acc := .ro }
def QENG_STATUS_DOORBELL_BAD : Fld := { off := 0x114, lo := 9, w := 1, acc := .w1c }
def QENG_STATUS_FETCH_ERROR : Fld := { off := 0x114, lo := 10, w := 1, acc := .w1c }
def QENG_PREFETCH_DEPTH : Fld := { off := 0x118, lo := 0, w := 4, acc := .rwl, rst := [4] }
def QENG_JOBS_COUNT : Fld := { off := 0x11C, lo := 0, w := 32, acc := .ro }
def QENG_ROWS_LO_ROWS_LO : Fld := { off := 0x120, lo := 0, w := 32, acc := .ro }
def QENG_ROWS_HI_ROWS_HI : Fld := { off := 0x124, lo := 0, w := 32, acc := .ro }
def QENG_CACHE_HIT_COUNT : Fld := { off := 0x128, lo := 0, w := 32, acc := .ro }
def QENG_CACHE_MISS_COUNT : Fld := { off := 0x12C, lo := 0, w := 32, acc := .ro }
def QENG_NEAR_UPD_COUNT : Fld := { off := 0x130, lo := 0, w := 32, acc := .ro }
def QENG_FAR_UPD_COUNT : Fld := { off := 0x134, lo := 0, w := 32, acc := .ro }
def QENG_LOST_SLOTS_COUNT : Fld := { off := 0x138, lo := 0, w := 32, acc := .ro }

/-! ### QGTH: fields of ['11_query_engines.md'] -/

def QGTH_CQ_BASE_PAGE : Fld := { off := 0x100, lo := 0, w := 29, acc := .rwl, bst := 256, cnt := 4 }
def QGTH_CQ_CTL_LOG2_SIZE : Fld := { off := 0x104, lo := 0, w := 4, acc := .rwl, rst := [4], bst := 256, cnt := 4 }
def QGTH_CQ_CTL_KEY_CTX : Fld := { off := 0x104, lo := 4, w := 14, acc := .rwl, bst := 256, cnt := 4 }
def QGTH_CQ_CTL_ATTACH : Fld := { off := 0x104, lo := 18, w := 4, acc := .rwl, bst := 256, cnt := 4 }
def QGTH_CQ_CTL_VALID : Fld := { off := 0x104, lo := 22, w := 1, acc := .rwl, bst := 256, cnt := 4 }
def QGTH_CQ_CTL_SECURE : Fld := { off := 0x104, lo := 23, w := 1, acc := .rw, bst := 256, cnt := 4 }
def QGTH_CQ_HEAD_HEAD : Fld := { off := 0x108, lo := 0, w := 12, acc := .rw, bst := 256, cnt := 4 }
def QGTH_CQ_TAIL_TAIL : Fld := { off := 0x10C, lo := 0, w := 12, acc := .ro, bst := 256, cnt := 4 }
def QGTH_CQ_STATUS_FULL : Fld := { off := 0x110, lo := 0, w := 1, acc := .ro, bst := 256, cnt := 4 }
def QGTH_CQ_STATUS_WAITING : Fld := { off := 0x110, lo := 1, w := 7, acc := .ro, bst := 256, cnt := 4 }
def QGTH_SLOTS_PENDING : Fld := { off := 0x180, lo := 0, w := 16, acc := .ro }
def QGTH_RECORDS_COUNT : Fld := { off := 0x184, lo := 0, w := 32, acc := .ro }
def QGTH_PEAK_PEAK : Fld := { off := 0x188, lo := 0, w := 5, acc := .ro }

/-! ### REGU: fields of ['12_regulation_and_admission.md'] -/

def REGU_CTL_OVERRIDE : Fld := { off := 0x100, lo := 0, w := 1, acc := .rwl }
def REGU_CTL_HOLD_EN : Fld := { off := 0x100, lo := 1, w := 1, acc := .rwl, rst := [1] }
def REGU_CTL_HOLD_MAX : Fld := { off := 0x100, lo := 2, w := 8, acc := .rwl, rst := [8] }
def REGU_ATTACH_LO_ATTACH : Fld := { off := 0x104, lo := 0, w := 4, acc := .rwl, bst := 4, cnt := 8 }
def REGU_ATTACH_HI_ATTACH : Fld := { off := 0x108, lo := 0, w := 4, acc := .rwl, bst := 4, cnt := 8 }
def REGU_RD_RD_LINES : Fld := { off := 0x200, lo := 0, w := 24, acc := .rwl, bst := 256, cnt := 8 }
def REGU_WR_WR_LINES : Fld := { off := 0x204, lo := 0, w := 24, acc := .rwl, bst := 256, cnt := 8 }
def REGU_EXTRA_EXTRA_SLOTS : Fld := { off := 0x208, lo := 0, w := 24, acc := .rwl, bst := 256, cnt := 8 }
def REGU_CLASS_CFG_PRIV : Fld := { off := 0x20C, lo := 0, w := 1, acc := .rwl, bst := 256, cnt := 8 }
def REGU_CLASS_CFG_OT_CAP : Fld := { off := 0x20C, lo := 1, w := 10, acc := .rwl, bst := 256, cnt := 8 }
def REGU_CLASS_CFG_TARGET : Fld := { off := 0x20C, lo := 16, w := 8, acc := .rwl, rst := [8], bst := 256, cnt := 8 }
def REGU_USED_SLOTS : Fld := { off := 0x210, lo := 0, w := 24, acc := .ro, bst := 256, cnt := 8 }
def REGU_NOTADM_COUNT : Fld := { off := 0x214, lo := 0, w := 32, acc := .ro, bst := 256, cnt := 8 }
def REGU_MISS_MISS : Fld := { off := 0x218, lo := 0, w := 16, acc := .ro, bst := 256, cnt := 8 }
def REGU_MISS_TARGET_MISS : Fld := { off := 0x218, lo := 16, w := 16, acc := .ro, bst := 256, cnt := 8 }
def REGU_LOAD_LOAD : Fld := { off := 0x21C, lo := 0, w := 2, acc := .ro, bst := 256, cnt := 8 }
def REGU_LOAD_DEBT_SLOTS : Fld := { off := 0x21C, lo := 8, w := 24, acc := .ro, bst := 256, cnt := 8 }
def REGU_STATUS_ACTIVE : Fld := { off := 0x300, lo := 0, w := 1, acc := .ro }
def REGU_STATUS_HOT_SHORT : Fld := { off := 0x300, lo := 1, w := 1, acc := .ro }
def REGU_STATUS_SCALED : Fld := { off := 0x300, lo := 2, w := 1, acc := .ro }
def REGU_STATUS_LIMIT : Fld := { off := 0x300, lo := 3, w := 3, acc := .ro }
def REGU_SCALE_COMMIT_SCALE : Fld := { off := 0x304, lo := 0, w := 13, acc := .ro, rst := [4096] }
def REGU_SCALE_RUN_SCALE : Fld := { off := 0x304, lo := 16, w := 13, acc := .ro, rst := [4096] }
def REGU_ENERGY_ENERGY_SLOTS : Fld := { off := 0x308, lo := 0, w := 24, acc := .ro, rst := [16777215] }
def REGU_HOT_SCALE_HOT_SCALE : Fld := { off := 0x30C, lo := 0, w := 13, acc := .ro, rst := [4096] }
def REGU_SHORTFALL_SHORT : Fld := { off := 0x310, lo := 0, w := 24, acc := .ro }
def REGU_MISS_LATE_COUNT : Fld := { off := 0x314, lo := 0, w := 32, acc := .ro }
def REGU_MISS_STAT_LAST_SEQ : Fld := { off := 0x318, lo := 0, w := 16, acc := .ro }
def REGU_MISS_STAT_ANY : Fld := { off := 0x318, lo := 16, w := 1, acc := .ro }
def REGU_MISS_SEL_ENTRY : Fld := { off := 0x31C, lo := 0, w := 4, acc := .rw }
def REGU_MISS_DATA_DATA : Fld := { off := 0x320, lo := 0, w := 32, acc := .ro, bst := 32, cnt := 4 }
def REGU_STRIPE_AVAIL : Fld := { off := 0x340, lo := 0, w := 16, acc := .ro, bst := 32, cnt := 8 }
def REGU_STRIPE_DEMAND : Fld := { off := 0x340, lo := 16, w := 16, acc := .ro, bst := 32, cnt := 8 }
def REGU_LABEL_LABEL : Fld := { off := 0x1000, lo := 0, w := 4, acc := .rwl, bst := 4, cnt := 16384 }
def REGU_OUTSTANDING_HOME0 : Fld := { off := 0x3000, lo := 0, w := 10, acc := .ro, bst := 32, cnt := 8 }
def REGU_OUTSTANDING_HOME1 : Fld := { off := 0x3000, lo := 16, w := 10, acc := .ro, bst := 32, cnt := 8 }

/-! ### RING: fields of ['13_lode_ring_and_fabric.md'] -/

def RING_LINK_UP : Fld := { off := 0x100, lo := 0, w := 1, acc := .ro, bst := 256, cnt := 2 }
def RING_LINK_LOCKED : Fld := { off := 0x100, lo := 1, w := 1, acc := .ro, bst := 256, cnt := 2 }
def RING_LINK_WRAP : Fld := { off := 0x100, lo := 2, w := 1, acc := .ro, bst := 256, cnt := 2 }
def RING_LINK_CELL_OPEN : Fld := { off := 0x100, lo := 3, w := 1, acc := .ro, bst := 256, cnt := 2 }
def RING_LINK_PERM_DOWN : Fld := { off := 0x100, lo := 4, w := 1, acc := .ro, bst := 256, cnt := 2 }
def RING_LINK_NEIGH_POS : Fld := { off := 0x100, lo := 5, w := 6, acc := .ro, bst := 256, cnt := 2 }
def RING_LINK_NEIGH_VALID : Fld := { off := 0x100, lo := 11, w := 1, acc := .ro, bst := 256, cnt := 2 }
def RING_DELAY_DELAY : Fld := { off := 0x104, lo := 0, w := 16, acc := .ro, bst := 256, cnt := 2 }
def RING_DELAY_VALID : Fld := { off := 0x104, lo := 16, w := 1, acc := .ro, bst := 256, cnt := 2 }
def RING_BUCKET_LEVEL : Fld := { off := 0x108, lo := 0, w := 16, acc := .ro, bst := 256, cnt := 2 }
def RING_BUCKET_PERMANENT : Fld := { off := 0x108, lo := 16, w := 1, acc := .ro, bst := 256, cnt := 2 }
def RING_RETRY_COUNT : Fld := { off := 0x10C, lo := 0, w := 32, acc := .ro, bst := 256, cnt := 2 }
def RING_CRC_ERR_COUNT : Fld := { off := 0x110, lo := 0, w := 32, acc := .ro, bst := 256, cnt := 2 }
def RING_RETRAIN_COUNT : Fld := { off := 0x114, lo := 0, w := 32, acc := .ro, bst := 256, cnt := 2 }
def RING_DISCARD_COUNT : Fld := { off := 0x118, lo := 0, w := 32, acc := .ro, bst := 256, cnt := 2 }
def RING_BUCKET_CFG_LEAK : Fld := { off := 0x140, lo := 0, w := 8, acc := .rwl, rst := [1] }
def RING_BUCKET_CFG_THRESH : Fld := { off := 0x140, lo := 8, w := 8, acc := .rwl, rst := [64] }
def RING_BUCKET_CFG_W_CRC : Fld := { off := 0x140, lo := 16, w := 4, acc := .rwl, rst := [1] }
def RING_BUCKET_CFG_W_TIMEOUT : Fld := { off := 0x140, lo := 20, w := 4, acc := .rwl, rst := [4] }
def RING_BUCKET_CFG_W_LOCK : Fld := { off := 0x140, lo := 24, w := 4, acc := .rwl, rst := [15] }
def RING_CTL_REVIVE_0 : Fld := { off := 0x144, lo := 0, w := 1, acc := .wo }
def RING_CTL_REVIVE_1 : Fld := { off := 0x144, lo := 1, w := 1, acc := .wo }
def RING_BULK_STATUS_USED : Fld := { off := 0x148, lo := 0, w := 12, acc := .ro }
def RING_BULK_STATUS_SPILL_LOST : Fld := { off := 0x148, lo := 12, w := 1, acc := .w1c }
def RING_BULK_STATUS_RETURN_LOST : Fld := { off := 0x148, lo := 13, w := 1, acc := .w1c }

/-! ### LODE: fields of ['13_lode_ring_and_fabric.md'] -/

def LODE_ID_ROLE : Fld := { off := 0x100, lo := 0, w := 2, acc := .ro }
def LODE_ID_STRAP_ROLE : Fld := { off := 0x100, lo := 2, w := 2, acc := .ro }
def LODE_ID_FABRIC_ADDR : Fld := { off := 0x100, lo := 4, w := 18, acc := .ro }
def LODE_ID_ADDR_VALID : Fld := { off := 0x100, lo := 22, w := 1, acc := .ro }
def LODE_ID_ROOTED : Fld := { off := 0x100, lo := 23, w := 1, acc := .ro }
def LODE_STATE_STATE_A : Fld := { off := 0x104, lo := 0, w := 4, acc := .ro }
def LODE_STATE_STATE_B : Fld := { off := 0x104, lo := 4, w := 4, acc := .ro }
def LODE_STATE_TIMING_PORT : Fld := { off := 0x104, lo := 8, w := 2, acc := .ro }
def LODE_STATE_TIMING_SIDE : Fld := { off := 0x104, lo := 10, w := 1, acc := .ro }
def LODE_STATE_HOLDOVER : Fld := { off := 0x104, lo := 11, w := 1, acc := .ro }
def LODE_STATE_HEAD_CONFLICT : Fld := { off := 0x104, lo := 12, w := 1, acc := .ro }
def LODE_CTL_JOIN_EN : Fld := { off := 0x108, lo := 0, w := 1, acc := .rwl, rst := [1] }
def LODE_CTL_UP_JOIN_EN : Fld := { off := 0x108, lo := 1, w := 1, acc := .rwl, rst := [1] }
def LODE_CTL_SPLICE_PERIOD : Fld := { off := 0x108, lo := 2, w := 8, acc := .rwl, rst := [16] }
def LODE_CTL_ROLE_OVR : Fld := { off := 0x108, lo := 10, w := 2, acc := .rwl }
def LODE_CTL_ROLE_OVR_EN : Fld := { off := 0x108, lo := 12, w := 1, acc := .rwl }
def LODE_PROV_DELAY_DELAY : Fld := { off := 0x10C, lo := 0, w := 16, acc := .rwl, rst := [512] }
def LODE_TIMING_ERROR : Fld := { off := 0x110, lo := 0, w := 16, acc := .ro }
def LODE_TIMING_DEPTH : Fld := { off := 0x110, lo := 16, w := 8, acc := .ro }
def LODE_RING_MEMBERS : Fld := { off := 0x114, lo := 0, w := 7, acc := .ro, bst := 32, cnt := 2 }
def LODE_RING_POSITION : Fld := { off := 0x114, lo := 7, w := 6, acc := .ro, bst := 32, cnt := 2 }
def LODE_RING_WRAPPED : Fld := { off := 0x114, lo := 13, w := 1, acc := .ro, bst := 32, cnt := 2 }
def LODE_RING_EPOCH : Fld := { off := 0x114, lo := 14, w := 16, acc := .ro, bst := 32, cnt := 2 }
def LODE_CMD_STAT_ACCEPTED : Fld := { off := 0x11C, lo := 0, w := 16, acc := .ro }
def LODE_CMD_STAT_REFUSED : Fld := { off := 0x11C, lo := 16, w := 16, acc := .ro }
def LODE_CMD_LAST_CODE : Fld := { off := 0x120, lo := 0, w := 8, acc := .ro }
def LODE_CMD_LAST_STATUS : Fld := { off := 0x120, lo := 8, w := 8, acc := .ro }
def LODE_CMD_ISSUER_ISSUER : Fld := { off := 0x124, lo := 0, w := 18, acc := .ro }
def LODE_PLAN_DONATE_REQ : Fld := { off := 0x128, lo := 0, w := 16, acc := .rw }
def LODE_PLAN_VALID : Fld := { off := 0x128, lo := 16, w := 1, acc := .rw }
def LODE_PREV_POS_A : Fld := { off := 0x12C, lo := 0, w := 6, acc := .ro }
def LODE_PREV_VALID_A : Fld := { off := 0x12C, lo := 6, w := 1, acc := .ro }
def LODE_PREV_POS_B : Fld := { off := 0x12C, lo := 8, w := 6, acc := .ro }
def LODE_PREV_VALID_B : Fld := { off := 0x12C, lo := 14, w := 1, acc := .ro }
def LODE_REJOIN_GO : Fld := { off := 0x130, lo := 0, w := 1, acc := .wo }
def LODE_EVAC_EVAC : Fld := { off := 0x134, lo := 0, w := 1, acc := .ro }
def LODE_EVAC_DONE : Fld := { off := 0x134, lo := 1, w := 1, acc := .w1c }
def LODE_EVAC_INCOMPLETE : Fld := { off := 0x134, lo := 2, w := 1, acc := .w1c }
def LODE_FABRIC_LO_ID_LO : Fld := { off := 0x138, lo := 0, w := 32, acc := .ro }
def LODE_FABRIC_HI_ID_HI : Fld := { off := 0x13C, lo := 0, w := 32, acc := .ro }

/-! ### LEDG: fields of ['14_energy_ledger_and_rest.md'] -/

def LEDG_CAP_CAP_W : Fld := { off := 0x100, lo := 0, w := 9, acc := .rwl, rst := [380] }
def LEDG_SYS_CAP_SYS_W : Fld := { off := 0x104, lo := 0, w := 32, acc := .rwl }
def LEDG_MGR_LIMIT_LIMIT_W : Fld := { off := 0x108, lo := 0, w := 9, acc := .rw }
def LEDG_FLOOR_FG_FLOOR : Fld := { off := 0x10C, lo := 0, w := 24, acc := .rwl, rst := [115200] }
def LEDG_REQ_QE_REQ : Fld := { off := 0x110, lo := 0, w := 24, acc := .rwl, rst := [40000] }
def LEDG_REQ_RECOMP_REQ : Fld := { off := 0x114, lo := 0, w := 24, acc := .rwl, rst := [8000] }
def LEDG_REQ_SPILL_REQ : Fld := { off := 0x118, lo := 0, w := 24, acc := .rwl, rst := [10000] }
def LEDG_REQ_MIGR_REQ : Fld := { off := 0x11C, lo := 0, w := 24, acc := .rwl, rst := [20000] }
def LEDG_NEW_REQ_REQ : Fld := { off := 0x120, lo := 0, w := 32, acc := .rwl, rst := [373555] }
def LEDG_COST_COST : Fld := { off := 0x140, lo := 0, w := 16, acc := .rwl, rst := [192, 80, 8, 16, 224, 384, 640, 1152, 2176, 512, 96, 960, 88, 0, 0, 0], bst := 32, cnt := 16 }
def LEDG_BUDGET_B : Fld := { off := 0x180, lo := 0, w := 32, acc := .ro, rst := [4294967295] }
def LEDG_BUDGET_IN_IN : Fld := { off := 0x184, lo := 0, w := 32, acc := .ro, rst := [4294967295] }
def LEDG_LIMIT_DERATE_W : Fld := { off := 0x188, lo := 0, w := 9, acc := .ro, rst := [380] }
def LEDG_LIMIT_INLET_C : Fld := { off := 0x188, lo := 16, w := 8, acc := .ro }
def LEDG_LIMIT_SOURCE : Fld := { off := 0x188, lo := 24, w := 3, acc := .ro }
def LEDG_LIMIT_NO_ENTRY : Fld := { off := 0x188, lo := 27, w := 1, acc := .ro }
def LEDG_FIXED_FX : Fld := { off := 0x18C, lo := 0, w := 32, acc := .ro }
def LEDG_FLOOR_FUNDED_FUNDED : Fld := { off := 0x190, lo := 0, w := 24, acc := .ro }
def LEDG_GRANT_QE_GRANT : Fld := { off := 0x194, lo := 0, w := 24, acc := .ro }
def LEDG_GRANT_RECOMP_GRANT : Fld := { off := 0x198, lo := 0, w := 24, acc := .ro }
def LEDG_GRANT_SPILL_GRANT : Fld := { off := 0x19C, lo := 0, w := 24, acc := .ro }
def LEDG_GRANT_MIGR_GRANT : Fld := { off := 0x1A0, lo := 0, w := 24, acc := .ro }
def LEDG_GRANT_MISC_EFFORT : Fld := { off := 0x1A4, lo := 0, w := 2, acc := .ro }
def LEDG_GRANT_MISC_SCRUB_LINES_S0 : Fld := { off := 0x1A4, lo := 8, w := 8, acc := .ro }
def LEDG_GRANT_MISC_SCRUB_LINES_S1 : Fld := { off := 0x1A4, lo := 16, w := 8, acc := .ro }
def LEDG_STATUS_DEFICIT : Fld := { off := 0x1A8, lo := 0, w := 1, acc := .ro }
def LEDG_STATUS_FLOOR_SHORT : Fld := { off := 0x1A8, lo := 1, w := 1, acc := .ro }
def LEDG_STATUS_BUDGET_HIT : Fld := { off := 0x1A8, lo := 2, w := 1, acc := .ro }
def LEDG_STATUS_CAL_HIGH : Fld := { off := 0x1A8, lo := 3, w := 1, acc := .ro }
def LEDG_STATUS_METER_LOST : Fld := { off := 0x1A8, lo := 4, w := 1, acc := .w1c }
def LEDG_STATUS_MP_LOST : Fld := { off := 0x1A8, lo := 5, w := 1, acc := .w1c }
def LEDG_STATUS_REQ_BUSY : Fld := { off := 0x1A8, lo := 6, w := 1, acc := .ro }
def LEDG_STATUS_REQ_DONE : Fld := { off := 0x1A8, lo := 7, w := 1, acc := .w1c }
def LEDG_STATUS_PARTIAL : Fld := { off := 0x1A8, lo := 8, w := 1, acc := .ro }
def LEDG_DEFICIT_DEFICIT : Fld := { off := 0x1AC, lo := 0, w := 32, acc := .ro }
def LEDG_CLOSED_SITTING : Fld := { off := 0x1B0, lo := 0, w := 32, acc := .ro }
def LEDG_USED_USED : Fld := { off := 0x1B4, lo := 0, w := 32, acc := .ro, bst := 32, cnt := 5 }
def LEDG_USED_INPUT_USED : Fld := { off := 0x1C8, lo := 0, w := 32, acc := .ro }
def LEDG_BG_USED : Fld := { off := 0x1CC, lo := 0, w := 32, acc := .ro, bst := 32, cnt := 5 }
def LEDG_SENSOR_READING : Fld := { off := 0x200, lo := 0, w := 32, acc := .ro, bst := 32, cnt := 13 }
def LEDG_SENSOR_REQ_CH : Fld := { off := 0x240, lo := 0, w := 4, acc := .wo }
def LEDG_SENSOR_REQ_GO : Fld := { off := 0x240, lo := 4, w := 1, acc := .wo }
def LEDG_SENSOR_RESULT_READING : Fld := { off := 0x244, lo := 0, w := 32, acc := .ro }
def LEDG_GRANT_OUT_GRANT : Fld := { off := 0x1000, lo := 0, w := 32, acc := .ro, bst := 32, cnt := 64 }

/-! ### REST: fields of ['14_energy_ledger_and_rest.md'] -/

def REST_CTL_ENTER : Fld := { off := 0x100, lo := 0, w := 1, acc := .wo }
def REST_CFG_SKETCH_EN : Fld := { off := 0x104, lo := 0, w := 1, acc := .rwl, rst := [1] }
def REST_CFG_SKETCH_PERIOD : Fld := { off := 0x104, lo := 8, w := 5, acc := .rwl, rst := [8] }
def REST_CFG_METER_PERIOD : Fld := { off := 0x104, lo := 16, w := 8, acc := .rwl, rst := [64] }
def REST_CFG_DRAIN_MAX : Fld := { off := 0x104, lo := 24, w := 8, acc := .rwl, rst := [64] }
def REST_STATUS_STATE : Fld := { off := 0x108, lo := 0, w := 3, acc := .ro }
def REST_WAKE_AGENT : Fld := { off := 0x10C, lo := 0, w := 8, acc := .ro }
def REST_WAKE_CHANNEL : Fld := { off := 0x10C, lo := 8, w := 3, acc := .ro }
def REST_WAKE_WAKES : Fld := { off := 0x10C, lo := 16, w := 16, acc := .ro }
def REST_WAKE_STAMP_STAMP : Fld := { off := 0x110, lo := 0, w := 32, acc := .ro }
def REST_ENTRIES_COUNT : Fld := { off := 0x114, lo := 0, w := 32, acc := .ro }
def REST_REFUSED_REFUSED : Fld := { off := 0x118, lo := 0, w := 16, acc := .ro }
def REST_REFUSED_ABORTED : Fld := { off := 0x118, lo := 16, w := 16, acc := .ro }
def REST_AGENT_SEL_AGENT : Fld := { off := 0x11C, lo := 0, w := 8, acc := .rw }
def REST_AGENT_COUNT_REFUSED_BY : Fld := { off := 0x120, lo := 0, w := 16, acc := .ro }
def REST_AGENT_COUNT_ABORTED_BY : Fld := { off := 0x120, lo := 16, w := 16, acc := .ro }
def REST_LOG_SEL_ENTRY : Fld := { off := 0x124, lo := 0, w := 4, acc := .rw }
def REST_LOG_DATA_DATA : Fld := { off := 0x128, lo := 0, w := 32, acc := .ro, bst := 32, cnt := 4 }
def REST_THR_LIMIT_A : Fld := { off := 0x140, lo := 0, w := 16, acc := .rwl, rst := [40000, 0, 0, 0, 1360, 1520, 1520, 1520], bst := 32, cnt := 8 }
def REST_THR_LIMIT_B : Fld := { off := 0x140, lo := 16, w := 16, acc := .rwl, rst := [25, 65535, 65535, 65535, 0, 0, 0, 0], bst := 32, cnt := 8 }

/-! ### SECP: fields of ['15_secure_processor_and_worlds.md'] -/

def SECP_STATUS_ROLE : Fld := { off := 0x100, lo := 0, w := 2, acc := .ro }
def SECP_STATUS_BOOT_DONE : Fld := { off := 0x100, lo := 2, w := 1, acc := .ro }
def SECP_STATUS_DEBUG_OPEN : Fld := { off := 0x100, lo := 3, w := 1, acc := .ro }
def SECP_STATUS_MIRROR_OK : Fld := { off := 0x100, lo := 4, w := 1, acc := .ro }
def SECP_STATUS_TAKEOVERS : Fld := { off := 0x100, lo := 8, w := 8, acc := .ro }
def SECP_DEBUG_OPEN : Fld := { off := 0x104, lo := 0, w := 1, acc := .w1s }
def SECP_WDOG_CTL_PERIOD : Fld := { off := 0x108, lo := 0, w := 8, acc := .rw, rst := [8] }
def SECP_WDOG_CTL_ENABLE : Fld := { off := 0x108, lo := 8, w := 1, acc := .w1s }
def SECP_WDOG_KICK_KICK : Fld := { off := 0x10C, lo := 0, w := 1, acc := .wo }
def SECP_WDOG_STATUS_ELAPSED : Fld := { off := 0x110, lo := 0, w := 8, acc := .ro }
def SECP_MEAS_SEL_SLOT : Fld := { off := 0x120, lo := 0, w := 3, acc := .rw }
def SECP_MEAS_SEL_EXTEND : Fld := { off := 0x120, lo := 8, w := 1, acc := .wo }
def SECP_MEAS_SEL_COUNT : Fld := { off := 0x120, lo := 16, w := 16, acc := .ro }
def SECP_MEAS_IN_DIGEST : Fld := { off := 0x140, lo := 0, w := 32, acc := .wo, bst := 32, cnt := 12 }
def SECP_MEAS_VAL_VALUE : Fld := { off := 0x180, lo := 0, w := 32, acc := .ro, bst := 32, cnt := 12 }

/-! ### OWN: fields of ['15_secure_processor_and_worlds.md'] -/

def OWN_BLOCK_WORLD : Fld := { off := 0x100, lo := 0, w := 2, acc := .ro, bst := 32, cnt := 18 }
def OWN_BLOCK_PWR_PENDING : Fld := { off := 0x100, lo := 2, w := 1, acc := .ro, bst := 32, cnt := 18 }
def OWN_BLOCK_HANDOVERS : Fld := { off := 0x100, lo := 8, w := 8, acc := .ro, bst := 32, cnt := 18 }
def OWN_CMD_BLOCK : Fld := { off := 0x180, lo := 0, w := 5, acc := .wo }
def OWN_CMD_TO_SECURE : Fld := { off := 0x180, lo := 5, w := 1, acc := .wo }
def OWN_CMD_GO : Fld := { off := 0x180, lo := 6, w := 1, acc := .wo }
def OWN_CMD_STATUS_BUSY : Fld := { off := 0x184, lo := 0, w := 1, acc := .ro }
def OWN_CMD_STATUS_DONE : Fld := { off := 0x184, lo := 1, w := 1, acc := .w1c }
def OWN_CMD_STATUS_FAILED : Fld := { off := 0x184, lo := 2, w := 1, acc := .w1c }
def OWN_CMD_STATUS_CAUSE : Fld := { off := 0x184, lo := 8, w := 4, acc := .ro }
def OWN_CFG_HANDOVER_MAX : Fld := { off := 0x188, lo := 0, w := 16, acc := .rw, rst := [1024] }
def OWN_CFG_DEFER_SITTINGS : Fld := { off := 0x188, lo := 16, w := 8, acc := .rw, rst := [2] }
def OWN_PWR_ANSWER_BLOCK : Fld := { off := 0x18C, lo := 0, w := 5, acc := .wo }
def OWN_PWR_ANSWER_CONSENT : Fld := { off := 0x18C, lo := 5, w := 1, acc := .wo }
def OWN_PWR_ANSWER_GO : Fld := { off := 0x18C, lo := 6, w := 1, acc := .wo }
def OWN_PWR_STAT_DEFERRED : Fld := { off := 0x190, lo := 0, w := 16, acc := .ro }
def OWN_PWR_STAT_REFUSED : Fld := { off := 0x190, lo := 16, w := 16, acc := .ro }
def OWN_PWR_PENDING_BLOCKS : Fld := { off := 0x194, lo := 0, w := 18, acc := .ro }
def OWN_PWR_PENDING_REST : Fld := { off := 0x194, lo := 31, w := 1, acc := .ro }

/-! ### FLT: fields of ['16_fault_collection.md'] -/

def FLT_STATUS_LAST_SEQ : Fld := { off := 0x100, lo := 0, w := 16, acc := .ro }
def FLT_STATUS_ANY : Fld := { off := 0x100, lo := 16, w := 1, acc := .ro }
def FLT_STATUS_L2_PENDING : Fld := { off := 0x100, lo := 17, w := 1, acc := .ro }
def FLT_STATUS_FATAL_VALID : Fld := { off := 0x100, lo := 18, w := 1, acc := .ro }
def FLT_ACK_CLASS : Fld := { off := 0x104, lo := 0, w := 8, acc := .wo }
def FLT_ACK_SEQ : Fld := { off := 0x104, lo := 8, w := 16, acc := .wo }
def FLT_ACK_ALL : Fld := { off := 0x104, lo := 24, w := 1, acc := .wo }
def FLT_ROUTE_IBI_LEVELS : Fld := { off := 0x108, lo := 0, w := 4, acc := .rw, rst := [12] }
def FLT_ROUTE_PIN_LEVELS : Fld := { off := 0x108, lo := 4, w := 4, acc := .rw, rst := [8] }
def FLT_IBI_BLOCKS_BLOCK_MASK : Fld := { off := 0x10C, lo := 0, w := 32, acc := .rw }
def FLT_PENDING_PENDING : Fld := { off := 0x110, lo := 0, w := 32, acc := .ro, bst := 32, cnt := 8 }
def FLT_CLASS_SEL_CLASS : Fld := { off := 0x130, lo := 0, w := 8, acc := .rw }
def FLT_CLASS_COUNT_RECORDS : Fld := { off := 0x134, lo := 0, w := 16, acc := .ro }
def FLT_CLASS_COUNT_ESCALATED : Fld := { off := 0x134, lo := 16, w := 16, acc := .ro }
def FLT_SITTING_FAULTS : Fld := { off := 0x138, lo := 0, w := 8, acc := .ro }
def FLT_SITTING_MAX_LEVEL : Fld := { off := 0x138, lo := 8, w := 2, acc := .ro }
def FLT_WIRE_BROKEN : Fld := { off := 0x13C, lo := 0, w := 8, acc := .ro }
def FLT_WIRE_LAST_BLOCK : Fld := { off := 0x13C, lo := 8, w := 8, acc := .ro }
def FLT_WIRE_LAST_INSTANCE : Fld := { off := 0x13C, lo := 16, w := 8, acc := .ro }
def FLT_WIRE_LAST_LOCATION : Fld := { off := 0x13C, lo := 24, w := 2, acc := .ro }
def FLT_LAST_FATAL_DATA : Fld := { off := 0x180, lo := 0, w := 32, acc := .ro, bst := 32, cnt := 8 }
def FLT_HQ_DATA : Fld := { off := 0x1000, lo := 0, w := 32, acc := .ro, bst := 32, cnt := 256 }

/-! ### SEAM: fields of ['16_fault_collection.md'] -/

def SEAM_STATUS_UP : Fld := { off := 0x100, lo := 0, w := 1, acc := .ro }
def SEAM_STATUS_SPARES_USED : Fld := { off := 0x100, lo := 18, w := 2, acc := .ro }
def SEAM_MAP_FAILED : Fld := { off := 0x104, lo := 0, w := 18, acc := .ro }
def SEAM_ACTIVE_ACTIVE : Fld := { off := 0x108, lo := 0, w := 18, acc := .ro, rst := [65535] }
def SEAM_BUCKET_CFG_LEAK : Fld := { off := 0x10C, lo := 0, w := 8, acc := .rwl, rst := [1] }
def SEAM_BUCKET_CFG_THRESH : Fld := { off := 0x10C, lo := 8, w := 8, acc := .rwl, rst := [64] }
def SEAM_BUCKET_CFG_W_CRC : Fld := { off := 0x10C, lo := 16, w := 4, acc := .rwl, rst := [1] }
def SEAM_BUCKET_CFG_W_TIMEOUT : Fld := { off := 0x10C, lo := 20, w := 4, acc := .rwl, rst := [4] }
def SEAM_BUCKET_CFG_W_LOCK : Fld := { off := 0x10C, lo := 24, w := 4, acc := .rwl, rst := [15] }
def SEAM_REPLAY_COUNT : Fld := { off := 0x110, lo := 0, w := 32, acc := .ro }
def SEAM_CRC_ERR_COUNT : Fld := { off := 0x114, lo := 0, w := 32, acc := .ro }
def SEAM_BUCKET_LEVEL : Fld := { off := 0x200, lo := 0, w := 16, acc := .ro, bst := 32, cnt := 18 }
def SEAM_BUCKET_PERMANENT : Fld := { off := 0x200, lo := 16, w := 1, acc := .ro, bst := 32, cnt := 18 }

/-! ### PSUP: fields of ['17_power_entry.md'] -/

def PSUP_STATUS_STATE : Fld := { off := 0x100, lo := 0, w := 4, acc := .ro, rst := [5] }
def PSUP_STATUS_SWITCH_ON : Fld := { off := 0x100, lo := 4, w := 1, acc := .ro, rst := [1] }
def PSUP_STATUS_PG : Fld := { off := 0x100, lo := 5, w := 1, acc := .ro, rst := [1] }
def PSUP_STATUS_TIMER_RUN : Fld := { off := 0x100, lo := 6, w := 1, acc := .ro }
def PSUP_STATUS_EN : Fld := { off := 0x100, lo := 7, w := 1, acc := .ro, rst := [1] }
def PSUP_STATUS_FAULT_COUNT : Fld := { off := 0x100, lo := 8, w := 3, acc := .ro }
def PSUP_LAST_TRIP_CAUSE : Fld := { off := 0x104, lo := 0, w := 8, acc := .ro }
def PSUP_LAST_TRIP_COUNT : Fld := { off := 0x104, lo := 8, w := 3, acc := .ro }
def PSUP_LAST_TRIP_VALID : Fld := { off := 0x104, lo := 11, w := 1, acc := .ro }
def PSUP_LAST_TRIP_VIN : Fld := { off := 0x104, lo := 16, w := 8, acc := .ro }
def PSUP_MEMORY_MEM_VALID : Fld := { off := 0x108, lo := 0, w := 1, acc := .ro }
def PSUP_MEMORY_WAS_LATCHED : Fld := { off := 0x108, lo := 1, w := 1, acc := .ro }
def PSUP_MEMORY_COUNT : Fld := { off := 0x108, lo := 2, w := 3, acc := .ro }
def PSUP_MEMORY_COOL_LEFT : Fld := { off := 0x108, lo := 5, w := 10, acc := .ro }
def PSUP_CTL_POWER_OFF : Fld := { off := 0x10C, lo := 0, w := 1, acc := .wo }
def PSUP_COUNTS_LIMIT_EVENTS : Fld := { off := 0x110, lo := 0, w := 16, acc := .ro }
def PSUP_COUNTS_TRIPS : Fld := { off := 0x110, lo := 16, w := 16, acc := .ro }
def PSUP_RAILS_GOOD : Fld := { off := 0x114, lo := 0, w := 8, acc := .ro, rst := [255] }
def PSUP_RAILS_FAILED : Fld := { off := 0x114, lo := 8, w := 8, acc := .ro }

/-! ### RSTC: fields of ['18_reset_boot_clocking.md'] -/

def RSTC_CMD_OP : Fld := { off := 0x100, lo := 0, w := 2, acc := .wo }
def RSTC_CAUSE_LAST : Fld := { off := 0x104, lo := 0, w := 8, acc := .ro, rst := [1] }
def RSTC_CAUSE_PREVIOUS : Fld := { off := 0x104, lo := 8, w := 8, acc := .ro }
def RSTC_STRAPS_BOOT_SRC : Fld := { off := 0x108, lo := 0, w := 2, acc := .ro }
def RSTC_STRAPS_CLK_MODE : Fld := { off := 0x108, lo := 2, w := 2, acc := .ro }
def RSTC_STRAPS_ROLE : Fld := { off := 0x108, lo := 4, w := 2, acc := .ro }
def RSTC_CTL_WARM_FLUSH_MAX : Fld := { off := 0x10C, lo := 0, w := 16, acc := .rwl, rst := [2048] }
def RSTC_STATUS_FLUSH_CUT : Fld := { off := 0x110, lo := 0, w := 1, acc := .ro }
def RSTC_STATUS_VERIFY_CUT : Fld := { off := 0x110, lo := 1, w := 1, acc := .ro }
def RSTC_STATUS_S1_HELD : Fld := { off := 0x110, lo := 2, w := 1, acc := .ro }
def RSTC_COUNTS_WARM : Fld := { off := 0x114, lo := 0, w := 16, acc := .ro }
def RSTC_COUNTS_COLD : Fld := { off := 0x114, lo := 16, w := 16, acc := .ro }
def RSTC_SLAB_RESETS : Fld := { off := 0x118, lo := 0, w := 8, acc := .ro }
def RSTC_SLAB_SLAB : Fld := { off := 0x118, lo := 8, w := 1, acc := .ro }
def RSTC_SLAB_CAUSE : Fld := { off := 0x118, lo := 9, w := 2, acc := .ro }

/-! ### CLKC: fields of ['18_reset_boot_clocking.md'] -/

def CLKC_STATUS_MODE : Fld := { off := 0x100, lo := 0, w := 2, acc := .ro }
def CLKC_STATUS_REF_PRESENT : Fld := { off := 0x100, lo := 2, w := 1, acc := .ro }
def CLKC_STATUS_REF_LOST : Fld := { off := 0x100, lo := 3, w := 1, acc := .w1c }
def CLKC_STATUS_HOLDOVER : Fld := { off := 0x100, lo := 4, w := 1, acc := .ro }
def CLKC_STATUS_LOCKED : Fld := { off := 0x100, lo := 5, w := 1, acc := .ro }
def CLKC_LOST_S0_DOMAINS : Fld := { off := 0x104, lo := 0, w := 19, acc := .w1c }
def CLKC_LOST_S1_DOMAINS : Fld := { off := 0x108, lo := 0, w := 19, acc := .w1c }
def CLKC_LOST_M_SUPERVISOR : Fld := { off := 0x10C, lo := 0, w := 1, acc := .w1c }
def CLKC_LOST_M_TIMEBASE : Fld := { off := 0x10C, lo := 1, w := 1, acc := .w1c }
def CLKC_GATE_TARGET : Fld := { off := 0x110, lo := 0, w := 4, acc := .wo }
def CLKC_GATE_GATE : Fld := { off := 0x110, lo := 4, w := 1, acc := .wo }
def CLKC_GATE_GO : Fld := { off := 0x110, lo := 5, w := 1, acc := .wo }
def CLKC_GATE_STATUS_GATED : Fld := { off := 0x114, lo := 0, w := 10, acc := .ro }
def CLKC_GATE_STATUS_BUSY : Fld := { off := 0x114, lo := 16, w := 1, acc := .ro }
def CLKC_GATE_STATUS_DONE : Fld := { off := 0x114, lo := 17, w := 1, acc := .w1c }
def CLKC_GATE_STATUS_REFUSED : Fld := { off := 0x114, lo := 18, w := 1, acc := .w1c }
def CLKC_GATE_STATUS_CAUSE : Fld := { off := 0x114, lo := 19, w := 3, acc := .ro }

/-! ### MGMT: fields of ['18_reset_boot_clocking.md'] -/

def MGMT_BOOT_STATUS_STAGE : Fld := { off := 0x100, lo := 0, w := 4, acc := .ro }
def MGMT_BOOT_STATUS_SLOT : Fld := { off := 0x100, lo := 4, w := 1, acc := .ro }
def MGMT_BOOT_STATUS_FALLBACK : Fld := { off := 0x100, lo := 5, w := 1, acc := .ro }
def MGMT_BOOT_STATUS_CONFIG_DEFAULT : Fld := { off := 0x100, lo := 6, w := 1, acc := .ro }
def MGMT_BOOT_STATUS_SRC : Fld := { off := 0x100, lo := 7, w := 2, acc := .ro }
def MGMT_CTL_HOST_READY : Fld := { off := 0x104, lo := 0, w := 1, acc := .wo }
def MGMT_BOOT_FAIL_CAUSE : Fld := { off := 0x108, lo := 0, w := 8, acc := .ro }
def MGMT_BOOT_FAIL_PART : Fld := { off := 0x108, lo := 8, w := 3, acc := .ro }
def MGMT_BOOT_FAIL_SLOT : Fld := { off := 0x108, lo := 11, w := 1, acc := .ro }
def MGMT_BOOT_CTL_END : Fld := { off := 0x10C, lo := 0, w := 1, acc := .wo }
def MGMT_BOOT_ADDR_ADDR : Fld := { off := 0x110, lo := 0, w := 23, acc := .rw }
def MGMT_BOOT_DATA_DATA : Fld := { off := 0x200, lo := 0, w := 32, acc := .wo, bst := 32, cnt := 16 }

end F

/-- The blocks of the page maps (R74, R75). -/
inductive Block
  | slab | seam | mgmt | secp | home | pmap | hcac | cryp | keys | codc | ofld | dprt | ring | qgth | port | vein | qeng | chan
  | mod | tmb | psup | rstc | clkc | flt | ledg | rest | regu | lode | tier | dipt | own
deriving DecidableEq, Repr

namespace Block

/-- Every block, in the order of the page maps. -/
def all : List Block := [.slab, .seam, .mgmt, .secp, .home, .pmap, .hcac, .cryp, .keys, .codc, .ofld, .dprt, .ring, .qgth, .port, .vein, .qeng, .chan, .mod, .tmb, .psup, .rstc, .clkc, .flt, .ledg, .rest, .regu, .lode, .tier, .dipt, .own]

/-- BLOCK_ID of R74 and R75. -/
def id : Block → Nat
  | .slab => 0x0E
  | .seam => 0x0F
  | .mgmt => 0x10
  | .secp => 0x11
  | .home => 0x12
  | .pmap => 0x13
  | .hcac => 0x14
  | .cryp => 0x15
  | .keys => 0x16
  | .codc => 0x17
  | .ofld => 0x18
  | .dprt => 0x19
  | .ring => 0x1A
  | .qgth => 0x1B
  | .port => 0x1C
  | .vein => 0x1D
  | .qeng => 0x1E
  | .chan => 0x1F
  | .mod => 0x01
  | .tmb => 0x02
  | .psup => 0x03
  | .rstc => 0x04
  | .clkc => 0x05
  | .flt => 0x06
  | .ledg => 0x07
  | .rest => 0x08
  | .regu => 0x09
  | .lode => 0x0A
  | .tier => 0x0B
  | .dipt => 0x0C
  | .own => 0x0D

/-- Pages of one instance (R74, R75). -/
def pages : Block → Nat
  | .home => 2
  | .flt => 2
  | .ledg => 2
  | .regu => 4
  | _ => 1

/-- Offset of instance 0, relative to the Slab base for a Slab block (R74, R75). -/
def off : Block → Nat
  | .slab => 0x0
  | .seam => 0x1000
  | .mgmt => 0x2000
  | .secp => 0x3000
  | .home => 0x4000
  | .pmap => 0x6000
  | .hcac => 0x7000
  | .cryp => 0x8000
  | .keys => 0x9000
  | .codc => 0xA000
  | .ofld => 0xB000
  | .dprt => 0xC000
  | .ring => 0xD000
  | .qgth => 0xE000
  | .port => 0x10000
  | .vein => 0x20000
  | .qeng => 0x30000
  | .chan => 0x40000
  | .mod => 0x800000
  | .tmb => 0x801000
  | .psup => 0x802000
  | .rstc => 0x803000
  | .clkc => 0x804000
  | .flt => 0x805000
  | .ledg => 0x807000
  | .rest => 0x809000
  | .regu => 0x80A000
  | .lode => 0x80E000
  | .tier => 0x80F000
  | .dipt => 0x810000
  | .own => 0x818000

/-- Instances per Slab, or in the module for a module page (R74, R75). -/
def insts : Block → Nat
  | .port => 4
  | .vein => 8
  | .qeng => 8
  | .chan => 64
  | .dipt => 8
  | _ => 1

/-- Is the block in the Slab regions (R74) rather than the module region (R75)? -/
def perSlab : Block → Bool
  | .mod => false
  | .tmb => false
  | .psup => false
  | .rstc => false
  | .clkc => false
  | .flt => false
  | .ledg => false
  | .rest => false
  | .regu => false
  | .lode => false
  | .tier => false
  | .dipt => false
  | .own => false
  | _ => true

end Block

/-- The fields of the common header (R60). -/
def hdrFields : List Fld :=
    [F.HDR_IDENT_BLOCK_ID, F.HDR_IDENT_INSTANCE, F.HDR_IDENT_REVISION, F.HDR_IDENT_LOCATION, F.HDR_VERSION_MINOR, F.HDR_VERSION_MAJOR, F.HDR_CAP_RESET_OK, F.HDR_CAP_ASSIGNABLE, F.HDR_CAP_ALWAYS_SECURE, F.HDR_CAP_HAS_COMMIT, F.HDR_CAP_RING_WRITABLE, F.HDR_CAP_PAGES] ++
    [F.HDR_CAP_BLOCK_CAP, F.HDR_CTL_ENABLE, F.HDR_CTL_COMMIT, F.HDR_CTL_UNLOCK, F.HDR_CTL_BLOCK_RESET, F.HDR_STATUS_IDLE, F.HDR_STATUS_ENABLED, F.HDR_STATUS_OPEN, F.HDR_STATUS_COMMIT_PENDING, F.HDR_STATUS_STICKY_LOCKED, F.HDR_STATUS_COMMIT_REJECTED, F.HDR_STATUS_RESET_REFUSED] ++
    [F.HDR_STATUS_WRITE_IGNORED, F.HDR_STATUS_CTL_CONFLICT, F.HDR_STATUS_LOST_ARB, F.HDR_STATUS_ERROR, F.HDR_INT_STATUS_INT_ERROR, F.HDR_INT_STATUS_INT_COMMIT_DONE, F.HDR_INT_STATUS_INT_RESET_DONE, F.HDR_INT_STATUS_INT_LOST_ARB, F.HDR_INT_STATUS_INT_BLOCK, F.HDR_INT_ENABLE_INT_EN, F.HDR_INT_FORCE_INT_SET, F.HDR_ERR_PTR_HQ_INDEX] ++
    [F.HDR_ERR_PTR_VALID, F.HDR_ERR_PTR_HQ_SEQ, F.HDR_OWNER_WORLD, F.HDR_OWNER_OWNER_FIXED, F.HDR_LOCK_STICKY, F.HDR_LOCK_LOCK_AGENT, F.HDR_COMMIT_SEQ_SEQ, F.HDR_COMMIT_RESULT_CODE, F.HDR_COMMIT_RESULT_DETAIL]

/-- The fields of the SLAB page or block above its header. -/
def fldsSlab : List Fld :=
    [F.SLAB_STATUS_PEER_PRESENT, F.SLAB_STATUS_SEAM_UP, F.SLAB_STATUS_MGMT_PRIMARY, F.SLAB_STATUS_SECP_PRIMARY, F.SLAB_STATUS_SERVES_MODULE, F.SLAB_HEARTBEAT_MISSED, F.SLAB_HEARTBEAT_LAST_MISS, F.SLAB_DIE_DIE_ID, F.SLAB_TEMP_TEMP]

/-- The fields of the TMB page or block above its header. -/
def fldsTmb : List Fld :=
    [F.TMB_STROKE_LO_STROKE_LO, F.TMB_STROKE_HI_STROKE_HI, F.TMB_PHASE_PHASE, F.TMB_STATUS_SOURCE, F.TMB_STATUS_IN_SPEC, F.TMB_STATUS_SLEWING, F.TMB_STATUS_HOT_REFRESH, F.TMB_STATUS_ADOPTED, F.TMB_STATUS_OUT_OF_SPEC, F.TMB_LOCAL_ELAPSED_ELAPSED]

/-- The fields of the MOD page or block above its header. -/
def fldsMod : List Fld :=
    [F.MOD_READY_READY, F.MOD_READY_FILL_DONE, F.MOD_HOST_GRANT_GRANT, F.MOD_AUX_GRANT_I3C_GRANT, F.MOD_DENIED_STAT_COUNT, F.MOD_DENIED_STAT_LAST_AGENT, F.MOD_DENIED_STAT_CLEAR, F.MOD_DENIED_ADDR_OFFSET, F.MOD_DENIED_ADDR_WRITE, F.MOD_DENIED_ADDR_CAUSE, F.MOD_INT_SUM_S0_PENDING, F.MOD_INT_SUM_S1_PENDING] ++
    [F.MOD_INT_SUM_M_PENDING]

/-- The fields of the PORT page or block above its header. -/
def fldsPort : List Fld :=
    [F.PORT_ALIAS_KEY_CTX, F.PORT_ALIAS_VALID, F.PORT_DEC_ALIAS_WIDTH, F.PORT_DEC_ALIAS_ALIAS_BASE, F.PORT_CFG_SPLIT, F.PORT_CFG_MAX_SPEED, F.PORT_CFG_IDE_REQUIRED, F.PORT_CFG_DEVLOAD_EN, F.PORT_LINK_UP, F.PORT_LINK_WIDTH, F.PORT_LINK_SPEED, F.PORT_LINK_FLIT256] ++
    [F.PORT_LINK_MEM_EN, F.PORT_LINK_DEGRADED, F.PORT_LINK_TRAIN_NARROW, F.PORT_LINK_IDE_SECURE, F.PORT_LINK_VIRAL, F.PORT_LINK_READY, F.PORT_INGRESS_DEPTH, F.PORT_INGRESS_LEVEL, F.PORT_INGRESS_SIZE, F.PORT_PAGE_IRQ_BLOCK_MASK, F.PORT_IRQ_REARM_REARM_0, F.PORT_IRQ_REARM_REARM_1] ++
    [F.PORT_VIRAL_CAUSE, F.PORT_VIRAL_HQ_SEQ, F.PORT_DC_CTL_OFFER_TIMEOUT, F.PORT_POISON_SENT_COUNT, F.PORT_NOT_READY_COUNT, F.PORT_IDE_FAIL_COUNT, F.PORT_RETRAIN_COUNT]

/-- The fields of the TIER page or block above its header. -/
def fldsTier : List Fld :=
    [F.TIER_HOT_HOT_SHARE, F.TIER_CAP_LOGICAL_CAP, F.TIER_CAP_STATIC_CAP, F.TIER_HEAT_PROMOTE_THRESH, F.TIER_HEAT_DEMOTE_THRESH, F.TIER_HEAT_DECAY_SHIFT, F.TIER_HEAT_PROMOTE_ON_READ, F.TIER_FREE_FREE_LOW, F.TIER_FREE_FREE_HIGH, F.TIER_SPILL_DONATE, F.TIER_SPILL_SPILL_ENABLE, F.TIER_SPILL_TGT_DONOR] ++
    [F.TIER_SPILL_TGT_HOPS, F.TIER_SPILL_TGT_VALID, F.TIER_SPILL_ALLOW_ALLOW, F.TIER_HOT_FREE_FREE_FRAMES, F.TIER_DEEP_FREE_FREE_ROWS, F.TIER_RATIO_RATIO, F.TIER_EFFECTIVE_EFFECTIVE, F.TIER_COUNT_HOT_PAGES, F.TIER_COUNT_DEEP_PAGES, F.TIER_COUNT_PLAIN_PAGES, F.TIER_COUNT_SPILLED_PAGES, F.TIER_COUNT_LENT_PAGES] ++
    [F.TIER_STATUS_REBALANCING, F.TIER_STATUS_OVERCOMMIT, F.TIER_STATUS_EXHAUSTED]

/-- The fields of the PMAP page or block above its header. -/
def fldsPmap : List Fld :=
    [F.PMAP_PAGE_PAGE, F.PMAP_CMD_OP, F.PMAP_CMD_STATUS_BUSY, F.PMAP_CMD_STATUS_DONE, F.PMAP_CMD_STATUS_NOT_HOME, F.PMAP_CMD_STATUS_OUT_OF_RANGE, F.PMAP_CMD_STATUS_PIN_FULL, F.PMAP_ENTRY_LO_ENTRY_LO, F.PMAP_ENTRY_HI_ENTRY_HI, F.PMAP_CACHE_HIT_HITS, F.PMAP_CACHE_MISS_MISSES]

/-- The fields of the VEIN page or block above its header. -/
def fldsVein : List Fld :=
    [F.VEIN_SCHED_CTL_HINT_HOLD, F.VEIN_SCHED_CTL_WQ_HIGH, F.VEIN_SCHED_CTL_WQ_LOW, F.VEIN_PANIC_CTL_PANIC_MASK, F.VEIN_PANIC_CTL_PANIC_ON, F.VEIN_PANIC_CTL_PANIC_OFF, F.VEIN_FB_CTL_FB_MODERATE, F.VEIN_FB_CTL_FB_HEAVY, F.VEIN_STATUS_PLAN, F.VEIN_STATUS_SOLO, F.VEIN_STATUS_PANIC, F.VEIN_STATUS_CONGESTION] ++
    [F.VEIN_STATUS_SPEED, F.VEIN_STATUS_CHAN_RETIRED, F.VEIN_STATUS_CHAN_HOT, F.VEIN_DELIVERABLE_SLOTS, F.VEIN_DELIVERABLE_SLOTS_HOT, F.VEIN_QUEUE_ADMITTED_DEPTH, F.VEIN_QUEUE_WRITE_DEPTH, F.VEIN_QUEUE_OTHER_DEPTH, F.VEIN_PREC_STATUS_QE_LOST_PANIC, F.VEIN_PREC_STATUS_BG_LOST_PANIC, F.VEIN_PREC_STATUS_QE_LOST_DRAIN, F.VEIN_PREC_STATUS_RESERVE_EXHAUSTED] ++
    [F.VEIN_PREC_STATUS_ENGINE_MASK, F.VEIN_CHAN_INT_SUM_PENDING, F.VEIN_STEER_COUNT_COUNT, F.VEIN_REBUILD_COUNT_COUNT, F.VEIN_FORCED_REF_COUNT]

/-- The fields of the CHAN page or block above its header. -/
def fldsChan : List Fld :=
    [F.CHAN_CFG_BYTE_MODE, F.CHAN_CFG_TWO_RANKS, F.CHAN_CFG_DENSITY, F.CHAN_CFG_MR5_VENDOR, F.CHAN_STATUS_TRAINED, F.CHAN_STATUS_TRAIN_FAILED, F.CHAN_STATUS_RETIRED, F.CHAN_STATUS_MR4_CODE, F.CHAN_STATUS_DEBT, F.CHAN_TRAIN_CTL_EYE_MIN, F.CHAN_TRAIN_CTL_PERIODIC_EN, F.CHAN_REYE_LEFT] ++
    [F.CHAN_REYE_RIGHT, F.CHAN_REYE_CENTRE, F.CHAN_REYE_VREF_SEL, F.CHAN_WEYE_LEFT, F.CHAN_WEYE_RIGHT, F.CHAN_WEYE_CENTRE, F.CHAN_WEYE_WL_TAP, F.CHAN_CA_CA_CENTRE, F.CHAN_CA_VREF_CA]

/-- The fields of the CODC page or block above its header. -/
def fldsCodc : List Fld :=
    [F.CODC_CTL_EFFORT_MAX, F.CODC_CTL_RECOMP_EFFORT, F.CODC_CTL_RECOMP_EN, F.CODC_EFFORT_GRANTED, F.CODC_LANE_BUSY_BUSY, F.CODC_LANE_BUSY_OFFLOAD, F.CODC_LANE_STATUS_OFLD_LOST, F.CODC_PAGES_CODED_COUNT, F.CODC_PAGES_RAW_COUNT, F.CODC_VERIFY_FAIL_COUNT, F.CODC_DECODE_ERR_COUNT, F.CODC_ERR_PAGE_PAGE] ++
    [F.CODC_ERR_PAGE_CAUSE, F.CODC_RECOMP_COUNT_COUNT]

/-- The fields of the OFLD page or block above its header. -/
def fldsOfld : List Fld :=
    [F.OFLD_CTX_BASE_PAGE, F.OFLD_CTX_KEY_KEY_CTX, F.OFLD_CTX_KEY_CTX_VALID, F.OFLD_STATUS_ACTIVE_CTX, F.OFLD_STATUS_JOBS_RUNNING, F.OFLD_JOB_COUNT_COUNT, F.OFLD_CTX_SAVES_COUNT, F.OFLD_QUEUE_EN_ENABLE, F.OFLD_QUEUE_EN_ABORT, F.OFLD_SQ_BASE_PAGE, F.OFLD_SQ_CTL_LOG2_SIZE, F.OFLD_SQ_CTL_KEY_CTX] ++
    [F.OFLD_SQ_CTL_ATTACH, F.OFLD_SQ_TAIL_TAIL, F.OFLD_SQ_HEAD_HEAD, F.OFLD_CQ_BASE_PAGE, F.OFLD_CQ_HEAD_HEAD, F.OFLD_CQ_TAIL_TAIL, F.OFLD_Q_STATUS_FULL_STALL, F.OFLD_Q_STATUS_DOORBELL_BAD, F.OFLD_Q_STATUS_FETCH_ERROR]

/-- The fields of the DPRT page or block above its header. -/
def fldsDprt : List Fld :=
    [F.DPRT_SCRUB_CTL_SCRUB_EN, F.DPRT_SCRUB_CTL_RATE, F.DPRT_SCRUB_CTL_FAST_RETURN, F.DPRT_SCRUB_STATUS_PASSES, F.DPRT_SCRUB_STATUS_BEHIND, F.DPRT_SCRUB_SHORT_SHORTFALL, F.DPRT_BUCKET_CFG_LEAK, F.DPRT_BUCKET_CFG_THRESH, F.DPRT_BUCKET_CFG_W_CE1, F.DPRT_BUCKET_CFG_W_CE4, F.DPRT_BUCKET_CFG_W_UE_T, F.DPRT_BUCKET_CFG_W_UE_P] ++
    [F.DPRT_FLIP_CTL_ARM, F.DPRT_FLIP_CTL_FIRED, F.DPRT_FLIP_CTL_STAGE, F.DPRT_FLIP_CTL_SEL, F.DPRT_FLIP_CTL_COPY, F.DPRT_FLIP_CTL_OFLD, F.DPRT_FLIP_CTL_LINE, F.DPRT_FLIP_PAGE_PAGE, F.DPRT_FLIP_MASK_LO_MASK_LO, F.DPRT_FLIP_MASK_HI_MASK_HI, F.DPRT_FLIP_STAMP_STAMP, F.DPRT_CE_COUNT_COUNT] ++
    [F.DPRT_UE_COUNT_COUNT, F.DPRT_REBUILD_COUNT_COUNT, F.DPRT_POISON_COUNT_COUNT, F.DPRT_PARITY_FIX_COUNT, F.DPRT_PEER_PEER_ABSENT, F.DPRT_PEER_SR_SAFE, F.DPRT_PEER_ACTING_HOME, F.DPRT_PEER_LOSSES, F.DPRT_BUCKET_LEVEL, F.DPRT_BUCKET_PERMANENT]

/-- The fields of the DIPT page or block above its header. -/
def fldsDipt : List Fld :=
    [F.DIPT_STATUS_STATE, F.DIPT_STATUS_SIDE, F.DIPT_STATUS_RET_OFS_LO, F.DIPT_STATUS_RET_LO, F.DIPT_STATUS_RET_OFS_HI, F.DIPT_STATUS_RET_HI, F.DIPT_STATUS_VEIN_RET_LO, F.DIPT_STATUS_VEIN_RET_HI, F.DIPT_STATUS_FULL_RESYNC, F.DIPT_FRAMES_FRAMES, F.DIPT_RESYNC_LEFT_FRAMES, F.DIPT_RELOC_LEFT_ITEMS] ++
    [F.DIPT_CTL_STREAM_SPLIT, F.DIPT_RETIRE_OFS, F.DIPT_RETIRE_SIDE, F.DIPT_RETIRE_GO, F.DIPT_RETIRE_REFUSED, F.DIPT_READS_LO_COUNT, F.DIPT_READS_HI_COUNT]

/-- The fields of the CRYP page or block above its header. -/
def fldsCryp : List Fld :=
    [F.CRYP_CTL_EARLY_EN, F.CRYP_STATUS_DEBUG_BLOCK, F.CRYP_STATUS_REBUILDING, F.CRYP_STATUS_OWNED, F.CRYP_MAC_FAIL_COUNT, F.CRYP_LATE_ALARM_COUNT, F.CRYP_REMAC_COUNT, F.CRYP_TREE_LOSS_COUNT, F.CRYP_CTR_HIT_COUNT, F.CRYP_CTR_MISS_COUNT, F.CRYP_ALARM_STAT_LAST_SEQ, F.CRYP_ALARM_STAT_ANY] ++
    [F.CRYP_ALARM_SEL_ENTRY, F.CRYP_ALARM_DATA_DATA]

/-- The fields of the KEYS page or block above its header. -/
def fldsKeys : List Fld :=
    [F.KEYS_SEL_CTX, F.KEYS_CMD_OP, F.KEYS_STATUS_BUSY, F.KEYS_STATUS_DONE, F.KEYS_STATUS_ERR, F.KEYS_ATTR_VALID, F.KEYS_ATTR_RELEASE, F.KEYS_ATTR_PROTECTED, F.KEYS_ATTR_ATTACH_MASK, F.KEYS_MATERIAL_DATA, F.KEYS_RETAIN_RETAIN, F.KEYS_PRIMER_DRAWS] ++
    [F.KEYS_COUNT_VALID_CTX]

/-- The fields of the HOME page or block above its header. -/
def fldsHome : List Fld :=
    [F.HOME_CTL_SPEC_EN, F.HOME_CTL_ATOMIC_MODE, F.HOME_CTL_PRED_THRESH, F.HOME_CTL_NEAR_MIN, F.HOME_STATUS_ACTING, F.HOME_STATUS_HANDBACK, F.HOME_STATUS_SWEEPING, F.HOME_STATUS_DEPARTED, F.HOME_DIR_VALID_ENTRIES, F.HOME_VICTIM_OCCUPANCY, F.HOME_TRACKER_OCCUPANCY, F.HOME_TRACKER_RESERVED_USED] ++
    [F.HOME_DIR_EVICT_COUNT, F.HOME_VICTIM_FULL_COUNT, F.HOME_BISNP_SENT_COUNT, F.HOME_BI_CONFLICT_COUNT, F.HOME_SPEC_DISCARD_COUNT, F.HOME_WSTAMP_SQUASH_COUNT, F.HOME_FAR_OPS_COUNT, F.HOME_FAR_MERGED_COUNT, F.HOME_NEAR_GRANTS_COUNT, F.HOME_UNKNOWN_REGIONS_REGIONS, F.HOME_DEPARTED_DROPS_COUNT, F.HOME_DIRQ_PAGE_PAGE] ++
    [F.HOME_DIRQ_CTL_LINE, F.HOME_DIRQ_CTL_GO, F.HOME_DIRQ_STATUS_BUSY, F.HOME_DIRQ_STATUS_DONE, F.HOME_DIRQ_STATUS_HIT, F.HOME_DIRQ_STATUS_NOT_HOME, F.HOME_DIRQ_STATUS_UNKNOWN, F.HOME_DIRQ_ENTRY_LO_ENTRY_LO, F.HOME_DIRQ_ENTRY_HI_ENTRY_HI, F.HOME_CENSUS_SEL_REGION, F.HOME_CENSUS_COUNT, F.HOME_CENSUS_UNKNOWN] ++
    [F.HOME_CENSUS_MIRROR]

/-- The fields of the HCAC page or block above its header. -/
def fldsHcac : List Fld :=
    [F.HCAC_CTL_FILL_EN, F.HCAC_CTL_PREFETCH_EN, F.HCAC_CTL_RUNAHEAD_EN, F.HCAC_CTL_QE_ALLOC, F.HCAC_CTL_RUNAHEAD_MAX, F.HCAC_PART_SECURE_WAYS, F.HCAC_PART_REPART_BUSY, F.HCAC_STATUS_RUNAHEAD_USED, F.HCAC_STATUS_SWEEPING, F.HCAC_STATUS_VLB_FULL, F.HCAC_CMD_PAGE_PAGE, F.HCAC_CMD_OP] ++
    [F.HCAC_CMD_SET, F.HCAC_CMD_WAY, F.HCAC_CMD_STATUS_BUSY, F.HCAC_CMD_STATUS_DONE, F.HCAC_CMD_STATUS_NOT_HOME, F.HCAC_CMD_STATUS_OUT_OF_RANGE, F.HCAC_CMD_STATUS_WORLD_DENIED, F.HCAC_HIT_COUNT, F.HCAC_MISS_COUNT, F.HCAC_PREFETCH_ISSUED_COUNT, F.HCAC_PREFETCH_USED_COUNT, F.HCAC_INSTALL_DROP_COUNT] ++
    [F.HCAC_RUNAHEAD_FILLS_COUNT, F.HCAC_RUNAHEAD_HITS_COUNT, F.HCAC_ZERO_LINES_COUNT, F.HCAC_INVAL_EVENTS_COUNT]

/-- The fields of the QENG page or block above its header. -/
def fldsQeng : List Fld :=
    [F.QENG_SQ_BASE_PAGE, F.QENG_SQ_CTL_LOG2_SIZE, F.QENG_SQ_CTL_KEY_CTX, F.QENG_SQ_CTL_ATTACH, F.QENG_SQ_CTL_CQ, F.QENG_SQ_CTL_CQ_SLAB, F.QENG_SQ_TAIL_TAIL, F.QENG_SQ_HEAD_HEAD, F.QENG_CTL_ENABLE, F.QENG_CTL_ABORT, F.QENG_CTL_CACHE_FLUSH, F.QENG_STATUS_RUNNING] ++
    [F.QENG_STATUS_FULL_STALL, F.QENG_STATUS_THROTTLED, F.QENG_STATUS_HELD, F.QENG_STATUS_CQ_ABSENT, F.QENG_STATUS_CQ_WORLD, F.QENG_STATUS_FLUSH_BUSY, F.QENG_STATUS_DOORBELL_BAD, F.QENG_STATUS_FETCH_ERROR, F.QENG_PREFETCH_DEPTH, F.QENG_JOBS_COUNT, F.QENG_ROWS_LO_ROWS_LO, F.QENG_ROWS_HI_ROWS_HI] ++
    [F.QENG_CACHE_HIT_COUNT, F.QENG_CACHE_MISS_COUNT, F.QENG_NEAR_UPD_COUNT, F.QENG_FAR_UPD_COUNT, F.QENG_LOST_SLOTS_COUNT]

/-- The fields of the QGTH page or block above its header. -/
def fldsQgth : List Fld :=
    [F.QGTH_CQ_BASE_PAGE, F.QGTH_CQ_CTL_LOG2_SIZE, F.QGTH_CQ_CTL_KEY_CTX, F.QGTH_CQ_CTL_ATTACH, F.QGTH_CQ_CTL_VALID, F.QGTH_CQ_CTL_SECURE, F.QGTH_CQ_HEAD_HEAD, F.QGTH_CQ_TAIL_TAIL, F.QGTH_CQ_STATUS_FULL, F.QGTH_CQ_STATUS_WAITING, F.QGTH_SLOTS_PENDING, F.QGTH_RECORDS_COUNT] ++
    [F.QGTH_PEAK_PEAK]

/-- The fields of the REGU page or block above its header. -/
def fldsRegu : List Fld :=
    [F.REGU_CTL_OVERRIDE, F.REGU_CTL_HOLD_EN, F.REGU_CTL_HOLD_MAX, F.REGU_ATTACH_LO_ATTACH, F.REGU_ATTACH_HI_ATTACH, F.REGU_RD_RD_LINES, F.REGU_WR_WR_LINES, F.REGU_EXTRA_EXTRA_SLOTS, F.REGU_CLASS_CFG_PRIV, F.REGU_CLASS_CFG_OT_CAP, F.REGU_CLASS_CFG_TARGET, F.REGU_USED_SLOTS] ++
    [F.REGU_NOTADM_COUNT, F.REGU_MISS_MISS, F.REGU_MISS_TARGET_MISS, F.REGU_LOAD_LOAD, F.REGU_LOAD_DEBT_SLOTS, F.REGU_STATUS_ACTIVE, F.REGU_STATUS_HOT_SHORT, F.REGU_STATUS_SCALED, F.REGU_STATUS_LIMIT, F.REGU_SCALE_COMMIT_SCALE, F.REGU_SCALE_RUN_SCALE, F.REGU_ENERGY_ENERGY_SLOTS] ++
    [F.REGU_HOT_SCALE_HOT_SCALE, F.REGU_SHORTFALL_SHORT, F.REGU_MISS_LATE_COUNT, F.REGU_MISS_STAT_LAST_SEQ, F.REGU_MISS_STAT_ANY, F.REGU_MISS_SEL_ENTRY, F.REGU_MISS_DATA_DATA, F.REGU_STRIPE_AVAIL, F.REGU_STRIPE_DEMAND, F.REGU_LABEL_LABEL, F.REGU_OUTSTANDING_HOME0, F.REGU_OUTSTANDING_HOME1]

/-- The fields of the RING page or block above its header. -/
def fldsRing : List Fld :=
    [F.RING_LINK_UP, F.RING_LINK_LOCKED, F.RING_LINK_WRAP, F.RING_LINK_CELL_OPEN, F.RING_LINK_PERM_DOWN, F.RING_LINK_NEIGH_POS, F.RING_LINK_NEIGH_VALID, F.RING_DELAY_DELAY, F.RING_DELAY_VALID, F.RING_BUCKET_LEVEL, F.RING_BUCKET_PERMANENT, F.RING_RETRY_COUNT] ++
    [F.RING_CRC_ERR_COUNT, F.RING_RETRAIN_COUNT, F.RING_DISCARD_COUNT, F.RING_BUCKET_CFG_LEAK, F.RING_BUCKET_CFG_THRESH, F.RING_BUCKET_CFG_W_CRC, F.RING_BUCKET_CFG_W_TIMEOUT, F.RING_BUCKET_CFG_W_LOCK, F.RING_CTL_REVIVE_0, F.RING_CTL_REVIVE_1, F.RING_BULK_STATUS_USED, F.RING_BULK_STATUS_SPILL_LOST] ++
    [F.RING_BULK_STATUS_RETURN_LOST]

/-- The fields of the LODE page or block above its header. -/
def fldsLode : List Fld :=
    [F.LODE_ID_ROLE, F.LODE_ID_STRAP_ROLE, F.LODE_ID_FABRIC_ADDR, F.LODE_ID_ADDR_VALID, F.LODE_ID_ROOTED, F.LODE_STATE_STATE_A, F.LODE_STATE_STATE_B, F.LODE_STATE_TIMING_PORT, F.LODE_STATE_TIMING_SIDE, F.LODE_STATE_HOLDOVER, F.LODE_STATE_HEAD_CONFLICT, F.LODE_CTL_JOIN_EN] ++
    [F.LODE_CTL_UP_JOIN_EN, F.LODE_CTL_SPLICE_PERIOD, F.LODE_CTL_ROLE_OVR, F.LODE_CTL_ROLE_OVR_EN, F.LODE_PROV_DELAY_DELAY, F.LODE_TIMING_ERROR, F.LODE_TIMING_DEPTH, F.LODE_RING_MEMBERS, F.LODE_RING_POSITION, F.LODE_RING_WRAPPED, F.LODE_RING_EPOCH, F.LODE_CMD_STAT_ACCEPTED] ++
    [F.LODE_CMD_STAT_REFUSED, F.LODE_CMD_LAST_CODE, F.LODE_CMD_LAST_STATUS, F.LODE_CMD_ISSUER_ISSUER, F.LODE_PLAN_DONATE_REQ, F.LODE_PLAN_VALID, F.LODE_PREV_POS_A, F.LODE_PREV_VALID_A, F.LODE_PREV_POS_B, F.LODE_PREV_VALID_B, F.LODE_REJOIN_GO, F.LODE_EVAC_EVAC] ++
    [F.LODE_EVAC_DONE, F.LODE_EVAC_INCOMPLETE, F.LODE_FABRIC_LO_ID_LO, F.LODE_FABRIC_HI_ID_HI]

/-- The fields of the LEDG page or block above its header. -/
def fldsLedg : List Fld :=
    [F.LEDG_CAP_CAP_W, F.LEDG_SYS_CAP_SYS_W, F.LEDG_MGR_LIMIT_LIMIT_W, F.LEDG_FLOOR_FG_FLOOR, F.LEDG_REQ_QE_REQ, F.LEDG_REQ_RECOMP_REQ, F.LEDG_REQ_SPILL_REQ, F.LEDG_REQ_MIGR_REQ, F.LEDG_NEW_REQ_REQ, F.LEDG_COST_COST, F.LEDG_BUDGET_B, F.LEDG_BUDGET_IN_IN] ++
    [F.LEDG_LIMIT_DERATE_W, F.LEDG_LIMIT_INLET_C, F.LEDG_LIMIT_SOURCE, F.LEDG_LIMIT_NO_ENTRY, F.LEDG_FIXED_FX, F.LEDG_FLOOR_FUNDED_FUNDED, F.LEDG_GRANT_QE_GRANT, F.LEDG_GRANT_RECOMP_GRANT, F.LEDG_GRANT_SPILL_GRANT, F.LEDG_GRANT_MIGR_GRANT, F.LEDG_GRANT_MISC_EFFORT, F.LEDG_GRANT_MISC_SCRUB_LINES_S0] ++
    [F.LEDG_GRANT_MISC_SCRUB_LINES_S1, F.LEDG_STATUS_DEFICIT, F.LEDG_STATUS_FLOOR_SHORT, F.LEDG_STATUS_BUDGET_HIT, F.LEDG_STATUS_CAL_HIGH, F.LEDG_STATUS_METER_LOST, F.LEDG_STATUS_MP_LOST, F.LEDG_STATUS_REQ_BUSY, F.LEDG_STATUS_REQ_DONE, F.LEDG_STATUS_PARTIAL, F.LEDG_DEFICIT_DEFICIT, F.LEDG_CLOSED_SITTING] ++
    [F.LEDG_USED_USED, F.LEDG_USED_INPUT_USED, F.LEDG_BG_USED, F.LEDG_SENSOR_READING, F.LEDG_SENSOR_REQ_CH, F.LEDG_SENSOR_REQ_GO, F.LEDG_SENSOR_RESULT_READING, F.LEDG_GRANT_OUT_GRANT]

/-- The fields of the REST page or block above its header. -/
def fldsRest : List Fld :=
    [F.REST_CTL_ENTER, F.REST_CFG_SKETCH_EN, F.REST_CFG_SKETCH_PERIOD, F.REST_CFG_METER_PERIOD, F.REST_CFG_DRAIN_MAX, F.REST_STATUS_STATE, F.REST_WAKE_AGENT, F.REST_WAKE_CHANNEL, F.REST_WAKE_WAKES, F.REST_WAKE_STAMP_STAMP, F.REST_ENTRIES_COUNT, F.REST_REFUSED_REFUSED] ++
    [F.REST_REFUSED_ABORTED, F.REST_AGENT_SEL_AGENT, F.REST_AGENT_COUNT_REFUSED_BY, F.REST_AGENT_COUNT_ABORTED_BY, F.REST_LOG_SEL_ENTRY, F.REST_LOG_DATA_DATA, F.REST_THR_LIMIT_A, F.REST_THR_LIMIT_B]

/-- The fields of the SECP page or block above its header. -/
def fldsSecp : List Fld :=
    [F.SECP_STATUS_ROLE, F.SECP_STATUS_BOOT_DONE, F.SECP_STATUS_DEBUG_OPEN, F.SECP_STATUS_MIRROR_OK, F.SECP_STATUS_TAKEOVERS, F.SECP_DEBUG_OPEN, F.SECP_WDOG_CTL_PERIOD, F.SECP_WDOG_CTL_ENABLE, F.SECP_WDOG_KICK_KICK, F.SECP_WDOG_STATUS_ELAPSED, F.SECP_MEAS_SEL_SLOT, F.SECP_MEAS_SEL_EXTEND] ++
    [F.SECP_MEAS_SEL_COUNT, F.SECP_MEAS_IN_DIGEST, F.SECP_MEAS_VAL_VALUE]

/-- The fields of the OWN page or block above its header. -/
def fldsOwn : List Fld :=
    [F.OWN_BLOCK_WORLD, F.OWN_BLOCK_PWR_PENDING, F.OWN_BLOCK_HANDOVERS, F.OWN_CMD_BLOCK, F.OWN_CMD_TO_SECURE, F.OWN_CMD_GO, F.OWN_CMD_STATUS_BUSY, F.OWN_CMD_STATUS_DONE, F.OWN_CMD_STATUS_FAILED, F.OWN_CMD_STATUS_CAUSE, F.OWN_CFG_HANDOVER_MAX, F.OWN_CFG_DEFER_SITTINGS] ++
    [F.OWN_PWR_ANSWER_BLOCK, F.OWN_PWR_ANSWER_CONSENT, F.OWN_PWR_ANSWER_GO, F.OWN_PWR_STAT_DEFERRED, F.OWN_PWR_STAT_REFUSED, F.OWN_PWR_PENDING_BLOCKS, F.OWN_PWR_PENDING_REST]

/-- The fields of the FLT page or block above its header. -/
def fldsFlt : List Fld :=
    [F.FLT_STATUS_LAST_SEQ, F.FLT_STATUS_ANY, F.FLT_STATUS_L2_PENDING, F.FLT_STATUS_FATAL_VALID, F.FLT_ACK_CLASS, F.FLT_ACK_SEQ, F.FLT_ACK_ALL, F.FLT_ROUTE_IBI_LEVELS, F.FLT_ROUTE_PIN_LEVELS, F.FLT_IBI_BLOCKS_BLOCK_MASK, F.FLT_PENDING_PENDING, F.FLT_CLASS_SEL_CLASS] ++
    [F.FLT_CLASS_COUNT_RECORDS, F.FLT_CLASS_COUNT_ESCALATED, F.FLT_SITTING_FAULTS, F.FLT_SITTING_MAX_LEVEL, F.FLT_WIRE_BROKEN, F.FLT_WIRE_LAST_BLOCK, F.FLT_WIRE_LAST_INSTANCE, F.FLT_WIRE_LAST_LOCATION, F.FLT_LAST_FATAL_DATA, F.FLT_HQ_DATA]

/-- The fields of the SEAM page or block above its header. -/
def fldsSeam : List Fld :=
    [F.SEAM_STATUS_UP, F.SEAM_STATUS_SPARES_USED, F.SEAM_MAP_FAILED, F.SEAM_ACTIVE_ACTIVE, F.SEAM_BUCKET_CFG_LEAK, F.SEAM_BUCKET_CFG_THRESH, F.SEAM_BUCKET_CFG_W_CRC, F.SEAM_BUCKET_CFG_W_TIMEOUT, F.SEAM_BUCKET_CFG_W_LOCK, F.SEAM_REPLAY_COUNT, F.SEAM_CRC_ERR_COUNT, F.SEAM_BUCKET_LEVEL] ++
    [F.SEAM_BUCKET_PERMANENT]

/-- The fields of the PSUP page or block above its header. -/
def fldsPsup : List Fld :=
    [F.PSUP_STATUS_STATE, F.PSUP_STATUS_SWITCH_ON, F.PSUP_STATUS_PG, F.PSUP_STATUS_TIMER_RUN, F.PSUP_STATUS_EN, F.PSUP_STATUS_FAULT_COUNT, F.PSUP_LAST_TRIP_CAUSE, F.PSUP_LAST_TRIP_COUNT, F.PSUP_LAST_TRIP_VALID, F.PSUP_LAST_TRIP_VIN, F.PSUP_MEMORY_MEM_VALID, F.PSUP_MEMORY_WAS_LATCHED] ++
    [F.PSUP_MEMORY_COUNT, F.PSUP_MEMORY_COOL_LEFT, F.PSUP_CTL_POWER_OFF, F.PSUP_COUNTS_LIMIT_EVENTS, F.PSUP_COUNTS_TRIPS, F.PSUP_RAILS_GOOD, F.PSUP_RAILS_FAILED]

/-- The fields of the RSTC page or block above its header. -/
def fldsRstc : List Fld :=
    [F.RSTC_CMD_OP, F.RSTC_CAUSE_LAST, F.RSTC_CAUSE_PREVIOUS, F.RSTC_STRAPS_BOOT_SRC, F.RSTC_STRAPS_CLK_MODE, F.RSTC_STRAPS_ROLE, F.RSTC_CTL_WARM_FLUSH_MAX, F.RSTC_STATUS_FLUSH_CUT, F.RSTC_STATUS_VERIFY_CUT, F.RSTC_STATUS_S1_HELD, F.RSTC_COUNTS_WARM, F.RSTC_COUNTS_COLD] ++
    [F.RSTC_SLAB_RESETS, F.RSTC_SLAB_SLAB, F.RSTC_SLAB_CAUSE]

/-- The fields of the CLKC page or block above its header. -/
def fldsClkc : List Fld :=
    [F.CLKC_STATUS_MODE, F.CLKC_STATUS_REF_PRESENT, F.CLKC_STATUS_REF_LOST, F.CLKC_STATUS_HOLDOVER, F.CLKC_STATUS_LOCKED, F.CLKC_LOST_S0_DOMAINS, F.CLKC_LOST_S1_DOMAINS, F.CLKC_LOST_M_SUPERVISOR, F.CLKC_LOST_M_TIMEBASE, F.CLKC_GATE_TARGET, F.CLKC_GATE_GATE, F.CLKC_GATE_GO] ++
    [F.CLKC_GATE_STATUS_GATED, F.CLKC_GATE_STATUS_BUSY, F.CLKC_GATE_STATUS_DONE, F.CLKC_GATE_STATUS_REFUSED, F.CLKC_GATE_STATUS_CAUSE]

/-- The fields of the MGMT page or block above its header. -/
def fldsMgmt : List Fld :=
    [F.MGMT_BOOT_STATUS_STAGE, F.MGMT_BOOT_STATUS_SLOT, F.MGMT_BOOT_STATUS_FALLBACK, F.MGMT_BOOT_STATUS_CONFIG_DEFAULT, F.MGMT_BOOT_STATUS_SRC, F.MGMT_CTL_HOST_READY, F.MGMT_BOOT_FAIL_CAUSE, F.MGMT_BOOT_FAIL_PART, F.MGMT_BOOT_FAIL_SLOT, F.MGMT_BOOT_CTL_END, F.MGMT_BOOT_ADDR_ADDR, F.MGMT_BOOT_DATA_DATA]

/-- The fields of a block above its header. -/
def blockFields : Block → List Fld
  | .slab => fldsSlab
  | .seam => fldsSeam
  | .mgmt => fldsMgmt
  | .secp => fldsSecp
  | .home => fldsHome
  | .pmap => fldsPmap
  | .hcac => fldsHcac
  | .cryp => fldsCryp
  | .keys => fldsKeys
  | .codc => fldsCodc
  | .ofld => fldsOfld
  | .dprt => fldsDprt
  | .ring => fldsRing
  | .qgth => fldsQgth
  | .port => fldsPort
  | .vein => fldsVein
  | .qeng => fldsQeng
  | .chan => fldsChan
  | .mod => fldsMod
  | .tmb => fldsTmb
  | .psup => fldsPsup
  | .rstc => fldsRstc
  | .clkc => fldsClkc
  | .flt => fldsFlt
  | .ledg => fldsLedg
  | .rest => fldsRest
  | .regu => fldsRegu
  | .lode => fldsLode
  | .tier => fldsTier
  | .dipt => fldsDipt
  | .own => fldsOwn

end Sys2Proof.Machine
end

