-- ==== Sys2Proof/Syntax.lean ====
section
/-! DEFINITION. The commands of the module, one constructor of Instr per row of the spec's table of operations and events.
Physical facts a command brings with it (a host's answer, an error pattern, a verdict of a receiver) are its operands. -/

namespace Sys2Proof

open Machine

/-- A frame of the ring (R440): the header fields and the payload slots as bytes. -/
structure Frame where
  ty : Nat
  vc : Nat := 0
  dst : Nat := 0
  bcast : Bool := false
  dir : Nat := 0
  wrapped : Bool := false
  src : Nat := 0
  hops : Nat := 0
  tag : Nat := 0
  arg : Nat := 0
  payload : List Byte := []
deriving DecidableEq, Repr


/-- A report as a source's error wire presents it (R535, R539). -/
structure Rep where
  cls : Nat
  /-- level the class gives, where the class leaves it to the rule (R536, R547) -/
  base : Nat := 0
  block : Nat := 0
  inst : Nat := 0
  loc : Nat := 0
  agent : Nat := 0
  poison : Nat := 0
  page : Nat := 0x1FFFFFFF
  line : Nat := 0
  lineValid : Bool := false
  unit : Nat := 0
  detail : Nat := 0
  checker : Bool := false
  alarmSeq : Nat := 0
  /-- phase of the first change of either rail -/
  phase : Nat := 0
deriving DecidableEq, Repr

/-- What the outside supplies to a job of an engine: host memory read, answers of snooped hosts, and failures. -/
structure JobEnv where
  /-- bytes of host memory the job reads, from address to bytes -/
  host : List (Nat × List (BitVec 8)) := []
  /-- a host access fails -/
  hostFail : Bool := false
  /-- modified data hosts return to the back-invalidate snoops of the job: page, line, data -/
  snoops : List (Nat × Nat × BitVec 512) := []
  /-- contents donors return for spilled pages the job reads; a page not listed has an absent donor -/
  spilled : List (Nat × List (BitVec 8)) := []
  /-- the encoder's self-check finds a mismatch (R168) -/
  selfFail : Bool := false
  /-- rows after which the job is stopped from outside -/
  rows : Option Nat := none
deriving DecidableEq, Repr

/-- Error patterns that lie over a line's codeword on its first read, on the re-read and on its second source; the second source may
be out of reach (R193, R197, R198). -/
structure LineErr where
  idx : Nat
  first : Codeword := 0
  again : Codeword := 0
  second : Codeword := 0
  secondBad : Bool := false
  /-- patterns over the other lines of its row when it is rebuilt: position, 7 for parity, first read, re-read (R197) -/
  row : List (Nat × Codeword × Codeword) := []
  /-- patterns over its MAC line: first read, re-read, second source (R244, R245) -/
  mac : Codeword × Codeword × Codeword := (0, 0, 0)
deriving DecidableEq, Repr

/-- Trouble with a metadata or counter-class line met by a fetch: a page-map line lost in both copies (R199); a counter-class line of a
Diptych's tree, or of the ledger's when the Diptych is 8, that failed its MAC or its check code on one copy or on both (R264). -/
inductive MetaLoss
  | pageMap (page : Nat)
  | tree (dipt level index : Nat) (mac both : Bool)
deriving DecidableEq, Repr

/-- Runs of consecutive passing taps of a sweep, each as its first and last tap (R127). -/
abbrev PassRuns := List (Nat × Nat)
/-- What one byte lane's sweeps find (R126): the passing read taps at each of the eight VREF(DQ) settings, the taps at which the write leveling
feedback is 1, and the passing write taps. -/
structure LaneSweep where
  rd : List PassRuns := []
  wl : PassRuns := []
  wr : PassRuns := []
deriving DecidableEq, Repr
/-- What one training run finds on a channel: its lanes by e, and for each rank the passing CA taps at each VREF(CA) code. -/
structure TrainRun where
  lanes : List LaneSweep := []
  ca : List (List PassRuns) := []
deriving DecidableEq, Repr
/-- What training finds on a channel (R126 to R128): die organisation and vendor, the first run, and the one that follows when that fails. -/
structure ChanTrain where
  byteMode : Bool := false
  vendor : Nat := 0
  first : TrainRun := {}
  again : TrainRun := {}
deriving DecidableEq, Repr

/-- Straps as the pins show them: BOOT_SRC, CLK_MODE, ROLE (R591). -/
abbrev Straps := Nat × Nat × Nat

/-- The commands: one constructor per row of the table of operations and events. -/
inductive Instr
  /-- STROKE_EDGE (R32): The timebase phase returns to 0 after 192 ticks (191 or 193 while slewing), and the 48-bit stroke number increments. -/
  | strokeEdge (miss0 miss1 : Bool)
  /-- LAYER_BOUNDARY (R14): A stroke number that is a multiple of 64 begins a new Layer: budgets refill, RUN_SCALE is recomputed, buckets leak and plan changes take effect. -/
  | layerBoundary
  /-- SITTING_BOUNDARY (R14): A stroke number that is a multiple of 2,048 begins a new Sitting: the ledger closes the Sitting and runs the planner, and Sitting-scoped activations take place. -/
  | sittingBoundary
  /-- STROKE_ADOPT (R36): At a local stroke edge the module adopts the fabric stroke number and closes its open Layer and Sitting windows as partial. -/
  | strokeAdopt
  /-- TMB_STROKE_READ (R37): A read of TMB_STROKE_LO latches STROKE_HI and PHASE for the reading agent. -/
  | tmbStrokeRead (agent : Nat)
  /-- HOST_READ (R27): A host CXL.mem read is stamped, aliased, decoded, regulated and ordered at its home, which starts the directory lookup and the speculative media read. -/
  | hostRead (a hpa meta_ at10 : Nat)
  /-- HOST_WRITE (R29): A host CXL.mem write, writebacks included, is stamped, regulated and ordered at its home, and is handled according to where the page lies. -/
  | hostWrite (a hpa meta_ at10 : Nat) (data : Line) (mask : BitVec 64) (poison : Bool) (err : LineErr)
  /-- MEDIA_READ_RETURN (R193): Line data returns from a Vein and is checked by the RS code, then corrected, rebuilt or poisoned, and then decrypted and MAC-verified. -/
  | mediaReadReturn (id : Nat) (errs : List LineErr) (metas : List MetaLoss)
  /-- READ_EGRESS (R51): The last flit of a read response leaves its port, and the port compares the stamp with the egress stroke and counts any bound miss. -/
  | readEgress (id at10 : Nat)
  /-- LATE_VERDICT (R259): A MAC verdict fails after early release, so the ports that received the data enter viral, a late-integrity alarm is raised and a marker is written. -/
  | lateVerdict (id : Nat)
  /-- BISNP_RESPONSE (R631): A host's answer to a back-invalidate snoop is ordered at the home and updates the directory, and the waiting requests proceed. -/
  | bisnpResponse (a page line rsp : Nat) (data : Option Line)
  /-- COMMIT (R65): A write of HDR_CTL.COMMIT makes the block check its staged RWL copy, then accept or reject it and post the result. -/
  | commit (agent : Nat) (b : Block) (n ctl : Nat)
  /-- COMMIT_ACTIVATE (R65): At the block's activation point the staged copy becomes active and COMMIT_PENDING clears. -/
  | commitActivate (b : Block) (n : Nat)
  /-- UNLOCK (R67): A write of HDR_CTL.UNLOCK reopens a locked page for staging, or is ignored with WRITE_IGNORED. -/
  | unlock (agent : Nat) (b : Block) (n ctl : Nat)
  /-- BLOCK_RESET (R70): A write of HDR_CTL.BLOCK_RESET is accepted only when RESET_OK and IDLE are 1; the block closes its input and resets. -/
  | blockReset (agent : Nat) (b : Block) (n ctl : Nat)
  /-- BLOCK_RESET_DONE (R599): A block-level reset completes, and INT_RESET_DONE is set. -/
  | blockResetDone (b : Block) (n : Nat)
  /-- STICKY_LOCK (R68): A write of 1 to HDR_LOCK.STICKY freezes the page's RWL fields until its scope is reset. -/
  | stickyLock (agent : Nat) (b : Block) (n : Nat)
  /-- INT_FORCE (R62): A write to HDR_INT_FORCE sets the named HDR_INT_STATUS bits. -/
  | intForce (agent : Nat) (b : Block) (n mask : Nat)
  /-- REGISTER_PAGE_WRITE (R59): A write to a register that has no row of its own, or a refused access, is applied by its access code or dropped and recorded; with no value it is a read. -/
  | registerPageWrite (agent offset width : Nat) (value : Option Nat)
  /-- DENIED_CLEAR (R84): A write of MOD_DENIED_STAT.CLEAR zeroes the refused-access count and address. -/
  | deniedClear (agent : Nat)
  /-- PMAP_READ_ENTRY (R122): The PMAP read-entry command captures the page-map entry of PMAP_PAGE into PMAP_ENTRY_LO and PMAP_ENTRY_HI. -/
  | pmapReadEntry (agent slab : Nat)
  /-- PMAP_PIN (R111): The PMAP pin command sets PINNED and moves the page to hot, or sets PIN_FULL, NOT_HOME or OUT_OF_RANGE. -/
  | pmapPin (agent slab : Nat)
  /-- PMAP_UNPIN (R122): The PMAP unpin command clears PINNED on the page at its home. -/
  | pmapUnpin (agent slab : Nat)
  /-- PMAP_DISCARD (R105): The PMAP discard command recalls host copies and returns the page to zero, freeing its media. -/
  | pmapDiscard (agent slab : Nat)
  /-- ROW_BUFFER_TIMEOUT (R102): 64 strokes after its first granule entered, a Vein row buffer is written with padding and parity. -/
  | rowBufferTimeout (vein : Nat)
  /-- TIER_MOVE_DONE (R97): A tier move completes, and the home flips the page-map entry to its new location and state in one step. -/
  | tierMoveDone (page : Nat) (errs : List LineErr)
  /-- COMPACTION (R103): When fewer than 1/16 of a Vein's deep rows are free, the tier mover rewrites the live pages of its emptiest rows. -/
  | compaction (vein : Nat)
  /-- SPILL_START (R112): A module that may borrow and is short of deep rows starts spilling its lowest-HEAT deep pages to its donor. -/
  | spillStart
  /-- EXHAUSTION_TIMEOUT (R117): A write held under capacity exhaustion reaches 2,048 strokes without room, so it completes with its lines poisoned. -/
  | exhaustionTimeout (page : Nat)
  /-- DONOR_ABSENT_TIMEOUT (R116): A read of a page on an absent donor has been held for 64 strokes and is returned with poison code 0x03. -/
  | donorAbsentTimeout (id : Nat)
  /-- REBALANCE_DONE (R121): The tier mover has emptied every chunk that changes side, so the HOT_SHARE commit activates. -/
  | rebalanceDone
  /-- TRAINING_DONE (R126): Cold-reset training of the channels ends, and failed channels are marked retired. -/
  | trainingDone (base : ChanTrain) (others : List (Nat × ChanTrain))
  /-- WARM_TRAINING_CHECK (R129): After a warm reset the Vein repeats read DQ calibration and keeps or retrains each channel. -/
  | warmTrainingCheck (vein : Nat) (news : List (Nat × List Nat × ChanTrain))
  /-- MR4_POLL (R137): At phase 161 of a refresh slot the MR4 temperature reading is taken and stamped, with ZQ latch and the read-centre check when due. -/
  | mr4Poll (chan code : Nat) (centres : List Nat)
  /-- FORCED_REFRESH (R140): A channel's refresh debt would reach eight, so the Vein issues one extra REFab in the next stroke. -/
  | forcedRefresh (chan : Nat)
  /-- VEIN_SLOT_GRANT (R145): The Vein grants a channel line slot to the waiting access of highest precedence. -/
  | veinSlotGrant (vein ofs : Nat) (hits : List Nat)
  /-- PANIC_LEVEL_REPORT (R146): Every 16 ticks the port reports each attach point's ingress buffer level to the Veins, which may start or end panic. -/
  | panicLevelReport (a : Nat)
  /-- CODEC_DECODE_DONE (R163): A codec decode of a Strata sub-block or page completes, or fails its format, grammar or CRC check. -/
  | codecDecodeDone (slab lane : Nat)
  /-- ENCODE_DONE (R168): A Strata encode and its self-check complete; a mismatch stores the page raw. -/
  | encodeDone (page : Nat) (selfFail : Bool)
  /-- OFFLOAD_STEP_DONE (R172): An offload step or in-line operation on a codec lane ends, and the lane is granted to the waiting work of highest precedence. -/
  | offloadStepDone (slab lane : Nat)
  /-- OFLD_DOORBELL (R174): A write of OFLD_SQ_TAIL submits descriptors, or is ignored and sets DOORBELL_BAD. -/
  | ofldDoorbell (agent slab q tail : Nat)
  /-- OFLD_NOOP (R175): An offload no-op descriptor completes with a record only. -/
  | ofldNoop (slab q : Nat) (env : JobEnv)
  /-- OFLD_DEFLATE (R178): An offload deflate job compresses its source into a raw, zlib or gzip stream. -/
  | ofldDeflate (slab q : Nat) (env : JobEnv)
  /-- OFLD_INFLATE (R178): An offload inflate job decompresses a stream, checking its wrapper and trailer. -/
  | ofldInflate (slab q : Nat) (env : JobEnv)
  /-- OFLD_STRATA_ENCODE (R168): An offload Strata encode job encodes a 4 KiB page into an external-form image. -/
  | ofldStrataEncode (slab q : Nat) (env : JobEnv)
  /-- OFLD_STRATA_DECODE (R161): An offload Strata decode job checks and decodes an external-form image. -/
  | ofldStrataDecode (slab q : Nat) (env : JobEnv)
  /-- OFLD_COMPLETION (R184): An offload job completes and its record is written to its completion queue in STAMP and LANE order. -/
  | ofldCompletion (slab q : Nat)
  /-- OFLD_CQ_HEAD (R185): Host software advances OFLD_CQ_HEAD, which frees room so held records are written and fetching resumes. -/
  | ofldCqHead (agent slab q head : Nat)
  /-- OFLD_ABORT (R186): A write of ABORT, or of ENABLE 0, ends an offload queue and completes its jobs with status 0x09. -/
  | ofldAbort (agent slab value : Nat)
  /-- SCRUB_LINE (R202): The scrubber reads and checks a line or row, correcting, repairing or fixing parity as needed. -/
  | scrubLine (vein : Nat) (errs : List LineErr)
  /-- FLIP_ARM (R208): A write of ARM arms the flip mask, or leaves ARM at 0 for an invalid setting. -/
  | flipArm (agent slab value : Nat)
  /-- FILL_DONE (R210): The power-on fill of every channel completes, and MOD_READY.FILL_DONE is set. -/
  | fillDone
  /-- DIPT_RETIRE (R231): A write of DIPT_RETIRE.GO requests retirement of a channel, or is refused. -/
  | diptRetire (agent k ofs side : Nat)
  /-- RELOC_DONE (R216): DIPT_RELOC_LEFT reaches zero, and the Diptych leaves RETIRING. -/
  | relocDone (k : Nat)
  /-- SLAB_ABSENT (R220): A Slab declares its partner absent and takes over its home, ports, processors and Diptych roles. -/
  | slabAbsent (slab cause : Nat)
  /-- ABSENT_VEIN_HOLD_TIMEOUT (R222): A request to a deep page on an absent Vein reaches stroke s + 64 and is returned with poison code 0x02, or becomes hot with markers. -/
  | absentVeinHoldTimeout (page : Nat)
  /-- PEER_RETURN (R225): The partner Slab returns, and its SOLO Diptychs enter RESYNC at the next Layer boundary. -/
  | peerReturn
  /-- RESYNC_FRAME_COPY (R226): The resync copier copies one frame whose bit is set, then clears the bit. -/
  | resyncFrameCopy (k : Nat)
  /-- KEYS_GENERATE (R272): The KEYS generate command fills a context with fresh keys and the staged attributes. -/
  | keysGenerate (agent slab : Nat)
  /-- KEYS_LOAD (R272): The KEYS load command fills a context from KEYS_MATERIAL. -/
  | keysLoad (agent slab : Nat)
  /-- KEYS_UNWRAP (R235): The KEYS unwrap command unwraps an RFC 3394 blob into a context. -/
  | keysUnwrap (agent slab kek : Nat)
  /-- KEYS_ERASE (R236): The KEYS erase command invalidates a context from the next stroke edge and drains the requests that already use it. -/
  | keysErase (agent slab : Nat)
  /-- KEYS_ERASE_DONE (R236): The last request under an erased context completes, BUSY clears and DONE is set. -/
  | keysEraseDone (slab : Nat)
  /-- KEYS_WRITE_ATTR (R272): The KEYS write-attributes command changes a context's attributes from the next stroke edge. -/
  | keysWriteAttr (agent slab : Nat)
  /-- KEYS_READ_ATTR (R272): The KEYS read-attributes command returns a context's attributes in KEYS_ATTR. -/
  | keysReadAttr (agent slab : Nat)
  /-- TREE_LINE_EVICT (R253): A dirty counter-tree line is evicted; its parent counter increments and the line is MACed and written to both Veins. -/
  | treeLineEvict (dipt level index : Nat)
  /-- SUBTREE_REBUILD_DONE (R265): The rebuild of a lost counter subtree completes and the held writes are released. -/
  | subtreeRebuildDone (dipt level index : Nat)
  /-- LINK_UP (R274): A host link finishes training at its width and rate, and is flagged when degraded. -/
  | linkUp (a width speed : Nat) (flit256 memOn : Bool)
  /-- LINK_DOWN (R304): A host link goes down; its decoders are cleared and its attach point departs. -/
  | linkDown (a : Nat)
  /-- PERST (R304): An attach point's PERST_L is asserted, so its link retrains and its decoders are cleared. -/
  | perst (a : Nat)
  /-- FLR (R304): A function-level reset aborts the mailbox command and clears MSI-X and Bus Master Enable, with the link kept up. -/
  | flr (a : Nat)
  /-- HOT_RESET (R304): A hot reset retrains the link, clears its decoders and viral, and drops in-flight reads. -/
  | hotReset (a : Nat)
  /-- HDM_COMMIT (R281): Setting a decoder's Commit bit commits it from the next stroke edge, or fails with Error Not Committed. -/
  | hdmCommit (a j base size ways gran pos skip : Nat) (commit lock : Bool)
  /-- IDE_FAIL (R290): A CXL.cachemem IDE integrity failure discards the flit, makes the stream insecure and puts the attach point in viral. -/
  | ideFail (a : Nat)
  /-- IDE_KM (R290): An IDE_KM message over DOE sets IDE keys, answered by the secure processor. -/
  | ideKm (a : Nat)
  /-- PORT_IRQ_REARM (R293): A write of REARM_h sends vector 2 again at the next stroke edge if the summary is still nonzero. -/
  | portIrqRearm (agent port mask : Nat)
  /-- GET_EVENT_RECORDS (R300): The mailbox command returns records from the attach point's event logs. -/
  | getEventRecords (a log : Nat)
  /-- CLEAR_EVENT_RECORDS (R300): The mailbox command clears records from the attach point's event logs. -/
  | clearEventRecords (a log : Nat) (all : Bool) (handles : List Nat)
  /-- GET_EVENT_INTERRUPT_POLICY (R294): The mailbox command returns the event interrupt policy. -/
  | getEventInterruptPolicy (a : Nat)
  /-- SET_EVENT_INTERRUPT_POLICY (R294): The mailbox command sets the event interrupt policy. -/
  | setEventInterruptPolicy (a : Nat) (bytes : List Nat)
  /-- GET_FW_INFO (R294): The mailbox command reports the two firmware slots. -/
  | getFwInfo (a : Nat)
  /-- TRANSFER_FW (R294): The mailbox command writes the inactive firmware image. -/
  | transferFw (a action ofs : Nat) (data : List (BitVec 8))
  /-- ACTIVATE_FW (R592): The mailbox command writes PENDING so the slot is tried at the next cold reset. -/
  | activateFw (a action slot : Nat)
  /-- GET_TIMESTAMP (R297): The mailbox command returns the set timestamp advanced by the elapsed strokes. -/
  | getTimestamp (a : Nat)
  /-- SET_TIMESTAMP (R297): The mailbox command sets the module timestamp and records the current stroke. -/
  | setTimestamp (a value : Nat)
  /-- GET_SUPPORTED_LOGS (R294): The mailbox command lists the supported logs. -/
  | getSupportedLogs (a : Nat)
  /-- GET_LOG (R294): The mailbox command returns the Command Effects Log or the CEL. -/
  | getLog (a ofs n : Nat)
  /-- IDENTIFY_MEMORY_DEVICE (R294): The mailbox command reports total, volatile and persistent capacity and the poison list size. -/
  | identifyMemoryDevice (a : Nat)
  /-- GET_PARTITION_INFO (R294): The mailbox command reports volatile-only partitioning. -/
  | getPartitionInfo (a : Nat)
  /-- GET_HEALTH_INFO (R294): The mailbox command reports health, with the temperature of the hottest hub die. -/
  | getHealthInfo (a : Nat)
  /-- GET_ALERT_CONFIG (R294): The mailbox command returns the alert configuration. -/
  | getAlertConfig (a : Nat)
  /-- SET_ALERT_CONFIG (R299): The mailbox command sets the alert configuration. -/
  | setAlertConfig (a : Nat) (cfg : BitVec 96)
  /-- GET_POISON_LIST (R285): The mailbox command returns the poison-list entries inside the DPA range it asks for. -/
  | getPoisonList (a dpa len : Nat)
  /-- INJECT_POISON (R286): The mailbox command writes a marker with code 0x08 under the page's key context. -/
  | injectPoison (a dpa : Nat)
  /-- CLEAR_POISON (R286): The mailbox command writes a full line over a marker, clearing the poison. -/
  | clearPoison (a dpa : Nat) (data : Line)
  /-- GET_SCAN_MEDIA_CAPABILITIES (R298): The mailbox command estimates the scan time in strokes. -/
  | getScanMediaCapabilities (a dpa len : Nat)
  /-- SCAN_MEDIA (R298): The mailbox command starts reading every stored line in the DPA range as scrub work. -/
  | scanMedia (a dpa len : Nat)
  /-- SCAN_MEDIA_DONE (R298): A Scan Media run completes with the list of markers found. -/
  | scanMediaDone (hots : List (Nat × LineErr)) (rows : List (Nat × Nat × List LineErr))
  /-- GET_SCAN_MEDIA_RESULTS (R298): The mailbox command returns the markers that Scan Media found. -/
  | getScanMediaResults (a : Nat)
  /-- ADD_DYNAMIC_CAPACITY_RESPONSE (R302): The mailbox command accepts the listed offered extents, whose pages enter the zero state, or declines the offer. -/
  | addDynamicCapacityResponse (a : Nat) (exts : List (Nat × Nat))
  /-- RELEASE_DYNAMIC_CAPACITY (R94): The mailbox command releases an extent, ordered at the home, and its pages become unmapped. -/
  | releaseDynamicCapacity (a : Nat) (ext : Nat × Nat)
  /-- DC_OFFER (R301): The management processor offers an extent with an Add Capacity record, after the check of R93. -/
  | dcOffer (a first n : Nat)
  /-- DC_OFFER_TIMEOUT (R302): An offer left unanswered for OFFER_TIMEOUT Sittings is withdrawn, and DC_WITHDRAWN is set. -/
  | dcOfferTimeout
  /-- GNORRID_IDENTIFY (R295): The mailbox command returns revision, role, fabric address, Slabs, attach point, stroke and serial. -/
  | gnorridIdentify (a : Nat)
  /-- REGISTER_READ (R296): The mailbox command performs 1 to 256 32-bit register reads as the issuing agent. -/
  | registerRead (a ofs n : Nat)
  /-- REGISTER_WRITE (R296): The mailbox command performs 1 to 256 32-bit register writes as the issuing agent. -/
  | registerWrite (a ofs : Nat) (words : List Nat)
  /-- GET_TIMEBASE (R294): The mailbox command returns stroke, phase, status and local elapsed strokes, all taken at one tick. -/
  | getTimebase (a : Nat)
  /-- INT_RDS (R319): An internal RdS request takes a shared or exclusive copy of a line through the home. -/
  | intRds (o page line ctx hint : Nat)
  /-- INT_RDO (R319): An internal RdO request takes a line in M, invalidating other copies. -/
  | intRdo (o page line ctx : Nat) (data : Line) (mask : BitVec 64)
  /-- INT_UPG (R319): An internal Upg request upgrades an S copy to M, or is treated as RdO. -/
  | intUpg (o page line ctx : Nat) (data : Line) (mask : BitVec 64)
  /-- INT_WB (R319): An internal WB writes back a dirty line, leaving I from M or S from O. -/
  | intWb (o page line ctx : Nat) (data : Line)
  /-- INT_EVICT (R319): An internal Evict clears an E owner. -/
  | intEvict (o page line ctx : Nat)
  /-- INVAL_ACK (R320): An internal cache acknowledges an invalidation, and the home completes the request once all have acknowledged. -/
  | invalAck (kind n page line : Nat) (data : Option Line)
  /-- SNOOP_READ (R322): A non-allocating snoop read returns a line's current value without changing any copy's state. -/
  | snoopRead (o page line ctx : Nat)
  /-- FAR_ATOMIC (R325): A far atomic is ordered at the home like a write and applied to the line. -/
  | farAtomic (q page line ctx key : Nat) (kernel : List Byte) (vals : List (Option Nat))
  /-- VICTIM_RECALL_DONE (R312): The recall of a directory victim ends, its buffer entry is freed, and waiting requests allocate afresh. -/
  | victimRecallDone (slab hl : Nat)
  /-- SWEEP_DONE (R332): Both Slabs' departure sweeps end, DEPARTED clears and SWEEP_DONE is raised. -/
  | sweepDone (a : Nat)
  /-- REGION_RESOLVE (R335): The first request to an unknown region starts its resolution by block snoops and internal write-backs. -/
  | regionResolve
  /-- REGION_RESOLVED (R335): A region's resolution ends; it becomes known with census zero and its waiting requests are ordered. -/
  | regionResolved (wbs : List (Nat × Nat × Nat × Line))
  /-- HANDBACK (R336): The survivor sends its acting-home entries, census and unknown marks back to the returning Slab, set by set. -/
  | handback
  /-- DIRQ (R340): A write of HOME_DIRQ_CTL.GO queries a line's directory entry at the home. -/
  | dirq (agent slab line : Nat)
  /-- PREFETCH_INSTALL (R351): A next-line prefetch returns and installs, or is dropped. -/
  | prefetchInstall (page line : Nat) (err : LineErr)
  /-- RUNAHEAD_INSTALL (R349): A run-ahead decoded sub-block installs its 16 lines after its checks, or is squashed. -/
  | runaheadInstall (page : Nat)
  /-- CHUNK_DRAIN (R356): A Vein line-buffer entry drains as a whole-chunk write, encrypting its zero lines. -/
  | chunkDrain (vein ofs chunk : Nat)
  /-- HCAC_INVAL_PAGE (R358): The HCAC command invalidates every entry of a page's current location and its run-ahead slot. -/
  | hcacInvalPage (agent slab : Nat)
  /-- HCAC_CLEAN_PAGE (R358): The HCAC command completes once earlier writes to the page have reached the Vein write queues. -/
  | hcacCleanPage (agent slab : Nat)
  /-- HCAC_CLEAN_INVAL_PAGE (R358): The HCAC command cleans and then invalidates a page. -/
  | hcacCleanInvalPage (agent slab : Nat)
  /-- HCAC_INVAL_SET_WAY (R358): The HCAC command invalidates the entry at SET and WAY. -/
  | hcacInvalSetWay (agent slab set way : Nat)
  /-- HCAC_INVAL_ALL (R358): The HCAC command sweeps and invalidates the normal partition and its run-ahead slots. -/
  | hcacInvalAll (agent slab : Nat)
  /-- HCAC_CMD_DONE (R358): A Hub Cache maintenance command or sweep completes and DONE is set. -/
  | hcacCmdDone (slab : Nat)
  /-- HCAC_REPARTITION (R353): The secure processor writes SECURE_WAYS, which starts a repartition sweep. -/
  | hcacRepartition (agent slab ways : Nat)
  /-- REPART_DONE (R353): The repartition sweep ends, and the new partition governs. -/
  | repartDone (slab : Nat)
  /-- QENG_DOORBELL (R384): A write of QENG_SQ_TAIL submits query jobs, or sets DOORBELL_BAD. -/
  | qengDoorbell (agent q tail : Nat)
  /-- QE_NOOP (R369): A no-op query job completes with a record only. -/
  | qeNoop (q : Nat) (env : JobEnv)
  /-- QE_FILTER (R371): A FILTER job evaluates the predicate over a row range and writes a selection bitmap. -/
  | qeFilter (q : Nat) (env : JobEnv)
  /-- QE_PROJECT (R372): A PROJECT job writes a projected record for each passing row. -/
  | qeProject (q : Nat) (env : JobEnv)
  /-- QE_GATHER (R373): A GATHER job reads rows by row identifier and projects those that pass. -/
  | qeGather (q : Nat) (env : JobEnv)
  /-- QE_HASH_PROBE (R383): A HASH_PROBE job probes a table for each passing row's key and writes records by PROBE_MODE. -/
  | qeHashProbe (q : Nat) (env : JobEnv)
  /-- QE_AGGREGATE (R377): An AGGREGATE job claims and merges aggregate-table entries for passing rows. -/
  | qeAggregate (q : Nat) (env : JobEnv)
  /-- QE_JOB_DONE (R391): A query job completes with its status and counts, and its record waits for a gatherer slot. -/
  | qeJobDone (q : Nat)
  /-- QGTH_CQ_HEAD (R394): Host software advances QGTH_CQ_HEAD, so held records are written and stalled engines resume. -/
  | qgthCqHead (agent slab c head : Nat)
  /-- QENG_ABORT (R397): A write of ABORT, or of ENABLE 0, ends the running job and the fetched jobs with status 0x07. -/
  | qengAbort (agent q value : Nat)
  /-- QENG_CACHE_FLUSH (R402): A write of CACHE_FLUSH writes back and invalidates the engine cache. -/
  | qengCacheFlush (agent q : Nat)
  /-- QE_THROTTLE (R398): The query-engine grant of the Sitting is spent, so each engine stops after its current row and sets THROTTLED. -/
  | qeThrottle
  /-- RING_SIDE_UP (R434): A ring link direction completes LTS1 and LTS2 training and takes its first data block. -/
  | ringSideUp (pair side position role : Nat) (serial : BitVec 64) (head pairB : Bool)
  /-- LSKP (R433): An LSKP ordered set arrives, reseeds the scramblers and may be dropped or repeated to absorb clock difference. -/
  | lskp (pair side adjust : Nat)
  /-- LSTRK (R453): An LSTRK from the timing upstream gives the error e, which the module corrects by slewing or a phase move. -/
  | lstrk (pair side : Nat) (stroke : Stroke) (txOfs : Nat) (sourceOk holdover rooted : Bool) (depth : Nat) (tr : Int)
  /-- LECHO (R452): An LECHO request arrives, and the module sends a reply carrying TA. -/
  | lecho (pair side ta : Nat)
  /-- LECHO_REPLY (R452): An LECHO reply arrives, and LINK_DELAY is set from it. -/
  | lechoReply (pair side ta t4 : Nat)
  /-- LSPL_PROBE (R462): An LSPL probe arrives during a splice half, and a joiner opens its cells and trains its side. -/
  | lsplProbe (pair side : Nat) (stroke : Stroke) (position : Nat)
  /-- LSPL_UNWRAP (R464): An LSPL unwrap names the stroke at which both neighbours unwrap. -/
  | lsplUnwrap (pair side : Nat) (stroke : Stroke) (position : Nat)
  /-- FLIT_RECEIVE (R439): A ring flit arrives and is checked; a bad CRC or FSEQ gap drops it and sends NAK. -/
  | flitReceive (pair side fseq ackSeq : Nat) (ackValid nak crcOk : Bool) (crVc crCount : Nat) (slots : List Nat)
  /-- RING_REPLAY_TIMEOUT (R439): The oldest flit has had no acknowledgement for 1 µs, so the sender replays from it. -/
  | ringReplayTimeout (pair side : Nat)
  /-- RING_LOCK_LOSS (R465): A ring side loses lock or is declared down, so the member wraps that side. -/
  | ringLockLoss (pair side : Nat) (down : Bool)
  /-- STROKE (R457): A STROKE frame arrives, carrying stroke, window, membership, evacuation and budget entries. -/
  | stroke (pair side : Nat) (f : Frame)
  /-- REPORT (R459): A REPORT part passes, and the member writes its entry for the previous Sitting. -/
  | report (pair side : Nat) (f : Frame)
  /-- ENUM (R443): An ENUM frame assigns order indices; its return tells the head the physical order. -/
  | enum (pair side : Nat) (f : Frame) (serial : BitVec 64)
  /-- JOIN_REQ (R443): A JOIN_REQ asks the head for a position, which it assigns or refuses. -/
  | joinReq (pair side : Nat) (f : Frame)
  /-- ASSIGN (R443): An ASSIGN gives the member its position, or marks it REFUSED. -/
  | assign (pair side : Nat) (f : Frame)
  /-- ORDER (R444): An ORDER frame gives the positions in physical order under a new EPOCH. -/
  | order (pair side : Nat) (f : Frame)
  /-- REG_RD (R478): A REG_RD frame from the target's manager performs register reads as agent 0x09. -/
  | regRd (pair side : Nat) (f : Frame)
  /-- REG_WR (R478): A REG_WR frame from the target's manager performs register writes as agent 0x09. -/
  | regWr (pair side : Nat) (f : Frame)
  /-- REG_RSP (R478): A REG_RSP returns read words and a bitmap of dropped accesses. -/
  | regRsp (pair side : Nat) (f : Frame)
  /-- KEY_XFER (R471): A KEY_XFER frame is checked and unwrapped into a key context, and KEY_ACK is answered. -/
  | keyXfer (pair side : Nat) (f : Frame)
  /-- KEY_ACK (R471): A KEY_ACK returns the result of a key transfer. -/
  | keyAck (pair side : Nat) (f : Frame)
  /-- CMD_WARM_RESET (R474): An authenticated CMD with CODE 0x01 is checked, acknowledged and causes a warm reset at the next Layer boundary. -/
  | cmdWarmReset (pair side : Nat) (f : Frame)
  /-- CMD_COLD_RESET (R474): An authenticated CMD with CODE 0x02 is checked, acknowledged and causes a cold reset at the next Layer boundary. -/
  | cmdColdReset (pair side : Nat) (f : Frame)
  /-- CMD_EVACUATE (R475): An authenticated evacuate command starts returning lent pages and recalling spilled pages. -/
  | cmdEvacuate (pair side : Nat) (f : Frame)
  /-- CMD_CANCEL_EVAC (R467): An authenticated cancel command ends evacuation and returns the member to MEMBER. -/
  | cmdCancelEvac (pair side : Nat) (f : Frame)
  /-- CMD_ACK (R473): A CMD_ACK returns the status of a ring command. -/
  | cmdAck (pair side : Nat) (f : Frame)
  /-- SPILL_REQ (R468): A SPILL_REQ asks a donor for a handle for g granules. -/
  | spillReq (pair side : Nat) (f : Frame)
  /-- SPILL_GRANT (R468): A SPILL_GRANT names a handle, or is refused. -/
  | spillGrant (pair side : Nat) (f : Frame)
  /-- SPILL_DATA (R468): A SPILL_DATA frame carries one granule and its MAC line to the donor. -/
  | spillData (pair side : Nat) (f : Frame)
  /-- SPILL_DONE (R468): The donor acknowledges a stored page, and the borrower flips its entry to spilled. -/
  | spillDone (pair side : Nat) (f : Frame)
  /-- SPILL_READ (R468): A SPILL_READ asks the donor for a page's granules, as a read or a recall. -/
  | spillRead (pair side : Nat) (f : Frame)
  /-- SPILL_RDATA (R468): A SPILL_RDATA frame returns one granule to the borrower. -/
  | spillRdata (pair side : Nat) (f : Frame)
  /-- SPILL_FREE (R468): A SPILL_FREE tells the donor to free a handle. -/
  | spillFree (pair side : Nat) (f : Frame)
  /-- SPILL_DECLINE (R468): A SPILL_DECLINE refuses a handle still IN_USE at the borrower. -/
  | spillDecline (pair side : Nat) (f : Frame)
  /-- SPILL_RETURN (R469): A SPILL_RETURN asks the borrower to recall a lent page. -/
  | spillReturn (pair side : Nat) (f : Frame)
  /-- HOLDOVER_TIMEOUT (R456): Holdover has lasted 64 strokes, so the module chooses its timing upstream afresh or becomes stroke source. -/
  | holdoverTimeout
  /-- SPLICE_HALF_START (R462): A half of a splice window begins, and members pause egress in that direction and send probes. -/
  | spliceHalfStart (pair dir : Nat)
  /-- RING_REQUEST_RETRY (R466): A VC1 request has had no response for 8 strokes and is sent once the other way round. -/
  | ringRequestRetry (tag : Nat)
  /-- RING_REQUEST_FAIL (R466): A VC1 request has had no response for 64 strokes and fails. -/
  | ringRequestFail (tag : Nat)
  /-- TAP_TRAFFIC (R467): Ring traffic is heard on a tap while JOIN_EN is 1, so the pair goes from LISTEN to JOINING. -/
  | tapTraffic (pair : Nat)
  /-- TAP_SILENCE_TIMEOUT (R467): Both taps have been silent for 2 Sittings, so the pair opens its cells and trains. -/
  | tapSilenceTimeout (pair : Nat)
  /-- ENUM_TIMEOUT (R467): No ENUM has arrived for 2 Sittings after training, so the pair goes ALONE. -/
  | enumTimeout (pair : Nat)
  /-- STROKE_FRAME_TIMEOUT (R467): No STROKE frame has arrived for 64 strokes, so the member goes ALONE. -/
  | strokeFrameTimeout (pair : Nat)
  /-- EVAC_DONE (R475): Lent and spilled counts reach zero, so the module sets DONE, closes its cells and leaves. -/
  | evacDone
  /-- EVAC_DEADLINE (R475): The evacuation deadline passes, so the module sets INCOMPLETE and leaves. -/
  | evacDeadline
  /-- LODE_REJOIN (R467): A write of LODE_REJOIN.GO returns pairs in LEFT or ALONE to LISTEN. -/
  | lodeRejoin (agent : Nat)
  /-- RING_REVIVE (R480): A write of REVIVE_s clears PERM_DOWN and the bucket of a side and retrains it. -/
  | ringRevive (agent slab sides : Nat)
  /-- BUDGET_DIVIDE (R491): At its staggered stroke a manager divides its subtree budget among the positions of its ring. -/
  | budgetDivide
  /-- SENSOR_CONVERSION (R483): A sensor conversion completes; it is stamped, and the rail energy is added to its Sitting. -/
  | sensorConversion (ch reading requester : Nat)
  /-- SENSOR_REQUEST (R484): A write of LEDG_SENSOR_REQ.GO requests one conversion for the management processor. -/
  | sensorRequest (agent ch : Nat)
  /-- REST_ENTER (R496): A write of REST_CTL.ENTER checks the entry conditions and requests secure consent, or is refused. -/
  | restEnter (agent : Nat)
  /-- REST_ENTRY_EDGE (R497): Every block reports IDLE, so channels enter self-refresh and the module rests from the next edge. -/
  | restEntryEdge
  /-- REST_DRAIN_TIMEOUT (R497): DRAIN_MAX strokes pass without every block idle, so the entry aborts with reason 0x08. -/
  | restDrainTimeout
  /-- SKETCH_SAMPLE (R500): A Sketch sample converts eight channels, reads the wake latch and wakes the module on a crossing. -/
  | sketchSample (readings : List Nat)
  /-- WAKE_EVENT (R501): A link, PERST_L, I3C, supervisor or fault event wakes the module at its own stamp. -/
  | wakeEvent (waker : Nat)
  /-- WAKE_DONE (R503): The waking sequence ends and READY rises. -/
  | wakeDone
  /-- GET_MEAS (R519): The mailbox message returns a measurement slot. -/
  | getMeas (seq slot : Nat)
  /-- MEAS_EXTEND (R519): The mailbox message extends slot 5 to 7 with a submitted digest. -/
  | measExtend (seq slot : Nat) (digest : BitVec 384)
  /-- MBX_ASSIGN (R519): The mailbox message asks the secure processor to hand a block to the secure world. -/
  | mbxAssign (seq block : Nat) (policy : Bool)
  /-- MBX_RELEASE (R519): The mailbox message asks for a block to be handed to the normal world. -/
  | mbxRelease (seq block : Nat) (policy : Bool)
  /-- KEY_CREATE (R519): The mailbox message generates keys for a context. -/
  | keyCreate (seq ctx attrs mask : Nat) (policy : Bool)
  /-- KEY_ERASE (R519): The mailbox message erases a context. -/
  | keyErase (seq ctx : Nat) (policy : Bool)
  /-- DEBUG_NONCE (R519): The mailbox message returns a fresh 8-byte nonce. -/
  | debugNonce (seq : Nat)
  /-- DEBUG_OPEN (R521): A DEBUG_OPEN half carries part of the signature; the second half is verified. -/
  | debugOpen (seq part : Nat) (half : BitVec 384)
  /-- SECP_DEBUG_OPEN (R521): A write of SECP_DEBUG.OPEN opens debug access at the next stroke edge. -/
  | secpDebugOpen (agent slab : Nat)
  /-- SECP_MEAS_EXTEND (R533): A write of SECP_MEAS_SEL.EXTEND extends the selected slot with SECP_MEAS_IN. -/
  | secpMeasExtend (agent slab slot : Nat)
  /-- SPDM_GET_MEASUREMENTS (R514): An SPDM GET_MEASUREMENTS request returns the slots signed with the device identity key. -/
  | spdmGetMeasurements (index nonce : Nat)
  /-- KEK_INSTALL (R515): A vendor SPDM message installs a key-encryption key. -/
  | kekInstall (id : Nat) (key : BitVec 256)
  /-- FABRIC_KEY_INSTALL (R516): A vendor SPDM message installs the fabric command key, effective at the next Sitting boundary. -/
  | fabricKeyInstall (key : BitVec 256)
  /-- OWN_HANDOVER (R523): A write of OWN_CMD.GO starts a hand-over of a block toward the other world. -/
  | ownHandover (agent block : Nat) (toSecure : Bool)
  /-- HANDOVER_IDLE (R523): The handing-over block reads IDLE, and its flush starts. -/
  | handoverIdle
  /-- HANDOVER_TIMEOUT (R523): HANDOVER_MAX strokes pass with IDLE 0, so the hand-over fails with cause 0x1. -/
  | handoverTimeout
  /-- HANDOVER_FLUSH_DONE (R523): The hand-over flush completes, and a block-level reset is requested. -/
  | handoverFlushDone
  /-- HANDOVER_RESET_DONE (R523): INT_RESET_DONE sets the block's new world at the next stroke edge. -/
  | handoverResetDone
  /-- POWER_REQ (R526): A normal-world clock or power request on a secure-owned block is deferred with a POWER_REQ notice. -/
  | powerReq (agent block action : Nat)
  /-- POWER_ANSWER (R527): A write of OWN_PWR_ANSWER.GO consents to or refuses a deferred request. -/
  | powerAnswer (agent block : Nat) (consent : Bool)
  /-- POWER_REQ_TIMEOUT (R527): The DEFER_SITTINGS-th Sitting boundary passes without an answer, so the request is refused. -/
  | powerReqTimeout (block : Nat)
  /-- WDOG_ENABLE (R529): A write of SECP_WDOG_CTL.ENABLE starts the secure watchdog and freezes PERIOD. -/
  | wdogEnable (agent slab period : Nat)
  /-- WDOG_KICK (R529): A write of KICK returns ELAPSED to 0. -/
  | wdogKick (agent slab : Nat)
  /-- WDOG_EXPIRE (R529): ELAPSED reaches PERIOD at a Sitting boundary, so an L3 fault is recorded and a cold reset follows. -/
  | wdogExpire
  /-- MIRROR_COPY_DONE (R508): The copy of the persistent regions to the returning Slab ends, and MIRROR_OK reads 1. -/
  | mirrorCopyDone
  /-- ERROR_REPORT (R535): A block's error wire signals a report, which the collector takes, stamps, levels and records. -/
  | errorReport (reps : List Rep)
  /-- WIRE_BROKEN (R536): An error wire holds an invalid state for four ticks and is declared broken. -/
  | wireBroken (block inst loc phase : Nat)
  /-- FLT_ACK (R544): A write of FLT_ACK acknowledges records of a class, or of every class, and clears pending state. -/
  | fltAck (agent cls seq : Nat) (all : Bool)
  /-- SEAM_REPLAY (R551): A Seam flit with a bad CRC is replayed and its group's bucket grows, possibly to a permanent fault. -/
  | seamReplay (slab group : Nat)
  /-- AUX_RAIL_UP (R575): The auxiliary rail comes up, and the supervisor reads the thermal memory. -/
  | auxRailUp (inputOk memValid : Bool)
  /-- AUX_RAIL_DOWN (R581): The auxiliary rail fails, and the supervisor goes to OFF with the thermal memory holding its state. -/
  | auxRailDown
  /-- PWR_EN_ASSERT (R581): PWR_EN_L is asserted, so the switch ramps or latch-off clears. -/
  | pwrEnAssert (lowMs : Nat)
  /-- PWR_EN_DEASSERT (R581): PWR_EN_L is deasserted, so the switch opens and the rails go down in order. -/
  | pwrEnDeassert
  /-- INPUT_OUT_OF_RANGE (R572): The input falls below UV_OFF or rises above OV_OFF, so the switch opens without a fault. -/
  | inputOutOfRange (high : Bool) (vin : Nat)
  /-- INPUT_IN_RANGE (R572): The input returns between UV_ON and OV_ON, and the switch may close again. -/
  | inputInRange
  /-- CURRENT_LIMIT (R563): The current is held at the 12 A limit, so the fault timer runs and power-good falls. -/
  | currentLimit
  /-- LIMIT_CLEAR (R567): The current falls below the limit, so the timer returns to 0 and LIMIT_EVENTS increments. -/
  | limitClear
  /-- FAULT_TIMER_EXPIRE (R565): The fault timer reaches 2 ms, so the switch opens and the fault is counted. -/
  | faultTimerExpire (vin : Nat)
  /-- FAST_TRIP (R564): The current exceeds the fast trip threshold, so the switch opens within 1 µs. -/
  | fastTrip (vin : Nat)
  /-- POWER_GOOD_RISE (R566): The power-good conditions have held for the deglitch time, so PWR_GOOD rises. -/
  | powerGoodRise
  /-- RAIL_STEP_DONE (R577): A rail-sequence step's rails report good, and the next step starts or power-on reset is released. -/
  | railStepDone
  /-- RAIL_SEQUENCE_FAULT (R578): A step exceeds its limit or a rail fails later, which is a fault. -/
  | railSequenceFault (rail vin : Nat)
  /-- COOL_DOWN_END (R569): The 5 s cool-down ends, and the supervisor retries or waits for enable. -/
  | coolDownEnd
  /-- CLEAN_TIME_EXPIRE (R570): Power-good has held for the clean time, so FAULT_COUNT returns to 0. -/
  | cleanTimeExpire
  /-- THERMAL_MEMORY_TICK (R574): Every 10 ms on its capacitor, the thermal memory decrements COOL_LEFT. -/
  | thermalMemoryTick
  /-- FET_BAD (R576): The output stays present while the switch is commanded off, so the pass transistor is declared damaged. -/
  | fetBad (vin : Nat)
  /-- POWER_OFF (R579): A write of PSUP_CTL.POWER_OFF takes the rails down in order and opens the switch. -/
  | powerOff (agent : Nat)
  /-- POWER_ON_RESET (R597): The supervisor releases the hub's power-on reset, and the cold start sequence begins. -/
  | powerOnReset (straps : Straps) (refPresent : Bool)
  /-- SYS_RST (R583): SYS_RST_L is sampled asserted in two consecutive ticks, which causes a cold reset. -/
  | sysRst
  /-- RSTC_WARM (R587): An RSTC_CMD warm reset starts the warm reset sequence at the next stroke edge. -/
  | rstcWarm (agent : Nat)
  /-- RSTC_COLD (R586): An RSTC_CMD cold reset starts a cold reset at the next stroke edge. -/
  | rstcCold (agent : Nat)
  /-- WARM_FLUSH_DONE (R587): The warm-reset flush ends, and the channels enter self-refresh. -/
  | warmFlushDone
  /-- WARM_FLUSH_TIMEOUT (R588): The flush exceeds WARM_FLUSH_MAX, so the reset becomes cold with cause 0x0B. -/
  | warmFlushTimeout
  /-- SLAB_RESET_RELEASE (R590): After 16 strokes an absent Slab is released from reset and restarts. -/
  | slabResetRelease (slab : Nat)
  /-- BOOT_VERIFY_DONE (R593): The boot engine accepts or rejects a configuration or image by header, signature and digest. -/
  | bootVerifyDone (slab kind : Nat) (readErr : Bool)
  /-- MGMT_BOOT_DATA (R595): A ring-stream word is written while WAIT_RING, and ADDR advances. -/
  | mgmtBootData (agent : Nat) (words : List Nat)
  /-- MGMT_BOOT_END (R595): A write of MGMT_BOOT_CTL.END ends the ring stream and starts its verification. -/
  | mgmtBootEnd (agent : Nat)
  /-- PROCESSOR_RELEASE (R597): After the fill and image acceptance, the secure and then the management processors are released. -/
  | processorRelease
  /-- HOST_READY (R598): A write of MGMT_CTL.HOST_READY allows READY to rise. -/
  | hostReady (agent slab : Nat)
  /-- READY_RISE (R598): READY rises at the first stroke edge at which its conditions hold, and Memory Active is set. -/
  | readyRise
  /-- CLOCK_LOST (R603): The clock monitor finds a domain outside ±6 %, which declares a Slab absent or a timebase loss. -/
  | clockLost (domain : Nat)
  /-- REFCLK_LOST (R603): REFCLK is absent in mode 0b00, so the PLLs move to the oscillator and the host links go down. -/
  | refclkLost
  /-- REFCLK_RETURN (R603): REFCLK returns, and the host links may train again. -/
  | refclkReturn
  /-- CLKC_GATE (R604): A CLKC_GATE request with GATE 1 gates a domain, is deferred, or is refused. -/
  | clkcGate (agent target : Nat)
  /-- CLKC_UNGATE (R604): A CLKC_GATE request with GATE 0 ungates a domain within 2 strokes. -/
  | clkcUngate (agent target : Nat)
  /-- SEAM_LOCK_LOSS (R551): A Seam lane group's receiver loses lock, which adds W_LOCK to that group's bucket and may declare a permanent Seam fault. -/
  | seamLockLoss (slab group : Nat)
  /-- SEAM_REPLAY_TIMEOUT (R551): A Seam flit goes unacknowledged until its timeout and is replayed, which adds W_TIMEOUT to its group's bucket. -/
  | seamReplayTimeout (slab group : Nat)
  /-- SYS_RST_RELEASE (R617): SYS_RST_L is sampled deasserted in two consecutive supervisor ticks, which ends the held cold reset so the straps are latched and the cold start sequence begins. -/
  | sysRstRelease (straps : Straps) (refPresent : Bool)
  /-- CONFIG_SPACE_WRITE (R496): A host configuration write changes an attach point's function power state (D3hot and D0) or its Bus Master Enable, which governs Rest entry, PCI-PM L1 and offload and engine host accesses. -/
  | configSpaceWrite (a : Nat) (d3 bme msix : Bool)
  /-- QENG_FLUSH_DONE (R402): An engine cache flush started by CACHE_FLUSH ends, FLUSH_BUSY clears and FLUSH_DONE is raised. -/
  | qengFlushDone (q : Nat)
  /-- HANDBACK_DONE (R336): The survivor's transfer of acting-home entries, census and unknown marks ends, HOME_STATUS.HANDBACK clears and HANDBACK_DONE is raised. -/
  | handbackDone
deriving DecidableEq, Repr

end Sys2Proof
end

