-- ==== Sys2Proof/Config.lean ====
section
/-! DEFINITION. What an implementation fixes and the spec leaves open: free values, identities and keys fused at
manufacture, and layouts of its own. None of these has a body. -/

namespace Sys2Proof.Config

/-- A free value of `w` bits: the `n`-th one drawn. Key draws, nonces, random identifiers and every value the spec leaves
unspecified are draws of it. -/
opaque freeValue (w n : Nat) : BitVec w

/-- The 8-byte module serial (R295, R512). -/
opaque serial : BitVec 64

/-- Celmonid's PCI vendor identifier (R276). -/
opaque vendorId : BitVec 16

/-- Die identifier of each Slab (SLAB_DIE.DIE_ID). -/
opaque dieId (slab : Nat) : BitVec 32

/-- Minimum SVN fused at manufacture (R593). -/
opaque minSvn : Nat

/-- Speed grade a hub firmware configuration selects (R124), whose layout the spec leaves open: 0 for 3,200, 1 for 3,733, 2 for 4,266 MT/s; any
other is treated as 4,266. -/
opaque gradeOf (config : List Byte) : Nat

/-- Digest of the default configuration as held in boot ROM (R594). -/
opaque defaultConfig : BitVec 384

/-- ECDSA P-384 public keys, x then y, each most significant byte first: 0 is the image key of boot ROM, 1 the debug authorisation key of the
secure image (R515, R521, R593). -/
opaque publicKey (key : Nat) : BitVec 768

/-- The signature the device identity key gives to a message: the key is fused and its nonces are the processor's own (R514, R515). -/
opaque sign (m : List Byte) : BitVec 768

/-- Command effects the Command Effects Log gives an opcode (R294). -/
opaque commandEffect (opcode : Nat) : BitVec 16

/-- First page of the page-map line that a line of a channel's metadata area holds, if it holds one: Vein, channel offset, chunk and position. The
spec gives the area's contents and not their places (R118). -/
opaque mapLine (v ofs chunk pos : Nat) : Option Nat

/-- Tree, level and index of the counter-class line that a line of a channel's metadata area holds, if it holds one (R118). -/
opaque counterLine (v ofs chunk pos : Nat) : Option (Nat × Nat × Nat)

/-- The order in which two requests of one tick arrive where the spec does not order them. -/
opaque coin (n : Nat) : Bool

/-- The bits of a dynamic DEFLATE block for a token sequence (a literal is a byte with distance 0; a match is a length with its distance), with
its end-of-stream mark: the spec fixes matches, parsing and block type (R167) and leaves the code lengths open. -/
opaque dynBlock (fin : Bool) (tokens : List (Nat × Nat)) : List Bool

/-- Line `i` of a context image's body, in the engine's own layout of the stream state (R180). -/
opaque ctxBody (state : List (List Byte)) (i : Nat) : Line

/-- Part `i` of the stream state that the engine reads from a body it did not write (R182: unspecified output). -/
opaque ctxPart (body : List Line) (i : Nat) : List Byte

end Sys2Proof.Config
end

