-- ==== Sys2Proof/Machine/RegKey.lean ====
section
/-! DEFINITION. Where a register field stands and how a register store holds it: its bit address, its reset value, reading and writing one
field. -/

namespace Sys2Proof.Machine

/-- Offset of the first page of instance `n` (its module-wide number, R61) of a block (R74, R75). -/
def pg (b : Block) (n : Nat) : Nat :=
  if b.perSlab then (n / b.insts) * 0x400000 + b.off + 0x1000 * (n % b.insts) else b.off + 0x1000 * n

/-- Reset value of instance `i` of a field. -/
def Fld.rstI (f : Fld) (i : Nat) : Nat := f.rst.getD i (f.rst.headD 0) % 2 ^ f.w

/-- Bit address of instance `i` of a field in the page at offset `p`. -/
def fkey (p : Nat) (f : Fld) (i : Nat) : Nat := 8 * (p + f.off) + f.lo + f.bst * i

/-- Value of a field held in a register store. -/
def fread (m : SMap Nat) (p : Nat) (f : Fld) (i : Nat) : Nat := sget 0 m (fkey p f i) ^^^ f.rstI i

/-- Write a field of a register store, the value cut to the field's width. -/
def fwrite (m : SMap Nat) (p : Nat) (f : Fld) (i v : Nat) : SMap Nat :=
  sset 0 m (fkey p f i) ((v % 2 ^ f.w) ^^^ f.rstI i)

end Sys2Proof.Machine
end

