-- ==== Sys2Proof/Machine/StateA.lean ====
section
/-! DEFINITION. State of the data path: timebase, tiers, Veins, codec, protection, keys, ports, home, Hub Cache, regulation
and faults. Plain data only. Fields that are copies of one another are stored once; registers that show a figure of these
structures are computed at the read (Machine/RegRead.lean). -/

namespace Sys2Proof.Machine

/-- A stamp: the stroke and phase to which an event belongs (R38, R39). -/
structure Stamp where
  stroke : Stroke := 0
  phase : Nat := 0
deriving DecidableEq, Repr

/-- The timebase (R32 to R36) and the hot-refresh test (R47, R48, R137). -/
structure Timebase where
  stroke : Stroke := 0
  phase : Nat := 0
  /-- ticks of the stroke in progress: 191, 192 or 193 (R33) -/
  len : Nat := 192
  /-- local stroke edges since the timebase started (TMB_LOCAL_ELAPSED) -/
  elapsed : BitVec 32 := 0
  /-- the local stroke that is to take a fabric number, and that number (R36, R455) -/
  adopt : Option (Stroke × Stroke) := none
  /-- per-agent latch of (STROKE_HI, PHASE) (R58) -/
  latches : SMap (Nat × Nat) := []
  /-- the stroke just begun opens a Layer or a Sitting whose boundary step has not run yet (R14) -/
  layerDue : Bool := false
  sittingDue : Bool := false
  /-- the edge just passed has work left: it waits for the boundary, the adoption and the activations due at the edge (R14, R41) -/
  edgeOpen : Bool := false
  /-- some channel read MR4 0b100 or above since the last Layer boundary (R47, R139) -/
  hotSeen : Bool := false
  /-- hot-refresh mode is declared (TMB_STATUS.HOT_REFRESH) -/
  hot : Bool := false
  /-- a reading above the exit threshold is stamped in the Sitting in progress (R48) -/
  hotBad : Bool := false
  /-- the Sitting in progress began at or after the declaration of the mode (R48) -/
  hotWhole : Bool := false
deriving DecidableEq, Repr

/-- Page states of R95. -/
inductive PState
  | zero | hot | deep | plain | spilled | moving | unmapped
deriving DecidableEq, Repr

/-- A page-map entry (R95, R96): one structure for both layouts, `handle` and `donor` used while spilled. -/
structure PEntry where
  st : PState := .zero
  heat : Nat := 0
  vein : Nat := 0
  loc : Nat := 0
  gm1 : Nat := 0
  epoch : Nat := 0
  ctx : Nat := 0
  pinned : Bool := false
  noSpill : Bool := false
  handle : Nat := 0
  donor : Nat := 0
deriving DecidableEq, Repr

/-- Kinds of tier move (R105, R103, R170, R216). -/
inductive MoveKind
  | demote | promote | spill | recallHot | recallDeep | deepToDeep
deriving DecidableEq, Repr

/-- A move in progress on one page (R105, R107). -/
structure Move where
  page : Nat
  kind : MoveKind
  /-- state the page had when the move began: the entry keeps the source location (R97) -/
  src : PState := .hot
  /-- destination of a move to hot: Diptych and frame -/
  dk : Nat := 0
  frame : Nat := 0
  /-- a destination frame has been allocated -/
  hasFrame : Bool := false
  /-- the image (deep moves, or as a donor returned it); empty until it is there -/
  image : List Byte := []
  /-- the image has its place in the deep tier -/
  encoded : Bool := false
  /-- the image is eight raw granules -/
  plain : Bool := false
  /-- destination of a move to deep: Vein and first data granule -/
  vein : Nat := 0
  loc : Nat := 0
  /-- every row of the destination has been written -/
  rowsWritten : Bool := false
  /-- begun by a write: its decode is one for a write merge (R172) -/
  write : Bool := false
  /-- the decode of its image for a move to hot has ended on a lane (R172) -/
  decoded : Bool := false
  /-- charged to the foreground class (R110) -/
  fg : Bool := false
  /-- a recompression (R170) -/
  recomp : Bool := false
  /-- its grant was unspent when it asked, so that it may proceed (R492) -/
  paid : Bool := false
  /-- encode effort in force when the encode begins (R169) -/
  effort : Nat := 0
  handle : Nat := 0
  donor : Nat := 0
  /-- granules received or sent so far over the ring -/
  count : Nat := 0
  /-- lines that become markers when the page is hot, with their codes (R198, R260) -/
  bad : List (Nat × Nat) := []
  /-- stamp of the write that began it, or its own beginning (R222) -/
  since : Stroke := 0
deriving DecidableEq, Repr

/-- A Vein row buffer (R102): the row it assembles and who holds each position. -/
structure RowBuf where
  vein : Nat
  row : Nat
  /-- data positions filled so far, in order: page and granule of its image -/
  slots : List (Nat × Nat) := []
  first : Stroke := 0
  /-- retired channel offset of the Vein when the row was opened (R216) -/
  ret : Option Nat := none
deriving DecidableEq, Repr

/-- What a deep row holds: the page of each of its seven data positions; `none` is padding, a freed granule or a retired position. -/
abbrev RowUse := List (Option Nat)

/-- A page lent to a borrower from the Spill pool (R115, R468, R469). -/
structure Lent where
  handle : Nat
  borrower : Nat
  granules : Nat
  /-- granules by number as received: 512 bytes of the borrower's ciphertext and its MAC line -/
  data : List (List Byte) := []
  /-- its borrower has been asked to take it back, for a smaller pool that waits (R113) -/
  asked : Bool := false
deriving DecidableEq, Repr

/-- The page map and the tier mover (chapter Addressing, Page Map and Tiers). -/
structure Tier where
  /-- entries that are not the region's default: zero inside the static region or an accepted extent, else unmapped (R98, R105) -/
  pmap : SMap PEntry := []
  moves : List Move := []
  rowBufs : List RowBuf := []
  /-- deep rows in use, keyed 2^24 × Vein + row; an unlisted row is free (R103) -/
  rows : SMap RowUse := []
  /-- rows, by the same keys, written before their Vein's channel was retired: they hold a granule on its offset (R216) -/
  oldRows : List Nat := []
  /-- rows of the Spill pool this module donates, same keys (R112) -/
  pool : List Nat := []
  lent : List Lent := []
  /-- rows held back for a larger pool that has not activated (R113) -/
  poolHeld : List Nat := []
  /-- accepted dynamic-capacity extents, in units of 256 MiB: (first, length) (R93) -/
  extents : List (Nat × Nat) := []
  /-- offers waiting for an answer: attach point, extent, Sitting of the offer (R301) -/
  offers : List (Nat × (Nat × Nat) × Nat) := []
  /-- next Vein of the row-buffer round-robin (R109) -/
  rrVein : Nat := 0
  /-- the frame at which each Diptych's demotion sweep stands (R110) -/
  sweeps : SMap Nat := []
  /-- Diptychs whose sweep has not reached FREE_HIGH (R110) -/
  sweeping : List Nat := []
  /-- Diptychs whose free frames are below FREE_LOW (R110, HOT_LOW) -/
  lowDipts : List Nat := []
  /-- pages whose entries stand in the page-map caches, oldest first (R98) -/
  mapCache : List Nat := []
  /-- page-map lines lost in both copies: the eight-page group m (R199) -/
  lostLines : List Nat := []
  /-- images that failed their decode and read as poison until rewritten (R163) -/
  badImages : List Nat := []
  /-- moves deferred while another runs: pins (R107) -/
  deferredPins : List Nat := []
  /-- pages with writes held under R117: page, stamp of the write, and whether its 2,048 strokes have run out -/
  exhausted : List (Nat × Stroke × Bool) := []
  /-- logical bytes and granule bytes are measured from the map; the last measured ratio in 1/256 (TIER_RATIO) -/
  rebalanceTo : Option Nat := none
  /-- free deep rows are below 1/64 of the deep area (R112) -/
  deepLow : Bool := false
  /-- borrowing is wanted and the manager has named no donor (R121, SPILL_NEEDED) -/
  spillWant : Bool := false
  /-- recompression cursor per Vein: next granule of the pass (R170) -/
  recomp : SMap Nat := []
deriving DecidableEq, Repr

/-- What is bound to a stored line by encryption and MAC (R241 to R243): the model keeps the plaintext beside its binding. -/
structure Sealed where
  plain : Line := 0
  keys : KeyMaterial := 0
  name : Nat := 0
  page : Nat := 0x1FFFFFFF
  ctx : Nat := 0
  minor : Nat := 0
  ver : Nat := 0
deriving DecidableEq, Repr

/-- A line as stored in a channel: its sealed content, whether its check word is inverted (a poison marker, R205),
whether it is a parity granule line, and the error pattern that now lies over its 72-byte codeword. -/
structure Stored where
  sealedIn : Sealed := {}
  marker : Bool := false
  parity : Bool := false
  err : Codeword := 0
deriving DecidableEq, Repr

/-- A leaf of the counter tree (R246, R247). An unlisted leaf has all counters zero in the form of its position. -/
structure Leaf where
  major : Nat := 0
  /-- nonzero minors by line (R246) -/
  minors : SMap Nat := []
  verLo : Nat := 0
  verHi : Nat := 0
  lostLo : Bool := false
  lostHi : Bool := false
deriving DecidableEq, Repr

/-- Diptych states of R230. -/
inductive DState
  | paired | retiring | solo | resync | single | failed
deriving DecidableEq, Repr

/-- One Diptych (R200 to R233). Retired channels and Veins are in DIPT_STATUS. -/
structure Dipt where
  st : DState := .paired
  /-- frames whose resync bit is set (R223) -/
  stale : List Nat := []
  /-- frames of which the governing side itself holds the stale copy, its source having been lost during resync (R229) -/
  behind : List Nat := []
  /-- relocation remains to do (R230) -/
  reloc : Bool := false
  /-- frames and pages still to move (DIPT_RELOC_LEFT), as lists of frames and pages -/
  relocFrames : List Nat := []
  relocPages : List Nat := []
  /-- lines of the resync bitmap changed in the DPRT block's cache and not yet written back (R223) -/
  mapDirty : List Nat := []
deriving DecidableEq, Repr

/-- A row that a stream hint keeps open on a channel (R144): until a local elapsed stroke and tick, with the level and deadline of its last access. -/
structure HeldRow where
  ofs : Nat
  el : Nat
  phase : Nat
  level : Nat
  deadline : Stroke
deriving DecidableEq, Repr

/-- Vein scheduling state (chapter Veins and LPDDR4X Channels). -/
structure VeinSt where
  /-- a code 0b101 or 0b110 has been read: the quarter plan comes with the next Layer (R141) -/
  quarterNext : Bool := false
  /-- a reading above 0b100 is stamped in the Sitting in progress (R141) -/
  quarterBad : Bool := false
  /-- the Sitting in progress began in the quarter plan -/
  quarterWhole : Bool := false
  /-- attach points in panic at this Vein (R146) -/
  panic : List Nat := []
  /-- steering reserve and data slots used in the stroke, per channel offset (R131, R135) -/
  reserveUsed : SMap Nat := []
  slotsUsed : SMap Nat := []
  /-- metadata slots used in the stroke, per channel offset (R131, R191) -/
  metaUsed : SMap Nat := []
  reserveHit : Bool := false
  /-- rows held open after an access (R144) -/
  held : List HeldRow := []
  /-- refresh is postponed for the channel offset (R142) -/
  postponed : List Nat := []
  /-- channel offsets closed this stroke by a refresh outside their slot, and those to be closed in the next (R140, R142) -/
  forced : List Nat := []
  forcedNext : List Nat := []
  /-- channels in a write drain (R143) -/
  draining : List Nat := []
  /-- write-stamp table of R338: counters by page bits [9:0] -/
  wstamp : SMap Nat := []
deriving DecidableEq, Repr

/-- Channel state beside its registers. -/
structure ChanSt where
  /-- refresh slots since the last ZQ calibration start (R125) -/
  zqCount : Nat := 0
  /-- stroke of the slot that started a ZQ calibration, until the following slot latches it -/
  zqPending : Option Stroke := none
  /-- stroke of the slot whose MR4 reading has been taken (R125) -/
  polled : Option Stroke := none
  /-- Sitting in which the read centre was last checked (R130) -/
  centreSitting : Option Nat := none
  /-- trained read centres by e, kept to measure RETRAIN_SHIFT (R130) -/
  trained : SMap Nat := []
  /-- refresh debt is being kept since the first hot poll, and the REFab owed, in 1/65 of a command (R140) -/
  debtOn : Bool := false
  owed : Nat := 0
deriving DecidableEq, Repr

/-- A queued access of a Vein channel (R143 to R145). -/
structure VAcc where
  vein : Nat
  ofs : Nat
  /-- precedence level of R145, 2 to 7 -/
  level : Nat
  write : Bool := false
  deadline : Stroke := 0
  stamp : Stroke := 0
  /-- attach point or requester number of R328 -/
  who : Nat := 0
  admitted : Bool := false
  engine : Option Nat := none
  /-- steering or rebuild read of a refresh-bound read (R134, R135) -/
  steer : Bool := false
  /-- the read or write it serves; 0 is internal work that nothing waits for -/
  id : Nat := 0
  /-- a read of a hot-tier line (R142) -/
  hot : Bool := false
  /-- page-open hint (R144) -/
  hint : Nat := 0
  /-- the line a write is to -/
  key : Option Nat := none
  /-- line slots still to be given -/
  count : Nat := 1
deriving DecidableEq, Repr

/-- A security alarm record (R270). -/
structure Alarm where
  cls : Nat
  checker : Bool := false
  viral : Bool := false
  seq : Nat := 0
  stamp : Stroke := 0
  ctx : Nat := 0
  page : Nat := 0x1FFFFFFF
  line : Nat := 0
  agent : Nat := 0
  poison : Nat := 0
  level : Nat := 0
  media : Nat := 0
  hqSeq : Nat := 0
deriving DecidableEq, Repr

/-- A key context (R234). -/
structure KeyCtx where
  valid : Bool := false
  release : Bool := false
  prot : Bool := false
  mask : Nat := 0xFFFF
  keys : KeyMaterial := 0
deriving DecidableEq, Repr

/-- A counter-class line in an owner's counter-tree cache (R253). -/
structure TreeLine where
  dipt : Nat
  level : Nat
  index : Nat
  dirty : Bool := false
deriving DecidableEq, Repr

/-- Counter-tree losses under rebuild (R265): Diptych, level, index. -/
structure TreeLoss where
  dipt : Nat
  level : Nat
  index : Nat
  ledger : Bool := false
deriving DecidableEq, Repr

/-- Encryption and integrity (chapter 07). -/
structure Crypto where
  ctxs : SMap KeyCtx := []
  /-- the metadata key (R239) -/
  metaKey : KeyMaterial := 0
  /-- an erase waiting for its edge and its drain: context and Slab whose page shows BUSY (R236) -/
  erasing : List (Nat × Nat) := []
  eraseEdge : List (Nat × Nat) := []
  /-- attribute writes waiting for the next stroke edge: context, release, protected, mask (R272) -/
  attrNext : List (Nat × Bool × Bool × Nat) := []
  /-- counter leaves by 6291456 × Diptych + position (R247, R250) -/
  leaves : SMap Leaf := []
  /-- ranges [lo, hi) of leaf positions that have changed between hot and deep, one entry a change (R248) -/
  rebased : List (Nat × Nat) := []
  /-- tree node counters by (Diptych, level, index, child) coded as in `nodeKey`, and root slots (R250, R252) -/
  nodes : SMap Nat := []
  roots : SMap Nat := []
  cache : List TreeLine := []
  losses : List TreeLoss := []
  /-- spill ledger: sequence and IN_USE by handle (R266) -/
  ledgerSeq : SMap Nat := []
  ledgerUse : SMap Bool := []
  /-- next spill sequence (R266) -/
  spillSeq : Nat := 1
  /-- alarm queues: 16 records per Slab, keyed 16 × Slab + entry (R270) -/
  alarms : SMap Alarm := []
  alarmSeq : SMap Nat := []
  /-- debug access is open from this edge on; `debugNext` waits for the edge (R268, R521) -/
  debugOpen : Bool := false
  debugNext : Bool := false
deriving DecidableEq, Repr

/-- A check line or a MAC line in a Vein's check cache (R191, R244): the chunk of 512 bytes it covers, by channel offset and number; which of its
eight words are held, and which were written since they last stood in memory. -/
structure CheckLine where
  vein : Nat
  ofs : Nat
  chunk : Nat
  mac : Bool
  held : Nat := 0
  dirty : Nat := 0
deriving DecidableEq, Repr

/-- A stored-media store: data-area lines keyed by `mediaKey`; an unlisted line is free media as the fill wrote it (R210). -/
structure Media where
  lines : SMap (Option Stored) := []
  /-- error pattern over the codeword of a stored MAC or metadata line, by `resvKey`; an unlisted one has none (R118, R189) -/
  resv : SMap Codeword := []
  /-- lines of the Veins' check caches, least recently used first (R191) -/
  checks : List CheckLine := []
  /-- lines read in the scrub pass in progress, per Vein (R202) -/
  scrubPos : SMap Nat := []
  /-- Sittings the pass in progress has lasted, per Vein (R204) -/
  scrubAge : SMap Nat := []
  /-- lines read that the grants of the Sittings so far have not yet covered, per Vein (R202, R204) -/
  scrubUsed : SMap Nat := []
  /-- Veins whose pass in progress has lasted twice its nominal length (R204) -/
  latePass : List Nat := []
  /-- Veins in a return pass at 64 times SCRUB_RATE (R224) -/
  fastPass : List Nat := []
deriving DecidableEq, Repr

/-- A requester of a home request (R26, R328). -/
inductive Requester
  | host (a : Nat)
  | engine (q : Nat)
  | mgmt (s : Nat)
  | codec (s : Nat)
  | mover (s : Nat)
  | resync (s : Nat)
  | scrub (s : Nat)
  | secp (s : Nat)
deriving DecidableEq, Repr

/-- What a request asks of the home. -/
inductive ReqKind
  | read      -- no caching
  | readS
  | readA
  | write
  | snoopRead
  | atomic
  | marker    -- marker write of R262
  | discard
  | inject    -- Inject Poison
  | clearP    -- Clear Poison
  | pmapRead
  | pin
  | unpin
  | dirq
  | cachePage -- page command of R358
  | intS | intX | intUpg | intWb | intEvict
deriving DecidableEq, Repr

/-- A request at the home. -/
structure HReq where
  id : Nat
  kind : ReqKind
  who : Requester
  page : Nat
  line : Nat := 0
  ctx : Nat := 0
  stamp : Stroke := 0
  phase : Nat := 0
  admitted : Bool := false
  /-- regulation class, none for internal and refused requests (R404, R405) -/
  cls : Option Nat := none
  /-- MetaValue of a write: writer stays in S (R314) -/
  keepS : Bool := false
  data : Line := 0
  /-- byte enables of a write; all ones is a full line -/
  mask : BitVec 64 := 0
  poison : Bool := false
  /-- page-open hint of R144 -/
  hint : Nat := 0
  /-- operation code and operand of an atomic, or sub-operation of a page command -/
  op : Nat := 0
  arg : Nat := 0
  code : Nat := 0
  /-- kernel and row values of a far atomic's merge (R325, R377) -/
  kernel : List Byte := []
  vals : List (Option Nat) := []
  /-- local elapsed strokes at the stamp (R36) -/
  el : Nat := 0
  /-- restart of the bound by a snoop response, in local elapsed strokes (R45, R316) -/
  boundFrom : Option Nat := none
  /-- stamped in a Layer in which hot-refresh mode was declared (R45, R48) -/
  hotBound : Bool := false
  /-- held for media on an absent Slab: no bound (R45, R222) -/
  unbound : Bool := false
  /-- has passed its key lookup (R236) -/
  looked : Bool := false
  /-- Slab that took the request (register commands, engines) -/
  slab : Nat := 0
  /-- error patterns the fetch of a partial write meets: first read, re-read, second source, second source out of reach -/
  err : Codeword × Codeword × Codeword × Bool := (0, 0, 0, false)
deriving DecidableEq, Repr

/-- A hot write that waits in the home line buffer for room in its write queues: its queue entries, and whether its completion is
still to be sent. -/
structure HeldWrite where
  accs : List VAcc
  req : HReq
  tell : Bool := false
deriving DecidableEq, Repr

/-- Who must still answer a recall: a host, an internal owner, or an internal sharing group (R314, R320). -/
inductive Holder
  | host (a : Nat)
  | owner (o : Nat)
  | group (g : Nat)
deriving DecidableEq, Repr

/-- Back-invalidate snoop kinds. -/
inductive Snp
  | cur | data | inv
deriving DecidableEq, Repr

/-- A request that waits for answers, holding its line (R329). -/
structure Waiting where
  req : HReq
  awaiting : List Holder := []
  snp : Snp := .inv
  /-- local elapsed strokes at the last snoop response it waited for (R45, R316) -/
  lastRsp : Option Nat := none
  /-- a directory victim's recall instead of a request's (R312) -/
  victim : Bool := false
  /-- hosts whose snoop waits for one of the 64 outstanding (R283) -/
  unsent : List Nat := []
  /-- data an internal owner forwards (R319), or a host's writeback the read takes (R316) -/
  fwd : Option Line := none
deriving DecidableEq, Repr

/-- Why a read is not yet ready to leave. -/
inductive RdState
  | media      -- waits for MEDIA_READ_RETURN
  | decode     -- image verified; waits for a codec lane
  | donor      -- forwarded to the donor
  | held       -- absent Vein, absent donor
  | ready
  | dropped
deriving DecidableEq, Repr

/-- One stored line a read needs: image or page line, media key, what the line held when the read was ordered, and the binding it
must verify under. -/
structure Need where
  idx : Nat
  key : Nat
  snap : Stored
  want : Sealed
deriving DecidableEq, Repr

/-- A line held in the home line buffer: byte enables other than all ones are still to be merged over the decoded line. -/
structure HeldLine where
  line : Nat
  data : Line := 0
  /-- poison code, 0 for good data -/
  poison : Nat := 0
  mask : BitVec 64 := 0xFFFFFFFFFFFFFFFF
deriving DecidableEq, Repr

/-- A read in flight from its ordering to its egress. -/
structure Rd where
  req : HReq
  st : RdState
  data : Line := 0
  /-- poison code to return, 0 for good data -/
  poison : Nat := 0
  /-- Vein that serves it, for DevLoad (R289) -/
  vein : Option Nat := none
  /-- entry as looked up, its state the state of the source copy (R97, R106) -/
  loc : PEntry := {}
  needs : List Need := []
  /-- released before its verdict (R259) -/
  early : Bool := false
  /-- its MAC failed after the release; the verdict is still to come -/
  lateBad : Bool := false
  /-- its lines may install in the Hub Cache (R343) -/
  fill : Bool := false
  /-- image bytes verified, for the decode -/
  image : List Byte := []
  /-- write-stamp counter at the granule read (R338) -/
  ws : Nat := 0
  /-- a partial write held for the line when the read was ordered -/
  merge : Option HeldLine := none
  /-- missed the Hub Cache: a run-ahead fill or a prefetch may follow -/
  missed : Bool := false
deriving DecidableEq, Repr

/-- A directory entry (R309). -/
inductive HState
  | i | s | a
deriving DecidableEq, Repr
inductive IState
  | i | s | e | m | o
deriving DecidableEq, Repr
structure DirEnt where
  tag : Nat := 0
  hst : HState := .i
  hosts : Nat := 0
  ist : IState := .i
  iowner : Nat := 31
  ishare : Nat := 0
deriving DecidableEq, Repr

/-- A victim-buffer entry (R312): its home Slab and line. -/
structure Victim where
  slab : Nat
  hl : Nat
  ent : DirEnt
deriving DecidableEq, Repr

/-- A line held in an internal cache (engines 0 to 15, management processors 16 and 17). -/
structure ICLine where
  owner : Nat
  page : Nat
  line : Nat
  dirty : Bool := false
  data : Line := 0
  /-- updates applied since the line was taken (R327) -/
  updates : Nat := 0
  ctx : Nat := 0
deriving DecidableEq, Repr

/-- Coherence at the homes (chapter 09). -/
structure Home where
  /-- entries keyed 4194304 × Slab + 16 × set + way; an unlisted way is free -/
  dir : SMap DirEnt := []
  /-- tree bits of each set, keyed 262144 × Slab + set (R312) -/
  plru : SMap Nat := []
  victims : List Victim := []
  waiting : List Waiting := []
  /-- requests ordered behind a held line, oldest first (R329), and requests waiting for a tracker (R330) -/
  queue : List HReq := []
  senders : List HReq := []
  reads : List Rd := []
  icache : List ICLine := []
  /-- departed attach points and the Slabs whose sweep has ended (R332) -/
  departing : List (Nat × Nat) := []
  /-- attach points that depart at the next stroke edge (R332) -/
  departNext : List Nat := []
  /-- unknown regions (R334) and the one under resolution -/
  unknown : List Nat := []
  resolving : Option Nat := none
  /-- requests waiting for a region's resolution (R335) -/
  regionWait : List HReq := []
  /-- predictor counters keyed 4096 × Slab + index (R326) -/
  pred : SMap Nat := []
  /-- next request number (the model's own) -/
  nextId : Nat := 0
  /-- early releases whose verdict failed and is still to come (R259) -/
  late : List Rd := []
  /-- writes whose completion waits for a frame (R117) -/
  owed : List HReq := []
  /-- full-line writes to lines under a lost counter line (R265) -/
  treeHeld : List HReq := []
  /-- lines in the home line buffer that a far atomic has changed and the next one queued for the line takes up, each as the write it is due (R325) -/
  atomicHeld : List HReq := []
  /-- the acting home's hand-back waits for the Hub Cache sweep, then runs (R336, R346) -/
  handback : Bool := false
deriving DecidableEq, Repr

/-- A page slot of the home line buffer (R354). -/
structure HlbSlot where
  slab : Nat
  page : Nat
  /-- a run-ahead slot; otherwise it holds written lines (R349, R354) -/
  runahead : Bool := false
  lines : List HeldLine := []
  ctx : Nat := 0
  use : Nat := 0
  /-- the write-stamp counter at the granule read (R338) -/
  ws : Nat := 0
  /-- sub-blocks still to install in a run-ahead fill, and whether its decode has ended on a lane (R172, R349) -/
  left : List Nat := []
  ready : Bool := false
  image : List Byte := []
deriving DecidableEq, Repr

/-- Hub Cache entry states (R341). -/
inductive HcSt
  | valid | updating
deriving DecidableEq, Repr
structure HcEnt where
  st : HcSt := .valid
  name : Nat := 0
  cont : Stored := {}
  secure : Bool := false
  prefetched : Bool := false
  page : Nat := 0
deriving DecidableEq, Repr

/-- A chunk entry of a Vein line buffer (R355, R356). -/
structure VlbEnt where
  vein : Nat
  /-- channel offset and chunk it writes -/
  ofs : Nat
  chunk : Nat
  page : Nat
  /-- lines of the chunk allocated as zero, by position -/
  zeros : List Nat := []
deriving DecidableEq, Repr

/-- The Hub Cache and the line buffers (chapter 10). -/
structure Hub where
  /-- entries keyed 524288 × Slab + 16 × set + way; an unlisted way is INVALID -/
  ents : SMap (Option HcEnt) := []
  plru : SMap Nat := []
  slots : List HlbSlot := []
  useCtr : Nat := 0
  vlb : List VlbEnt := []
  /-- a repartition waits for its sweep: Slab and new number of secure ways (R353) -/
  repart : List (Nat × Nat) := []
  /-- maintenance commands in progress: Slab, OP, operand, agent (R358) -/
  cmds : List (Nat × Nat × Nat × Nat) := []
  /-- next-line prefetches in flight: Slab, page, line, secure (R351) -/
  prefetch : List (Nat × Nat × Nat × Bool) := []
  /-- writes ordered since a prefetch or install was issued to its line: page and line (R347) -/
  dirtied : List (Nat × Nat) := []
  sweeping : List Nat := []
  /-- what a clean command waits for: its Slab, and the held lines, buffered chunks and held writes ordered before it (R358) -/
  cleaning : List (Nat × List HeldLine × List VlbEnt × List HeldWrite) := []
  /-- writes whose channel queue is full, held until it has room (R143) -/
  wrHeld : List HeldWrite := []
  /-- accesses whose channel queue is full (R143) -/
  accHeld : List VAcc := []
deriving DecidableEq, Repr

/-- An open miss tally of one Layer (R428). -/
structure MissTally where
  layer : Nat
  count : Nat := 0
  classes : Nat := 0
  worst : Nat := 0
  firstStamp : Stroke := 0
  firstAttach : Nat := 0
  scaled : Bool := false
  hot : Bool := false
  ovr : Bool := false
deriving DecidableEq, Repr

/-- Budgets of one class in the open Layer (R407 to R412). -/
structure ClassLeft where
  rd : Nat := 0
  wr : Nat := 0
  extra : Nat := 0
  rdStripe : SMap Nat := []
  wrStripe : SMap Nat := []
  used : Nat := 0
  rdUsed : Nat := 0
  wrUsed : Nat := 0
  rdBudget : Nat := 0
  wrBudget : Nat := 0
  notAdmitted : Bool := false
  missedNow : Bool := false
  missedPrev : Bool := false
deriving DecidableEq, Repr

/-- The regulator (chapter 12). -/
structure Regu where
  /-- regulation has started: a Layer boundary passed after READY rose (R416) -/
  running : Bool := false
  left : SMap ClassLeft := []
  /-- admitted reads outstanding, keyed 2 × class + home (R409) -/
  outst : SMap Nat := []
  tallies : List MissTally := []
  /-- miss records: 16 entries of 16 bytes (R429) -/
  missQ : SMap (BitVec 128) := []
  missSeq : Nat := 0
  /-- requests held for congestion in the ingress buffers, oldest first (R418) -/
  held : List HReq := []
  /-- the configuration in force was accepted with code 0x03 -/
  ovr : Bool := false
  /-- scales of the staged commit, applied at its activation -/
  nextScale : Nat := 4096
  nextHot : Nat := 4096
  nextOvr : Bool := false
  privSeen : Bool := false
  /-- AVAIL of each stripe as R421 took it at the accepted commit, and at the commit that waits for its activation -/
  avail : SMap Nat := []
  nextAvail : SMap Nat := []
  /-- Layer whose budgets stand in `left` -/
  layer : Nat := 0
deriving DecidableEq, Repr

/-- A fault record (R539). -/
structure FRec where
  seq : Nat := 0
  cls : Nat := 0
  level : Nat := 0
  base : Nat := 0
  escalated : Bool := false
  checker : Bool := false
  acked : Bool := false
  stamp : Stroke := 0
  phase : Nat := 0
  block : Nat := 0
  inst : Nat := 0
  loc : Nat := 0
  agent : Nat := 0
  poison : Nat := 0
  page : Nat := 0x1FFFFFFF
  line : Nat := 0
  lineValid : Bool := false
  unit : Nat := 0
  detail : Nat := 0
  dropped : Nat := 0
  alarmSeq : Nat := 0
deriving DecidableEq, Repr

/-- The fault collectors (chapter 16). -/
structure Faults where
  /-- history queue: 32 entries (R540) -/
  hq : SMap FRec := []
  nextSeq : Nat := 0
  /-- pending classes with the SEQ and level of the newest record that makes them pending (R542) -/
  pend : SMap (Option (Nat × Nat)) := []
  /-- per class: records counted and escalated (FLT_CLASS_COUNT) -/
  counts : SMap (Nat × Nat) := []
  lastFatal : Option FRec := none
  /-- reports each source still holds (R541), keyed by block, instance and location -/
  waiting : SMap (List FRec) := []
  /-- broken wires: block, instance, location (R536) -/
  broken : List (Nat × Nat × Nat) := []
  /-- an L3 record has been written and its reset has not taken effect (R549, R550) -/
  fatalPending : Bool := false
deriving DecidableEq, Repr

/-- A CXL event record in an attach point's log (R300). -/
structure EvRec where
  /-- log 0 Informational, 1 Warning, 2 Failure, 3 Fatal, 4 Dynamic Capacity -/
  log : Nat
  handle : Nat := 0
  /-- true for a General Media Event, else the vendor record; dynamic capacity records use `ev` 0x100 -/
  gme : Bool := false
  dpa : Nat := 0
  ev : Nat := 0
  level : Nat := 0
  hqSeq : Nat := 0
  stroke : Stroke := 0
  unit : Nat := 0
  page : Nat := 0
  cls : Nat := 0
  line : Nat := 0
  lineValid : Bool := false
  time : Nat := 0
  /-- extent of a Dynamic Capacity record: first and length in units of 256 MiB; release asked for -/
  ext : Nat × Nat := (0, 0)
  release : Bool := false
deriving DecidableEq, Repr

/-- An HDM decoder of a port (R279 to R281). -/
structure HdmDec where
  base : Nat := 0
  size : Nat := 0
  ways : Nat := 1
  gran : Nat := 256
  pos : Nat := 0
  skip : Nat := 0
  committed : Bool := false
  err : Bool := false
  lock : Bool := false
deriving DecidableEq, Repr

/-- An attach point (chapter 08); entry 16 is the I3C path, which has logs of its own. Link fields shown in PORT_LINK are registers. -/
structure Attach where
  logs : List EvRec := []
  /-- per log: records lost to a full log, and the timestamps of the first and the last (R300) -/
  overflow : SMap (Nat × Nat × Nat) := []
  nextHandle : Nat := 1
  /-- event interrupt policy byte, per log -/
  policy : SMap Nat := []
  /-- MSI-X Enable and Bus Master Enable of the function, and D3hot -/
  msixOn : Bool := false
  bme : Bool := false
  d3 : Bool := false
  /-- vector-2 condition at the previous edge, and a rearm waiting (R293) -/
  irqWas : Bool := false
  rearm : Bool := false
  /-- requests stamped in the stroke that has not begun yet (R39) -/
  early : List HReq := []
  /-- link kept down until the next module reset (R537) -/
  linkBarred : Bool := false
  /-- CXL.mem may be enabled once the attach point's departure ends (R332) -/
  memWait : Bool := false
  /-- a conventional reset of this half has come since a SPLIT or MAX_SPEED change was accepted (R273) -/
  sawReset : Bool := false
deriving DecidableEq, Repr

/-- A poison-list entry (R285). -/
structure PoisonEnt where
  page : Nat
  line : Nat
  code : Nat
  injected : Bool := false
deriving DecidableEq, Repr

/-- Host ports and the shared mailbox state. -/
structure Ports where
  att : SMap Attach := []
  /-- port decoders keyed 8 × port + d -/
  hdm : SMap HdmDec := []
  /-- decoder changes waiting for the next stroke edge -/
  hdmNext : List (Nat × HdmDec) := []
  poisonList : List PoisonEnt := []
  poisonOverflow : Option Stroke := none
  /-- the timestamp: value in ns and the stroke of its set (R297) -/
  tstamp : Option (Nat × Stroke) := none
  /-- a Scan Media run: attach point or I3C that asked, first page, pages, its beginning (R298) -/
  scan : Option (Nat × Nat × Nat × Stroke) := none
  scanResult : List PoisonEnt := []
  /-- who runs the firmware transfer under way (R299) -/
  fwOwner : Option Nat := none
  /-- alert configuration as Set Alert Config last gave it (R294, R299) -/
  alertCfg : BitVec 96 := 0
deriving DecidableEq, Repr

end Sys2Proof.Machine
end

