-- ==== Sys2Proof/Machine/StateB.lean ====
section
/-! DEFINITION. State of the engines, the ring, the ledger, Rest, the secure processor, the supervisor, reset, boot and the
clocks (chapters 05, 11, 13, 14, 15, 17 and 18). Plain data only. -/

namespace Sys2Proof.Machine

/-- Work that waits for a codec lane or holds one (R172): its level, whether it is an offload step, and its stamp. -/
structure LaneWork where
  level : Nat
  offload : Bool := false
  stamp : Stroke := 0
  /-- the read, move or job it serves -/
  id : Nat := 0
deriving DecidableEq, Repr

/-- A stream context (R180 to R182): the fields of its image's header, and the coder state the rest of the image holds. -/
structure Ctx where
  valid : Bool := false
  wrap : Nat := 0
  op : Nat := 0
  /-- running check over the uncompressed bytes -/
  check : Nat := 0
  /-- uncompressed bytes of a deflate stream that its 32 KiB window still needs -/
  window : List Byte := []
  /-- input of a deflate stream consumed and not yet coded (R178) -/
  uncoded : List Byte := []
  /-- bits of an unfinished output byte (R178) -/
  bits : List Bool := []
  /-- produced bytes not yet written (R179) -/
  pending : List Byte := []
  /-- uncompressed length of a deflate stream so far -/
  total : Nat := 0
  /-- the stream's header has been written -/
  headDone : Bool := false
  /-- input of an inflate stream consumed so far, and its output bytes made so far -/
  seen : List Byte := []
  made : Nat := 0
  /-- the stream has ended; only pending output may remain, then its last job's status stands -/
  ended : Bool := false
  endStatus : Nat := 0
deriving DecidableEq, Repr

/-- An offload job taken from its ring and not yet completed (R175 to R186). -/
structure OJob where
  id : Nat
  slab : Nat
  q : Nat
  /-- the 64 descriptor bytes -/
  desc : List Byte := []
  /-- every output byte the job will write, and how many it has written -/
  out : List Byte := []
  written : Nat := 0
  /-- input bytes it will consume, and consumed input and output bytes at the end of each of its steps (R172) -/
  inTotal : Nat := 0
  marks : List (Nat × Nat) := []
  /-- buffers of its output buffer list: in host memory, address, length (R176) -/
  bufs : List (Bool × Nat × Nat) := []
  /-- a stream job's input, the state its context had when it began, and whether its input ends the stream -/
  input : List Byte := []
  start : Option Ctx := none
  lastIn : Bool := false
  stepsDone : Nat := 0
  status : Nat := 0
  final : Bool := false
  check : Nat := 0
  detail : Nat := 0
  /-- stream state its context takes at the end, and whether the context is kept -/
  ctx : Option Ctx := none
  saves : Bool := false
  /-- lane that ran its last step -/
  lane : Nat := 0
  aborted : Bool := false
  /-- stroke at which it completed -/
  ended : Option Stroke := none
deriving DecidableEq, Repr

/-- A finished offload record not yet written (R184, R185). -/
structure ORec where
  slab : Nat
  q : Nat
  bytes : List Byte
  intr : Bool
deriving DecidableEq, Repr

/-- The codec and the offload engines (chapter 05). -/
structure Codec where
  /-- lane 16 × Slab + n: the work it runs -/
  lanes : SMap (Option LaneWork) := []
  /-- work waiting for a lane, per Slab -/
  waiting : List (Nat × LaneWork) := []
  jobs : List OJob := []
  held : List ORec := []
  /-- next PHASE of completion queue 8 × Slab + q: entry 1 means the phase is inverted (R184) -/
  phase : SMap Nat := []
  /-- contexts by number; an unlisted one has VALID 0 (R180) -/
  ctxs : SMap Ctx := []
  /-- contexts active on chip, least recently used first (R181) -/
  active : List Nat := []
  /-- queue enables that a broken wire has barred until the next module reset (R537): 2 × Slab for OFLD, 16 + q for QENG -/
  barred : List Nat := []
  nextId : Nat := 0
  /-- doorbell stamps of entries submitted and not fetched: (8 × Slab + q, index, stamp) -/
  doorbells : List (Nat × Nat × Stroke) := []
deriving DecidableEq, Repr

/-- A finished query record (R391), with the STAMP of its arrival slot once it stands in one. -/
structure QRec where
  engine : Nat
  bytes : List Byte
  intr : Bool := false
  /-- the engine was in the secure world when the job was issued (R399, R511) -/
  secure : Bool := false
  /-- completion queue, once in a slot -/
  cq : Nat := 0
  stamp : Stroke := 0
deriving DecidableEq, Repr

/-- The job an engine runs (R384 to R391). -/
structure QJob where
  /-- the 128 descriptor bytes, and the kernel -/
  desc : List Byte := []
  kernel : List Byte := []
  rowsDone : Nat := 0
  /-- status, once the job has ended and waits for QE_JOB_DONE -/
  result : Option Nat := none
  detail : Nat := 0
  passed : Nat := 0
  poisoned : Nat := 0
  outBytes : Nat := 0
  ovfBytes : Nat := 0
  aux : Nat := 0
  nan : Bool := false
  fltOvf : Bool := false
  intOvf : Bool := false
  stopped : Bool := false
  skipped : Bool := false
  nearHeld : Bool := false
  probeLimit : Bool := false
  /-- bits of the rows a FILTER has retired -/
  sel : List Bool := []
  /-- table and kernel lines the job has read through the engine cache -/
  lines : List Nat := []
  /-- last host address written (R390) -/
  lastHost : Option Nat := none
deriving DecidableEq, Repr

/-- Query engines and gatherers (chapter 11). -/
structure Query where
  /-- job of engine q, if one runs -/
  jobs : SMap (Option QJob) := []
  /-- records each engine holds behind its slot (at most four), oldest first -/
  held : List QRec := []
  /-- arrival slots, keyed 16 × gatherer + engine -/
  slots : SMap (Option QRec) := []
  /-- next PHASE of completion queue 4 × Slab + c: entry 1 means inverted -/
  phase : SMap Nat := []
  /-- the Sitting's grant is spent: engines and offload stop (R398) -/
  throttled : Bool := false
  /-- engines whose cache flush is running (R402) -/
  flushing : List Nat := []
deriving DecidableEq, Repr

/-- A frame sent and not yet acknowledged (R439): the sequence number of its last flit, and its flits. -/
structure Sent where
  last : Nat
  flits : Nat
  frame : Frame
deriving DecidableEq, Repr

/-- Link state of one ring side, keyed 2 × pair + (0 W, 1 E). -/
structure Side where
  /-- next flit to send, next flit expected, and whether a NAK has gone out for it (R437, R439) -/
  txSeq : Nat := 0
  rxSeq : Nat := 0
  nak : Bool := false
  /-- the replay buffer: at most 512 flits (R439) -/
  replay : List Sent := []
  /-- credits left towards the neighbour, per VC (R441); slots of our buffers in use -/
  credits : List Nat := [64, 256, 512, 1024]
  used : List Nat := [0, 0, 0, 0]
  trained : Nat := 0
  /-- an LECHO request waits for its reply (R452) -/
  echo : Bool := false
  /-- a replay runs since this stroke (R479) -/
  replaySince : Option Stroke := none
  /-- unwrap strokes sent and received (R464) -/
  unwrapMine : Option Stroke := none
  unwrapPeer : Option Stroke := none
  /-- a broken wire bars the side until the next module reset (R537) -/
  barred : Bool := false
  /-- data bytes each lane's generator has taken since its last LSKP, of what is received and of what is sent (R432) -/
  rxScr : Nat := 0
  txScr : Nat := 0
  /-- time since the last LSKP sent, in 1/28 ns (R433) -/
  lskpDue : Nat := 0
deriving DecidableEq, Repr

/-- A JOIN_REQ the head has gathered (R443). -/
structure JoinReq where
  serial : BitVec 64
  pref : Option Nat
  role : Nat
  tag : Nat
  /-- order index, which the hops it took tell -/
  index : Nat
deriving DecidableEq, Repr

/-- State of one port pair (0 A, 1 B). -/
structure Pair where
  /-- ORDER table: positions by order index (R443) -/
  order : List Nat := []
  orderIdx : Option Nat := none
  /-- enumeration in which the index was taken, or which this head runs (R443) -/
  enumTag : Option Nat := none
  /-- members the head's enumeration counted, itself included, once its ENUM is back -/
  counted : Option Nat := none
  joins : List JoinReq := []
  /-- positions held, with the serial of each (head) -/
  held : SMap (BitVec 64) := []
  /-- address of the ring head, and the tag of our JOIN_REQ -/
  headAddr : Nat := 0
  joinTag : Option Nat := none
  /-- order index at which the ring is folded (R443); an ORDER frame follows the next STROKE frame -/
  fold : Option Nat := none
  orderDue : Bool := false
  lastStrokeFrame : Option Stroke := none
  trainedAt : Option Stroke := none
  /-- last ring traffic heard on a tap, or the entry into LISTEN (R467) -/
  heard : Stroke := 0
  /-- the next splice window read from STROKE frames -/
  window : Option Stroke := none
  /-- sides whose egress a splice half has paused, and those whose probe is still to be sent (R462) -/
  paused : List Nat := []
  probing : List Nat := []
  /-- halves of a window this joiner has opened (R463) -/
  opened : List Nat := []
  /-- Spill targets the pod manager has written: by position, the donor's position and the hops (R477) -/
  targets : SMap (Nat × Nat) := []
  /-- last complete REPORT entries gathered by the head, by position -/
  reports : SMap (List Byte) := []
  present : BitVec 64 := 0
  evacMap : BitVec 64 := 0
deriving DecidableEq, Repr

/-- An outstanding VC1 request of this module (R466). -/
structure Req1 where
  tag : Nat
  frame : Frame
  pair : Nat
  side : Nat := 0
  sent : Stroke
  retried : Bool := false
deriving DecidableEq, Repr

/-- A spill under way at the borrower (R468). -/
structure SpillJob where
  page : Nat
  tag : Nat
  donor : Nat
  granules : Nat
  handle : Option Nat := none
deriving DecidableEq, Repr

/-- A forwarded read or a recall of a spilled page: the granules received so far. -/
structure SpillFetch where
  page : Nat
  tag : Nat
  handle : Nat
  donor : Nat
  isRecall : Bool := false
  /-- the read it serves -/
  id : Nat := 0
  got : List (Nat × List Byte) := []
  stamp : Stroke := 0
deriving DecidableEq, Repr

/-- A handle a donor has granted whose data has not all come (R468). -/
structure Granted where
  handle : Nat
  borrower : Nat
  granules : Nat
  /-- tag of the SPILL_REQ -/
  tag : Nat
  got : List (Nat × List Byte) := []
deriving DecidableEq, Repr

/-- Lode rings (chapter 13). -/
structure Ring where
  sides : SMap Side := []
  pairs : SMap Pair := []
  /-- error e of the last LSTRK in u, still to be corrected (R453) -/
  err : Int := 0
  errFresh : Bool := false
  /-- strokes of holdover so far; an LSTRK came from the upstream in this stroke (R456) -/
  holdoverCount : Nat := 0
  lstrkSeen : Bool := false
  reqs : List Req1 := []
  spills : List SpillJob := []
  fetches : List SpillFetch := []
  /-- donor and handle of copies given up that reads in flight still look at: SPILL_FREE waits for them (R106) -/
  freeing : List (Nat × Nat) := []
  nextTag : Nat := 0
  nextHandle : Nat := 0
  /-- handles borrowers have declined, held until SPILL_FREE (R468) -/
  declined : List (Nat × Nat) := []
  granted : List Granted := []
  /-- last CMD_SEQ accepted per issuer, plus one (R473) -/
  cmdSeq : SMap Nat := []
  /-- last (ISSUE_STROKE, XFER_SEQ) accepted per source (R471) -/
  keyXfer : SMap (Option (Nat × Nat)) := []
  /-- resets accepted from CMD frames, waiting for the Layer boundary after their CMD_ACK (R474): cold, issuer, CMD_SEQ -/
  cmdResets : List (Bool × Nat × Nat) := []
  /-- Sittings left of an evacuation; none for no limit (R475) -/
  evacLeft : Option Nat := none
  /-- frames held in Rest under credits (R502): pair, frame, stroke -/
  heldFrames : List (Nat × Frame × Stroke) := []
  /-- frames waiting for credits or for a paused direction: pair, side, frame (R441, R462) -/
  egress : List (Nat × Nat × Frame) := []
  wakeLatch : Bool := false
  /-- bookkeeping of the Sitting in progress for the report entry (R459) -/
  peerAbsentSeen : Bool := false
  outOfSpec : Bool := false
  hotDeclared : Bool := false
  deepLowSeen : Bool := false
  misses : Nat := 0
  /-- report entry of the last closed Sitting, without its position -/
  entry : List Byte := []
  /-- evacuation returns that this donor has sent and that may still wait for space: borrower and tag (R470) -/
  returns : List (Nat × Nat × Nat) := []
  /-- the head has divided the budget in the Sitting in progress (R491) -/
  divided : Bool := false
deriving DecidableEq, Repr

/-- The energy ledger (chapter 14). Figures shown by LEDG registers stand there. -/
structure Energy where
  /-- charges of the open Sitting by class 0 to 3, in 1/16 nJ -/
  charge : SMap Nat := []
  /-- background use of the open Sitting: effort surcharge, recompression, scrub, Spill, migration, in 1/16 nJ -/
  bg : SMap Nat := []
  /-- energy of the open Sitting per rail channel, in units of mV × 10 mA × 1 stroke (R483) -/
  rail : SMap Nat := []
  /-- local elapsed stroke of each channel's previous reading by the meter -/
  last : SMap (Option Nat) := []
  /-- highest channel-9 reading of the open Sitting, and of the last closed one, in 1/16 °C -/
  inletMax : Option Int := none
  inletPrev : Option Int := none
  /-- last budget entry received, and Sittings without one (R490) -/
  entry : Nat := 0xFFFFFFFF
  entryNew : Option Nat := none
  without : Nat := 0
  /-- the latest closed Sitting was a deficit Sitting (R494) -/
  deficitRun : Bool := false
  /-- KiB the tier mover encoded in the open Sitting, and in the last closed one (R492) -/
  encKib : Nat := 0
  encKibPrev : Nat := 0
  /-- local elapsed stroke at which the open Sitting's account opened -/
  opened : Nat := 0
  /-- part of the floor that the plan in force left unfunded, in µJ (R494) -/
  unfunded : Nat := 0
  /-- strokes the last closed Sitting lasted -/
  strokesPrev : Nat := 2048
  /-- the open Sitting began at reset or at an adoption, or was cut by one (R488) -/
  partialNow : Bool := true
  /-- a sensor request waits (R484) -/
  request : Option Nat := none
  /-- grants of the Sitting already spent, in 1/16 nJ: query engines, recompression, Spill, migration -/
  spent : SMap Nat := []
deriving DecidableEq, Repr

/-- A REST log record (R499). -/
structure RestRec where
  seq : Nat
  kind : Nat
  reason : Nat
  agent : Nat
  unit : Nat
  stamp : Stroke
deriving DecidableEq, Repr

/-- Rest (chapter 14); REST_STATUS.STATE shows the state. -/
structure RestSt where
  request : Stroke := 0
  drainFrom : Stroke := 0
  /-- every block idle: channels enter self-refresh and the module rests from the next edge -/
  entering : Bool := false
  log : SMap (Option RestRec) := []
  nextSeq : Nat := 0
  refusedBy : SMap Nat := []
  abortedBy : SMap Nat := []
  wakeStroke : Stroke := 0
  /-- the wake sends PM_PME when the host ports run again (R501) -/
  pme : Bool := false
  /-- cause of a warm reset that waits for step 4 of the waking sequence (R589) -/
  resetAfter : Option Nat := none
deriving DecidableEq, Repr

/-- Stages of a hand-over (R523). -/
inductive HoStage
  | requested | handing | flushing | resetting | done
deriving DecidableEq, Repr

/-- The hand-over in progress (R522, R523). -/
structure Handover where
  block : Nat
  toSecure : Bool
  stage : HoStage := .requested
  /-- edge at which WORLD became 0b10 -/
  edge : Stroke := 0
  /-- fails with cause 0x1 or 0x3 once WORLD is restored -/
  failing : Option Nat := none
  /-- mailbox request to answer at the end: SEQ of the ASSIGN or RELEASE message (R519) -/
  answer : Option (Nat × Nat) := none
deriving DecidableEq, Repr

/-- A deferred power or clock request (R526): block index, 31 for Rest. -/
structure PwrReq where
  block : Nat
  action : Nat
  agent : Nat
  stamp : Stroke
  /-- Sitting boundaries passed since the stamp (R527) -/
  sittings : Nat := 0
  /-- consent given, to proceed at the next stroke edge -/
  granted : Bool := false
deriving DecidableEq, Repr

/-- A mailbox message or notice of 64 bytes (R518): byte b is bits [8b+7:8b]. -/
abbrev Msg64 := BitVec 512

/-- One mailbox ring: 16 slots, the sender's tail and the receiver's head (R517). -/
structure MRing where
  slots : SMap Msg64 := []
  tail : Nat := 0
  head : Nat := 0
  full : Bool := false
deriving DecidableEq, Repr

/-- The secure processor (chapter 15). -/
structure Secure where
  /-- measurement slots 0 to 7 and their extension counts (R512) -/
  slots : SMap (BitVec 384) := []
  counts : SMap Nat := []
  /-- key-encryption keys 0 to 15 and the fabric command key (R515, R516) -/
  keks : SMap (Option (BitVec 256)) := []
  fabricKey : Option (BitVec 256) := none
  fabricNext : Option (BitVec 256) := none
  /-- mailbox rings: management to secure, secure to management, and the notice ring (32 slots) -/
  toSec : MRing := {}
  toMgmt : MRing := {}
  notices : MRing := {}
  /-- debug: the nonce issued and not yet accepted, and the held part 0 (R521) -/
  nonce : Option (BitVec 64) := none
  part0 : Option (BitVec 384) := none
  /-- an authorisation has verified; SECP_DEBUG.OPEN has been written, debug opens at the next edge -/
  debugAuth : Bool := false
  handover : Option Handover := none
  pwr : List PwrReq := []
  /-- private memory of the secure processors (R506) and memory of the management processors (R508), by byte: 2^22 × (2 × kind + Slab) + address,
  kind 0 secure, 1 management; the top 1 MiB of each is its persistent region -/
  mems : SMap Byte := []
  /-- the copy of the persistent regions to a returned Slab is under way (R508) -/
  mirroring : Bool := false
  /-- the watchdog has expired at a Sitting boundary and its fault is still to be recorded (R529) -/
  wdogDue : Bool := false
  /-- a takeover has happened since the last module reset: the Slab that is primary (R531, R532) -/
  primary : Nat := 0
  takenOver : Bool := false
deriving DecidableEq, Repr

/-- Supervisor states (R581). -/
inductive SupSt
  | off | read | waitEn | ramp | limit | on | cool | latched | fetFault | held
deriving DecidableEq, Repr

/-- The retained store of the thermal memory (R574). -/
structure Thermal where
  valid : Bool := false
  count : Nat := 0
  latched : Bool := false
  fetBad : Bool := false
  coolLeft : Nat := 0
  cause : Nat := 0
  countAt : Nat := 0
  vin : Nat := 0
  rail : Nat := 0
deriving DecidableEq, Repr

/-- The power supervisor (chapter 17). -/
structure Sup where
  st : SupSt := .on
  switchOn : Bool := true
  pg : Bool := true
  timerRun : Bool := false
  en : Bool := true
  /-- the input lies between UV_ON and OV_ON; the auxiliary rail is up -/
  inputOk : Bool := true
  auxUp : Bool := true
  count : Nat := 0
  mem : Thermal := {}
  /-- power-good has risen since the switch closed (R568) -/
  pgOnce : Bool := true
  /-- rail-sequence step in progress, 1 to 6; 7 when the power-on reset may be released; 0 when down -/
  step : Nat := 7
  rails : Nat := 0xFF
  failed : Nat := 0
  /-- the hub's power-on reset has been released -/
  released : Bool := true
  limitEvents : Nat := 0
  trips : Nat := 0
  /-- what the supervisor read at power-on (PSUP_LAST_TRIP, PSUP_MEMORY) -/
  atOn : Thermal := {}
  /-- a cut has happened whose record of R580 is still to be written -/
  tripDue : Bool := false
deriving DecidableEq, Repr

/-- A module reset request (R583 to R585). -/
structure ResetReq where
  cold : Bool
  cause : Nat
  /-- waits for a Layer boundary instead of a stroke edge (R474) -/
  layer : Bool := false
  /-- a second L3 record asked for the other kind (R550) -/
  l3 : Bool := false
deriving DecidableEq, Repr

/-- Stages of a warm reset (R587). -/
inductive WarmStage
  | flush | held | verify
deriving DecidableEq, Repr

/-- The module reset in progress. -/
structure ResetRun where
  cold : Bool
  cause : Nat
  start : Stroke
  stage : WarmStage := .verify
  /-- held while SYS_RST_L stays asserted (R583) -/
  pinHeld : Bool := false
deriving DecidableEq, Repr

/-- A Slab reset in progress (R590). -/
structure SlabReset where
  slab : Nat
  start : Stroke
  cause : Nat
deriving DecidableEq, Repr

/-- A clock-gate request in progress (R604). -/
structure GateReq where
  target : Nat
  gate : Bool
  stamp : Stroke
  agent : Nat := 0
  /-- engines whose consent is still awaited -/
  waits : List Nat := []
deriving DecidableEq, Repr

/-- Reset, boot and clocks (chapter 18) and the module's presence. -/
structure Boot where
  /-- the hub has power and its power-on reset is released -/
  powered : Bool := true
  /-- the block is frozen in a held reset: SYS_RST_L asserted, or REFCLK absent at a cold reset -/
  inReset : Option ResetRun := some { cold := true, cause := 1, start := 0, stage := .verify }
  requests : List ResetReq := []
  slabReset : List SlabReset := []
  /-- Slabs declared absent (R219) and Slabs held in reset (R553) -/
  absent : List Nat := []
  /-- consecutive heartbeats of the partner that each Slab has missed, Slab 0 first (R219) -/
  hbMiss : Nat × Nat := (0, 0)
  /-- Slabs whose clocks the monitor has reported lost (R219, R603) -/
  clkLost : List Nat := []
  returning : Option Nat := none
  /-- boot: flash contents, an unlisted byte reads 0xFF -/
  flash : SMap Byte := []
  /-- parts accepted since the reset: secure and hub firmware images (bit 0, bit 1), configuration (bit 2) -/
  accepted : Nat := 0
  /-- slot being tried, or booted; it is the pending one; and the slots tried since the reset (R592) -/
  slot : Nat := 0
  pendTried : Bool := false
  tried : List Nat := [0]
  /-- digest of each accepted part, by KIND (R512, R593) -/
  digests : SMap (BitVec 384) := []
  /-- images streamed by a manager or sent by Transfer FW (R594, R595), and the bytes there are -/
  staging : SMap Byte := []
  stagedLen : Nat := 0
  /-- the metadata key and the Primer key have been drawn since the cold reset (R597) -/
  drawn : Bool := false
  /-- the recovery loader runs (R596) -/
  loader : Bool := false
  released : Bool := false
  hostReady : Bool := false
  /-- stroke at which READY last rose (R416) -/
  readyAt : Stroke := 0
  trained : Bool := false
  /-- Veins whose check after a warm reset or a Slab's return is still to come (R129, R225) -/
  warmLeft : List Nat := []
  filled : Bool := false
  seamUp : Bool := false
  /-- strap pins as last seen: BOOT_SRC, CLK_MODE, ROLE; ROLE_OVR as it stood enabled when the reset began (R481, R591) -/
  straps : Nat × Nat × Nat := (0, 0, 0)
  roleOvr : Option Nat := none
  refPresent : Bool := true
  /-- SYS_RST_L is sampled asserted (R583) -/
  sysRst : Bool := false
  gates : List GateReq := []
  /-- PSUP_CTL.POWER_OFF has been written by the command in progress (R579): the model's own -/
  offAsk : Bool := false
  /-- secure-owned blocks that a consented request has stopped (R526): block index and action, 1 clock stop, 2 power gate -/
  stopped : List (Nat × Nat) := []
  /-- FLT_LAST_FATAL and RSTC_COUNTS.COLD live on the auxiliary rail -/
  coldCount : Nat := 0
  /-- speed grade fixed by the configuration (R124), as VEIN_STATUS.SPEED: 0 for 3,200, 1 for 3,733, 2 for 4,266 MT/s -/
  grade : Nat := 2
deriving DecidableEq, Repr

/-- Work that reaches a block under a block-level reset and waits at its sender (R70): a doorbell, or a command of the Hub Cache. -/
inductive ResetWork
  | ofldTail (q tail : Nat)
  | qengTail (tail : Nat)
  | hcacPage (agent op : Nat)
  | hcacSetWay (agent set way : Nat)
  | hcacAll (agent : Nat)
deriving DecidableEq, Repr

end Sys2Proof.Machine
end

