-- ==== Sys2Proof/Machine/State.lean ====
section
/-! DEFINITION. The state of the module: every register, store, queue and mode the spec gives it, the log of what it has
sent out, and the queue of the commands that wait. -/

namespace Sys2Proof.Machine

/-- Why a run stops. -/
inductive Fault
  /-- No meaning raises it: a command that names a unit the module does not have is outside WellFormed. Safe. -/
  | illFormed
deriving DecidableEq, Repr

/-- Why a command has no meaning. -/
inductive Refusal
  /-- Raised by an arm of exec whose command has no meaning yet, named by its mnemonic. Safe: nothing is claimed of it. -/
  | notModelled (mnemonic : String)
deriving DecidableEq, Repr

/-- What leaves the module. -/
inductive Msg
  /-- a read response: requester, request, data, poison code (0 for good data), DevLoad (R289) with 4 added for the viral indication (R288) -/
  | readData (who : Requester) (id : Nat) (data : Line) (poison load : Nat)
  /-- a completion of a write or other request, with a result code (0 done) and DevLoad in the same form -/
  | done (who : Requester) (id result load : Nat)
  /-- a back-invalidate snoop to a host: attach point, page, line, kind -/
  | snoop (host page line : Nat) (kind : Snp)
  /-- back-invalidate snoops in the four-line block form for every line of a census region (R335) -/
  | snoopRegion (host region : Nat)
  /-- an invalidation or forward to an internal holder -/
  | inval (dest : Holder) (page line : Nat)
  /-- an MSI-X message: attach point and vector -/
  | msix (attach vector : Nat)
  /-- an I3C in-band interrupt, with the BLOCK_ID that caused it -/
  | ibi (block : Nat)
  /-- PM_PME on an attach point (R501) -/
  | pme (attach : Nat)
  /-- a register word returned to an agent -/
  | regData (agent offset value : Nat)
  /-- an answer of the mailbox command set: attach point (16 for I3C), return code, payload -/
  | answer (attach code : Nat) (payload : List Byte)
  /-- a frame sent on a side of a port pair (0 W, 1 E) -/
  | frame (pair side : Nat) (f : Frame)
  /-- an ordered set: pair, side, byte 0, other bytes -/
  | oset (pair side kind : Nat) (bytes : List Nat)
  /-- what a flit towards the neighbour acknowledges, with a replay asked for (R437) -/
  | link (pair side ackSeq : Nat) (nak : Bool)
  /-- slots of a virtual channel returned to the neighbour (R441) -/
  | credit (pair side vc count : Nat)
  /-- the outcome of a key transfer or of a ring command this manager sent: its tag and status -/
  | ringAck (tag status : Nat)
  /-- a write to host memory by an engine -/
  | hostWrite (attach addr : Nat) (bytes : List Byte)
  /-- a read of host memory that orders an engine's host writes (R390) -/
  | hostRead (attach addr : Nat)
  /-- a signed SPDM response: measurement values with the signature -/
  | spdm (index : Nat) (values : List (BitVec 384)) (sig : BitVec 768)
deriving DecidableEq, Repr

/-- The module. -/
structure State where
  tb : Timebase := {}
  /-- active register fields, by bit address in the register space, each as its value XOR its reset value (R54 to R60) -/
  regs : SMap Nat := []
  /-- staged copies of RWL fields, held in the same way (R65) -/
  staged : SMap Nat := []
  /-- pages whose accepted commit has reached its activation point: page offsets (R65) -/
  actDue : List Nat := []
  /-- block-level resets accepted and not yet done: page offsets (R70) -/
  blockResets : List Nat := []
  /-- work held at its sender until the block-level reset of the page at an offset is done, oldest first (R70) -/
  closedWork : List (Nat × ResetWork) := []
  tier : Tier := {}
  media : Media := {}
  dipts : SMap Dipt := []
  veins : SMap VeinSt := []
  chans : SMap ChanSt := []
  vq : List VAcc := []
  crypto : Crypto := {}
  ports : Ports := {}
  home : Home := {}
  hub : Hub := {}
  regu : Regu := {}
  faults : Faults := {}
  codec : Codec := {}
  query : Query := {}
  ring : Ring := {}
  energy : Energy := {}
  rest : RestSt := {}
  secure : Secure := {}
  sup : Sup := {}
  boot : Boot := {}
  /-- what has left the module since reset, oldest first: the model's own record -/
  out : List Msg := []
  /-- index of the next free value: the model's own counter -/
  draws : Nat := 0
  /-- commands that wait, first in, first out: the model's own queue -/
  pending : List Instr := []
deriving DecidableEq, Repr

/-- Register fields whose reset value differs by Slab: processor roles (R24, R507, R533). -/
def resetRegs : SMap Nat :=
  let m1 := fwrite [] (pg .slab 0) F.SLAB_STATUS_MGMT_PRIMARY 0 1
  let m2 := fwrite m1 (pg .slab 0) F.SLAB_STATUS_SECP_PRIMARY 0 1
  let m3 := fwrite m2 (pg .slab 0) F.SLAB_STATUS_SERVES_MODULE 0 1
  fwrite m3 (pg .secp 1) F.SECP_STATUS_ROLE 0 1

/-- The state at the release of the power-on reset with every strap 0 (time T0 of R597): every register at its reset value, memory unlisted,
the cold start just begun. -/
def State.reset : State := { regs := resetRegs }

end Sys2Proof.Machine
end

