-- ==== Sys2Proof/Machine/Ops.lean ====
section
/-! DEFINITION. The shared operations: reading and writing register fields, interrupts, messages, free values, strokes, and
what a block-level reset and a whole-scope reset do to a page. -/

namespace Sys2Proof.Machine

/-! ### Register fields -/

/-- Active value of a field of the page at offset `p`. -/
def State.getP (s : State) (p : Nat) (f : Fld) (i : Nat := 0) : Nat := fread s.regs p f i
/-- Set the active value of a field of the page at offset `p`. -/
def State.putP (s : State) (p : Nat) (f : Fld) (v : Nat) (i : Nat := 0) : State := { s with regs := fwrite s.regs p f i v }
/-- Active value of a field of a block. -/
def State.get (s : State) (b : Block) (n : Nat) (f : Fld) (i : Nat := 0) : Nat := s.getP (pg b n) f i
/-- Set the active value of a field of a block. -/
def State.put (s : State) (b : Block) (n : Nat) (f : Fld) (v : Nat) (i : Nat := 0) : State := s.putP (pg b n) f v i
/-- Staged value of an RWL field (R65). -/
def State.getS (s : State) (b : Block) (n : Nat) (f : Fld) (i : Nat := 0) : Nat := fread s.staged (pg b n) f i
/-- Set the staged value of an RWL field. -/
def State.putS (s : State) (b : Block) (n : Nat) (f : Fld) (v : Nat) (i : Nat := 0) : State :=
  { s with staged := fwrite s.staged (pg b n) f i v }
/-- Add to a counter that saturates at the width of its field. -/
def State.bump (s : State) (b : Block) (n : Nat) (f : Fld) (k : Nat := 1) (i : Nat := 0) : State :=
  s.put b n f (min (2 ^ f.w - 1) (s.get b n f i + k)) i
/-- Is a one-bit field 1? -/
def State.bit (s : State) (b : Block) (n : Nat) (f : Fld) (i : Nat := 0) : Bool := s.get b n f i != 0
/-- A Bool as a field value. -/
def b2n (b : Bool) : Nat := if b then 1 else 0

/-! ### Interrupts and messages -/

/-- HDR_INT_STATUS as one word (R60). -/
def State.intStatus (s : State) (p : Nat) : Nat :=
  s.getP p F.HDR_INT_STATUS_INT_ERROR + 2 * s.getP p F.HDR_INT_STATUS_INT_COMMIT_DONE +
  4 * s.getP p F.HDR_INT_STATUS_INT_RESET_DONE + 8 * s.getP p F.HDR_INT_STATUS_INT_LOST_ARB +
  0x10000 * s.getP p F.HDR_INT_STATUS_INT_BLOCK

/-- The page's interrupt output (R62). -/
def State.intOut (s : State) (p : Nat) : Bool := s.intStatus p &&& s.getP p F.HDR_INT_ENABLE_INT_EN != 0

/-- Append a message to what has left the module. -/
def State.emit (s : State) (m : Msg) : State := { s with out := s.out ++ [m] }

/-- The BLOCK_ID of the block whose page stands at an offset; 0 where none does. -/
def blockIdAt (off : Nat) : Nat :=
  let one (b : Block) : Bool :=
    if b.perSlab then
      off < 0x800000 && b.off ≤ off % 0x400000 && off % 0x400000 < b.off + 0x1000 * b.insts * b.pages
    else b.off ≤ off && off < b.off + 0x1000 * b.insts * b.pages
  match Block.all.find? one with
  | some b => b.id
  | none => 0

/-- When a page's interrupt output rises and FLT_IBI_BLOCKS names its BLOCK_ID, an in-band interrupt goes out (R556). -/
def intRise (old new : State) (p : Nat) : State :=
  if !old.intOut p && new.intOut p && (new.get .flt 0 F.FLT_IBI_BLOCKS_BLOCK_MASK).testBit (blockIdAt p) then
    new.emit (.ibi (blockIdAt p))
  else new

/-- Set HDR_INT_STATUS bits given as a word; reserved positions are left out (R60, R62). -/
def State.setInts (s : State) (p mask : Nat) : State :=
  let s1 := if mask.testBit 0 then s.putP p F.HDR_INT_STATUS_INT_ERROR 1 else s
  let s2 := if mask.testBit 1 then s1.putP p F.HDR_INT_STATUS_INT_COMMIT_DONE 1 else s1
  let s3 := if mask.testBit 2 then s2.putP p F.HDR_INT_STATUS_INT_RESET_DONE 1 else s2
  let s4 := if mask.testBit 3 then s3.putP p F.HDR_INT_STATUS_INT_LOST_ARB 1 else s3
  let s5 := if mask / 0x10000 = 0 then s4
    else s4.putP p F.HDR_INT_STATUS_INT_BLOCK (s4.getP p F.HDR_INT_STATUS_INT_BLOCK ||| (mask / 0x10000))
  intRise s s5 p

/-- Raise one interrupt bit of a block. -/
def State.raise (s : State) (b : Block) (n bit : Nat) : State := s.setInts (pg b n) (2 ^ bit)

/-- LOST_ARB of a page header, with its interrupt (R60). -/
def State.lostArb (s : State) (b : Block) (n : Nat) : State :=
  (s.put b n F.HDR_STATUS_LOST_ARB 1).raise b n 3

/-! ### Free values, time and lists -/

/-- The next free value of `w` bits. -/
def State.draw (s : State) (w : Nat) : BitVec w × State :=
  (Config.freeValue w s.draws, { s with draws := s.draws + 1 })

/-- Strokes from `a` to `b`, modulo 2^48 (R34). -/
def strokesSince (a b : Stroke) : Nat := (b - a).toNat
/-- `a` is not later than `b`, by the signed difference modulo 2^48 (R34). -/
def strokeLe (a b : Stroke) : Bool := strokesSince a b < 2 ^ 47
/-- The current stroke. -/
def State.now (s : State) : Stroke := s.tb.stroke
/-- Layer index of a stroke (R14). -/
def layerOf (t : Stroke) : Nat := t.toNat / 64
/-- Layers from one index to another, modulo 2^42 (R14, R34). -/
def layersSince (a b : Nat) : Nat := (b + 2 ^ 42 - a) % 2 ^ 42
/-- Sitting index of a stroke (R14). -/
def sittingOf (t : Stroke) : Nat := t.toNat / 2048

/-- Bytes of a number, least significant first (R13). -/
def leBytes : Nat → Nat → List Byte
  | 0, _ => []
  | n + 1, v => BitVec.ofNat 8 v :: leBytes n (v / 256)
/-- The number a byte string spells, least significant byte first (R13). -/
def leNat : List Byte → Nat
  | [] => 0
  | b :: r => b.toNat + 256 * leNat r
/-- Bytes [i, i+n) of a byte string; bytes beyond its end read as zero. -/
def sliceB (l : List Byte) (i n : Nat) : List Byte := (List.range n).map (fun k => l.getD (i + k) 0)
/-- Little-endian field of `n` bytes at byte `i`. -/
def fieldB (l : List Byte) (i n : Nat) : Nat := leNat (sliceB l i n)
/-- Bits [lo, lo+w) of a number. -/
def bits (v lo w : Nat) : Nat := v / 2 ^ lo % 2 ^ w
/-- The 64 bytes of a line. -/
def lineBytes (l : Line) : List Byte := leBytes 64 l.toNat
/-- A line from its bytes. -/
def lineOf (l : List Byte) : Line := BitVec.ofNat 512 (leNat l)
/-- Set or clear bit `i` of a number. -/
def setBit (v i : Nat) (b : Bool) : Nat := if b then v ||| 2 ^ i else v - (v &&& 2 ^ i)
/-- Add an element a list does not hold yet. -/
def addOnce {α : Type} [DecidableEq α] (l : List α) (a : α) : List α := if a ∈ l then l else l ++ [a]
/-- Put a number into a rising list. -/
def insNat (x : Nat) : List Nat → List Nat
  | [] => [x]
  | y :: r => if x ≤ y then x :: y :: r else y :: insNat x r
/-- The numbers of a list in rising order. -/
def sortNat (l : List Nat) : List Nat := l.foldr insNat []
/-- Fold a state over the numbers below `n`. -/
def State.forN (s : State) (n : Nat) (f : State → Nat → State) : State := (List.range n).foldl f s
/-- Do something only when a condition holds. -/
def State.when (s : State) (c : Bool) (f : State → State) : State := if c then f s else s
/-- Number of bits set among the low `w`. -/
def popCount (w v : Nat) : Nat := (List.range w).countP (fun i => v.testBit i)

/-! ### Presence and worlds -/

/-- Is Slab `d` present (R219)? A Slab that has returned is, from its return on. -/
def State.present (s : State) (d : Nat) : Bool := !(d ∈ s.boot.absent) || s.boot.returning = some d
/-- Does Slab `d` serve its media: a returned Slab does from the Layer boundary after its return (R225)? -/
def State.mediaIn (s : State) (d : Nat) : Bool := !(d ∈ s.boot.absent)
/-- The Slab whose processors are primary (R77, R531). -/
def State.primary (s : State) : Nat := s.secure.primary
/-- Agent code of the primary management processor (R71). -/
def State.mgmtAgent (s : State) : Nat := if s.secure.takenOver then 2 else 1
/-- Agent code of the primary secure processor (R71). -/
def State.secpAgent (s : State) : Nat := if s.secure.takenOver then 4 else 3
/-- WORLD of a page (R60, R510). -/
def State.world (s : State) (b : Block) (n : Nat) : Nat :=
  match b with
  | .secp | .keys | .own => 1
  | _ => s.get b n F.HDR_OWNER_WORLD

/-- May the tier mover, the scrubber, the resync copier and recompression start new work: not once a Rest entry drains (R497)? -/
def State.working (s : State) : Bool := s.get .rest 0 F.REST_STATUS_STATE < 3

/-! ### Activation (R65) -/

/-- Is a bit address an instance of this field in the page at offset `p`? -/
def Fld.hasKey (f : Fld) (p key : Nat) : Bool :=
  let base := fkey p f 0
  base ≤ key && (if f.bst = 0 then decide (key = base) else (key - base) % f.bst = 0 && (key - base) / f.bst < f.cnt)
/-- Does a bit address lie in the pages of instance `n` of a block? -/
def inPages (b : Block) (n key : Nat) : Bool := 8 * pg b n ≤ key && key < 8 * pg b n + 8 * 0x1000 * b.pages
/-- The activation of a commit: the staged copy becomes active and COMMIT_PENDING clears. -/
def State.copyStaged (s : State) (b : Block) (n : Nat) : State :=
  let p := pg b n
  let rwl := (blockFields b).filter (fun f => f.acc = .rwl)
  let kept := s.regs.filter (fun x => !(inPages b n x.1 && rwl.any (fun f => f.hasKey p x.1)))
  let new := (s.staged.filter (fun x => inPages b n x.1)).foldl (fun m x => sput m x.1 x.2) kept
  ({ s with regs := new, actDue := s.actDue.filter (· ≠ p) }).putP p F.HDR_STATUS_COMMIT_PENDING 0

/-! ### Resets of a page -/

/-- Number of pages' bits of a block. -/
def pageBits (b : Block) : Nat := 8 * 0x1000 * b.pages

/-- A whole-scope reset: both copies of every field return to their reset values, OPEN reads 1, and a pending commit is
abandoned; HDR_OWNER is kept (R64, R524, R586). -/
def State.wipePage (s : State) (b : Block) (n : Nat) : State :=
  let p := pg b n
  let w := s.get b n F.HDR_OWNER_WORLD
  let s1 := { s with
    regs := sdropRange s.regs (8 * p) (8 * p + pageBits b)
    staged := sdropRange s.staged (8 * p) (8 * p + pageBits b)
    actDue := s.actDue.filter (· ≠ p)
    blockResets := s.blockResets.filter (· ≠ p), closedWork := s.closedWork.filter (fun x => x.1 ≠ p) }
  s1.put b n F.HDR_OWNER_WORLD w

/-- Is a block under a block-level reset, its input closed (R70)? -/
def State.blockClosed (s : State) (b : Block) (n : Nat) : Bool := pg b n ∈ s.blockResets
/-- Work that reaches a block: done, or held at its sender while the block's input is closed (R70). -/
def State.reaches (s : State) (b : Block) (n : Nat) (w : ResetWork) (f : State → State) : State :=
  if s.blockClosed b n then { s with closedWork := s.closedWork ++ [(pg b n, w)] } else f s

/-- Fields of the header a block-level reset leaves alone (R64). -/
def hdrKept : List Fld := [F.HDR_OWNER_WORLD, F.HDR_LOCK_STICKY, F.HDR_LOCK_LOCK_AGENT]

/-- Return every instance of a field to its reset value. -/
def State.clearField (s : State) (p : Nat) (f : Fld) : State :=
  (List.range f.cnt).foldl (fun t i => { t with regs := sdel t.regs (fkey p f i) }) s

/-- A block-level reset: RW fields, status and counters return to their reset values; both copies of every RWL field,
HDR_OWNER and HDR_LOCK are kept; a pending commit keeps OPEN and COMMIT_PENDING (R64, R599). While STICKY is 1 OPEN keeps its value too, as R68 asks
(the choice between R64 and R68 is the model's: log entry 131). -/
def State.blockClear (s : State) (b : Block) (n : Nat) : State :=
  let p := pg b n
  let op := s.getP p F.HDR_STATUS_OPEN
  let pend := s.getP p F.HDR_STATUS_COMMIT_PENDING
  let fs := (hdrFields ++ blockFields b).filter (fun f => decide (f.acc ≠ .rwl) && !(f ∈ hdrKept))
  let s1 := fs.foldl (fun t f => t.clearField p f) s
  if pend = 1 then (s1.putP p F.HDR_STATUS_OPEN op).putP p F.HDR_STATUS_COMMIT_PENDING 1
  else if s.getP p F.HDR_LOCK_STICKY = 1 then s1.putP p F.HDR_STATUS_OPEN op
  else s1

/-- Write WORLD of an assignable block, its OWN copy being the same field read twice (R534). -/
def State.setWorld (s : State) (b : Block) (n w : Nat) : State := s.put b n F.HDR_OWNER_WORLD w

/-- Commands of the hub have an effect only while it has power and no held reset is in force (R565, R583). -/
def State.live (s : State) : Bool :=
  s.boot.powered && (match s.boot.inReset with
    | some r => !r.pinHeld && decide (r.stage ≠ .held)
    | none => true)

/-! ### Memory of the processors (R506 to R509) -/

/-- Key of address 0 of a processor's memory: kind 0 secure, 1 management. -/
def memBase (kind slab : Nat) : Nat := 2 ^ 22 * (2 * kind + slab)
/-- Bytes below the persistent region. -/
def workSize : Nat := 0x300000
/-- Zero the part [lo, hi) of a processor's memory. -/
def zeroMem (m : SMap Byte) (kind slab lo hi : Nat) : SMap Byte := sdropRange m (memBase kind slab + lo) (memBase kind slab + hi)
/-- Replace the part [lo, hi) of a processor's memory by entries that lie in it, keyed by their address, rising. -/
def replaceMem (m : SMap Byte) (kind slab lo hi : Nat) (new : SMap Byte) : SMap Byte :=
  m.filter (fun x => x.1 < memBase kind slab + lo) ++ new.map (fun x => (memBase kind slab + x.1, x.2)) ++
    m.filter (fun x => memBase kind slab + hi ≤ x.1)
/-- An accepted image stands in both processors' memories of its kind, below their persistent regions, from address 0 on (R593). -/
def loadImage (m : SMap Byte) (kind : Nat) (body : List Byte) : SMap Byte :=
  let new := ((body.zipIdx).filter (fun x => x.1 ≠ 0 && x.2 < workSize)).map (fun x => (x.2, x.1))
  replaceMem (replaceMem m kind 0 0 workSize new) kind 1 0 workSize new
/-- The persistent regions of one Slab's processors are copied to the other Slab's (R508). -/
def copyPersistent (m : SMap Byte) (src dst : Nat) : SMap Byte :=
  let part (kind : Nat) : SMap Byte := (m.filter (fun x => memBase kind src + workSize ≤ x.1 && x.1 < memBase kind src + 2 ^ 22)).map
    (fun x => (x.1 - memBase kind src, x.2))
  replaceMem (replaceMem m 0 dst workSize (2 ^ 22) (part 0)) 1 dst workSize (2 ^ 22) (part 1)

/-! ### What an event of the hub leaves alone -/

/-- A state whose clock, supervisor, power and queue are the given ones. -/
def State.pin (t : State) (tb : Timebase) (sup : Sup) (powered : Bool) (q : List Instr) : State :=
  { t with
    tb := { t.tb with stroke := tb.stroke, phase := tb.phase, len := tb.len, elapsed := tb.elapsed }
    sup := sup, boot := { t.boot with powered := powered }, pending := q }
/-- An event takes effect at one instant: the clock, the supervisor, the hub's power and the queue stay as they were in `s`. -/
def State.within (t s : State) : State := t.pin s.tb s.sup s.boot.powered s.pending

/-- A change of the supervisor. -/
def State.modSup (s : State) (f : Sup → Sup) : State := { s with sup := f s.sup }
/-- The switch opens and every converter is disabled. -/
def Sup.openSwitch (u : Sup) : Sup :=
  { u with switchOn := false, pg := false, timerRun := false, pgOnce := false, step := 0, rails := 0, released := false }
/-- States in which the switch is closed. -/
def SupSt.closed (t : SupSt) : Bool := t = .ramp || t = .on || t = .limit
/-- The hub loses power. -/
def State.unpower (s : State) : State :=
  { s with boot := { s.boot with powered := false, inReset := none, requests := [] } }
/-- A command that wrote PSUP_CTL.POWER_OFF ends (R579): the rails go down in order, the switch opens and is held open. `s` is the state the
command began in. -/
def State.cutAsked (t s : State) : State :=
  if t.boot.offAsk && !s.boot.offAsk && t.sup.st.closed then
    ({ t with boot := { t.boot with offAsk := false } }.modSup (fun u => { u.openSwitch with st := .held })).unpower
  else { t with boot := { t.boot with offAsk := t.boot.offAsk && s.boot.offAsk } }

/-- An event of the hub that opens no boundary: its effect while the hub is live, nothing otherwise. -/
def hubNow (s : State) (f : State → State) : Host.Outcome State Fault Refusal := .next (if s.live then ((f s).within s).cutAsked s else s)

end Sys2Proof.Machine
end

