-- ==== Sys2Proof/Machine/Energy.lean ====
section
/-! DEFINITION. Charging the energy ledger (R485, R486, R629): the cost of an operation goes to its class, a background use and the
grant it spends; grants that are still unspent (R170, R398, R492, R493). -/

namespace Sys2Proof.Machine

/-- Cost of operation `n` of R486, in 1/16 nJ. -/
def State.cost (s : State) (n : Nat) : Nat := s.get .ledg 0 F.LEDG_COST_COST n
/-- A class of R485 with the background use of LEDG_BG that it is, for class 1. -/
inductive Account
  | fg | effort | recomp | scrub | spill | migr | query | ring
deriving DecidableEq, Repr
/-- Consumer class. -/
def Account.cls : Account → Nat
  | .fg => 0
  | .query => 2
  | .ring => 3
  | _ => 1
/-- Background use. -/
def Account.bg : Account → Option Nat
  | .effort => some 0
  | .recomp => some 1
  | .scrub => some 2
  | .spill => some 3
  | .migr => some 4
  | _ => none
/-- Key of the grant an account spends: 0 for the query engines, else its background use. -/
def Account.grantKey : Account → Option Nat
  | .query => some 0
  | .recomp => some 1
  | .spill => some 3
  | .migr => some 4
  | _ => none
/-- Add to one sum of a store. -/
def addAt (m : SMap Nat) (k n : Nat) : SMap Nat := sset 0 m k (sget 0 m k + n)
/-- Charge operations, as (cost number, count), to an account; in Rest everything is overhead (R495). -/
def State.spend (s : State) (a : Account) (xs : List (Nat × Nat)) : State :=
  if s.get .rest 0 F.REST_STATUS_STATE = 4 then s
  else
    let n := (xs.map (fun x => s.cost x.1 * x.2)).sum
    let e := s.energy
    { s with energy := { e with charge := addAt e.charge a.cls n
                                bg := match a.bg with
                                  | some k => addAt e.bg k n
                                  | none => e.bg
                                spent := match a.grantKey with
                                  | some k => addAt e.spent k n
                                  | none => e.spent } }
/-- Encode cost above effort 0 (R485, R629): the surcharge of a higher effort. -/
def State.surcharge (s : State) (e kib : Nat) : State :=
  let n := kib * (s.cost (5 + e) - s.cost 5)
  { s with energy := { s.energy with charge := addAt s.energy.charge 1 n, bg := addAt s.energy.bg 0 n } }
/-- Grant of the Sitting in progress, in µJ. -/
def State.grantOf (s : State) (a : Account) : Nat := match a with
  | .query => s.get .ledg 0 F.LEDG_GRANT_QE_GRANT
  | .recomp => s.get .ledg 0 F.LEDG_GRANT_RECOMP_GRANT
  | .spill => s.get .ledg 0 F.LEDG_GRANT_SPILL_GRANT
  | .migr => s.get .ledg 0 F.LEDG_GRANT_MIGR_GRANT
  | _ => 0
/-- Is the account's grant unspent? Foreground work needs none. -/
def State.grantLeft (s : State) (a : Account) : Bool := match a.grantKey with
  | some k => decide (sget 0 s.energy.spent k < 16000 * s.grantOf a)
  | none => true

end Sys2Proof.Machine
end

