-- ==== Sys2Proof/Machine/Addr.lean ====
section
/-! DEFINITION. Attach points, HDM decoders and the forming of a device address from a host address (R86 to R89, R273, R279,
R280); which attach points map a page; their event logs and viral state (R287, R300). -/

namespace Sys2Proof.Machine

/-- Port of an attach point (R71). -/
def portOf (a : Nat) : Nat := a / 2
/-- Half of its port. -/
def halfOf (a : Nat) : Nat := a % 2
/-- Slab of an attach point: ports 0 to 3 lie on Slab 0 (R74). -/
def slabOfAttach (a : Nat) : Nat := a / 8
/-- State of an attach point; index 16 is the I3C path. -/
def State.att (s : State) (a : Nat) : Attach := sget {} s.ports.att a
/-- Change the state of an attach point. -/
def State.modAtt (s : State) (a : Nat) (f : Attach → Attach) : State :=
  { s with ports := { s.ports with att := sset {} s.ports.att a (f (s.att a)) } }
/-- A one-bit PORT field of the attach point's half. -/
def State.link (s : State) (a : Nat) (f : Fld) : Nat := s.get .port (portOf a) f (halfOf a)
/-- Set a PORT field of the attach point's half. -/
def State.setLink (s : State) (a : Nat) (f : Fld) (v : Nat) : State := s.put .port (portOf a) f v (halfOf a)
/-- Does the attach point exist under the port's SPLIT (R273)? -/
def State.hasAttach (s : State) (a : Nat) : Bool :=
  a < 16 && (halfOf a = 0 || s.bit .port (portOf a) F.PORT_CFG_SPLIT)
/-- Is its link up? -/
def State.linkUp (s : State) (a : Nat) : Bool := s.hasAttach a && s.link a F.PORT_LINK_UP = 1
/-- Is it viral (R287)? -/
def State.viral (s : State) (a : Nat) : Bool := s.link a F.PORT_LINK_VIRAL = 1

/-- Port decoder numbers of an attach point, its decoder 0 first (R279). -/
def State.decNums (s : State) (a : Nat) : List Nat :=
  if s.bit .port (portOf a) F.PORT_CFG_SPLIT then (List.range 4).map (· + 4 * halfOf a) else List.range 8
/-- A decoder of a port. -/
def State.dec (s : State) (port d : Nat) : HdmDec := sget {} s.ports.hdm (8 * port + d)
/-- Device span of a decoder (R86). -/
def HdmDec.span (h : HdmDec) : Nat := h.size / h.ways
/-- Per-alias span of a decoder of a port (R86). -/
def State.aliasSpan (s : State) (port d : Nat) : Nat :=
  (s.dec port d).span / 2 ^ s.get .port port F.PORT_DEC_ALIAS_WIDTH d
/-- DPA base of the decoder after `before`, the earlier decoders of its attach point (R280). -/
def State.dpaBase (s : State) (port : Nat) (before : List Nat) (d : Nat) : Nat :=
  (s.dec port d).skip + ((before.filter (fun j => (s.dec port j).committed)).map
    (fun j => (s.dec port j).skip + s.aliasSpan port j)).sum

/-- Committed decoders of an attach point with the DPA base of each: (decoder, base). -/
def State.committedDecs (s : State) (a : Nat) : List (Nat × Nat) :=
  let ds := s.decNums a
  ((List.range ds.length).filter (fun k => (s.dec (portOf a) (ds.getD k 0)).committed)).map
    (fun k => (ds.getD k 0, s.dpaBase (portOf a) (ds.take k) (ds.getD k 0)))

/-- Does a committed decoder of the attach point map the page, through any alias (R300, R548)? -/
def State.mapsPage (s : State) (a page : Nat) : Bool :=
  s.hasAttach a && (s.committedDecs a).any (fun x =>
    x.2 ≤ page * 4096 && page * 4096 < x.2 + s.aliasSpan (portOf a) x.1)

/-- Where a host address leads: alias table entry, page and line. -/
structure HostAddr where
  entry : Nat
  page : Nat
  line : Nat
deriving DecidableEq, Repr

/-- The device offset of a window offset: the interleave bits are taken out (R86 step 1). -/
def deviceOffset (h : HdmDec) (off : Nat) : Nat := off / (h.gran * h.ways) * h.gran + off % h.gran

/-- Decode a host address (R86): the first committed decoder whose window holds it. -/
def State.hostDecode (s : State) (a hpa : Nat) : Option HostAddr :=
  match (s.committedDecs a).find? (fun x =>
      let h := s.dec (portOf a) x.1
      h.base ≤ hpa && hpa < h.base + h.size) with
  | none => none
  | some x =>
    let h := s.dec (portOf a) x.1
    let span := s.aliasSpan (portOf a) x.1
    let d := deviceOffset h (hpa - h.base)
    let dpa := x.2 + d % span
    some { entry := s.get .port (portOf a) F.PORT_DEC_ALIAS_ALIAS_BASE x.1 + d / span
           page := dpa / 4096, line := dpa % 4096 / 64 }

/-- Key context of an alias table entry, none while the entry is invalid (R88). -/
def State.aliasCtx (s : State) (a entry : Nat) : Option Nat :=
  if s.bit .port (portOf a) F.PORT_ALIAS_VALID entry then some (s.get .port (portOf a) F.PORT_ALIAS_KEY_CTX entry) else none

/-! ### Event logs -/

/-- Send MSI-X vector `v` of an attach point, when the host has enabled it. -/
def State.msix (s : State) (a v : Nat) : State :=
  if (s.att a).msixOn then s.emit (.msix a v) else s

/-- The module's timestamp (R297): the value set, advanced by 480 ns a stroke; 0 before the first Set. -/
def State.timestamp (s : State) : Nat := match s.ports.tstamp with
  | some (v, t0) => (v + strokesSince t0 s.now * 480) % 2 ^ 64
  | none => 0

/-- Write a record to a log of an attach point: 64 records per log, overflow counted (R300); the log's interrupt follows its
policy byte, message number in bits [7:4], 0b01 for MSI-X in bits [1:0]. -/
def State.logEvent (s : State) (a : Nat) (e : EvRec) : State :=
  let t := s.att a
  let s1 :=
    if 64 ≤ (t.logs.filter (fun r => r.log = e.log)).length then
      let o := sget (0, 0, 0) t.overflow e.log
      let o2 : Nat × Nat × Nat := (min 0xFFFF (o.1 + 1), if o.1 = 0 then s.timestamp else o.2.1, s.timestamp)
      s.modAtt a (fun t => { t with overflow := sput t.overflow e.log o2 })
    else
      s.modAtt a (fun t => { t with logs := t.logs ++ [{ e with handle := t.nextHandle, time := s.timestamp }],
                                     nextHandle := if t.nextHandle = 0xFFFF then 1 else t.nextHandle + 1 })
  let p := sget 0x10 t.policy e.log
  if p % 4 = 1 then s1.msix a (p / 16) else s1

/-- Write a record to every attach point a condition picks. -/
def State.logWhere (s : State) (e : EvRec) (c : Nat → Bool) : State :=
  s.forN 16 (fun t a => if s.hasAttach a && c a then t.logEvent a e else t)

/-- A vendor event to every attach point, or to those that map its page when it names one (R300). -/
def State.vendorEvent (s : State) (e : EvRec) : State :=
  s.logWhere { e with stroke := s.now } (fun a => e.page = 0x1FFFFFFF || s.mapsPage a e.page)

/-- An event record that names no page. -/
def evOf (log ev level unit : Nat) : EvRec := { log := log, ev := ev, level := level, unit := unit, page := 0x1FFFFFFF }

/-- An attach point enters viral (R287) and departs at the next edge (R332): PORT_VIRAL takes the cause and the record's SEQ, the VIRAL interrupt is raised and the
event goes to its own log. -/
def State.enterViral (s : State) (a cause seq : Nat) : State :=
  let s1 := ((s.setLink a F.PORT_LINK_VIRAL 1).setLink a F.PORT_VIRAL_CAUSE cause).setLink a F.PORT_VIRAL_HQ_SEQ seq
  let s2 := s1.raise .port (portOf a) 18
  let s3 := { s2 with home := { s2.home with departNext := addOnce s2.home.departNext a } }
  s3.logEvent a { evOf 2 0x0A 2 (portOf a) with hqSeq := seq, stroke := s.now }

end Sys2Proof.Machine
end

