-- ==== Sys2Proof/Machine/Fault.lean ====
section
/-! DEFINITION. Fault collection and reaction (chapter 16): records, escalation, acknowledgement, device-fatal faults, broken
wires and the Seam's buckets; security alarms (R269, R270). -/

namespace Sys2Proof.Machine

/-- Base level of a class; the rule that raises it gives the level of an error wire and of a security alarm (R547). -/
def classBase (r : Rep) : Nat :=
  if r.cls = 0x1E ∨ 0x80 ≤ r.cls then r.base
  else if r.cls ∈ [0x10, 0x11, 0x12, 0x1B, 0x1C, 0x1F, 0x20] then 3
  else if r.cls ∈ [0x06, 0x07, 0x08, 0x14, 0x19, 0x1D] then 2
  else if r.cls ∈ [0x01, 0x09, 0x0A, 0x0B, 0x0D] then 1
  else 0

/-- Does the class call for a cold reset at L3 (R547)? -/
def classCold (cls : Nat) : Bool := cls ∈ [0x10, 0x11, 0x12, 0x1B, 0x1F]

/-- How a class is reported to hosts (R547). -/
inductive HostCol
  | g | v | e05 | e09 | no
deriving DecidableEq, Repr
/-- The Host column of R547. -/
def classHost (cls : Nat) : HostCol :=
  if 0x81 ≤ cls ∧ cls ≤ 0x8B then .e09
  else if cls ∈ [0x01, 0x05, 0x09, 0x0B, 0x0D] then .g
  else if cls = 0x08 then .e05
  else if cls ∈ [0x16, 0x17, 0x18] then .no
  else .v

/-- Block of a BLOCK_ID. -/
def blockOfId (i : Nat) : Option Block := Block.all.find? (fun b => b.id = i)

/-- `a` is at or before `b`, counting back at most 32,767 numbers modulo 2^16 (R544). -/
def seqLe (a b : Nat) : Bool := (b + 65536 - a % 65536) % 65536 ≤ 32767

/-- The event record a fault record gives (R300, R554). -/
def evOfRec (r : FRec) : EvRec :=
  let host := classHost r.cls
  { log := if host = .e05 then 1 else r.level
    gme := host = .g && r.lineValid
    dpa := r.page * 4096 + 64 * r.line
    ev := match host with
      | .e05 => 0x05
      | .e09 => 0x09
      | _ => 0x10
    level := r.level, hqSeq := r.seq, stroke := r.stamp, unit := r.unit, page := r.page
    cls := if host = .e09 then r.cls - 0x80 else if host = .e05 then 0 else r.cls
    line := r.line, lineValid := r.lineValid }

/-- Report a record to hosts (R300, R554): by page when it names one. -/
def State.reportHosts (s : State) (r : FRec) : State :=
  if classHost r.cls = .no then s
  else s.logWhere (evOfRec r) (fun a => r.page = 0x1FFFFFFF || s.mapsPage a r.page)

/-- The steps that follow an L3 record (R549, R550): FLT_LAST_FATAL keeps the first, a Fatal record goes to every attach point
whose link is up and to the I3C path, and the reset is requested. -/
def State.fatal (s : State) (r : FRec) : State :=
  let s1 := if s.faults.fatalPending then s else { s with faults := { s.faults with lastFatal := some r, fatalPending := true } }
  let e := { evOfRec r with log := 3 }
  let s2 := (s1.logWhere e (fun a => s.linkUp a)).logEvent 16 e
  let cold := classCold r.cls
  let cause := if r.cls = 0x1B then 0x09 else if cold then 0x08 else 0x07
  { s2 with boot := { s2.boot with requests := s2.boot.requests ++ [{ cold := cold, cause := cause, l3 := true }] } }

/-- Counters of a class: reports (merged ones included) and escalated records, saturating (R558). -/
def Faults.count (f : Faults) (cls n esc : Nat) : Faults :=
  let c := sget (0, 0) f.counts cls
  { f with counts := sset (0, 0) f.counts cls (min 0xFFFF (c.1 + n), min 0xFFFF (c.2 + esc)) }

/-- Write one record (R539 to R543, R556) and react by its level (R548). `dropped` is the number merged into it (R541). -/
def State.record (s : State) (r : Rep) (dropped : Nat := 0) : State :=
  let base := classBase r
  let esc := !r.checker && (sget none s.faults.pend r.cls).isSome && decide (base < 3)
  let lvl := if esc then base + 1 else base
  let rec_ : FRec :=
    { seq := s.faults.nextSeq, cls := r.cls, level := lvl, base := base, escalated := esc, checker := r.checker
      stamp := s.now, phase := r.phase, block := r.block, inst := r.inst, loc := r.loc, agent := r.agent
      poison := r.poison, page := r.page, line := r.line, lineValid := r.lineValid, unit := r.unit, detail := r.detail
      dropped := dropped, alarmSeq := r.alarmSeq }
  let f := s.faults
  let f1 := { f with hq := sput f.hq (rec_.seq % 32) rec_, nextSeq := (f.nextSeq + 1) % 65536
                     pend := if r.checker then f.pend else sset none f.pend r.cls (some (rec_.seq, lvl)) }
  let s1 := { s with faults := f1.count r.cls 1 (b2n esc) }
  -- the source's page, the collector's own registers
  let s2 := match blockOfId r.block with
    | some b =>
      let p := pg b r.inst
      (((s1.putP p F.HDR_ERR_PTR_HQ_INDEX (rec_.seq % 32)).putP p F.HDR_ERR_PTR_VALID 1).putP p F.HDR_ERR_PTR_HQ_SEQ
        rec_.seq).setInts p 1
    | none => s1
  let s3 := (s2.put .flt 0 F.FLT_STATUS_LAST_SEQ rec_.seq).put .flt 0 F.FLT_STATUS_ANY 1
  let s4 := if r.checker then s3 else
    (s3.bump .flt 0 F.FLT_SITTING_FAULTS).put .flt 0 F.FLT_SITTING_MAX_LEVEL (max (s3.get .flt 0 F.FLT_SITTING_MAX_LEVEL) lvl)
  let s5 := s4.setInts (pg .flt 0) (0x10000 + (if lvl = 1 then 0x20000 else 0) + (if 2 ≤ lvl then 0x40000 else 0) +
    (if esc then 0x80000 else 0))
  let s6 := if (s5.get .flt 0 F.FLT_ROUTE_IBI_LEVELS ||| 8).testBit lvl then s5.emit (.ibi (Block.id .flt)) else s5
  let s7 := s6.reportHosts rec_
  if lvl = 3 then s7.fatal rec_
  else if esc && lvl = 2 then
    s7.forN 16 (fun t a => if s7.linkUp a && s7.mapsPage a r.page then t.enterViral a 0x03 rec_.seq else t)
  else s7

/-- SEQ the next record takes. -/
def State.nextSeq (s : State) : Nat := s.faults.nextSeq

/-- Does a source's wire still report (R536)? -/
def State.wireOk (s : State) (r : Rep) : Bool := !((r.block, r.inst, r.loc) ∈ s.faults.broken)

/-- LOCATION of a block's instance: its Slab, or 0b10 for a module block (R60). -/
def locOf (b : Block) (n : Nat) : Nat := if b.perSlab then n / b.insts else 2

/-- A report of block `b`, instance `n`, found by the module itself. -/
def State.fault (s : State) (b : Block) (n cls : Nat) (r : Rep := { cls := 0 }) : State :=
  let r1 := { r with cls := cls, block := b.id, inst := n, loc := locOf b n, phase := s.tb.phase }
  if s.wireOk r1 then s.record r1 else s

/-- FAULT_L is asserted while a pending class's newest record has a routed level, or the pass transistor is damaged (R556,
R576). -/
def State.faultPin (s : State) : Bool :=
  s.sup.st = .fetFault || s.faults.pend.any (fun x => match x.2 with
    | some (_, l) => (s.get .flt 0 F.FLT_ROUTE_PIN_LEVELS ||| 8).testBit l
    | none => false)

/-- Is a class whose newest record is L2 or L3 pending (FLT_STATUS.L2_PENDING, R496 reason 0x05)? -/
def State.l2Pending (s : State) : Bool := s.faults.pend.any (fun x => match x.2 with
  | some (_, l) => decide (2 ≤ l)
  | none => false)

/-! ### Error wires -/

/-- Insert a report by stamp and phase, then base level, location, block and instance (R540). -/
def repBefore (a b : Rep) : Bool :=
  if a.phase ≠ b.phase then a.phase < b.phase
  else if classBase a ≠ classBase b then classBase b < classBase a
  else if a.loc ≠ b.loc then a.loc < b.loc
  else if a.block ≠ b.block then a.block < b.block
  else a.inst < b.inst

/-- Stable insertion into an ordered list of reports with those merged into each. -/
def insRep (x : Rep × List Rep) : List (Rep × List Rep) → List (Rep × List Rep)
  | [] => [x]
  | y :: r => if repBefore x.1 y.1 then x :: y :: r else y :: insRep x r

/-- The reports a source holds when one more arises: eight are held, a ninth is merged into the newest (R541). -/
def holdRep (held : List (Rep × List Rep)) (r : Rep) : List (Rep × List Rep) :=
  let mine := held.filter (fun h => h.1.block = r.block && h.1.inst = r.inst && h.1.loc = r.loc)
  if mine.length < 8 then held ++ [(r, [])]
  else match mine.getLast? with
    | none => held
    | some newest => held.map (fun h => if h = newest then (h.1, h.2 ++ [r]) else h)

/-! ### Acknowledgement -/

/-- Acknowledge one class (R544, R545). -/
def Faults.ackClass (f : Faults) (cls seq : Nat) : Faults :=
  { f with
    hq := f.hq.map (fun x => if x.2.cls = cls && seqLe x.2.seq seq then (x.1, { x.2 with acked := true }) else x)
    pend := match sget none f.pend cls with
      | some (newest, _) => if seqLe newest seq then sdel f.pend cls else f.pend
      | none => f.pend }

/-- FLT_ACK (R544): one class, or every class with ALL. -/
def State.ack (s : State) (cls seq : Nat) (all : Bool) : State :=
  { s with faults := if all then (List.range 256).foldl (fun f c => f.ackClass c seq) s.faults else s.faults.ackClass cls seq }

/-! ### Security alarms -/

/-- Level and poison code of an alarm class (R269). -/
def alarmLevel (cls : Nat) : Nat :=
  if cls = 2 then 2 else if cls ∈ [6, 7, 8, 9] then 0 else 1
/-- Poison code of an alarm class (R269). -/
def alarmPoison (cls : Nat) : Nat :=
  match cls with
  | 1 | 2 | 10 | 11 => 0x04
  | 3 => 0x05
  | 4 | 5 => 0x06
  | _ => 0x0A
/-- CRYP interrupt bit of an alarm class (R271). -/
def alarmInt (cls : Nat) : Nat :=
  if cls ∈ [1, 10, 11] then 16 else if cls = 2 then 17 else if cls = 3 then 18 else if cls ∈ [4, 5] then 19 else 20

/-- Order the records of a Slab's queue that share a stroke by logical page (R270): the record at a sequence number and the one before it change
places, each keeping the fault record it matches. -/
def State.alarmSwap (s : State) (slab seq : Nat) : State :=
  let p := (seq + 65535) % 65536
  match sfind s.crypto.alarms (16 * slab + p % 16), sfind s.crypto.alarms (16 * slab + seq % 16) with
  | some a, some b =>
    if a.stamp = b.stamp && b.page < a.page && a.seq = p then
      let al := sput (sput s.crypto.alarms (16 * slab + p % 16) { b with seq := p }) (16 * slab + seq % 16) { a with seq := seq }
      let renum (x : FRec) : FRec := if x.block = Block.cryp.id && x.inst = slab && x.seq = a.hqSeq && x.alarmSeq = p then { x with alarmSeq := seq }
        else if x.block = Block.cryp.id && x.inst = slab && x.seq = b.hqSeq && x.alarmSeq = seq then { x with alarmSeq := p } else x
      { s with crypto := { s.crypto with alarms := al }, faults := { s.faults with hq := s.faults.hq.map (fun (y : Nat × FRec) => (y.1, renum y.2)) } }
    else s
  | _, _ => s
/-- The alarm record whose fault record is `hq` (R269 to R271). -/
def State.alarmWrite (s1 : State) (slab cls : Nat) (a : Alarm) (hq lvl : Nat) : State :=
  let seq := sget 0 s1.crypto.alarmSeq slab
  let rec_ := { a with cls := cls, seq := seq, poison := alarmPoison cls, level := lvl, hqSeq := hq }
  let s2 := { s1 with crypto := { s1.crypto with
    alarms := sput s1.crypto.alarms (16 * slab + seq % 16) rec_
    alarmSeq := sset 0 s1.crypto.alarmSeq slab ((seq + 1) % 65536) } }
  let s2 := s2.forN 15 (fun t i => t.alarmSwap slab ((seq + 65536 - i) % 65536))
  let s3 := (s2.put .cryp slab F.CRYP_ALARM_STAT_LAST_SEQ seq).put .cryp slab F.CRYP_ALARM_STAT_ANY 1
  let s4 := if cls ∈ [1, 10, 11] then s3.bump .cryp slab F.CRYP_MAC_FAIL_COUNT
    else if cls = 2 then s3.bump .cryp slab F.CRYP_LATE_ALARM_COUNT else s3
  s4.raise .cryp slab (alarmInt cls)
/-- Raise an alarm on a Slab: an alarm record and a fault record that name each other (R269, R270); the caller gives the stroke of
the request as its stamp. -/
def State.alarm (s : State) (slab cls : Nat) (a : Alarm) (unit : Nat := 0) : State :=
  let seq := sget 0 s.crypto.alarmSeq slab
  let hq := s.nextSeq
  let s1 := s.fault .cryp slab (0x80 + cls)
    { cls := 0x80 + cls, base := alarmLevel cls, agent := a.agent, poison := alarmPoison cls, page := a.page, line := a.line
      lineValid := a.page ≠ 0x1FFFFFFF, checker := a.checker, alarmSeq := seq, unit := unit }
  let lvl := match sfind s1.faults.hq (hq % 32) with
    | some r => if r.seq = hq && s1.nextSeq ≠ hq then r.level else alarmLevel cls
    | none => alarmLevel cls
  s1.alarmWrite slab cls a hq lvl

/-! ### Reports taken from the wires (R540, R541) -/

/-- Is a report a crypto block's security alarm? -/
def isAlarmRep (r : Rep) : Bool := r.block = Block.cryp.id && 0x81 ≤ r.cls && r.cls ≤ 0x8B && r.inst < 2
/-- A security alarm among the reports has its own record, merged or not (R269, R541); the context and the media address, which a report does not
carry, are free values. -/
def State.alarmOfRep (s : State) (r : Rep) (hq lvl : Nat) : State :=
  if !isAlarmRep r then s
  else
    let c := s.draw 14
    let m := c.2.draw 64
    m.2.alarmWrite r.inst (r.cls - 0x80)
      { cls := r.cls - 0x80, stamp := s.now, ctx := c.1.toNat, page := r.page, line := r.line, agent := r.agent, media := m.1.toNat
        checker := r.checker, viral := decide (r.cls = 0x82) } hq lvl
/-- A report is recorded with those merged into it: each counts in its own class, and a merged security alarm takes the SEQ of the record that holds
it and the level of its class (R541). -/
def State.recordHeld (s : State) (x : Rep × List Rep) : State :=
  let hq := s.nextSeq
  let r := if isAlarmRep x.1 then { x.1 with alarmSeq := sget 0 s.crypto.alarmSeq x.1.inst } else x.1
  let s1 := s.record r x.2.length
  let lvl := match sfind s1.faults.hq (hq % 32) with
    | some q => q.level
    | none => classBase r
  x.2.foldl (fun t (y : Rep) => ({ t with faults := t.faults.count y.cls 1 0 } : State).alarmOfRep y hq (classBase y)) (s1.alarmOfRep r hq lvl)
/-- Reports that arise together: held at their sources, then written in order (R540, R541). -/
def State.takeReports (s : State) (rs : List Rep) : State :=
  let held := (rs.filter s.wireOk).foldl holdRep []
  let ordered := held.foldl (fun acc x => insRep x acc) []
  ordered.foldl (fun t x => t.recordHeld x) s

/-! ### The Seam -/

/-- An addition to a lane group's bucket in 8.8 fixed point; at THRESH it declares a permanent Seam fault (R551, R552). -/
def State.seamAdd (s : State) (slab g w : Nat) : State :=
  let lvl := min 0xFFFF (s.get .seam slab F.SEAM_BUCKET_LEVEL g + 256 * w)
  let s1 := s.put .seam slab F.SEAM_BUCKET_LEVEL lvl g
  if 256 * s.get .seam slab F.SEAM_BUCKET_CFG_THRESH ≤ lvl && !s.bit .seam slab F.SEAM_BUCKET_PERMANENT g then
    let s2 := (s1.put .seam slab F.SEAM_BUCKET_PERMANENT 1 g).put .seam slab F.SEAM_MAP_FAILED
      (setBit (s1.get .seam slab F.SEAM_MAP_FAILED) g true)
    (s2.fault .seam slab 0x1C { cls := 0x1C, unit := g }).raise .seam slab 17
  else s1

/-- The leak of every Seam bucket at a Layer boundary (R551). -/
def State.seamLeak (s : State) : State :=
  s.forN 2 (fun t d => t.forN 18 (fun u g =>
    u.put .seam d F.SEAM_BUCKET_LEVEL (u.get .seam d F.SEAM_BUCKET_LEVEL g - u.get .seam d F.SEAM_BUCKET_CFG_LEAK) g))

/-- A replay on a lane group (R551): counted, its weight added. -/
def State.seamReplay (s : State) (slab g : Nat) (crc : Bool) : State :=
  let s1 := s.bump .seam slab F.SEAM_REPLAY_COUNT
  let s2 := if crc then s1.bump .seam slab F.SEAM_CRC_ERR_COUNT else s1
  let w := if crc then s.get .seam slab F.SEAM_BUCKET_CFG_W_CRC else s.get .seam slab F.SEAM_BUCKET_CFG_W_TIMEOUT
  (s2.raise .seam slab 16).seamAdd slab g w

/-- SEAM_REPLAY (R551): a flit with a bad CRC is replayed. -/
def State.cmdSeamReplay (s : State) (slab group : Nat) : State := s.seamReplay slab group true
/-- SEAM_REPLAY_TIMEOUT (R551): a flit goes unacknowledged and is replayed. -/
def State.cmdSeamReplayTimeout (s : State) (slab group : Nat) : State := s.seamReplay slab group false
/-- SEAM_LOCK_LOSS (R551): a lane group loses lock. -/
def State.cmdSeamLockLoss (s : State) (slab group : Nat) : State := s.seamAdd slab group (s.get .seam slab F.SEAM_BUCKET_CFG_W_LOCK)

/-! ### Registers computed at the read -/

/-- The bytes of a fault record (R539), as one number. -/
def FRec.word (r : FRec) : Nat :=
  leNat (leBytes 2 r.seq ++ leBytes 1 r.cls ++
    leBytes 1 (r.level + 4 * r.base + 16 * b2n r.escalated + 32 * b2n r.checker + 64 * b2n r.acked) ++
    leBytes 6 r.stamp.toNat ++ leBytes 1 r.phase ++ leBytes 1 r.block ++ leBytes 1 r.inst ++ leBytes 1 r.loc ++
    leBytes 1 r.agent ++ leBytes 1 r.poison ++ leBytes 4 r.page ++ leBytes 1 (r.line % 64 + 64 * b2n r.lineValid) ++
    leBytes 1 r.unit ++ leBytes 2 r.detail ++ leBytes 2 r.dropped ++ leBytes 2 r.alarmSeq ++ leBytes 4 0)

/-- Word `w` of history-queue entry `i` (FLT_HQ); an entry not yet written reads zero. -/
def State.hqWord (s : State) (i w : Nat) : Nat := match sfind s.faults.hq i with
  | some r => bits r.word (32 * w) 32
  | none => 0
/-- Word `w` of FLT_LAST_FATAL. -/
def State.fatalWord (s : State) (w : Nat) : Nat := match s.faults.lastFatal with
  | some r => bits r.word (32 * w) 32
  | none => 0
/-- FLT_PENDING_w. -/
def State.pendingWord (s : State) (w : Nat) : Nat :=
  leNat ((List.range 4).map (fun k => BitVec.ofNat 8 (((List.range 8).map (fun j =>
    if (sget none s.faults.pend (32 * w + 8 * k + j)).isSome then 2 ^ j else 0)).sum)))
/-- The bytes of an alarm record (R270), as one number. -/
def Alarm.word (a : Alarm) : Nat :=
  leNat (leBytes 1 a.cls ++ leBytes 1 (b2n a.checker + 2 * b2n a.viral) ++ leBytes 2 a.seq ++ leBytes 6 a.stamp.toNat ++
    leBytes 2 a.ctx ++ leBytes 4 a.page ++ leBytes 1 a.line ++ leBytes 1 a.agent ++ leBytes 1 a.poison ++ leBytes 1 a.level ++
    leBytes 8 a.media ++ leBytes 2 a.hqSeq ++ leBytes 2 0)

end Sys2Proof.Machine
end

