-- ==== Sys2Proof/Machine/Access.lean ====
section
/-! DEFINITION. Who reaches which register: the checks every access passes, in the order of R83, and the record of a refused
access (R76 to R85). -/

namespace Sys2Proof.Machine

/-- The block, instance and offset within the block at a register-space offset; none for an unassigned page (R74, R75). -/
def blockAt (off : Nat) : Option (Block × Nat × Nat) :=
  let hit (b : Block) : Option (Block × Nat × Nat) :=
    if b.perSlab then
      let r := off % 0x400000
      if off < 0x800000 && b.off ≤ r && r < b.off + 0x1000 * b.insts * b.pages then
        let i := (r - b.off) / (0x1000 * b.pages)
        some (b, off / 0x400000 * b.insts + i, (r - b.off) % (0x1000 * b.pages))
      else none
    else if b.off ≤ off && off < b.off + 0x1000 * b.insts * b.pages then
      some (b, (off - b.off) / (0x1000 * b.pages), (off - b.off) % (0x1000 * b.pages))
    else none
  Block.all.findSome? hit

/-- Is the agent a secure processor (R71)? -/
def isSecp (agent : Nat) : Bool := agent = 3 || agent = 4
/-- Is the agent a management processor (R71)? -/
def isMgmt (agent : Nat) : Bool := agent = 1 || agent = 2
/-- Is the agent a host attach point (R71)? -/
def isHost (agent : Nat) : Bool := 0x10 ≤ agent && agent < 0x20

/-- Offsets of a header a normal-world agent may read in a page of another world (R80). -/
def identOffset (off : Nat) : Bool := off / 4 * 4 ∈ [0x000, 0x004, 0x008, 0x024]

/-- HDR_CAP bits by block (R60, R599, and each chapter's registers section). -/
def capResetOk (b : Block) : Bool := b ∈ [.port, .qeng, .ofld, .qgth, .hcac, .codc, .ring]
/-- Blocks with RWL fields. -/
def capHasCommit (b : Block) : Bool := (blockFields b).any (fun f => f.acc = .rwl)
/-- Blocks a manager can write over the ring (R74, R75). -/
def capRing (b : Block) : Bool := b ∈ [.ledg, .lode, .tier]
/-- Blocks that can be assigned to the secure world (R510). -/
def capAssignable (b : Block) : Bool := b ∈ [.ofld, .qeng]
/-- Blocks that belong to the secure world permanently (R510). -/
def capSecure (b : Block) : Bool := b ∈ [.secp, .keys, .own]

/-- Grant of an agent: 0 none, 1 read, 2 read and write (R78, R79). -/
def State.grant (s : State) (agent : Nat) : Nat :=
  let enc (g : Nat) : Nat := if g = 3 then 0 else g
  if isHost agent then enc (s.get .mod 0 F.MOD_HOST_GRANT_GRANT (agent - 0x10))
  else if agent = 8 then enc (s.get .mod 0 F.MOD_AUX_GRANT_I3C_GRANT)
  else 2

/-- Does a width and alignment rule drop the access (R56)? -/
def badWidth (off width : Nat) (write : Bool) : Bool :=
  if width = 4 ∨ width = 8 then off % width ≠ 0
  else if write then true
  else if width = 1 then false
  else if width = 2 then off % 4 = 1 || off % 4 = 3
  else true

/-- Fields of the ring-boot path that take ring writes while STAGE reads WAIT_RING (R81, R595). -/
def State.ringBoot (s : State) (off : Nat) : Bool :=
  s.get .mgmt 0 F.MGMT_BOOT_STATUS_STAGE = 2 &&
  (off = 0x210C || off = 0x2110 || (0x2200 ≤ off && off < 0x2240))

/-- Fields of ring-writable pages that their chapters mark as set by the manager (R81): LEDG_MGR_LIMIT, LODE_PLAN and the
TIER_SPILL_TGT and TIER_SPILL_ALLOW registers. -/
def managerSet (b : Block) (o : Nat) : Bool :=
  match b with
  | .ledg => o = 0x108
  | .lode => o = 0x128
  | .tier => o = F.TIER_SPILL_TGT_DONOR.off || o = F.TIER_SPILL_ALLOW_ALLOW.off
  | _ => false

/-- The reason an access is dropped, the first that applies in the order of R83: 3 Slab absent, 2 width or alignment, 1 world,
0 grant; none where it is performed. -/
def State.dropCause (s : State) (agent off width : Nat) (write : Bool) : Option Nat :=
  let at_ := blockAt off
  let slabGone := off < 0x800000 && !s.present (off / 0x400000)
  let worldStop : Bool := match at_ with
    | some (b, n, o) => !isSecp agent && (
        (s.world b n = 1 || s.world b n = 2) && (write || !(identOffset o))
        || (decide (b = Block.qgth) && 0x100 ≤ o && o < 0x180 && s.bit .qgth n F.QGTH_CQ_CTL_SECURE ((o - 0x100) / 0x20)))
    | none => false
  let grantStop : Bool :=
    if write then
      match at_ with
      | some (b, _, o) =>
        if b = Block.mod ∧ (o = 0x104 ∨ o = 0x108) then !(isMgmt agent || isSecp agent)
        else if b = Block.psup ∧ o = 0x10C then !(isMgmt agent || isSecp agent)
        else if agent = 9 then !(managerSet b o || s.ringBoot off)
        else s.grant agent < 2
      | none => agent = 9 || s.grant agent < 2
    else s.grant agent < 1
  if slabGone then some 3
  else if badWidth off width write then some 2
  else if worldStop then some 1
  else if grantStop then some 0
  else none

/-- Record a refused access (R82, R84). -/
def State.denied (s : State) (agent off cause : Nat) (write : Bool) : State :=
  let s1 := (s.bump .mod 0 F.MOD_DENIED_STAT_COUNT).put .mod 0 F.MOD_DENIED_STAT_LAST_AGENT agent
  ((s1.put .mod 0 F.MOD_DENIED_ADDR_OFFSET off).put .mod 0 F.MOD_DENIED_ADDR_WRITE (b2n write)).put .mod 0
    F.MOD_DENIED_ADDR_CAUSE cause

/-- A 32-bit register write by an agent: its effect when no rule drops it, the record of the drop otherwise. -/
def State.writeBy (s : State) (agent off : Nat) (f : State → State) : State :=
  match s.dropCause agent off 4 true with
  | some c => s.denied agent off c true
  | none => f s

/-- The same for a register of a block, named by one of its fields. -/
def State.fieldWrite (s : State) (agent : Nat) (b : Block) (n : Nat) (fl : Fld) (f : State → State) (i : Nat := 0) : State :=
  s.writeBy agent (pg b n + fl.off + (fl.lo + fl.bst * i) / 32 * 4) f

/-- MOD_DENIED_STAT.CLEAR (R84). -/
def State.clearDenied (s : State) : State :=
  [F.MOD_DENIED_STAT_COUNT, F.MOD_DENIED_STAT_LAST_AGENT, F.MOD_DENIED_ADDR_OFFSET, F.MOD_DENIED_ADDR_WRITE,
   F.MOD_DENIED_ADDR_CAUSE].foldl (fun t f => t.put .mod 0 f 0) s

/-- DENIED_CLEAR (R84): a write of MOD_DENIED_STAT with CLEAR 1. -/
def State.cmdDeniedClear (s : State) (agent : Nat) : State := s.fieldWrite agent .mod 0 F.MOD_DENIED_STAT_CLEAR State.clearDenied

/-- FLT_ACK (R544): a write of FLT_ACK by any agent R79 allows to write module pages. -/
def State.cmdFltAck (s : State) (agent cls seq : Nat) (all : Bool) : State := s.fieldWrite agent .flt 0 F.FLT_ACK_CLASS (fun s => s.ack cls seq all)

end Sys2Proof.Machine
end

