-- ==== Sys2Proof/Machine/Strata.lean ====
section
/-! DEFINITION. The Strata page format (R153 to R168), match finding and parsing (R167): pure functions over bytes. -/

namespace Sys2Proof.Machine

/-! ### Checks -/

/-- One byte through a bit-reflected CRC-32 of a given polynomial. -/
def crcByte (poly : BitVec 32) (c : BitVec 32) (b : Byte) : BitVec 32 :=
  (List.range 8).foldl (fun x _ => if x.getLsbD 0 then (x >>> 1) ^^^ poly else x >>> 1) (c ^^^ b.setWidth 32)
/-- A bit-reflected CRC-32 with initial value and final exclusive-or all ones. -/
def crc32 (poly : BitVec 32) (l : List Byte) : Nat := (~~~(l.foldl (crcByte poly) 0xFFFFFFFF#32)).toNat
/-- CRC-32C (R162). -/
def crc32c (l : List Byte) : Nat := crc32 0x82F63B78#32 l
/-- The CRC-32 of gzip (R178). -/
def crcGzip (l : List Byte) : Nat := crc32 0xEDB88320#32 l
/-- Adler-32 of zlib (R178). -/
def adler32 (l : List Byte) : Nat :=
  let r := l.foldl (fun (ab : Nat × Nat) b => let a := (ab.1 + b.toNat) % 65521; (a, (ab.2 + a) % 65521)) (1, 0)
  r.2 * 65536 + r.1

/-! ### Bits -/

/-- Bits of a byte string, each byte from its least significant bit (R158). -/
def bitsOf (l : List Byte) : List Bool := l.flatMap (fun b => (List.range 8).map (fun i => b.getLsbD i))
/-- `k` bits of a value, least significant first. -/
def valBits (k v : Nat) : List Bool := (List.range k).map (fun i => v.testBit i)
/-- The number a list of bits spells, least significant first. -/
def bitsVal : List Bool → Nat
  | [] => 0
  | b :: r => b2n b + 2 * bitsVal r
/-- Pack bits into bytes, the last byte padded with zeros; `fuel` bounds the number of bytes. -/
def packBits : Nat → List Bool → List Byte
  | 0, _ => []
  | _ + 1, [] => []
  | n + 1, l => BitVec.ofNat 8 (bitsVal (l.take 8)) :: packBits n (l.drop 8)
/-- Bytes of a bit list. -/
def bytesOfBits (l : List Bool) : List Byte := packBits (l.length / 8 + 1) l
/-- Take `k` bits as a value, none when the stream ends first. -/
def takeBits (k : Nat) (l : List Bool) : Option (Nat × List Bool) :=
  if k ≤ l.length then some (bitsVal (l.take k), l.drop k) else none

/-! ### Match finding and parsing (R167) -/

/-- A token: a literal byte, or a match. -/
inductive Token
  | lit (b : Byte)
  | mat (len dist : Nat)
deriving DecidableEq, Repr

/-- Length of the common prefix of two byte strings, at most `n`. -/
def commonLen : Nat → List Byte → List Byte → Nat
  | 0, _, _ => 0
  | _, [], _ => 0
  | _, _, [] => 0
  | n + 1, a :: r, b :: t => if a = b then commonLen n r t + 1 else 0

/-- Best match at position `p` of the input: candidates within `window` with the same three bytes, most recent first, at most
`depth` of them; the longest, nearest among equals (R167). -/
def bestMatch (l : List Byte) (maxLen window depth p : Nat) : Option (Nat × Nat) :=
  let here := l.drop p
  let back := (List.range (min p window)).map (fun k => p - 1 - k)
  let cands := (back.filter (fun q => commonLen 3 (l.drop q) here = 3)).take depth
  cands.foldl (fun best q =>
    let n := commonLen maxLen (l.drop q) here
    match best with
    | some (m, d) => if m < n then some (n, p - q) else some (m, d)
    | none => some (n, p - q)) none

/-- Chain depth of an effort level (R167). -/
def chainDepth (effort : Nat) : Nat :=
  match effort with
  | 0 => 1
  | 1 => 4
  | 2 => 16
  | _ => 64

/-- Length of the best match at a position, 0 for none. -/
def bestLen (l : List Byte) (maxLen window depth p : Nat) : Nat := match bestMatch l maxLen window depth p with
  | some (n, _) => n
  | none => 0

/-- Parse the positions from `p` up to `stop` (R167): greedy at efforts 0 and 1, one position ahead at 2, two at 3. -/
def parseFrom (l : List Byte) (maxLen window effort stop : Nat) : Nat → Nat → List Token
  | 0, _ => []
  | fuel + 1, p =>
    if stop ≤ p then []
    else
      let depth := chainDepth effort
      let taken := (bestMatch l maxLen window depth p).filter (fun m =>
        !(2 ≤ effort && m.1 < bestLen l maxLen window depth (p + 1)) && !(3 ≤ effort && m.1 < bestLen l maxLen window depth (p + 2)))
      match taken with
      | none => Token.lit (l.getD p 0) :: parseFrom l maxLen window effort stop fuel (p + 1)
      | some (n, d) => Token.mat n d :: parseFrom l maxLen window effort stop fuel (p + n)
/-- Input bytes a token covers. -/
def Token.covers : Token → Nat
  | .lit _ => 1
  | .mat n _ => n

/-! ### Coding tokens (R159, R160) -/

/-- Bits of a literal in the first class of the static table that holds the byte, its flag in front. -/
def litBits (b : Byte) : List Bool :=
  let v := b.toNat
  false :: (
    if v = 0 then [false, false]
    else if v ≤ 0x10 then [false, true] ++ valBits 4 (v - 1)
    else if 0x20 ≤ v ∧ v ≤ 0x5F then [true, false] ++ valBits 6 (v - 0x20)
    else if 0x60 ≤ v ∧ v ≤ 0x7F then [true, true, false] ++ valBits 5 (v - 0x60)
    else if v = 0xFF then [true, true, true, false]
    else [true, true, true, true] ++ valBits 8 v)
/-- Bits of a match, each of length and distance in the shortest code that holds it. -/
def matBits (len dist : Nat) : List Bool :=
  true :: (
    (if len ≤ 6 then false :: valBits 2 (len - 3)
     else if len ≤ 22 then [true, false] ++ valBits 4 (len - 7)
     else [true, true] ++ valBits 10 (len - 23)) ++
    (if dist ≤ 16 then false :: valBits 4 (dist - 1)
     else if dist ≤ 144 then [true, false] ++ valBits 7 (dist - 17)
     else [true, true] ++ valBits 10 (dist - 145)))
/-- Bits of a token. -/
def Token.bits : Token → List Bool
  | .lit b => litBits b
  | .mat n d => matBits n d

/-- A sub-block's mode and stream (R156, R166). -/
def encodeSub (effort : Nat) (l : List Byte) : Nat × List Byte :=
  let v := l.headD 0
  if l.all (fun b => b = v) then (if v = 0 then (2, []) else (3, [v]))
  else
    let st := bytesOfBits ((parseFrom l 1046 1024 effort l.length 1024 0).flatMap Token.bits)
    if st.length < 1024 then (0, st) else (1, l)

/-- The four sub-blocks of a page (R153). -/
def subBlocks (page : List Byte) : List (List Byte) := (List.range 4).map (fun j => sliceB page (1024 * j) 1024)

/-- The header of an image (R155): raw flag, effort, length, CRC, directory words. -/
def strataHeader (raw : Bool) (effort len crc : Nat) (dir : List Nat) : List Byte :=
  leBytes 1 0xD5 ++ leBytes 1 (1 + 16 * b2n raw + 32 * effort) ++ leBytes 2 len ++ leBytes 4 crc ++ dir.flatMap (leBytes 2)

/-- What an encode gives (R166): the zero state, a coded image, or a plain page. -/
inductive Encoded
  | zero
  | coded (image : List Byte)
  | plain
deriving DecidableEq, Repr

/-- A coded image of a page, whatever its length. -/
def codedImage (effort : Nat) (page : List Byte) : List Byte :=
  let subs := (subBlocks page).map (encodeSub effort)
  let lens := subs.map (fun x => x.2.length)
  let dir := (List.range 4).map (fun j => 16 + (lens.take j).sum + 4096 * (subs.getD j (0, [])).1)
  strataHeader false effort (16 + lens.sum) (crc32c page) dir ++ subs.flatMap (fun x => x.2)

/-- Encode a page (R166). -/
def strataEncode (effort : Nat) (page : List Byte) : Encoded :=
  if page.all (fun b => b = 0) then .zero
  else
    let im := codedImage effort page
    if 3584 < im.length then .plain else .coded im

/-- The raw image in external form (R155). -/
def rawExternal (page : List Byte) : List Byte := strataHeader true 0 4112 (crc32c page) [0, 0, 0, 0] ++ page

/-! ### Decoding -/

/-- A literal code from the bits after its flag. -/
def readLit (l : List Bool) : Option (Byte × List Bool) :=
  let val (k base : Nat) (r : List Bool) := (takeBits k r).map (fun x => (BitVec.ofNat 8 (base + x.1), x.2))
  match l with
  | false :: false :: r => some (0, r)
  | false :: true :: r => val 4 0x01 r
  | true :: false :: r => val 6 0x20 r
  | true :: true :: false :: r => val 5 0x60 r
  | true :: true :: true :: false :: r => some (0xFF, r)
  | true :: true :: true :: true :: r => val 8 0 r
  | _ => none
/-- A length code. -/
def readLen (l : List Bool) : Option (Nat × List Bool) :=
  let val (k base : Nat) (r : List Bool) := (takeBits k r).map (fun x => (base + x.1, x.2))
  match l with
  | false :: r => val 2 3 r
  | true :: false :: r => val 4 7 r
  | true :: true :: r => val 10 23 r
  | _ => none
/-- A distance code. -/
def readDist (l : List Bool) : Option (Nat × List Bool) :=
  let val (k base : Nat) (r : List Bool) := (takeBits k r).map (fun x => (base + x.1, x.2))
  match l with
  | false :: r => val 4 1 r
  | true :: false :: r => val 7 17 r
  | true :: true :: r => val 10 145 r
  | _ => none

/-- Copy `n` bytes from `dist` back, one at a time; the output is held newest first (R160). -/
def copyBack (dist : Nat) : Nat → List Byte → List Byte
  | 0, out => out
  | n + 1, out => copyBack dist n (out.getD (dist - 1) 0 :: out)

/-- Decode tokens until 1,024 bytes stand; output newest first, and the bits left. -/
def decodeTokens : Nat → List Bool → List Byte → Option (List Byte × List Bool)
  | 0, l, out => if out.length = 1024 then some (out, l) else none
  | fuel + 1, l, out =>
    if 1024 ≤ out.length then some (out, l)
    else match l with
      | false :: r => (readLit r).bind (fun x => decodeTokens fuel x.2 (x.1 :: out))
      | true :: r =>
        (readLen r).bind (fun n => (readDist n.2).bind (fun d =>
          if out.length < d.1 ∨ 1024 < out.length + n.1 then none
          else decodeTokens fuel d.2 (copyBack d.1 n.1 out)))
      | [] => none

/-- Decode a sub-block from its mode and stream; none is a grammar failure (R156, R160). -/
def decodeSub (mode : Nat) (st : List Byte) : Option (List Byte) :=
  match mode with
  | 0 =>
    (decodeTokens 1024 (bitsOf st) []).bind (fun x =>
      if x.2.length < 8 ∧ x.2.all (fun b => !b) then some x.1.reverse else none)
  | 1 => some st
  | 2 => some (List.replicate 1024 0)
  | _ => some (List.replicate 1024 (st.headD 0))

/-- Causes of a failed decode (CODC_ERR_PAGE.CAUSE, R187). -/
inductive DecErr
  | format | grammar | crc
deriving DecidableEq, Repr
/-- Code of a cause. -/
def DecErr.code : DecErr → Nat
  | .format => 1
  | .grammar => 2
  | .crc => 3

/-- Directory of an image: offset and mode of each sub-block. -/
def strataDir (im : List Byte) : List (Nat × Nat) :=
  (List.range 4).map (fun j => let w := fieldB im (8 + 2 * j) 2; (w % 4096, w / 4096 % 4))

/-- Is a stream's length right for its mode (R156)? -/
def modeLenOk (mode len : Nat) : Bool :=
  match mode with
  | 0 => 1 ≤ len && len ≤ 1023
  | 1 => len = 1024
  | 2 => len = 0
  | _ => len = 1

/-- The header checks common to both forms of a coded image (R161). -/
def codedOk (im : List Byte) (len : Nat) : Bool :=
  let d := strataDir im
  let offs := d.map (fun x => x.1) ++ [len]
  (offs.getD 0 0 = 16) && (List.range 4).all (fun j =>
    let a := offs.getD j 0
    let b := offs.getD (j + 1) 0
    a ≤ b && a ≤ len && modeLenOk (d.getD j (0, 0)).2 (b - a))

/-- Magic, version and reserved bits (R161). -/
def headOk (im : List Byte) : Bool :=
  fieldB im 0 1 = 0xD5 && fieldB im 1 1 % 16 = 1 && fieldB im 1 1 / 128 = 0 && fieldB im 2 2 / 8192 = 0 &&
  (List.range 4).all (fun j => fieldB im (8 + 2 * j) 2 / 16384 = 0)

/-- The stream of sub-block `j`. -/
def subStream (im : List Byte) (j : Nat) : List Byte :=
  let d := strataDir im
  let a := (d.getD j (0, 0)).1
  let b := if j = 3 then fieldB im 2 2 else (d.getD (j + 1) (0, 0)).1
  sliceB im a (b - a)

/-- Decode sub-block `j` of an image whose header has passed. -/
def decodeSubOf (im : List Byte) (j : Nat) : Option (List Byte) := decodeSub ((strataDir im).getD j (0, 0)).2 (subStream im j)

/-- All four sub-blocks and the CRC (R162). -/
def decodeAll (im : List Byte) : Except DecErr (List Byte) :=
  match (List.range 4).mapM (decodeSubOf im) with
  | none => .error .grammar
  | some parts =>
    let page := parts.flatten
    if crc32c page = fieldB im 4 4 then .ok page else .error .crc

/-- Header check of an image in memory of `g` granules (R161). -/
def memHeadOk (im : List Byte) (g : Nat) : Bool :=
  let len := fieldB im 2 2 % 8192
  headOk im && !(fieldB im 1 1).testBit 4 && 17 ≤ len && len ≤ 3584 && (len + 511) / 512 = g && codedOk im len

/-- Decode a page image in memory of `g` granules (R161, R162). -/
def decodeMem (im : List Byte) (g : Nat) : Except DecErr (List Byte) :=
  if memHeadOk im g then decodeAll im else .error .format

/-- Decode an image in external form of which `srcLen` bytes are given (R161, R162). -/
def decodeExternal (im : List Byte) (srcLen : Nat) : Except DecErr (List Byte) :=
  let len := fieldB im 2 2 % 8192
  let raw := (fieldB im 1 1).testBit 4
  if !headOk im || srcLen < len then .error .format
  else if raw then
    if len ≠ 4112 || (strataDir im).any (fun x => x.1 ≠ 0 || x.2 ≠ 0) then .error .format
    else
      let page := sliceB im 16 4096
      if crc32c page = fieldB im 4 4 then .ok page else .error .crc
  else if len < 17 || 3584 < len || !codedOk im len then .error .format
  else decodeAll im

end Sys2Proof.Machine
end

