-- ==== Sys2Proof/Machine/QueryEval.lean ====
section
/-! DEFINITION. What a query engine computes over bytes (R362 to R383): columns, kernels, predicates, keys and the hash, numeric
rules, projected records. Pure functions. -/

namespace Sys2Proof.Machine

/-! ### Columns -/

/-- Width in bytes of a column type, 0 for a reserved code (R363). -/
def typeWidth (t : Nat) : Nat := [1, 2, 4, 8, 1, 2, 4, 8, 4, 8, 16].getD t 0
/-- Is the type one of the unsigned or two's-complement integers? -/
def isInt (t : Nat) : Bool := t < 8
/-- Is the type F32 or F64? -/
def isFlt (t : Nat) : Bool := t = 8 || t = 9

/-- Value of raw bits under two's complement at a width of `w` bytes. -/
def signedOf (w v : Nat) : Int := if v < 2 ^ (8 * w - 1) then v else (v : Int) - 2 ^ (8 * w)
/-- Integer value of raw bits of an integer type. -/
def intOf (t v : Nat) : Int := if t < 4 then v else signedOf (typeWidth t) v

/-- Exponent and mantissa widths of a float type. -/
def fltShape (t : Nat) : Nat × Nat := if t = 8 then (8, 23) else (11, 52)
/-- Is a float NaN? -/
def isNan (t v : Nat) : Bool :=
  let (e, m) := fltShape t
  isFlt t && bits v m e = 2 ^ e - 1 && bits v 0 m ≠ 0
/-- Sign-magnitude order of a float: −0 below +0 (R380). -/
def fltOrd (t v : Nat) : Int :=
  let (e, m) := fltShape t
  let mag := v % 2 ^ (e + m)
  if v.testBit (e + m) then -(mag : Int) - 1 else mag
/-- The order of IEEE comparison: −0 equals +0 (R366). -/
def fltCmp (t v : Nat) : Int :=
  let (e, m) := fltShape t
  let mag := v % 2 ^ (e + m)
  if v.testBit (e + m) then -(mag : Int) else mag
/-- B16: unsigned lexicographic, byte 0 first. -/
def lexOf (v : Nat) : Nat := (leBytes 16 v).foldl (fun a b => 256 * a + b.toNat) 0

/-- A number that orders values of a type as its comparisons do (R363, R366). -/
def cmpKey (t v : Nat) : Int := if isInt t then intOf t v else if isFlt t then fltCmp t v else lexOf v
/-- The order MIN and MAX use (R380). -/
def minKey (t v : Nat) : Int := if isFlt t then fltOrd t v else cmpKey t v

/-! ### Kernels (R364) -/

/-- Field of kernel byte `i`. -/
def kb (k : List Byte) (i lo w : Nat) : Nat := bits (fieldB k i 1) lo w
/-- NCOLS, NTERMS, NPROJ, NAGG, NKEYS of a kernel. -/
def kCols (k : List Byte) : Nat := kb k 3 0 4
def kTerms (k : List Byte) : Nat := kb k 4 0 5
def kProj (k : List Byte) : Nat := kb k 5 0 4
def kAgg (k : List Byte) : Nat := kb k 6 0 2
def kKeys (k : List Byte) : Nat := kb k 6 2 2
/-- PROBE_MODE, TABLE_BASE, TABLE_LOG2, PROBE_MAX, EMPTY_KEY, ROW_LIMIT. -/
def kMode (k : List Byte) : Nat := kb k 6 4 2
def kTable (k : List Byte) : Nat := fieldB k 32 8
def kLog (k : List Byte) : Nat := kb k 40 0 5
def kProbeMax (k : List Byte) : Nat := fieldB k 41 1
def kEmpty (k : List Byte) : Nat := fieldB k 48 8
def kLimit (k : List Byte) : Nat := fieldB k 56 5
/-- Group mask, projected column, key column, aggregate function and column. -/
def kGroup (k : List Byte) (g : Nat) : Nat := fieldB k (8 + 2 * g) 2
def kProjCol (k : List Byte) (j : Nat) : Nat := kb k (16 + j) 0 3
def kKeyCol (k : List Byte) (j : Nat) : Nat := kb k (24 + j) 0 3
def kFn (k : List Byte) (a : Nat) : Nat := kb k (26 + 2 * a) 0 3
def kFnCol (k : List Byte) (a : Nat) : Nat := kb k (27 + 2 * a) 0 3
/-- Column specification: BASE, NULL_BASE, TYPE, HAS_NULLS. -/
def colBase (k : List Byte) (c : Nat) : Nat := fieldB k (128 + 32 * c) 8
def colNull (k : List Byte) (c : Nat) : Nat := fieldB k (136 + 32 * c) 8
def colType (k : List Byte) (c : Nat) : Nat := kb k (144 + 32 * c) 0 4
def colHasNulls (k : List Byte) (c : Nat) : Bool := (fieldB k (144 + 32 * c) 1).testBit 4
def colWidth (k : List Byte) (c : Nat) : Nat := typeWidth (colType k c)
/-- Byte `i` of term `t`. -/
def termOff (t : Nat) : Nat := 384 + 48 * t
def termCol (k : List Byte) (t : Nat) : Nat := kb k (termOff t) 0 3
def termOp (k : List Byte) (t : Nat) : Nat := fieldB k (termOff t + 1) 1
def termNot (k : List Byte) (t : Nat) : Bool := (fieldB k (termOff t + 2) 1).testBit 0
def termPlen (k : List Byte) (t : Nat) : Nat := kb k (termOff t + 3) 0 5
def termC0 (k : List Byte) (t : Nat) : Nat := fieldB k (termOff t + 8) 16
def termC1 (k : List Byte) (t : Nat) : Nat := fieldB k (termOff t + 24) 16
/-- Bytes of a kernel from its header to its last column specification or term. -/
def kernelLen (k : List Byte) : Nat := if kTerms k = 0 then 128 + 32 * kCols k else 384 + 48 * kTerms k

/-! ### Predicates -/

/-- Result of a term: true, false or unknown (R365, R366). -/
inductive Tri
  | yes | no | unknown
deriving DecidableEq, Repr
/-- A Bool as a result. -/
def Tri.of (b : Bool) : Tri := if b then .yes else .no
/-- NOT leaves unknown unchanged (R366). -/
def Tri.neg : Tri → Tri
  | .yes => .no
  | .no => .yes
  | .unknown => .unknown

/-- Evaluate an operator on a value, `none` for a null row. -/
def opEval (t op c0 c1 plen : Nat) (v : Option Nat) : Tri :=
  match v with
  | none => if op = 0x08 then .yes else if op = 0x09 then .no else .unknown
  | some x =>
    let nan := isNan t x || isNan t c0 || (op = 0x07 && isNan t c1)
    let k := cmpKey t x
    let a := cmpKey t c0
    match op with
    | 0x01 => .of (!nan && k = a)
    | 0x02 => .of (nan || k ≠ a)
    | 0x03 => .of (!nan && k < a)
    | 0x04 => .of (!nan && k ≤ a)
    | 0x05 => .of (!nan && a < k)
    | 0x06 => .of (!nan && a ≤ k)
    | 0x07 => .of (!nan && a ≤ k && k ≤ cmpKey t c1)
    | 0x08 => .no
    | 0x09 => .yes
    | 0x0A => .of (x &&& c0 ≠ 0)
    | 0x0B => .of (x &&& c0 = c0)
    | 0x0C => .of (x % 256 ^ plen = c0 % 256 ^ plen)
    | _ => .unknown

/-- Result of term `t` of a kernel on a row's column values. -/
def termEval (k : List Byte) (vals : Nat → Option Nat) (t : Nat) : Tri :=
  let c := termCol k t
  let r := opEval (colType k c) (termOp k t) (termC0 k t) (termC1 k t) (termPlen k t) (vals c)
  if termNot k t then r.neg else r

/-- Does a row pass (R367)? Groups are ORed, the terms of a group ANDed. -/
def passes (k : List Byte) (vals : Nat → Option Nat) : Bool :=
  kTerms k = 0 || (List.range 4).any (fun g => kGroup k g ≠ 0 &&
    (List.range 16).all (fun t => !(kGroup k g).testBit t || termEval k vals t = .yes))

/-- STOP_TERM ends the job before this row (R368). -/
def stops (k : List Byte) (vals : Nat → Option Nat) : Bool := kb k 7 7 1 = 1 && termEval k vals (kb k 7 0 5) ≠ .yes

/-! ### Keys and hash -/

/-- The key of a row, none when a key column is null (R374). -/
def rowKey (k : List Byte) (vals : Nat → Option Nat) : Option Nat :=
  match kKeys k with
  | 0 => some 0
  | 1 => vals (kKeyCol k 0)
  | _ =>
    match vals (kKeyCol k 0), vals (kKeyCol k 1) with
    | some a, some b => some ((a ||| b <<< (8 * colWidth k (kKeyCol k 0))) % 2 ^ 64)
    | _, _ => none

/-- First entry examined for a key in a table of 2^L entries (R375). -/
def hashSlot (key l : Nat) : Nat := ((key ^^^ key >>> 32) * 0xB5C36E1D4A972F83 % 2 ^ 64) >>> (64 - l)

/-! ### Floating-point sums (R380 to R382) -/

/-- Exact value of a finite binary64, in units of 2^-1074. -/
def f64Int (v : Nat) : Int :=
  let e := bits v 52 11
  let m := if e = 0 then bits v 0 52 else (bits v 0 52 + 2 ^ 52) * 2 ^ (e - 1)
  if v.testBit 63 then -(m : Int) else m
/-- Is a binary64 an infinity? -/
def f64Inf (v : Nat) : Bool := bits v 52 11 = 2047 && bits v 0 52 = 0
/-- Round an exact magnitude in units of 2^-1074 to binary64, to nearest, ties to even; magnitudes beyond the range give infinity. -/
def f64Round (n : Nat) : Nat :=
  if n < 2 ^ 53 then n
  else
    let sh := n.log2 - 52
    let q := n / 2 ^ sh
    let r := n % 2 ^ sh
    let half := 2 ^ (sh - 1)
    let q1 := if half < r || (r = half && q % 2 = 1) then q + 1 else q
    let n1 := if q1 = 2 ^ 53 then (2 ^ 52, sh + 1) else (q1, sh)
    if 2046 < n1.2 + 1 then 2047 * 2 ^ 52 else (n1.2 + 1) * 2 ^ 52 + (n1.1 - 2 ^ 52)
/-- Widen a binary32 to binary64 exactly (R380). -/
def f32Widen (v : Nat) : Nat :=
  let sgn := if v.testBit 31 then 2 ^ 63 else 0
  let e := bits v 23 8
  let m := bits v 0 23
  if e = 255 then sgn + 2047 * 2 ^ 52 + m * 2 ^ 29
  else if e = 0 then sgn + f64Round (m * 2 ^ (1074 - 149))
  else sgn + (e + 896) * 2 ^ 52 + m * 2 ^ 29
/-- Canonical NaN of a SUM. -/
def sumNan : Nat := 0x7FF8000000000000
/-- Add two binary64 values: sum, and whether a finite addition overflowed (R382). -/
def f64Add (a b : Nat) : Nat × Bool :=
  if isNan 9 a || isNan 9 b then (sumNan, false)
  else if f64Inf a && f64Inf b then (if a = b then (a, false) else (sumNan, false))
  else if f64Inf a then (a, false)
  else if f64Inf b then (b, false)
  else
    let sum := f64Int a + f64Int b
    if sum = 0 then (if a.testBit 63 && b.testBit 63 then 2 ^ 63 else 0, false)
    else
      let r := f64Round sum.natAbs
      let r1 := if sum < 0 then r + 2 ^ 63 else r
      (r1, f64Inf r1)

/-! ### Aggregate entries (R376, R377, R380, R381) -/

/-- An aggregate table entry. -/
structure AggEnt where
  key : Nat := 0
  used : Bool := false
  set : Nat := 0
  intOvf : Bool := false
  nan : Bool := false
  fltOvf : Bool := false
  count : Nat := 0
  slots : List Nat := [0, 0, 0]
deriving DecidableEq, Repr

/-- Read an entry from its line. -/
def AggEnt.ofLine (l : List Byte) : AggEnt :=
  let f := fieldB l 8 1
  { key := fieldB l 0 8, used := f.testBit 0, set := bits f 1 3, intOvf := f.testBit 4, nan := f.testBit 5
    fltOvf := f.testBit 6, count := fieldB l 9 7, slots := (List.range 3).map (fun a => fieldB l (16 + 16 * a) 16) }
/-- Bytes of an entry. -/
def AggEnt.bytes (e : AggEnt) : List Byte :=
  leBytes 8 e.key ++ leBytes 1 (b2n e.used + 2 * e.set + 16 * b2n e.intOvf + 32 * b2n e.nan + 64 * b2n e.fltOvf) ++
  leBytes 7 e.count ++ (List.range 3).flatMap (fun a => leBytes 16 (e.slots.getD a 0))

/-- Apply slot `a`'s function to one input (R380, R381). -/
def AggEnt.apply (k : List Byte) (vals : Nat → Option Nat) (e : AggEnt) (a : Nat) : AggEnt :=
  let c := kFnCol k a
  let t := colType k c
  let cur := e.slots.getD a 0
  match vals c with
  | none => e
  | some v =>
    let nan := isNan t v
    match kFn k a with
    | 1 =>
      if isFlt t then
        let x := if t = 8 then f32Widen v else v
        let sum := if nan then (sumNan, false) else f64Add (cur % 2 ^ 64) x
        { e with slots := e.slots.set a sum.1, set := setBit e.set a true
                 nan := e.nan || nan || (isNan 9 sum.1 && !isNan 9 (cur % 2 ^ 64)), fltOvf := e.fltOvf || sum.2 }
      else
        let exact : Int := signedOf 16 cur + intOf t v
        let wrapped := (exact % 2 ^ 128).toNat
        { e with slots := e.slots.set a wrapped, set := setBit e.set a true
                 intOvf := e.intOvf || decide (signedOf 16 wrapped ≠ exact) }
    | 4 => { e with slots := e.slots.set a ((cur + 1) % 2 ^ 64), nan := e.nan || nan }
    | fn =>
      if nan then { e with nan := true }
      else
        let better := if fn = 2 then minKey t v < minKey t cur else minKey t cur < minKey t v
        { e with slots := if !(e.set.testBit a) || better then e.slots.set a v else e.slots, set := setBit e.set a true }

/-- Is an input of some slot NaN? -/
def nanInput (k : List Byte) (vals : Nat → Option Nat) : Bool :=
  (List.range (kAgg k)).any (fun a => (vals (kFnCol k a)).any (isNan (colType k (kFnCol k a))))
/-- Claim an unused entry (R377): the key, USED, and SET of each COUNT_NN slot. -/
def AggEnt.claim (k : List Byte) (key : Nat) : AggEnt :=
  { key := key, used := true, set := ((List.range (kAgg k)).map (fun a => if kFn k a = 4 then 2 ^ a else 0)).sum }
/-- Merge one row (R377): COUNT, then each slot. -/
def AggEnt.merge (k : List Byte) (vals : Nat → Option Nat) (e : AggEnt) : AggEnt :=
  (List.range (kAgg k)).foldl (AggEnt.apply k vals) { e with count := min (2 ^ 56 - 1) (e.count + 1) }

/-! ### Projected records (R372) -/

/-- One projected record; `pay` is the PAYLOAD of an inner probe. -/
def projRecord (k : List Byte) (vals : Nat → Option Nat) (rowid : Option Nat) (nmask : Bool) (pay : Option Nat) : List Byte :=
  let cols := (List.range (kProj k)).map (kProjCol k)
  let head := (match rowid with
      | some r => leBytes 8 r
      | none => []) ++
    (if nmask then leBytes 8 ((List.range cols.length).map (fun j => if (vals (cols.getD j 0)).isNone then 2 ^ j else 0)).sum
     else []) ++
    (match pay with
      | some p => leBytes 8 p
      | none => []) ++
    cols.flatMap (fun c => leBytes (colWidth k c) ((vals c).getD 0))
  head ++ List.replicate ((8 - head.length % 8) % 8) 0

/-! ### Rejection checks (R385) -/

/-- The lowest faulty byte of a list of (byte, faulty) checks (of several faults, DESIGN CHOICE, log entry 151). -/
def firstBad (l : List (Nat × Bool)) : Option Nat := ((l.filter (fun x => x.2)).map (fun x => x.1)).min?

/-- One check: its byte and whether it fails. -/
def ck (i : Nat) (bad : Bool) : Nat × Bool := (i, bad)

/-- Ranges [a, a+n) and [b, b+m) overlap. -/
def overlap (a n b m : Nat) : Bool := n ≠ 0 && m ≠ 0 && a < b + m && b < a + n

/-- Does operator `op` apply to a type (R365)? -/
def opOk (op t : Nat) : Bool :=
  if op = 0x0A || op = 0x0B then isInt t else if op = 0x0C then t = 0xA else 1 ≤ op && op ≤ 0x09

/-- The kernel checks of R385: byte offset of the first that fails; `op` is the descriptor's operation and `cap` the bytes of
LOGICAL_CAP. -/
def kernelBad (k : List Byte) (op cap : Nat) : Option Nat :=
  let nc := kCols k
  let head : List (Nat × Bool) :=
    ([(0, fieldB k 0 2 ≠ 0x4B51), (2, kb k 2 0 4 ≠ 1), (2, kb k 2 4 4 ≠ 0), (3, nc = 0 || 8 < nc), (3, kb k 3 4 4 ≠ 0),
     (4, 16 < kTerms k), (4, kb k 4 5 3 ≠ 0), (5, 8 < kProj k), (5, kb k 5 4 4 ≠ 0), (6, kKeys k = 3), (6, kMode k = 3),
     (6, kb k 6 6 2 ≠ 0), (7, kb k 7 5 2 ≠ 0), (7, kb k 7 7 1 = 1 && kTerms k ≤ kb k 7 0 5)] :
      List (Nat × Bool)) ++
    (List.range 4).map (fun g => ck (8 + 2 * g) (kGroup k g / 2 ^ kTerms k ≠ 0)) ++
    [ck 8 (kTerms k ≠ 0 && (List.range 4).all (fun g => kGroup k g = 0))] ++
    (List.range 8).map (fun j => ck (16 + j) (kb k (16 + j) 3 5 ≠ 0 || (j < kProj k && nc ≤ kProjCol k j))) ++
    (List.range 2).map (fun j => ck (24 + j) (kb k (24 + j) 3 5 ≠ 0 || (j < kKeys k && nc ≤ kKeyCol k j))) ++
    (List.range 3).flatMap (fun a =>
      [ck (26 + 2 * a) (kb k (26 + 2 * a) 3 5 ≠ 0 || (a < kAgg k && (kFn k a = 0 || 4 < kFn k a))),
       ck (27 + 2 * a) (kb k (27 + 2 * a) 3 5 ≠ 0 || (a < kAgg k && nc ≤ kFnCol k a))]) ++
    [ck 40 (kb k 40 5 3 ≠ 0), ck 42 (fieldB k 42 6 ≠ 0), ck 61 (fieldB k 61 3 ≠ 0)] ++
    (List.range 8).map (fun i => ck (64 + 8 * i) (fieldB k (64 + 8 * i) 8 ≠ 0))
  let cols := (List.range nc).flatMap (fun c =>
    [ck (128 + 32 * c) (colWidth k c ≠ 0 && colBase k c % colWidth k c ≠ 0), ck (144 + 32 * c) (colWidth k c = 0),
     ck (144 + 32 * c) (kb k (144 + 32 * c) 5 3 ≠ 0), ck (145 + 32 * c) (fieldB k (145 + 32 * c) 15 ≠ 0)])
  let terms := (List.range (kTerms k)).flatMap (fun t =>
    let c := termCol k t
    let w := colWidth k c
    let o := termOff t
    let plenOk := if termOp k t = 0x0C then 1 ≤ termPlen k t && termPlen k t ≤ 16 else termPlen k t = 0
    [ck o (nc ≤ c || kb k o 3 5 ≠ 0), ck (o + 1) (!opOk (termOp k t) (colType k c)), ck (o + 2) (kb k (o + 2) 1 7 ≠ 0),
     ck (o + 3) (kb k (o + 3) 5 3 ≠ 0 || !plenOk), ck (o + 4) (fieldB k (o + 4) 4 ≠ 0), ck (o + 8) (termC0 k t / 256 ^ w ≠ 0),
     ck (o + 24) (termC1 k t / 256 ^ w ≠ 0), ck (o + 40) (fieldB k (o + 40) 8 ≠ 0)])
  let keyW := ((List.range (kKeys k)).map (fun j => colWidth k (kKeyCol k j))).sum
  let tableOps := op = 4 || op = 5
  let size := if op = 5 then 64 * 2 ^ kLog k else 16 * 2 ^ kLog k
  let ops : List (Nat × Bool) :=
    [(6, op = 5 && kAgg k = 0 && kKeys k = 0),
     (26, op = 5 && (List.range (kAgg k)).any (fun a => kFn k a = 1 && colType k (kFnCol k a) = 0xA)),
     (24, (List.range (kKeys k)).any (fun j => colType k (kKeyCol k j) = 0xA) || 8 < keyW),
     (6, op = 4 && kKeys k = 0), (144, op = 3 && colType k 0 ≠ 2 && colType k 0 ≠ 3),
     (40, tableOps && (kLog k < 4 || 28 < kLog k)), (41, tableOps && kProbeMax k = 0),
     (32, tableOps && (kTable k % 64 ≠ 0 || cap < kTable k + size))]
  firstBad (head ++ cols ++ terms ++ ops)

/-- Bytes of one projected record of a kernel under a descriptor's options. -/
def recordLen (k : List Byte) (rowid nmask pay : Bool) : Nat :=
  (projRecord k (fun _ => none) (if rowid then some 0 else none) nmask (if pay then some 0 else none)).length

/-- The descriptor checks of R385 that need no kernel: byte offset of the first that fails. -/
def descBad (d : List Byte) : Option Nat :=
  let op := fieldB d 0 1
  firstBad [(0, 5 < op), (2, fieldB d 2 1 % 4 = 3), (2, fieldB d 2 1 / 8 ≠ 0), (3, fieldB d 3 3 ≠ 0),
    (8, op ≠ 0 && fieldB d 8 8 % 64 ≠ 0), (21, fieldB d 21 3 ≠ 0), (29, fieldB d 29 3 ≠ 0),
    (24, op ≠ 0 && (fieldB d 24 5 = 0 || 2 ^ 40 < fieldB d 16 5 + fieldB d 24 5)),
    (52, op ≠ 0 && fieldB d 52 4 % 64 ≠ 0), (72, (sliceB d 72 56).any (fun b => b ≠ 0)),
    (48, op = 1 && fieldB d 48 4 < (fieldB d 24 5 + 7) / 8)]

/-- The descriptor checks that need the kernel: output room for one record, and overlaps of device ranges. -/
def descBad2 (d k : List Byte) : Option Nat :=
  let op := fieldB d 0 1
  let f1 := fieldB d 1 1
  let outLen := fieldB d 48 4
  let ovfLen := fieldB d 52 4
  let out := fieldB d 40 8
  let ovf := fieldB d 56 8
  let rows := fieldB d 24 5
  let start := fieldB d 16 5
  let one := recordLen k (f1.testBit 2) (f1.testBit 3) (op = 4 && kMode k = 0)
  let table := if op = 5 then 64 * 2 ^ kLog k else if op = 4 then 16 * 2 ^ kLog k else 0
  let ins : List (Nat × Nat) :=
    (fieldB d 8 8, kernelLen k) :: (kTable k, table) :: (if f1.testBit 4 then [(fieldB d 32 8, (rows + 7) / 8)] else []) ++
    (List.range (kCols k)).flatMap (fun c =>
      let n := if op = 3 && c ≠ 0 then kLimit k else start + rows
      let lo := if op = 3 && c ≠ 0 then 0 else start
      (colBase k c + lo * colWidth k c, (n - lo) * colWidth k c) ::
      (if colHasNulls k c then [(colNull k c + lo / 8, (n - lo + 7) / 8 + 1)] else []))
  let devOut := !f1.testBit 6
  let devOvf := !f1.testBit 7
  firstBad
    [(48, (op = 2 || op = 3 || op = 4) && outLen < one),
     (40, devOut && ins.any (fun x => overlap out outLen x.1 x.2)),
     (56, devOvf && ins.any (fun x => overlap ovf ovfLen x.1 x.2)),
     (56, devOut && devOvf && overlap out outLen ovf ovfLen)]

end Sys2Proof.Machine
end

