-- ==== Sys2Proof/Machine/Rs.lean ====
section
/-! DEFINITION. The line check code RS(72,64) over GF(2^8) (R189, R190, R193): check word, syndrome and decoding within four
symbols. The spec does not number the powers of the code or say which DQ pin carries which bit of a line: notes/assumptions/12. -/

namespace Sys2Proof.Machine

/-- Multiply by α in GF(2^8) with polynomial 0x11D. -/
def gfDouble (a : Nat) : Nat := if 128 ≤ a then (2 * a) ^^^ 0x11D else 2 * a
/-- Product in GF(2^8). -/
def gfMul (a b : Nat) : Nat :=
  ((List.range 8).foldl (fun (acc : Nat × Nat) i => (if b.testBit i then acc.1 ^^^ acc.2 else acc.1, gfDouble acc.2)) (0, a)).1
/-- Power in GF(2^8). -/
def gfPow (a : Nat) : Nat → Nat
  | 0 => 1
  | n + 1 => gfMul a (gfPow a n)
/-- α^n. -/
def gfExp (n : Nat) : Nat := gfPow 2 (n % 255)
/-- Inverse: a^254. -/
def gfInv (a : Nat) : Nat :=
  let a2 := gfMul a a
  let a4 := gfMul a2 a2
  let a8 := gfMul a4 a4
  let a16 := gfMul a8 a8
  let a32 := gfMul a16 a16
  let a64 := gfMul a32 a32
  let a128 := gfMul a64 a64
  gfMul a128 (gfMul a64 (gfMul a32 (gfMul a16 (gfMul a8 (gfMul a4 a2)))))

/-- Data symbol `s` of a line (R190): beat b of the burst carries bits [16b+15:16b] of the line, pin p bit p of them. -/
def dataSym (l : Nat) (s : Nat) : Nat :=
  ((List.range 8).map (fun j => if l.testBit (16 * (8 * (s / 16) + j) + s % 16) then 2 ^ j else 0)).sum
/-- The line that has one value in symbol `s` and zeros elsewhere. -/
def symLine (s v : Nat) : Nat :=
  ((List.range 8).map (fun j => if v.testBit j then 2 ^ (16 * (8 * (s / 16) + j) + s % 16) else 0)).sum
/-- Symbol `s` of a codeword: 0 to 63 data, 64 to 71 the bytes of the check word. -/
def cwSym (c s : Nat) : Nat := if s < 64 then dataSym (c % 2 ^ 512) s else c / 2 ^ (512 + 8 * (s - 64)) % 256
/-- A codeword that has one value in symbol `s`. -/
def symCw (s v : Nat) : Nat := if s < 64 then symLine s v else v * 2 ^ (512 + 8 * (s - 64))

/-- Syndrome of a codeword as eight symbols: symbol s has power 71 − s. -/
def syndrome (c : Nat) : List Nat :=
  if c = 0 then List.replicate 8 0 else
  (List.range 8).map (fun j =>
    (List.range 72).foldl (fun acc s => gfMul acc (gfExp j) ^^^ cwSym c s) 0)

/-- The generator polynomial, highest power first without its leading 1. -/
def rsGen : List Nat :=
  let mulRoot (p : List Nat) (r : Nat) : List Nat :=
    (List.range (p.length + 1)).map (fun i => p.getD i 0 ^^^ (if i = 0 then 0 else gfMul r (p.getD (i - 1) 0)))
  ((List.range 8).foldl (fun p i => mulRoot p (gfExp i)) [1]).tail

/-- Check word of a line (R189): remainder of the data polynomial times x^8. -/
def rsCheck (l : Nat) : Nat :=
  let step (r : List Nat) (s : Nat) : List Nat :=
    let f := dataSym l s ^^^ r.headD 0
    (List.range 8).map (fun i => r.getD (i + 1) 0 ^^^ gfMul f (rsGen.getD i 0))
  let r := (List.range 64).foldl step (List.replicate 8 0)
  ((List.range 8).map (fun i => r.getD i 0 * 256 ^ i)).sum

/-- Symbolwise sum of two syndromes. -/
def synAdd (a b : List Nat) : List Nat := (List.range 8).map (fun i => a.getD i 0 ^^^ b.getD i 0)
/-- The poison syndrome S_P: that of a check word with every byte inverted (R205). -/
def synPoison : List Nat := syndrome ((2 ^ 64 - 1) * 2 ^ 512)
/-- Is a syndrome zero? -/
def synZero (s : List Nat) : Bool := s.all (fun x => x = 0)

/-- Value of a polynomial, lowest power first. -/
def polyAt (p : List Nat) (x : Nat) : Nat := p.foldr (fun c acc => c ^^^ gfMul x acc) 0

/-- State of the Berlekamp–Massey iteration: locator, previous locator, length, shift, previous discrepancy. -/
structure Bm where
  c : List Nat := [1]
  b : List Nat := [1]
  len : Nat := 0
  m : Nat := 1
  d : Nat := 1

/-- One step of the iteration. -/
def bmStep (syn : List Nat) (t : Bm) (n : Nat) : Bm :=
  let d := (List.range (t.len + 1)).foldl (fun acc i => acc ^^^ gfMul (t.c.getD i 0) (if i ≤ n then syn.getD (n - i) 0 else 0)) 0
  if d = 0 then { t with m := t.m + 1 }
  else
    let k := gfMul d (gfInv t.d)
    let c := (List.range (max t.c.length (t.b.length + t.m))).map (fun i =>
      t.c.getD i 0 ^^^ (if t.m ≤ i then gfMul k (t.b.getD (i - t.m) 0) else 0))
    if 2 * t.len ≤ n then { c := c, b := t.c, len := n + 1 - t.len, m := 1, d := d } else { t with c := c, m := t.m + 1 }

/-- Decode a nonzero syndrome: the error pattern of one to four symbols and the number of symbols, none when there is none. -/
def rsDecode (syn : List Nat) : Option (Nat × Nat) :=
  let t := (List.range 8).foldl (bmStep syn) {}
  if t.len = 0 || 4 < t.len then none
  else
    let inv (s : Nat) : Nat := gfExp (255 - (71 - s))
    let pos := (List.range 72).filter (fun s => polyAt t.c (inv s) = 0)
    if pos.length ≠ t.len then none
    else
      let omega := (List.range 8).map (fun n => (List.range (n + 1)).foldl
        (fun acc i => acc ^^^ gfMul (t.c.getD i 0) (syn.getD (n - i) 0)) 0)
      let deriv := (List.range 8).map (fun i => if i % 2 = 0 then t.c.getD (i + 1) 0 else 0)
      let mag (s : Nat) : Nat :=
        gfMul (gfExp (71 - s)) (gfMul (polyAt omega (inv s)) (gfInv (polyAt deriv (inv s))))
      some ((pos.map (fun s => symCw s (mag s))).sum, t.len)

/-- Outcome of a check (R193): symbols corrected, and the error left over the line's 64 bytes when the line passes on. -/
inductive Check
  | clean (left : Nat)
  | poison (left : Nat)
  | poisonFixed (syms left : Nat)
  | corrected (syms left : Nat)
  | bad
deriving DecidableEq, Repr

/-- The outcomes of R193 in order, for a stored word that is a marker or not, with an error pattern over its codeword. -/
def checkWord (marker : Bool) (err : Nat) : Check :=
  if err = 0 then (if marker then .poison 0 else .clean 0)
  else
    let s := if marker then synAdd (syndrome err) synPoison else syndrome err
    if synZero s then .clean (err % 2 ^ 512)
    else
      let sp := synAdd s synPoison
      if synZero sp then .poison (err % 2 ^ 512)
      else
        let asPoison : Option (Nat × Nat) := match rsDecode sp with
          | some (e, n) => if n ≤ 2 then some (e, n) else none
          | none => none
        match asPoison, rsDecode s with
        | some (e, n), _ => .poisonFixed n ((err ^^^ e) % 2 ^ 512)
        | none, some (e, n) => .corrected n ((err ^^^ e) % 2 ^ 512)
        | none, none => .bad

end Sys2Proof.Machine
end

