-- ==== Sys2Proof/Machine/Lane.lean ====
section
/-! DEFINITION. The lanes of a ring link (R432, R437): sync headers, the scrambler and the blocks a flit makes; the check codes and the layouts of ordered sets,
link headers and header slots. -/

namespace Sys2Proof.Machine

/-- What a sync header says of its block. -/
inductive BlockKind
  | data
  | ordered
  | error
deriving DecidableEq, Repr
/-- Kind of the block that a sync header heads. -/
def blockKind (hdr : BitVec 2) : BlockKind := if hdr = 1 then .data else if hdr = 2 then .ordered else .error

/-- Seed of a lane's generator. -/
def laneSeed (lane : Nat) : BitVec 31 := BitVec.ofNat 31 (0x7FFFFFFF ^^^ (lane * 2 ^ 24))
/-- One bit of the generator x^31 + x^28 + 1: its oldest bit goes out, and its sum with the bit three places on comes in (PRESUMED, log entry 150). -/
def genBit (g : BitVec 31) : Bool × BitVec 31 := (g.getLsbD 30, (g <<< 1) ||| (if g.getLsbD 30 != g.getLsbD 27 then 1 else 0))
/-- One byte of the generator, first bit least significant. -/
def genByte (g : BitVec 31) : Byte × BitVec 31 :=
  (List.range 8).foldl (fun acc i =>
    let x := genBit acc.2
    (if x.1 then acc.1 ||| (1 <<< i) else acc.1, x.2)) (0, g)
/-- A lane's generator after it has taken `n` data bytes since its last LSKP. -/
def laneGen (lane n : Nat) : BitVec 31 := (List.range n).foldl (fun g _ => (genByte g).2) (laneSeed lane)
/-- Scramble or descramble the data bytes of a block. -/
def scramble : BitVec 31 → List Byte → List Byte
  | _, [] => []
  | g, b :: l => (b ^^^ (genByte g).1) :: scramble (genByte g).2 l

/-- Bytes of a flit that travel on a lane (R437). -/
def laneBytes (flit : List Byte) (lane : Nat) : List Byte := (List.range 16).map (fun i => flit.getD (8 * i + lane) 0)
/-- The block a lane carries of a flit sent after `n` data bytes since its last LSKP: sync header and bytes (R432). -/
def dataBlock (flit : List Byte) (lane n : Nat) : BitVec 2 × List Byte := (1, scramble (laneGen lane n) (laneBytes flit lane))
/-- The flit that eight lanes' blocks make at a receiver whose lanes have taken `n` data bytes since their last LSKP; none when one of them is no
data block. -/
def flitOf (blocks : Nat → BitVec 2 × List Byte) (n : Nat) : Option (List Byte) :=
  if (List.range 8).all (fun l => blockKind (blocks l).1 = .data) then
    some ((List.range 128).map (fun i => (scramble (laneGen (i % 8) n) (blocks (i % 8)).2).getD (i / 8) 0))
  else none

/-! ### Check codes and layouts on the wire (R433, R437, R438, R440) -/

/-- One byte into a check code that takes bits most significant first. -/
def crcMsb {w : Nat} (poly c : BitVec w) (b : Byte) : BitVec w :=
  (List.range 8).foldl (fun x _ => if x.msb then (x <<< 1) ^^^ poly else x <<< 1) (c ^^^ (b.setWidth w <<< (w - 8)))
/-- CRC-8 of an ordered set (R433). -/
def crcSet (l : List Byte) : BitVec 8 := l.foldl (crcMsb 0x07#8) 0
/-- CRC-16 of a frame's header slot (R440). -/
def crcHeader (l : List Byte) : BitVec 16 := l.foldl (crcMsb 0x1021#16) 0xFFFF#16
/-- CRC-64 of a flit (R438). -/
def crcFlit (l : List Byte) : BitVec 64 :=
  ~~~(l.foldl (fun c b => (List.range 8).foldl (fun x _ => if x.getLsbD 0 then (x >>> 1) ^^^ 0xC96C5795D7870F42#64 else x >>> 1)
    (c ^^^ b.setWidth 64)) 0xFFFFFFFFFFFFFFFF#64)

/-- The block of a lane that carries an ordered set: 14 bytes, their CRC-8 and the lane number (R433). -/
def setBlock (l : List Byte) (lane : Nat) : List Byte :=
  let b := (List.range 14).map (fun i => l.getD i 0)
  b ++ [crcSet b, BitVec.ofNat 8 lane]
/-- The ordered set a receiver uses: at least five lanes pass the CRC-8, and those agree (R433). -/
def setOf (lanes : List (List Byte)) : Option (List Byte) :=
  let good := (lanes.filter (fun b => crcSet (b.take 14) = b.getD 14 0)).map (fun b => b.take 14)
  if 5 ≤ good.length && good.all (fun b => b = good.headD []) then good.head? else none

/-- A flit's link header (R437). -/
structure LinkHeader where
  fseq : Nat
  ackSeq : Nat := 0
  ackValid : Bool := false
  nak : Bool := false
  crVc : Nat := 0
  crCount : Nat := 0
  idle : Bool := false
  firstHdr : Nat := 7
deriving DecidableEq, Repr
/-- Bytes 0 to 7 of a flit (R437). -/
def LinkHeader.bytes (h : LinkHeader) : List Byte :=
  leBytes 2 (h.fseq % 4096) ++ leBytes 2 (h.ackSeq % 4096 + 4096 * b2n h.ackValid + 8192 * b2n h.nak) ++ leBytes 1 (h.crVc % 4 + 4 * h.crCount) ++
  leBytes 1 (b2n h.idle) ++ leBytes 2 (h.firstHdr % 8)
/-- The link header that a flit's first bytes hold. -/
def linkHeaderOf (b : List Byte) : LinkHeader :=
  let w := fieldB b 2 2
  { fseq := fieldB b 0 2 % 4096, ackSeq := w % 4096, ackValid := w.testBit 12, nak := w.testBit 13, crVc := fieldB b 4 1 % 4
    crCount := fieldB b 4 1 / 4, idle := (fieldB b 5 1).testBit 0, firstHdr := fieldB b 6 1 % 8 }
/-- A flit: link header, seven slots, and the CRC-64 over both (R437, R438). -/
def flitBytes (h : LinkHeader) (slots : List Byte) : List Byte :=
  let b := h.bytes ++ (List.range 112).map (fun i => slots.getD i 0)
  b ++ leBytes 8 (crcFlit b).toNat
/-- Does a flit's CRC pass (R438)? -/
def flitOk (b : List Byte) : Bool := fieldB b 120 8 = (crcFlit (b.take 120)).toNat

/-- A frame's header slot as it travels: the CRC-16 most significant byte first (R440). -/
def headerSlot (f : Frame) : List Byte :=
  let b := leBytes 1 f.ty ++ leBytes 1 ((f.payload.length + 15) / 16 % 64 + 64 * f.vc) ++
    leBytes 3 (f.dst + 2 ^ 18 * b2n f.bcast + 2 ^ 19 * f.dir + 2 ^ 20 * b2n f.wrapped) ++ leBytes 3 (f.src + 2 ^ 18 * f.hops) ++ leBytes 2 f.tag ++
    leBytes 4 f.arg
  b ++ (leBytes 2 (crcHeader b).toNat).reverse
/-- The frame a header slot names, with its payload's slots, when its CRC-16 passes (R440). -/
def frameOf (b payload : List Byte) : Option Frame :=
  let w := fieldB b 2 3
  if (fieldB b 14 1) * 256 + fieldB b 15 1 = (crcHeader (b.take 14)).toNat then
    some { ty := fieldB b 0 1, vc := fieldB b 1 1 / 64, dst := w % 2 ^ 18, bcast := w.testBit 18, dir := w / 2 ^ 19 % 2, wrapped := w.testBit 20
           src := fieldB b 5 3 % 2 ^ 18, hops := fieldB b 5 3 / 2 ^ 18, tag := fieldB b 8 2, arg := fieldB b 10 4
           payload := payload.take (16 * (fieldB b 1 1 % 64)) }
  else none

end Sys2Proof.Machine
end

