-- ==== Sys2Proof/Machine/RingSend.lean ====
section
/-! DEFINITION. Sending frames on the Lode rings: routes (R442, R445), credits and egress precedence (R441), requests that await
a response (R466). -/

namespace Sys2Proof.Machine

/-- Side state of a port pair: side 0 is West, 1 is East. -/
def State.side (s : State) (pair sd : Nat) : Side := sget {} s.ring.sides (2 * pair + sd)
/-- Change a side. -/
def State.modSide (s : State) (pair sd : Nat) (f : Side → Side) : State :=
  { s with ring := { s.ring with sides := sset {} s.ring.sides (2 * pair + sd) (f (s.side pair sd)) } }
/-- State of a port pair. -/
def State.pair (s : State) (p : Nat) : Pair := sget {} s.ring.pairs p
/-- Change a port pair. -/
def State.modPair (s : State) (p : Nat) (f : Pair → Pair) : State :=
  { s with ring := { s.ring with pairs := sset {} s.ring.pairs p (f (s.pair p)) } }
/-- Slab that drives a side: Slab 0 drives East, Slab 1 West (R20). -/
def slabOfSide (sd : Nat) : Nat := 1 - sd
/-- A RING field of a side: instance of the Slab, entry the port pair (R480). -/
def State.ringGet (s : State) (pair sd : Nat) (f : Fld) : Nat := s.get .ring (slabOfSide sd) f pair
/-- Set a RING field of a side. -/
def State.ringPut (s : State) (pair sd : Nat) (f : Fld) (v : Nat) : State := s.put .ring (slabOfSide sd) f v pair
/-- Is a side up? -/
def State.sideUp (s : State) (pair sd : Nat) : Bool := s.ringGet pair sd F.RING_LINK_UP = 1
/-- Does a side take what arrives: it is up, and its RING block is not under a block-level reset (R70)? -/
def State.sideTakes (s : State) (pair sd : Nat) : Bool := s.sideUp pair sd && !s.blockClosed .ring (slabOfSide sd)
/-- Role: 0 worker, 1 pod manager, 2 domain manager, 3 root manager (R458). -/
def State.role (s : State) : Nat := s.get .lode 0 F.LODE_ID_ROLE
/-- Own fabric address (R7, R447). -/
def State.addr (s : State) : Nat := s.get .lode 0 F.LODE_ID_FABRIC_ADDR
/-- Does the module run alone: no ring link trained (R8)? -/
def State.alone (s : State) : Bool := (List.range 4).all (fun i => !s.sideUp (i / 2) (i % 2))

/-- Does an address lie in this module's subtree (R442)? -/
def State.inSubtree (s : State) (d : Nat) : Bool :=
  match s.role with
  | 0 => d = s.addr
  | 1 => d / 64 = s.addr / 64
  | 2 => d / 4096 = s.addr / 4096
  | _ => true
/-- Port pair a frame for `d` leaves on. -/
def State.pairFor (s : State) (d : Nat) : Nat := if s.role = 0 || s.inSubtree d then 0 else 1
/-- Ring level of a port pair: 0 pod, 1 domain, 2 root. -/
def State.ringLevel (s : State) (pair : Nat) : Nat := if s.role = 0 then 0 else min 2 (s.role - 1 + pair)
/-- Position of an address on the ring of a pair: its own position there, or the head for another ring. -/
def State.posOn (s : State) (pair d : Nat) : Nat :=
  match s.ringLevel pair with
  | 0 => if d / 64 = s.addr / 64 then d % 64 else 0
  | 1 => if d / 4096 = s.addr / 4096 then d / 64 % 64 else 0
  | _ => d / 4096
/-- Order index of a position on a pair's ring. -/
def Pair.indexOf (p : Pair) (pos : Nat) : Nat := p.order.idxOf pos
/-- East-bound hops from order index a to b among n members (R445). -/
def eastHops (a b n : Nat) : Nat := if n = 0 then 0 else (b + n - a % n) % n
/-- Place of an order index on the line that a ring folded at `k` leaves: k + 1, …, 0, …, k (R445). -/
def lineIdx (k n i : Nat) : Nat := if n = 0 then 0 else (i + n - (k + 1) % n) % n
/-- Hops between two positions: the smaller way round, or along the folded ring (R445). -/
def Pair.hops (p : Pair) (a b : Nat) : Nat :=
  let n := p.order.length
  match p.fold with
  | none => let d := eastHops (p.indexOf a) (p.indexOf b) n; min d (n - d)
  | some k =>
    let x := lineIdx k n (p.indexOf a)
    let y := lineIdx k n (p.indexOf b)
    (x - y) + (y - x)
/-- Side a frame for a position leaves on: the way with fewer hops, East on a tie; along the folded ring while it is wrapped (R445). -/
def Pair.routeSide (p : Pair) (pos : Nat) : Nat :=
  let n := p.order.length
  let own := p.orderIdx.getD 0
  match p.fold with
  | none => let d := eastHops own (p.indexOf pos) n; if d ≤ n - d then 1 else 0
  | some k => if lineIdx k n own ≤ lineIdx k n (p.indexOf pos) then 1 else 0

/-- Slots of a frame: its header and its payload in 16-byte slots (R440). -/
def frameSlots (f : Frame) : Nat := 1 + (f.payload.length + 15) / 16
/-- Egress precedence of the virtual channels (R441). -/
def vcRank (vc : Nat) : Nat := [0, 2, 1, 3].getD vc 3

/-- Account a frame's flits are charged to (R485): forwarded Spill reads are foreground, other Spill traffic background, the rest the ring's. -/
def State.frameAccount (s : State) (f : Frame) : Account :=
  if f.src ≠ s.addr then .ring
  else if f.ty = 0x14 then (if f.arg.testBit 22 then .spill else .fg)
  else if f.ty = 0x15 then .fg
  else if 0x10 ≤ f.ty then .spill else .ring
/-- Flits of a frame (R437). -/
def frameFlits (f : Frame) : Nat := (frameSlots f + 6) / 7
/-- Send what an egress may send: a frame leaves when its side is up, its direction is not paused, every slot has a credit and the replay
buffer has room for its flits. -/
def State.trySend (s : State) (x : Nat × Nat × Frame) : Option State :=
  let t := s.side x.1 x.2.1
  let n := frameSlots x.2.2
  let fl := frameFlits x.2.2
  let c := t.credits.getD x.2.2.vc 0
  if s.sideUp x.1 x.2.1 && !(x.2.1 ∈ (s.pair x.1).paused) && n ≤ c && (t.replay.map (fun r => r.flits)).sum + fl ≤ 512 then
    let last := (t.txSeq + fl - 1) % 4096
    let u := s.modSide x.1 x.2.1 (fun t => { t with credits := t.credits.set x.2.2.vc (c - n)
                                                    txSeq := (t.txSeq + fl) % 4096, txScr := t.txScr + 16 * fl
                                                    replay := t.replay ++ ([{ last := last, flits := fl, frame := x.2.2 }] : List Sent) })
    some ((u.spend (s.frameAccount x.2.2) [(10, fl)]).emit (.frame x.1 x.2.1 x.2.2))
  else none

/-- Level of a frame's work in the bulk buffer (R470); 0 for a frame that is not staged there. -/
def State.bulkLevel (s : State) (f : Frame) : Nat :=
  if f.ty = 0x12 then 4
  else if f.ty = 0x15 then ((s.ring.returns.find? (fun r => r.1 = f.dst && r.2.1 = f.tag)).map (fun r => r.2.2)).getD 1 else 0
/-- Drain the egress queues in precedence order (R441); within a channel, oldest first, but for bulk work of a lower level, which follows (R470). -/
def State.drainEgress (s : State) : State :=
  let q := s.ring.egress
  let byVc (vc : Nat) := q.filter (fun x => x.2.2.vc = vc)
  let resp (l : Nat) := (byVc 2).filter (fun x => s.bulkLevel x.2.2 = l)
  let ordered := byVc 0 ++ (byVc 2).filter (fun x => s.bulkLevel x.2.2 < 3) ++ resp 3 ++ resp 4 ++ byVc 1 ++ byVc 3
  let r := ordered.foldl (fun (acc : State × List (Nat × Nat × Frame)) x =>
      let blocked := acc.2.any (fun y => y.1 = x.1 && y.2.1 = x.2.1 && y.2.2.vc = x.2.2.vc)
      if blocked then (acc.1, acc.2 ++ [x]) else
      match acc.1.trySend x with
      | some t => (t, acc.2)
      | none => (acc.1, acc.2 ++ [x]))
    ({ s with ring := { s.ring with egress := [] } }, [])
  { r.1 with ring := { r.1.ring with egress := r.2 } }

/-- A frame is discarded at a side and counted (R440, R441, R465, R469, R478). -/
def State.ringDiscard (s : State) (pair sd : Nat) : State := s.bump .ring (slabOfSide sd) F.RING_DISCARD_COUNT 1 pair
/-- Work of a level takes space of a Slab's bulk buffer: work of levels 4 and 3 that waits behind it has lost (R470). -/
def State.bulkTake (s : State) (slab level : Nat) : State :=
  let waits (l : Nat) : Bool := s.ring.egress.any (fun x => slabOfSide x.2.1 = slab && s.bulkLevel x.2.2 = l)
  let lost (u : State) (fl : Fld) : State := ((u.put .ring slab fl 1).lostArb .ring slab).raise .ring slab 20
  let s1 := if level < 4 && waits 4 then lost s F.RING_BULK_STATUS_SPILL_LOST else s
  if level < 3 && waits 3 then lost s1 F.RING_BULK_STATUS_RETURN_LOST else s1
/-- What a frame put on a side takes of the bulk buffer of the side's Slab (R470). -/
def State.bulkLost (s : State) (sd : Nat) (f : Frame) : State :=
  if s.bulkLevel f = 0 then s else s.bulkTake (slabOfSide sd) (s.bulkLevel f)
/-- Put a frame on a side. At a wrapped side it turns to the other side of the pair, once; in a paused direction STROKE, REPORT and
response frames go the other way round (R462, R465). With no side of the pair up it is lost. -/
def State.sendOn (s0 : State) (pair sd : Nat) (f : Frame) : State :=
  let s := s0.bulkLost sd f
  let put (d : Nat) (g : Frame) : State :=
    ({ s with ring := { s.ring with egress := s.ring.egress ++ [(pair, d, { g with dir := 1 - d })] } }).drainEgress
  if !s.sideUp pair 0 && !s.sideUp pair 1 then s
  else if s.ringGet pair sd F.RING_LINK_WRAP = 1 then
    if f.wrapped then s.ringDiscard pair sd else put (1 - sd) { f with wrapped := true }
  else if sd ∈ (s.pair pair).paused && (f.vc = 0 || f.vc = 2) then put (1 - sd) f
  else put sd f

/-- Send a frame of this module by its route (R442). -/
def State.sendFrame (s : State) (f : Frame) : State :=
  let p := s.pairFor f.dst
  s.sendOn p ((s.pair p).routeSide (s.posOn p f.dst)) { f with src := s.addr }

/-- Send a VC1 request, which takes a tag and awaits its response (R466). -/
def State.sendReq (s : State) (ty dst arg : Nat) (payload : List Byte := []) : Nat × State :=
  let tag := s.ring.nextTag
  let f : Frame := { ty := ty, vc := 1, dst := dst, tag := tag, arg := arg, payload := payload, src := s.addr }
  let p := s.pairFor dst
  let sd := (s.pair p).routeSide (s.posOn p dst)
  let s1 := { s with ring := { s.ring with nextTag := (tag + 1) % 65536
                                           reqs := s.ring.reqs ++ ([{ tag := tag, frame := f, pair := p, side := sd, sent := s.now }] : List Req1) } }
  (tag, s1.sendFrame f)

/-- Send a frame that awaits nothing. -/
def State.sendPlain (s : State) (ty vc dst tag arg : Nat) (payload : List Byte := []) : State :=
  s.sendFrame ({ ty := ty, vc := vc, dst := dst, tag := tag, arg := arg, payload := payload } : Frame)

/-- A request's response has come: it is no longer outstanding. -/
def State.reqDone (s : State) (tag : Nat) : State :=
  { s with ring := { s.ring with reqs := s.ring.reqs.filter (fun r => r.tag ≠ tag) } }

end Sys2Proof.Machine
end

