-- ==== Sys2Proof/Machine/Tier.lean ====
section
/-! DEFINITION. The page map, frames, rows and media names (R90 to R113, R215 to R217, R242), counters and leaves (R246 to R249),
and the figures of the TIER page (R119, R120). -/

namespace Sys2Proof.Machine

/-! ### Pages -/

/-- Chunks of 512 bytes in a channel's data area (R118). -/
def dataChunks : Nat := 6291456
/-- Does a logical page exist (R90)? -/
def State.pageExists (s : State) (p : Nat) : Bool := p < s.get .tier 0 F.TIER_CAP_LOGICAL_CAP * 65536
/-- Does the page lie in the static region or an accepted extent (R92)? -/
def State.inRegion (s : State) (p : Nat) : Bool :=
  s.pageExists p && (p < s.get .tier 0 F.TIER_CAP_STATIC_CAP * 65536 ||
    s.tier.extents.any (fun x => x.1 * 65536 ≤ p && p < (x.1 + x.2) * 65536))
/-- The page-map entry of a page (R95, R98). -/
def State.entry (s : State) (p : Nat) : PEntry := match sfind s.tier.pmap p with
  | some e => e
  | none => if s.inRegion p then {} else { st := .unmapped }
/-- Write a page-map entry. -/
def State.setEntry (s : State) (p : Nat) (e : PEntry) : State :=
  let d : PEntry := if s.inRegion p then {} else { st := .unmapped }
  { s with tier := { s.tier with pmap := sset d s.tier.pmap p e } }
/-- Home of a page (R306). -/
def homeOf (p : Nat) : Nat := (bits p 0 1 + bits p 9 1 + bits p 18 1 + bits p 27 1) % 2
/-- The Slab that serves as the page's home: its home, or the survivor while it is acting home (R228, R334). -/
def State.homeSlab (s : State) (p : Nat) : Nat :=
  if s.bit .home (1 - homeOf p) F.HOME_STATUS_ACTING then 1 - homeOf p else homeOf p
/-- Code of a page state (R95). -/
def PState.code : PState → Nat
  | .zero => 0
  | .hot => 1
  | .deep => 2
  | .plain => 3
  | .spilled => 4
  | .moving => 5
  | .unmapped => 6
/-- The 64 bits of an entry (R95, R96); one that moves keeps the location fields of its source copy, a handle and a donor among them (R97). -/
def PEntry.word (e : PEntry) (src : PState) : Nat :=
  let top := e.ctx * 2 ^ 48 + b2n e.pinned * 2 ^ 62 + b2n e.noSpill * 2 ^ 63
  if e.st = .spilled then 4 + e.handle * 2 ^ 8 + e.donor * 2 ^ 30 + top
  else if src = .spilled then e.st.code + e.heat * 8 + e.handle * 2 ^ 8 + e.donor * 2 ^ 30 + top
  else e.st.code + e.heat * 8 + e.vein * 2 ^ 8 + e.loc * 2 ^ 12 + e.gm1 * 2 ^ 40 + e.epoch * 2 ^ 43 + top

/-- The move of a page, if one runs (R107). -/
def State.moveOf (s : State) (p : Nat) : Option Move := s.tier.moves.find? (fun m => m.page = p)
/-- Put or replace the move of a page. -/
def State.setMove (s : State) (m : Move) : State :=
  { s with tier := { s.tier with moves := s.tier.moves.filter (fun x => x.page ≠ m.page) ++ [m] } }
/-- Remove the move of a page. -/
def State.dropMove (s : State) (p : Nat) : State :=
  { s with tier := { s.tier with moves := s.tier.moves.filter (fun x => x.page ≠ p) } }
/-- State of the source copy a page's entry names (R97). -/
def State.srcState (s : State) (p : Nat) : PState :=
  let e := s.entry p
  if e.st = .moving then ((s.moveOf p).map (fun m => m.src)).getD .hot else e.st

/-! ### Heat (R108) -/

/-- Epoch of a stroke. -/
def epochOf (t : Stroke) : Nat := sittingOf t / 16 % 32
/-- HEAT after decay to the current epoch. -/
def State.decayed (s : State) (e : PEntry) : Nat :=
  let el := (epochOf s.now + 32 - e.epoch) % 32
  e.heat / 2 ^ min 5 (el * s.get .tier 0 F.TIER_HEAT_DECAY_SHIFT)
/-- A host access adds one to HEAT; a spilled page's HEAT reads zero, and an unmapped page takes no access (R92, R95). -/
def State.warm (s : State) (p : Nat) : State :=
  let e := s.entry p
  if e.st ≠ .spilled && e.st ≠ .unmapped then
    s.setEntry p { e with heat := min 31 (s.decayed e + 1), epoch := epochOf s.now }
  else s

/-! ### Diptychs and Veins -/

/-- State of a Diptych. -/
def State.dipt (s : State) (k : Nat) : Dipt := sget {} s.dipts k
/-- Change a Diptych. -/
def State.modDipt (s : State) (k : Nat) (f : Dipt → Dipt) : State := { s with dipts := sset {} s.dipts k (f (s.dipt k)) }
/-- Slab of a Vein. -/
def slabOfVein (v : Nat) : Nat := v / 8
/-- Retired channel offset of a Vein (R214). -/
def State.retOfs (s : State) (v : Nat) : Option Nat :=
  if v < 8 then (if s.bit .dipt (v % 8) F.DIPT_STATUS_RET_LO then some (s.get .dipt (v % 8) F.DIPT_STATUS_RET_OFS_LO) else none)
  else if s.bit .dipt (v % 8) F.DIPT_STATUS_RET_HI then some (s.get .dipt (v % 8) F.DIPT_STATUS_RET_OFS_HI) else none
/-- Is a Vein retired (R218)? -/
def State.veinRet (s : State) (v : Nat) : Bool :=
  s.bit .dipt (v % 8) (if v < 8 then F.DIPT_STATUS_VEIN_RET_LO else F.DIPT_STATUS_VEIN_RET_HI)
/-- Can a Vein be reached: its Slab is present and it is not retired? -/
def State.veinOk (s : State) (v : Nat) : Bool := s.mediaIn (slabOfVein v) && !s.veinRet v

/-- Hot chunks per channel under a share (R118). -/
def hotChunks (share : Nat) : Nat := share * 6144
/-- H, the hot chunks per channel in force. -/
def State.hotH (s : State) : Nat := hotChunks (s.get .tier 0 F.TIER_HOT_HOT_SHARE)
/-- H of the HOT_SHARE change being applied, H in force when there is none (R121). -/
def State.hotNext (s : State) : Nat := match s.tier.rebalanceTo with
  | some sh => hotChunks sh
  | none => s.hotH
/-- Has the Diptych a retired channel? -/
def State.diptRet (s : State) (k : Nat) : Bool := (s.retOfs k).isSome || (s.retOfs (k + 8)).isSome
/-- Frames in use of a Diptych: F, or F_new under R215; none when it has failed. -/
def State.framesOf (s : State) (k : Nat) : Nat :=
  if (s.dipt k).st = .failed then 0
  else if s.diptRet k then 6 * s.hotH / 7 else s.hotH
/-- Frames new allocations may take: during a HOT_SHARE change, only those hot under both (R121). -/
def State.framesAlloc (s : State) (k : Nat) : Nat := min (s.framesOf k) (if s.diptRet k then 6 * s.hotNext / 7 else s.hotNext)

/-- Frames of every Diptych that a manager holds for itself, 512 MiB of them, pinned (R6, R111): its lowest-numbered ones (DESIGN CHOICE, log
entry 134). -/
def State.reserve (s : State) : Nat := if s.role = 0 then 0 else 131072
/-- Frames of Diptych `k` that hold or await a page, or that a read in flight looked up (R106). -/
def State.usedFrames (s : State) (k : Nat) : List Nat :=
  (s.tier.pmap.filterMap (fun x =>
    let e := x.2
    if e.vein = k && (e.st = .hot || (e.st = .moving && s.srcState x.1 = .hot)) then some e.loc else none)) ++
  (s.tier.moves.filterMap (fun m => if m.hasFrame && m.dk = k then some m.frame else none)) ++
  (s.home.reads.filterMap (fun r => if r.loc.st = .hot && r.loc.vein = k && r.st ≠ .ready then some r.loc.loc else none))
/-- Free frames of a Diptych. -/
def State.freeFrames (s : State) (k : Nat) : Nat :=
  s.framesAlloc k - s.reserve - ((s.usedFrames k).dedup.filter (fun f => s.reserve ≤ f && f < s.framesAlloc k)).length
/-- Lowest-numbered free frame (R109). -/
def State.lowFrame (s : State) (k : Nat) : Option Nat :=
  let used := s.usedFrames k
  ((List.range (min (s.framesAlloc k - s.reserve) (used.length + 1))).map (· + s.reserve)).find? (fun f => !(f ∈ used))
/-- Frame for a page: Diptych page mod 8, then the next in ascending order that has a free one (R109). -/
def State.findFrame (s : State) (p : Nat) : Option (Nat × Nat) :=
  ((List.range 8).map (fun i => (p + i) % 8)).findSome? (fun k => (s.lowFrame k).map (fun f => (k, f)))

/-! ### Rows -/

/-- Key of a row. -/
def rowId (v r : Nat) : Nat := 2 ^ 24 * v + r
/-- Rows of a Vein's deep area. -/
def State.rowsOf (s : State) : Nat := dataChunks - s.hotH
/-- Data granule positions of a row as used: seven entries. -/
def State.rowUse (s : State) (v r : Nat) : RowUse := sget (List.replicate 7 none) s.tier.rows (rowId v r)
/-- Channel offset of data position `q` of row `r` (R101). -/
def dataOfs (r q : Nat) : Nat := (r % 8 + 1 + q) % 8
/-- Is data position `q` of a new row left as a retired position (R216)? -/
def State.retiredPos (s : State) (v r q : Nat) : Bool := s.retOfs v = some (dataOfs r q)
/-- Is a row held by a read in flight (R106)? -/
def State.rowRead (s : State) (v r : Nat) : Bool := s.home.reads.any (fun d =>
  (d.loc.st = .deep || d.loc.st = .plain) && d.loc.vein = v && d.st ≠ .ready && d.loc.loc / 7 ≤ r && r ≤ (d.loc.loc + d.loc.gm1 + 1) / 7)
/-- Is a row free for a new image (R103, R112, R113, R121, R216)? -/
def State.rowFree (s : State) (v r : Nat) : Bool :=
  r < s.rowsOf && s.rowUse v r = List.replicate 7 none && !(rowId v r ∈ s.tier.pool) && !(rowId v r ∈ s.tier.poolHeld) &&
  !(s.tier.rowBufs.any (fun b => b.vein = v && b.row = r)) && !s.rowRead v r && s.retOfs v ≠ some (r % 8) &&
  s.hotNext ≤ s.hotH + r && s.veinOk v
/-- Rows of a Vein that are not free, out of those an allocation may take. -/
def State.rowsTaken (s : State) (v : Nat) : List Nat :=
  (s.tier.rows.filterMap (fun x => if x.1 / 2 ^ 24 = v then some (x.1 % 2 ^ 24) else none)) ++
  ((s.tier.pool ++ s.tier.poolHeld).filterMap (fun k => if k / 2 ^ 24 = v then some (k % 2 ^ 24) else none)) ++
  (s.tier.rowBufs.filterMap (fun b => if b.vein = v then some b.row else none))
/-- Rows of a Vein's deep area a new row may take, those on the retired parity offset left out. -/
def State.rowsUsable (s : State) (v : Nat) : Nat :=
  if s.veinOk v then (if (s.retOfs v).isSome then s.rowsOf * 7 / 8 else s.rowsOf) else 0
/-- Rows of a Vein's own deep area: those of a donated Spill pool are no part of it (R112). -/
def State.ownRows (s : State) (v : Nat) : Nat :=
  s.rowsUsable v - (s.tier.pool.filter (fun k => k / 2 ^ 24 = v && s.retOfs v ≠ some (k % 2 ^ 24 % 8))).length
/-- Free rows of a Vein. -/
def State.freeRows (s : State) (v : Nat) : Nat := s.rowsUsable v - ((s.rowsTaken v).dedup.filter (fun r => s.retOfs v ≠ some (r % 8))).length
/-- Free rows over all Veins (TIER_DEEP_FREE). -/
def State.freeRowsAll (s : State) : Nat := ((List.range 16).map s.freeRows).sum
/-- Lowest-numbered free row from which `need` consecutive rows are free. -/
def State.lowRow (s : State) (v need : Nat) : Option Nat :=
  let n := 2 * (s.rowsTaken v).length + 2 * s.home.reads.length + 64
  let start := if s.hotH < s.hotNext then s.hotNext - s.hotH else 0
  ((List.range n).map (· + start)).find? (fun r => (List.range need).all (fun i => s.rowFree v (r + i)))

/-- Data granule indices of a page's image, in order (R95, R101): those of its positions from LOCATOR on. -/
def State.granulesOf (s : State) (e : PEntry) (page : Nat) : List Nat :=
  (((List.range (e.gm1 + 8)).map (· + e.loc)).filter (fun g => (s.rowUse e.vein (g / 7)).getD (g % 7) none = some page)).take (e.gm1 + 1)
/-- Free the granules of a page's old deep location. -/
def State.freeGranules (s : State) (v page : Nat) : State :=
  { s with tier := { s.tier with rows := s.tier.rows.filterMap (fun x =>
      if x.1 / 2 ^ 24 = v then
        let u := x.2.map (fun o => if o = some page then none else o)
        if u = List.replicate 7 none then none else some (x.1, u)
      else some x) } }

/-! ### Media (R100, R101, R215, R242) -/

/-- Key of a stored line: Vein, channel offset, chunk and line position in the chunk. -/
def mediaKey (v ofs chunk pos : Nat) : Nat := ((v * 8 + ofs) * dataChunks + chunk) * 8 + pos
/-- Eligible relief offsets (R215). -/
def reliefOfs (x n : Nat) : Nat := ((List.range 8).filter (fun o => o ≠ x && o ≠ (x + 4) % 8)).getD n 0
/-- Where line `i` of frame `f` lies in a Vein of its Diptych: key of the line, the relief place included (R100, R215). -/
def State.hotKey (s : State) (v f i : Nat) : Nat :=
  let ofs := (f + i) % 8
  if s.retOfs v = some ofs && f < s.framesOf (v % 8) && !(f ∈ (s.dipt (v % 8)).relocFrames) then
    mediaKey v (reliefOfs ofs (f % 6)) (s.framesOf (v % 8) + f / 6) (i / 8)
  else mediaKey v ofs f (i / 8)
/-- Channel offset on which line `i` of frame `f` lies in a Vein. -/
def State.hotOfs (s : State) (v f i : Nat) : Nat := s.hotKey v f i / 8 / dataChunks % 8
/-- Key of line `l` of data granule `g` of a Vein. -/
def State.deepKey (s : State) (v g l : Nat) : Nat := mediaKey v (dataOfs (g / 7) (g % 7)) (s.hotH + g / 7) l
/-- Key of line `l` of the parity granule of a row. -/
def State.parityKey (s : State) (v r l : Nat) : Nat := mediaKey v (r % 8) (s.hotH + r) l
/-- Media name of a hot line. -/
def hotName (k f i : Nat) : Nat := 1 + 8 * k + 64 * f + 2 ^ 29 * i
/-- Media name of an image line of a deep or plain page. -/
def deepName (v loc n : Nat) : Nat := 2 + 8 * v + 2 ^ 7 * loc + 2 ^ 35 * n
/-- Media name of a spilled image line. -/
def spillName (donor handle n : Nat) : Nat := 3 + 8 * donor + 2 ^ 21 * handle + 2 ^ 43 * n
/-- Media name of a counter-class line. -/
def treeName (k n : Nat) : Nat := 4 + 8 * k + 64 * n
/-- Page of free media and metadata (R241). -/
def noPage : Nat := 0x1FFFFFFF

/-! ### Refresh (R132, R138, R141) -/

/-- Refresh plan of a Vein: 0 normal, 1 hot-refresh, 2 quarter. -/
def State.plan (s : State) (v : Nat) : Nat := s.get .vein v F.VEIN_STATUS_PLAN
/-- Does channel offset `o` of Vein `v` refresh in stroke `t`? -/
def State.refreshes (s : State) (v o : Nat) (t : Stroke) : Bool :=
  let k := v % 8
  let h := v / 8
  match s.plan v with
  | 0 => t.toNat % 8 = (o + k + 4 * h) % 8
  | 1 => t.toNat % 4 = (o + k + 2 * h) % 4
  | _ => t.toNat % 2 = (o + k + h) % 2
/-- Is the channel closed in the present stroke: its slot of the plan, or a forced refresh (R140)? -/
def State.closed (s : State) (v o : Nat) : Bool :=
  let vs := sget {} s.veins v
  o ∈ vs.forced || (s.refreshes v o s.now && !(o ∈ vs.postponed))

/-- Vein state. -/
def State.veinSt (s : State) (v : Nat) : VeinSt := sget {} s.veins v
/-- Change a Vein. -/
def State.modVein (s : State) (v : Nat) (f : VeinSt → VeinSt) : State := { s with veins := sset {} s.veins v (f (s.veinSt v)) }

/-- A metadata slot of a channel is used (R131). -/
def State.metaSlot (s : State) (v o : Nat) : State := s.modVein v (fun x => { x with metaUsed := sset 0 x.metaUsed o (sget 0 x.metaUsed o + 1) })
/-! ### Counters (R246 to R249) -/

/-- Key of a leaf. -/
def leafKey (k p : Nat) : Nat := k * dataChunks + p
/-- A leaf nothing has written since its last change of form. -/
def State.freshLeaf (s : State) (p : Nat) : Leaf :=
  let n := (s.crypto.rebased.filter (fun x => x.1 ≤ p && p < x.2)).length
  { major := n, verLo := n, verHi := n }
/-- Leaf of a position of a Diptych. -/
def State.leaf (s : State) (k p : Nat) : Leaf := match sfind s.crypto.leaves (leafKey k p) with
  | some l => l
  | none => s.freshLeaf p
/-- Slab that owns the counter tree of a Diptych (R252, R254). -/
def State.treeOwner (s : State) (k : Nat) : Nat := if s.bit .home (1 - k / 4) F.HOME_STATUS_ACTING then 1 - k / 4 else k / 4
/-- Key of a tree node's counter for a child: tree (a Diptych, or 8 for the ledger), level, index, child. -/
def nodeKey (k level q child : Nat) : Nat := ((k * 8 + level) * 4194304 + q) * 8 + child
/-- Lines of a level of a tree of so many leaves, and of the levels beneath it. -/
def linesBelow (leaves level : Nat) : Nat := ((List.range level).map (fun j => leaves / 8 ^ j)).sum
/-- Line of a tree's level in its Diptych's counter area (R251): leaves first, then levels 1 to 6; in Diptych 0 the ledger's lines follow. -/
def treeLineNo (k level index : Nat) : Nat :=
  if k = 8 then linesBelow dataChunks 7 + linesBelow 524288 level + index else linesBelow dataChunks level + index
/-- Slab that owns a tree: that of its Diptych, Slab 0 for the ledger (R252, R254). -/
def State.ownerOf (s : State) (k : Nat) : Nat := s.treeOwner (k % 8)
/-- Does this element of the tree cache hold the line? -/
def TreeLine.isLine (t : TreeLine) (k level index : Nat) : Bool := t.dipt = k && t.level = level && t.index = index
/-- A counter-class line is read for its owner: a metadata slot of its channel in the owner's Vein, or in the partner where that channel is in its
refresh slot (R251). -/
def State.treeFetch (s : State) (k level index : Nat) : State :=
  let o := treeLineNo k level index % 8
  let v := k % 8 + 8 * s.ownerOf k
  (s.metaSlot (if s.closed v o then (v + 8) % 16 else v) o).bump .cryp (s.ownerOf k) F.CRYP_CTR_MISS_COUNT
/-- A counter-class line is written to both Veins of its Diptych, each write in a metadata slot (R251, R253). -/
def State.treeStore (s : State) (k level index : Nat) : State :=
  let o := treeLineNo k level index % 8
  (s.metaSlot (k % 8) o).metaSlot (k % 8 + 8) o
/-- Put a line into its owner's cache, as the newest. -/
def State.treePut (s : State) (k level index : Nat) (dirty : Bool) : State :=
  let was := s.crypto.cache.any (fun t => t.isLine k level index && t.dirty)
  { s with crypto := { s.crypto with cache := s.crypto.cache.filter (fun t => !t.isLine k level index) ++
      ([{ dipt := k, level := level, index := index, dirty := dirty || was }] : List TreeLine) } }
/-- Add one to the parent's counter of a line (R253): at its largest value it cannot be raised, which is an L3 fault (R256). -/
def State.raiseCounter (s : State) (k level index : Nat) : State :=
  let full := 0xFFFFFFFFFFFFFF
  if level < 6 then
    let key := nodeKey k (level + 1) (index / 8) (index % 8)
    let v := sget 0 s.crypto.nodes key
    if v = full then s.fault .cryp (s.ownerOf k) 0x11 { cls := 0x11, unit := k }
    else { s with crypto := { s.crypto with nodes := sset 0 s.crypto.nodes key (v + 1) } }
  else
    let key := 64 * (k % 8) + (if k = 8 then 32 else 0) + index
    let v := sget 0 s.crypto.roots key
    if v = full then s.fault .cryp (s.ownerOf k) 0x11 { cls := 0x11, unit := k }
    else { s with crypto := { s.crypto with roots := sset 0 s.crypto.roots key (v + 1) } }
/-- Lines of a Slab's cache for the Diptychs it owns (R253). -/
def treeCacheLines : Nat := 32768
/-- The oldest line of an owner's overfull cache leaves it: a dirty one goes to both Veins under its parent's next counter, which makes the
parent dirty in the cache (R253). -/
def State.treeTrim (s : State) (owner : Nat) : State :=
  let own := s.crypto.cache.filter (fun t => s.ownerOf t.dipt = owner)
  if own.length ≤ treeCacheLines then s
  else match own with
    | [] => s
    | t :: _ =>
      let u := { s with crypto := { s.crypto with cache := s.crypto.cache.filter (fun x => !x.isLine t.dipt t.level t.index) } }
      if !t.dirty then u
      else
        let w := (u.treeStore t.dipt t.level t.index).raiseCounter t.dipt t.level t.index
        if t.level < 6 then w.treePut t.dipt (t.level + 1) (t.index / 8) true else w
/-- Use a counter-class line through its owner's cache (R251, R253): where it misses, it is fetched with every ancestor that misses, for the chain's
check; a change made in the cache leaves it dirty; what the new lines push out leaves. -/
def State.treeUse (s : State) (k level index : Nat) (dirty : Bool) : State :=
  if s.crypto.cache.any (fun t => t.isLine k level index) then
    (s.bump .cryp (s.ownerOf k) F.CRYP_CTR_HIT_COUNT).treePut k level index dirty
  else
    let missing (j : Nat) : Bool := !s.crypto.cache.any (fun t => t.isLine k (level + j) (index / 8 ^ j))
    let chain := (List.range (7 - level)).takeWhile missing
    let s1 := chain.reverse.foldl (fun t j => (t.treeFetch k (level + j) (index / 8 ^ j)).treePut k (level + j) (index / 8 ^ j) false) s
    (s1.treePut k level index dirty).forN 8 (fun t _ => t.treeTrim (t.ownerOf k))
/-- A counter-class line changes in its owner's cache: it is there and dirty (R253). -/
def State.dirtyTree (s : State) (k level index : Nat) : State := s.treeUse k level index true
/-- Write a leaf. -/
def State.setLeaf (s : State) (k p : Nat) (l : Leaf) : State :=
  ({ s with crypto := { s.crypto with leaves := sset (s.freshLeaf p) s.crypto.leaves (leafKey k p) l } }).dirtyTree k 0 p
/-- Version and minor of a hot line. -/
def State.hotVer (s : State) (k f i : Nat) : Nat × Nat := ((s.leaf k f).major, sget 0 (s.leaf k f).minors i)
/-- Row version of a Vein. -/
def State.rowVer (s : State) (v r : Nat) : Nat :=
  let l := s.leaf (v % 8) (s.hotH + r)
  if v < 8 then l.verLo else l.verHi
/-- Is the row's leaf lost for the Vein (R261)? -/
def State.rowLost (s : State) (v r : Nat) : Bool :=
  let l := s.leaf (v % 8) (s.hotH + r)
  if v < 8 then l.lostLo else l.lostHi
/-- A row write adds one to the row's version. -/
def State.bumpRow (s : State) (v r : Nat) : State :=
  let p := s.hotH + r
  let l := s.leaf (v % 8) p
  s.setLeaf (v % 8) p (if v < 8 then { l with verLo := l.verLo + 1, lostLo := false }
    else { l with verHi := l.verHi + 1, lostHi := false })

/-! ### Figures of the TIER page (R119, R120) -/

/-- Logical and granule bytes of deep, plain and spilled pages, in granules of 512 bytes: logical, data. -/
def State.ratioParts (s : State) : Nat × Nat :=
  s.tier.pmap.foldl (fun acc x =>
    let st := s.srcState x.1
    if st = .deep || st = .plain || st = .spilled then (acc.1 + 8, acc.2 + x.2.gm1 + 1) else acc) (0, 0)
/-- TIER_RATIO: measured ratio in 8.8 fixed point, 1 while nothing is there to measure. -/
def State.ratio (s : State) : Nat :=
  let r := s.ratioParts
  if r.2 = 0 then 256 else min 0xFFFF (r.1 * 256 / r.2)
/-- Effective capacity in units of 256 MiB (R119), with ratio 1 while no page is deep. -/
def State.effective (s : State) : Nat :=
  let hot := ((List.range 8).map (fun k => s.framesOf k * 8)).sum
  let deep := ((List.range 16).map (fun v =>
    if s.veinRet v then 0 else s.rowsOf * (if (s.retOfs v).isSome then 6 else 8))).sum - 8 * s.tier.pool.length
  let r := if s.tier.pmap.any (fun x => s.srcState x.1 = .deep) then s.ratioParts else (1, 1)
  let total := hot + deep * 7 * r.1 / (8 * r.2)
  (total - (if s.role = 0 then 0 else 8388608)) / 524288
/-- Static capacity and accepted extents, in units of 256 MiB. -/
def State.granted256 (s : State) : Nat :=
  s.get .tier 0 F.TIER_CAP_STATIC_CAP + (s.tier.extents.map (fun x => x.2)).sum
/-- Pages in a state. -/
def State.countPages (s : State) (st : PState) : Nat :=
  (s.tier.pmap.filter (fun x => x.2.st = st)).length
/-- Pinned frames of a Diptych: hot pages in it, the pinned zero pages whose frame it would give, and the manager's own (R6, R111). -/
def State.pinnedOf (s : State) (k : Nat) : Nat :=
  (s.tier.pmap.filter (fun x => x.2.pinned && (if x.2.st = .hot then x.2.vein = k else x.1 % 8 = k))).length + s.reserve

end Sys2Proof.Machine
end

