-- ==== Sys2Proof/Machine/Store.lean ====
section
/-! DEFINITION. Stored lines: the check code at a read, second sources, buckets and retirement (R193 to R218), encryption binding
and MAC (R241 to R263), poison markers and the poison list (R205, R206, R285), the flip mask (R208). -/

namespace Sys2Proof.Machine

/-! ### Keys -/

/-- A key context; context 0 is the Primer (R234, R238). -/
def State.ctx (s : State) (c : Nat) : KeyCtx := sget {} s.crypto.ctxs c
/-- Key material of a context. -/
def State.keysOf (s : State) (c : Nat) : KeyMaterial := (s.ctx c).keys

/-! ### Channels -/

/-- Module-wide number of a channel. -/
def chanOf (v o : Nat) : Nat := 8 * v + o
/-- Raw line slots of a channel in a stroke, by grade (R131). -/
def State.rawSlots (s : State) (v : Nat) : Nat := [48, 56, 64].getD (s.get .vein v F.VEIN_STATUS_SPEED) 64
/-- Slots kept for activates, precharges, turnaround and the cut-off; for metadata accesses; and as the steering reserve (R131). -/
def slotsOverhead : Nat := 4
def slotsMeta : Nat := 4
def slotsReserve : Nat := 7
/-- Data slots D of a channel in a stroke (R131). -/
def State.dataSlots (s : State) (v : Nat) : Nat := s.rawSlots v - slotsOverhead - slotsMeta - slotsReserve
/-- Deliverable slots of a Vein under a plan: 0 normal, 1 hot-refresh, 2 quarter (R149). -/
def State.deliverable (s : State) (v plan : Nat) : Nat :=
  let c := if s.veinOk v then 8 - popCount 8 (s.get .vein v F.VEIN_STATUS_CHAN_RETIRED) else 0
  let d := s.dataSlots v
  (c * 64 - [8, 16, 32].getD plan 8 * c) * d
/-- VEIN_DELIVERABLE follows the channels in service (R149). -/
def State.setDeliverable (s : State) (v : Nat) : State :=
  (s.put .vein v F.VEIN_DELIVERABLE_SLOTS (s.deliverable v 0)).put .vein v F.VEIN_DELIVERABLE_SLOTS_HOT (s.deliverable v 1)

/-! ### The queues of a channel (R143) -/

/-- Entries of a channel's read or write queue. -/
def State.queued (s : State) (v o : Nat) (write : Bool) : Nat :=
  ((s.vq.filter (fun a => a.vein = v && a.ofs = o && a.write = write)).map (fun a => a.count)).sum
/-- Entries of a read queue and of a write queue. -/
def queueSize (write : Bool) : Nat := if write then 64 else 128
/-- Add an access to a list; internal work of one requester on one channel stands in one entry. -/
def addAcc (l : List VAcc) (a : VAcc) : List VAcc :=
  let same (x : VAcc) : Bool := x.id = 0 && x.vein = a.vein && x.ofs = a.ofs && x.level = a.level && x.write = a.write && x.who = a.who && x.engine = a.engine
  if a.id = 0 && a.key.isNone && l.any same then l.map (fun x => if same x then { x with count := x.count + a.count } else x) else l ++ [a]
/-- Put an access into its channel's queue; it waits at the home while the queue is full. -/
def State.enqueue (s : State) (a : VAcc) : State :=
  if s.queued a.vein a.ofs a.write + a.count ≤ queueSize a.write then { s with vq := addAcc s.vq a }
  else { s with hub := { s.hub with accHeld := addAcc s.hub.accHeld a } }
/-- Admitted reads queued over a Vein's channels (R148); one read may wait on several. -/
def State.admittedQueued (s : State) (v : Nat) : Nat :=
  (((s.vq.filter (fun a => a.vein = v && a.admitted && !a.write)).map (fun a => a.id)).dedup).length
/-- Accesses that wait enter their queues as room appears, oldest first. -/
def State.retryAccs (s : State) : State :=
  s.hub.accHeld.foldl (fun t a =>
    let n := min a.count (queueSize a.write - t.queued a.vein a.ofs a.write)
    if n = 0 then t
    else { t with vq := addAcc t.vq { a with count := n }
                  hub := { t.hub with accHeld := t.hub.accHeld.filterMap (fun x =>
                    if x = a then (if a.count = n then none else some { a with count := a.count - n }) else some x) } }) s
/-- Forget the queued accesses of a read. -/
def State.dropAccs (s : State) (c : VAcc → Bool) : State :=
  { s with vq := s.vq.filter (fun a => !c a), hub := { s.hub with accHeld := s.hub.accHeld.filter (fun a => !c a) } }
/-- Line slots that internal work at level 7 takes on a channel (R145): requester 34 codec offload, 35 tier mover, 36 resync, 37 scrub. -/
def State.offer (s : State) (v o who n : Nat) (write : Bool) : State :=
  if n = 0 then s else s.enqueue { vein := v, ofs := o, level := 7, write := write, deadline := s.now, stamp := s.now, who := who, count := n }

/-- Set a Diptych's state, its register and interrupt (R230, R233). -/
def State.setDState (s : State) (k : Nat) (d : DState) : State :=
  let code := match d with
    | .paired => 0
    | .retiring => 1
    | .solo => 2
    | .resync => 3
    | .single => 4
    | .failed => 5
  if (s.dipt k).st = d then s
  else ((s.modDipt k (fun x => { x with st := d })).put .dipt k F.DIPT_STATUS_STATE code).raise .dipt k 16

/-- Frames and pages a retired offset leaves to move (R215, R216): every frame in use, and every deep or plain page of the Vein with
a granule on the offset. -/
def State.startReloc (s : State) (v o : Nat) : State :=
  let k := v % 8
  let pages := s.tier.pmap.filterMap (fun x =>
    let e := x.2
    if (e.st = .deep || e.st = .plain) && e.vein = v && (s.granulesOf e x.1).any (fun g => dataOfs (g / 7) (g % 7) = o) then some x.1
    else none)
  s.modDipt k (fun d => { d with reloc := true, relocFrames := (d.relocFrames ++ s.usedFrames k).dedup
                                 relocPages := (d.relocPages ++ pages).dedup })

/-- Retire channel offset `o` of a Vein (R214, R218, R230). -/
def State.retireChannel (s : State) (v o : Nat) : State :=
  let k := v % 8
  let low := decide (v < 8)
  let s1 := (s.put .chan (chanOf v o) F.CHAN_STATUS_RETIRED 1).put .vein v F.VEIN_STATUS_CHAN_RETIRED
    (setBit (s.get .vein v F.VEIN_STATUS_CHAN_RETIRED) o true)
  match s.retOfs v with
  | none =>
    let rows := s1.tier.rows.filterMap (fun x => if x.1 / 2 ^ 24 = v then some x.1 else none)
    let s2 := ({ s1 with tier := { s1.tier with oldRows := s1.tier.oldRows ++ rows } } : State).startReloc v o
    let s3 := if low then (s2.put .dipt k F.DIPT_STATUS_RET_OFS_LO o).put .dipt k F.DIPT_STATUS_RET_LO 1
      else (s2.put .dipt k F.DIPT_STATUS_RET_OFS_HI o).put .dipt k F.DIPT_STATUS_RET_HI 1
    let s4 := if (s.dipt k).st = .paired then (s3.setDState k .retiring).put .dipt k F.DIPT_STATUS_SIDE (slabOfVein v) else s3
    s4.setDeliverable v
  | some x =>
    if x = o then s1
    else
      let s2 := s1.put .dipt k (if low then F.DIPT_STATUS_VEIN_RET_LO else F.DIPT_STATUS_VEIN_RET_HI) 1
      let gone := s2.veinRet k && s2.veinRet (k + 8)
      let pages := s.tier.pmap.filterMap (fun y => if (y.2.st = .deep || y.2.st = .plain) && y.2.vein = v then some y.1 else none)
      let s3 := s2.modDipt k (fun d => { d with relocPages := (d.relocPages ++ pages).dedup, relocFrames := [] })
      let s4 := if gone then (((s3.setDState k .failed).raise .dipt k 19).fault .dipt k 0x07 { cls := 7, unit := k })
        else (s3.setDState k .single).put .dipt k F.DIPT_STATUS_SIDE (1 - slabOfVein v)
      s4.setDeliverable v

/-- A bucket event of a channel (R212, R213); weights in integers. -/
def State.bucketAdd (s : State) (v o w page line : Nat) (checker : Bool := false) : State :=
  let sl := slabOfVein v
  let j := 8 * (v % 8) + o
  let lvl := min 0xFFFF (s.get .dprt sl F.DPRT_BUCKET_LEVEL j + 256 * w)
  let s1 := s.put .dprt sl F.DPRT_BUCKET_LEVEL lvl j
  if 256 * s.get .dprt sl F.DPRT_BUCKET_CFG_THRESH ≤ lvl && !s.bit .dprt sl F.DPRT_BUCKET_PERMANENT j then
    let s2 := ((s1.put .dprt sl F.DPRT_BUCKET_PERMANENT 1 j).raise .dprt sl 18).fault .dprt sl 0x02
      { cls := 2, unit := v, detail := chanOf v o, page := page, line := line, lineValid := page ≠ noPage, checker := checker }
    s2.retireChannel v o
  else s1

/-- A correction of `n` symbols (R193, R212). -/
def State.corrected (s : State) (v o n page line : Nat) : State :=
  let sl := slabOfVein v
  ((s.bump .dprt sl F.DPRT_CE_COUNT_COUNT).raise .dprt sl 16).bucketAdd v o
    (s.get .dprt sl (if n ≤ 1 then F.DPRT_BUCKET_CFG_W_CE1 else F.DPRT_BUCKET_CFG_W_CE4)) page line
/-- An uncorrectable line, transient or persistent (R198, R212). -/
def State.uncorrectable (s : State) (v o page line : Nat) (transient : Bool) : State :=
  let sl := slabOfVein v
  ((s.bump .dprt sl F.DPRT_UE_COUNT_COUNT).raise .dprt sl 17).bucketAdd v o
    (s.get .dprt sl (if transient then F.DPRT_BUCKET_CFG_W_UE_T else F.DPRT_BUCKET_CFG_W_UE_P)) page line

/-! ### The reservation and the check caches (R118, R189, R191, R244) -/

/-- First chunks of a channel's MAC, metadata and check areas (R118): the areas stand in the order of its table (DESIGN CHOICE, log 149). -/
def macArea : Nat := dataChunks
def metaArea : Nat := macArea + 786432
def checkArea : Nat := metaArea + 376832
/-- Key of a line of a channel's reservation. -/
def resvKey (v ofs chunk pos : Nat) : Nat := chanOf v ofs * 2 ^ 26 + 8 * chunk + pos
/-- Key of the MAC line of a chunk of the data area (R244). -/
def macKey (v ofs chunk : Nat) : Nat := resvKey v ofs (macArea + chunk / 8) (chunk % 8)
/-- Does a Vein's check cache hold a word of a check line or MAC line? -/
def State.holdsCheck (s : State) (v ofs chunk : Nat) (mac : Bool) (word : Nat) : Bool :=
  s.media.checks.any (fun c => c.vein = v && c.ofs = ofs && c.chunk = chunk && c.mac = mac && c.held.testBit word)
/-- Use a word of a check line or MAC line through the Vein's check cache of 2,048 lines (R191, R192): a word read and not held fetches its line, a
word written stands there until its line is written back, by a masked write unless all eight are new, when it is the least recently used. Each
fetch and each write-back takes a metadata slot. -/
def State.holdCheck (s : State) (v ofs chunk : Nat) (mac : Bool) (word : Nat) (write : Bool) : State :=
  let same (c : CheckLine) : Bool := c.vein = v && c.ofs = ofs && c.chunk = chunk && c.mac = mac
  let old := s.media.checks.find? same
  let c : CheckLine := old.getD { vein := v, ofs := ofs, chunk := chunk, mac := mac }
  let c1 : CheckLine := if write then { c with held := setBit c.held word true, dirty := setBit c.dirty word true }
    else if c.held.testBit word then c else { c with held := 255 }
  let s1 := if write || c.held.testBit word then s else s.metaSlot v ofs
  let rest := s.media.checks.filter (fun x => !same x)
  let put (t : State) (l : List CheckLine) : State := { t with media := { t.media with checks := l ++ [c1] } }
  if old.isSome || (rest.filter (fun x => x.vein = v)).length < 2048 then put s1 rest
  else match rest.find? (fun x => x.vein = v) with
    | some y => put (if y.dirty = 0 then s1 else s1.metaSlot v y.ofs) (rest.erase y)
    | none => put s1 rest

/-! ### Media -/

/-- What a line nothing has written holds: a zero line under the Primer key (R210). -/
def State.freeLine (s : State) : Stored := { sealedIn := { keys := s.keysOf 0, page := noPage } }
/-- The stored line at a key. -/
def State.stored (s : State) (key : Nat) : Stored := match sfind s.media.lines key with
  | some (some x) => x
  | _ => s.freeLine
/-- A line's place: Vein and channel offset of its key. -/
def keyVein (key : Nat) : Nat := key / 8 / dataChunks / 8
/-- Channel offset and chunk of a key. -/
def keyOfs (key : Nat) : Nat := key / 8 / dataChunks % 8
def keyChunk (key : Nat) : Nat := key / 8 % dataChunks

/-- A line as it comes from the check code: its stored form and the error left over its ciphertext; or lost. -/
inductive Got
  | data (x : Stored) (left : Nat)
  | marker (x : Stored) (left : Nat)
  | lost
deriving DecidableEq, Repr

/-- The codeword error that leaves `left` over the ciphertext with a check word that fits it. -/
def leftErr (left : Nat) : Codeword := if left = 0 then 0 else BitVec.ofNat 576 (left + rsCheck left * 2 ^ 512)

/-- Is a frame's copy on a side stale (R227, R229)? -/
def State.staleOn (s : State) (k f side : Nat) : Bool :=
  let d := s.dipt k
  (d.st = .resync || d.st = .solo) &&
  ((f ∈ d.stale && !(f ∈ d.behind) && s.get .dipt k F.DIPT_STATUS_SIDE ≠ side) || (f ∈ d.behind && s.get .dipt k F.DIPT_STATUS_SIDE = side))
/-- Copies of a frame that can be read: Veins of its Diptych. -/
def State.copies (s : State) (k f : Nat) : List Nat := [k, k + 8].filter (fun v => s.veinOk v && !s.staleOn k f (slabOfVein v))
/-- Veins a hot write goes to (R29, R225). -/
def State.writeVeins (s : State) (k : Nat) : List Nat := [k, k + 8].filter s.veinOk

/-- Put a stored line; its check word and its MAC take their words in the check cache, and a chunk all of whose MACs are new writes its whole MAC
line (R192, R244). -/
def State.putStored (s : State) (key : Nat) (x : Stored) : State :=
  let v := keyVein key
  let o := keyOfs key
  let c := keyChunk key
  let t := (s.holdCheck v o c false (key % 8) true).holdCheck v o c true (key % 8) true
  let whole := t.media.checks.any (fun y => y.vein = v && y.ofs = o && y.chunk = c && y.mac && y.dirty = 255)
  { t with media := { t.media with lines := sset none t.media.lines key (some x)
                                   resv := if whole then sset 0 t.media.resv (macKey v o c) 0 else t.media.resv } }

/-! ### Reads of stored lines (R193 to R198) -/

/-- Where the second source of a line is (R195): nowhere, a value at hand, another stored copy, or the other positions of its row: a data position, or 7 for parity. -/
inductive Second
  | none
  | given (x : Stored)
  | copy (key : Nat)
  | row (v r p l : Nat)
deriving DecidableEq, Repr

/-- Rewrite a line in place as level-7 scrub work, unless a newer write than `w` has reached it (R194). -/
def State.rewrite (s : State) (key : Nat) (w x : Stored) : State :=
  if s.stored key = w then (s.putStored key x).offer (keyVein key) (keyOfs key) 37 1 true else s
/-- Can a line of a channel be read for a rebuild (R197): its Slab is there, the channel is not in its refresh slot, nor retired with its
relocation done? -/
def State.rowReach (s : State) (v o : Nat) : Bool :=
  s.mediaIn (slabOfVein v) && !s.closed v o && (!(s.get .vein v F.VEIN_STATUS_CHAN_RETIRED).testBit o || (s.dipt (v % 8)).reloc)
/-- Does a row hold a granule, or its parity, at a position, 7 for parity: positions on an offset that was retired when the row was written hold
none (R196, R216)? -/
def State.rowHolds (s : State) (v r p : Nat) : Bool :=
  rowId v r ∈ s.tier.oldRows || s.retOfs v ≠ some (if p = 7 then r % 8 else dataOfs r p)
/-- Key of line `l` of a position of a row, 7 for parity. -/
def State.posKey (s : State) (v r p l : Nat) : Nat := if p = 7 then s.parityKey v r l else s.deepKey v (7 * r + p) l
/-- Line `l` of every position of a row but one, each through its check, its correction and one re-read: what their errors leave over the
exclusive-or; none when one cannot be had (R197). -/
def State.rebuildLine (s : State) (v r l skip page line : Nat) (e : LineErr) : Option Nat × State :=
  ((List.range 8).filter (fun p => p ≠ skip && s.rowHolds v r p)).foldl (fun (acc : Option Nat × State) p =>
    let t := acc.2
    let key := t.posKey v r p l
    let o := keyOfs key
    match acc.1 with
    | none => acc
    | some sum =>
      if !t.rowReach v o then (none, t)
      else
        let w := t.stored key
        let x := (e.row.find? (fun y => y.1 = p)).getD (p, 0, 0)
        let fixed (u : State) (left : Nat) : State := u.rewrite key w { w with err := leftErr left }
        match checkWord w.marker (w.err ^^^ x.2.1).toNat with
        | .clean left | .poison left => (some (sum ^^^ left), t)
        | .corrected n left | .poisonFixed n left => (some (sum ^^^ left), fixed (t.corrected v o n page line) left)
        | .bad => match checkWord w.marker (w.err ^^^ x.2.2).toNat with
          | .clean left | .poison left => (some (sum ^^^ left), fixed (t.uncorrectable v o page line true) left)
          | _ => (none, t.uncorrectable v o page line false)) (some 0, s)
/-- Fetch a line from its second source (R195, R197, R198): the stored form with the error left over it. -/
def State.readSecond (s : State) (src : Second) (page line : Nat) (e : LineErr) : Option (Stored × Nat) × State :=
  if e.secondBad then (none, s)
  else match src with
    | .none => (none, s)
    | .given x => (some (x, x.err.toNat % 2 ^ 512), s)
    | .copy key =>
      let w := s.stored key
      let v := keyVein key
      let o := keyOfs key
      match checkWord w.marker (w.err ^^^ e.second).toNat with
      | .clean left => (some ({ w with marker := false }, left), s)
      | .poison left => (some (w, left), s)
      | .corrected n left => (some ({ w with marker := false }, left), (s.corrected v o n page line).rewrite key w { w with marker := false, err := leftErr left })
      | .poisonFixed n left => (some (w, left), (s.corrected v o n page line).rewrite key w { w with err := leftErr left })
      | .bad => (none, s.uncorrectable v o page line false)
    | .row v r p l =>
      let x := s.rebuildLine v r l p page line e
      (x.1.map (fun left => ({ s.stored (s.posKey v r p l) with marker := false }, (left ^^^ e.second.toNat) % 2 ^ 512)), x.2)

/-- What a stored form with an error left over it comes as. -/
def gotOf (x : Stored) (left : Nat) : Got := if x.marker then .marker x left else .data x left
/-- A line served from its second source: counted, and the found line is rewritten from it (R198). -/
def State.fromSecond (s : State) (key : Nat) (w x : Stored) (left : Nat) : Got × State :=
  (gotOf x left, (s.bump .dprt (slabOfVein (keyVein key)) F.DPRT_REBUILD_COUNT_COUNT).rewrite key w { x with err := leftErr left })
/-- Read a line that held `w` when the read was ordered (R193, R194, R198): check, correction, re-read and second source. A marker that passes
as data does so as such (R193). `page` and `line` go into the records. A line on a retired channel is read only when its second source does not
serve it (R214). -/
def State.fetch (s0 : State) (key page line : Nat) (w : Stored) (e : LineErr) (src : Second) : Got × State :=
  let v := keyVein key
  let o := keyOfs key
  let s := s0.holdCheck v o (keyChunk key) false (key % 8) false
  let first := if (s.get .vein v F.VEIN_STATUS_CHAN_RETIRED).testBit o then s.readSecond src page line e else (none, s)
  match first with
  | (some (x, left), t) => (gotOf x left, t)
  | (none, t) =>
    let data : Stored := { w with marker := false }
    let fixed (u : State) (x : Stored) (left : Nat) : State := u.rewrite key w { x with err := leftErr left }
    match checkWord w.marker (w.err ^^^ e.first).toNat with
    | .clean left => (.data w left, t)
    | .poison left => (.marker w left, t)
    | .poisonFixed n left => (.marker w left, fixed (t.corrected v o n page line) w left)
    | .corrected n left => (.data w left, fixed (t.corrected v o n page line) data left)
    | .bad => match checkWord w.marker (w.err ^^^ e.again).toNat with
      | .clean left => (.data w left, fixed (t.uncorrectable v o page line true) data left)
      | .poison left => (.marker w left, fixed (t.uncorrectable v o page line true) w left)
      | again =>
        let t1 := t.uncorrectable v o page line false
        match t1.readSecond src page line e with
        | (some (x, left), t2) => t2.fromSecond key w x left
        | (none, t2) => match again with
          | .corrected n left => (.data w left, fixed (t2.corrected v o n page line) data left)
          | .poisonFixed n left => (.marker w left, fixed (t2.corrected v o n page line) w left)
          | _ => (.lost, t2)

/-! ### MAC lines (R244, R245) -/

/-- Put the error pattern over a MAC or metadata line. -/
def State.putResv (s : State) (key : Nat) (e : Codeword) : State := { s with media := { s.media with resv := sset 0 s.media.resv key e } }
/-- What a MAC or metadata line's codeword holds once it is a poison marker: its check word inverted (R205). -/
def resvMarker : Codeword := BitVec.ofNat 576 ((2 ^ 64 - 1) * 2 ^ 512)
/-- Read a MAC or metadata line with patterns over its first read and its re-read, and with its second source: the error left over its bytes,
none when it is lost, which leaves a marker (R189, R193, R198). -/
def State.readResv (s : State) (key v o : Nat) (e0 e1 : Codeword) (second : State → Option Nat × State) : Option Nat × State :=
  let w := sget 0 s.media.resv key
  let fix (t : State) (left : Nat) : State := (t.putResv key (leftErr left)).offer v o 37 1 true
  match checkWord false (w ^^^ e0).toNat with
  | .clean left => (some left, s)
  | .corrected n left => (some left, fix (s.corrected v o n noPage 0) left)
  | .poison _ => (none, s)
  | .poisonFixed n _ => (none, (s.corrected v o n noPage 0).putResv key resvMarker)
  | .bad => match checkWord false (w ^^^ e1).toNat with
    | .clean left => (some left, fix (s.uncorrectable v o noPage 0 true) left)
    | again => match second (s.uncorrectable v o noPage 0 false) with
      | (some left, t) => (some left, fix (t.bump .dprt (slabOfVein v) F.DPRT_REBUILD_COUNT_COUNT) left)
      | (none, t) => match again with
        | .corrected n left => (some left, fix (t.corrected v o n noPage 0) left)
        | _ => (none, t.putResv key resvMarker)
/-- One read of a MAC or metadata line as another's second source. -/
def State.readResvOnce (s : State) (key v o : Nat) (e : Codeword) : Option Nat × State :=
  match checkWord false (sget 0 s.media.resv key ^^^ e).toNat with
  | .clean left => (some left, s)
  | .corrected n left => (some left, (s.corrected v o n noPage 0).putResv key (leftErr left))
  | _ => (none, s.uncorrectable v o noPage 0 false)
/-- The second source of a line's MAC line: that of its other copy, or the exclusive-or of the other MAC lines of its row (R245). -/
def State.macSecond (s : State) (src : Second) (e : Codeword) : Option Nat × State := match src with
  | .copy key => s.readResvOnce (macKey (keyVein key) (keyOfs key) (keyChunk key)) (keyVein key) (keyOfs key) e
  | .row v r q l =>
    ((List.range 8).filter (fun p => p ≠ q && s.rowHolds v r p)).foldl (fun (acc : Option Nat × State) p =>
      let key := acc.2.posKey v r p l
      match acc.1 with
      | none => acc
      | some sum =>
        if !acc.2.rowReach v (keyOfs key) then (none, acc.2)
        else
          let x := acc.2.readResvOnce (macKey v (keyOfs key) (keyChunk key)) v (keyOfs key) 0
          (x.1.map (fun left => sum ^^^ left), x.2)) (some (e.toNat % 2 ^ 512), s)
  | _ => (none, s)
/-- Read the MAC of a line: whether its seven bytes are as written; none when its MAC line is lost. A MAC line in the check cache is not read
again (R244). -/
def State.readMac (s : State) (key : Nat) (e : LineErr) (src : Second) : Option Bool × State :=
  let v := keyVein key
  let o := keyOfs key
  let c := keyChunk key
  let j := key % 8
  let t := s.holdCheck v o c true j false
  if s.holdsCheck v o c true j then (some true, t)
  else
    let x := (t.holdCheck v o (macArea + c / 8) false (c % 8) false).readResv (macKey v o c) v o e.mac.1 e.mac.2.1 (fun u => u.macSecond src e.mac.2.2)
    (x.1.map (fun left => left / 2 ^ (56 * j) % 2 ^ 56 = 0), x.2)
/-- Leaf whose counters a stored line stands under (R247): that of its frame, at the relief place too, or that of its chunk. -/
def leafOf (key : Nat) (w : Stored) : Nat := if w.sealedIn.name % 8 = 1 then w.sealedIn.name / 64 % 2 ^ 23 else keyChunk key
/-- Read a line with its MAC, for a requester that verifies it (R257), its leaf through the counter-tree cache (R253): a MAC that came altered leaves an error beyond the line's own bits, so that
no MAC matches; a line whose MAC line is lost is lost with it. -/
def State.fetchMac (s : State) (key page line : Nat) (w : Stored) (e : LineErr) (src : Second) : Got × State :=
  let g := (s.treeUse (keyVein key % 8) 0 (leafOf key w) false).fetch key page line w e src
  match g.1 with
  | .lost => g
  | .data x left => match g.2.readMac key e src with
    | (none, t) => (.lost, t)
    | (some ok, t) => (.data x (if ok then left else left + 2 ^ 512), t)
  | .marker x left => match g.2.readMac key e src with
    | (none, t) => (.lost, t)
    | (some ok, t) => (.marker x (if ok then left else left + 2 ^ 512), t)

/-- Second source of hot line `i` of frame `f` read in Vein `v` (R195): the partner's copy, at its relief place if it has one. -/
def State.partner (s : State) (v f i : Nat) : Second :=
  let q := (v + 8) % 16
  if q ∈ s.copies (v % 8) f then .copy (s.hotKey q f i) else .none

/-! ### Binding and verification (R241 to R244, R257) -/

/-- The binding a hot line of a page takes now. -/
def State.bindHot (s : State) (k f i page ctx : Nat) (plain : Line) : Sealed :=
  { plain := plain, keys := s.keysOf ctx, name := hotName k f i, page := page, ctx := ctx
    minor := (s.hotVer k f i).2, ver := (s.hotVer k f i).1 }
/-- The binding line `n` of a page's image takes in its row. -/
def State.bindDeep (s : State) (v loc g n page ctx : Nat) (plain : Line) : Sealed :=
  { plain := plain, keys := s.keysOf ctx, name := deepName v loc n, page := page, ctx := ctx, ver := s.rowVer v (g / 7) }
/-- Does a fetched line verify under a binding: same key, name, page, context, counters, and no error left over it or its MAC? -/
def macOk (x : Stored) (left : Nat) (want : Sealed) : Bool := left = 0 && x.sealedIn = { want with plain := x.sealedIn.plain }

/-! ### Poison (R205 to R207, R285) -/

/-- The plaintext of a marker (R205). -/
def markerLine (code page line : Nat) (t : Stroke) : Line :=
  lineOf (leBytes 2 0x5AA5 ++ leBytes 1 code ++ leBytes 1 0 ++ leBytes 4 (t.toNat % 2 ^ 32) ++ leBytes 4 page ++ leBytes 1 line ++
    List.replicate 51 0)
/-- Poison code a marker's plaintext names. -/
def markerCode (x : Stored) : Nat := (x.sealedIn.plain.toNat / 2 ^ 16) % 256
/-- Add an entry to the poison list; a full list sets the overflow (R285). -/
def State.listPoison (s : State) (page line code : Nat) (injected : Bool := false) : State :=
  let l := s.ports.poisonList.filter (fun x => !(x.page = page && x.line = line))
  if l.length < 1024 then
    { s with ports := { s.ports with poisonList := l ++ ([{ page := page, line := line, code := code, injected := injected }] : List PoisonEnt) } }
  else { s with ports := { s.ports with poisonOverflow := some s.now } }
/-- Remove the entries of a page that a condition picks. -/
def State.unlistPoison (s : State) (page : Nat) (c : Nat → Bool) : State :=
  { s with ports := { s.ports with poisonList := s.ports.poisonList.filter (fun x => !(x.page = page && c x.line)) } }

/-! ### The flip mask (R208) -/

/-- Does an armed flip qualify for a write of a page's line ordered at its home? The home Slab's DPRT arms it. -/
def State.flipHit (s : State) (page line : Nat) : Option Nat :=
  let n := s.homeSlab page
  if s.bit .dprt n F.DPRT_FLIP_CTL_ARM && s.get .dprt n F.DPRT_FLIP_CTL_STAGE < 2 && s.get .dprt n F.DPRT_FLIP_PAGE_PAGE = page &&
     s.get .dprt n F.DPRT_FLIP_CTL_LINE = line then some n else none
/-- ARM clears, FIRED is set, the stamp and the interrupt are taken. -/
def State.flipFire (s : State) (n : Nat) : State :=
  (((s.put .dprt n F.DPRT_FLIP_CTL_ARM 0).put .dprt n F.DPRT_FLIP_CTL_FIRED 1).put .dprt n F.DPRT_FLIP_STAMP_STAMP
    (s.now.toNat % 2 ^ 32)).raise .dprt n 20
/-- The 64-bit mask. -/
def State.flipMask (s : State) (n : Nat) : Nat :=
  s.get .dprt n F.DPRT_FLIP_MASK_LO_MASK_LO + 2 ^ 32 * s.get .dprt n F.DPRT_FLIP_MASK_HI_MASK_HI
/-- The error a fired flip leaves over the copy in Vein `v`. -/
def State.flipErr (s : State) (n v : Nat) : Codeword :=
  let m := s.flipMask n * 2 ^ (64 * s.get .dprt n F.DPRT_FLIP_CTL_SEL)
  if s.get .dprt n F.DPRT_FLIP_CTL_STAGE = 0 then
    (if (s.get .dprt n F.DPRT_FLIP_CTL_COPY).testBit (slabOfVein v) then BitVec.ofNat 576 m else 0)
  else leftErr (m % 2 ^ 512)

/-! ### Writing hot lines (R200, R248, R262) -/

/-- Store a line in every copy of a frame, under the counters as they stand; a fired flip corrupts it. -/
def State.storeHot (s : State) (k f i page ctx : Nat) (plain : Line) (marker : Bool) : State :=
  let flip := s.flipHit page i
  let x := s.bindHot k f i page ctx plain
  let s1 := (s.writeVeins k).foldl (fun t v =>
    let err : Codeword := match flip with
      | some n => s.flipErr n v
      | none => 0
    t.putStored (t.hotKey v f i) { sealedIn := x, marker := marker, err := err }) s
  let s2 := match flip with
    | some n => s1.flipFire n
    | none => s1
  if (s.dipt k).st = .solo then s2.modDipt k (fun d => { d with stale := addOnce d.stale f, mapDirty := addOnce d.mapDirty (f / 512) }) else s2

/-- Records of a marker written: counts, interrupt and poison list. -/
def State.noteMarker (s : State) (k page line code : Nat) (injected : Bool := false) : State :=
  let s1 := (s.writeVeins k).foldl (fun t v =>
    ((t.bump .dprt (slabOfVein v) F.DPRT_POISON_COUNT_COUNT).spend .fg [(1, 1), (3, 1)]).raise .dprt (slabOfVein v) 19) s
  s1.listPoison page line code injected

/-- What a frame's line is to hold. -/
inductive Fill
  | plain (l : Line)
  | poison (code : Nat)
deriving DecidableEq, Repr

/-- Write a whole frame (R248): MAJOR + 1, every minor that is not 63 to 0, then every line. A line written over a lost one takes
minor 0. While relief frames of a retiring Diptych still hold pages, a new frame's lines on the retired channel go there first and move later
(R215); a frame of which the governing side held the stale copy is so no longer (R229). -/
def State.writeFrame (s0 : State) (k f page ctx : Nat) (fill : Nat → Fill) : State :=
  let wait := s0.diptRet k && (s0.usedFrames k).any (fun g => s0.framesOf k ≤ g)
  let s := s0.modDipt k (fun d => { d with behind := d.behind.filter (· ≠ f), relocFrames := if wait then addOnce d.relocFrames f else d.relocFrames })
  let l := s.leaf k f
  let s1 := s.setLeaf k f { l with major := l.major + 1, minors := [] }
  s1.forN 64 (fun t i => match fill i with
    | .plain x => t.storeHot k f i page ctx x false
    | .poison c => (t.storeHot k f i page ctx (markerLine c page i t.now) true).noteMarker k page i c)

/-- Content of a line of a page's stored data or marker, as a fetch gives it to a move: data, or poison with its code. -/
def Fill.isPoison : Fill → Bool
  | .plain _ => false
  | .poison _ => true

end Sys2Proof.Machine
end

