-- ==== Sys2Proof/Machine/HubCache.lean ====
section
/-! DEFINITION. The Hub Cache and the line buffers (R341 to R357): sets, replacement, installs, invalidation, page slots, run-ahead
slots, Vein line buffers; single-line writes with the minor-counter overflow (R249, R345). -/

namespace Sys2Proof.Machine

/-! ### Tree pseudo-LRU over sixteen ways (R342) -/

/-- Node on the path of a way at depth `d`, 0 the root: nodes are numbered in heap order. -/
def plruNode (way d : Nat) : Nat := 2 ^ d - 1 + way / 2 ^ (4 - d)
/-- Ways below a node's branch `b` at depth `d` when the path so far is `pre`. -/
def branchHas (pre d : Nat) (b : Nat) (ways : List Nat) : Bool := ways.any (fun w => w / 2 ^ (3 - d) = 2 * pre + b)
/-- Walk from the root: the branch a node names, unless it holds no eligible way. -/
def plruWalk (bitsOf16 : Nat) (ways : List Nat) : Nat :=
  (List.range 4).foldl (fun pre d =>
    let want := if bitsOf16.testBit (2 ^ d - 1 + pre) then 1 else 0
    2 * pre + (if branchHas pre d want ways then want else 1 - want)) 0
/-- A hit or an install sets the bits along the way's path to name the other branch. -/
def plruTouch (bits16 way : Nat) : Nat :=
  (List.range 4).foldl (fun b d => setBit b (plruNode way d) (way / 2 ^ (3 - d) % 2 = 0)) bits16

/-! ### Sets -/

/-- Set index of a media name (R342). -/
def hcSet (name : Nat) : Nat :=
  let x := name / 8
  bits x 0 15 ^^^ bits x 15 15 ^^^ bits x 30 15 ^^^ bits x 45 15
/-- Key of a way. -/
def hcKey (slab set way : Nat) : Nat := 524288 * slab + 16 * set + way
/-- Entry of a way, none while INVALID. -/
def State.hcEnt (s : State) (slab set way : Nat) : Option HcEnt := sget none s.hub.ents (hcKey slab set way)
/-- Set an entry. -/
def State.hcPut (s : State) (slab set way : Nat) (e : Option HcEnt) : State :=
  { s with hub := { s.hub with ents := sset none s.hub.ents (hcKey slab set way) e } }
/-- Way that carries a media name. -/
def State.hcWay (s : State) (slab name : Nat) : Option Nat :=
  (List.range 16).find? (fun w => match s.hcEnt slab (hcSet name) w with
    | some e => e.name = name
    | none => false)
/-- Update a set's tree bits. -/
def State.hcTouch (s : State) (slab set way : Nat) : State :=
  let key := 32768 * slab + set
  { s with hub := { s.hub with plru := sset 0 s.hub.plru key (plruTouch (sget 0 s.hub.plru key) way) } }
/-- Secure ways of a Slab (R352). -/
def State.secureWays (s : State) (slab : Nat) : Nat := min 8 (s.get .hcac slab F.HCAC_PART_SECURE_WAYS)
/-- Ways of a line's partition. -/
def State.partWays (s : State) (slab : Nat) (secure : Bool) : List Nat :=
  (List.range 16).filter (fun w => (16 - s.secureWays slab ≤ w) = secure)

/-- Look up a line: a VALID entry with the name hits, touching the tree and the counters (R342). -/
def State.hcLookup (s : State) (slab name : Nat) : Option Stored × State :=
  let set := hcSet name
  match s.hcWay slab name with
  | some w => match s.hcEnt slab set w with
    | some e =>
      if e.st = .valid then
        let s1 := (s.bump .hcac slab F.HCAC_HIT_COUNT).hcTouch slab set w
        let s2 := if e.prefetched then (s1.bump .hcac slab F.HCAC_PREFETCH_USED_COUNT).hcPut slab set w (some { e with prefetched := false })
          else s1
        (some e.cont, s2)
      else (none, s.bump .hcac slab F.HCAC_MISS_COUNT)
    | none => (none, s.bump .hcac slab F.HCAC_MISS_COUNT)
  | none => (none, s.bump .hcac slab F.HCAC_MISS_COUNT)
/-- Is a line VALID in the cache? -/
def State.hcValid (s : State) (slab name : Nat) : Bool := match s.hcWay slab name with
  | some w => (s.hcEnt slab (hcSet name) w).any (fun e => e.st = .valid)
  | none => false
/-- Does the cache hold the line in any state? -/
def State.hcHas (s : State) (slab name : Nat) : Bool := (s.hcWay slab name).isSome

/-- Install a line (R342, R343, R347); `dropped` when a write, an overflow or a flip was ordered first. -/
def State.hcInstall (s : State) (slab name page : Nat) (x : Stored) (secure prefetched dropped : Bool) : State :=
  let set := hcSet name
  if dropped then s.bump .hcac slab F.HCAC_INSTALL_DROP_COUNT
  else if s.hcHas slab name then s
  else
    let ways := s.partWays slab secure
    let ent : HcEnt := { name := name, cont := x, secure := secure, prefetched := prefetched, page := page }
    match ways.find? (fun w => (s.hcEnt slab set w).isNone) with
    | some w => (s.hcPut slab set w (some ent)).hcTouch slab set w
    | none =>
      let el := ways.filter (fun w => (s.hcEnt slab set w).any (fun e => e.st = .valid))
      if el.isEmpty then s.bump .hcac slab F.HCAC_INSTALL_DROP_COUNT
      else
        let w := plruWalk (sget 0 s.hub.plru (32768 * slab + set)) el
        (s.hcPut slab set w (some ent)).hcTouch slab set w

/-- Invalidate one line, counted (R346). -/
def State.hcInval (s : State) (slab name : Nat) : State := match s.hcWay slab name with
  | some w => (s.hcPut slab (hcSet name) w none).bump .hcac slab F.HCAC_INVAL_EVENTS_COUNT
  | none => s
/-- Invalidate every entry of a Slab that a condition on set, way and entry picks. -/
def State.hcSweep (s : State) (slab : Nat) (c : Nat → Nat → HcEnt → Bool) (count : Bool := true) : State :=
  let hit (x : Nat × Option HcEnt) : Bool := x.1 / 524288 = slab && x.2.any (fun e => c (x.1 / 16 % 32768) (x.1 % 16) e)
  let n := (s.hub.ents.filter hit).length
  let s1 := { s with hub := { s.hub with ents := s.hub.ents.filter (fun x => !hit x) } }
  if count then s1.bump .hcac slab F.HCAC_INVAL_EVENTS_COUNT n else s1
/-- Media names of a page's current location (R242). -/
def State.namesOf (e : PEntry) (src : PState) : List Nat :=
  if src = .hot then (List.range 64).map (hotName e.vein e.loc)
  else if src = .deep || src = .plain then (List.range (8 * (e.gm1 + 1))).map (deepName e.vein e.loc)
  else []
/-- Invalidate every line of a page's old location (R346). -/
def State.hcInvalPage (s : State) (page : Nat) (e : PEntry) (src : PState) : State :=
  (State.namesOf e src).foldl (fun t n => t.hcInval (s.homeSlab page) n) s

/-! ### Page slots of the home line buffer (R354, R350) -/

/-- The slot that holds written lines of a page. -/
def State.slotOf (s : State) (page : Nat) : Option HlbSlot := s.hub.slots.find? (fun x => x.page = page && !x.runahead)
/-- The run-ahead slot of a page. -/
def State.raSlot (s : State) (page : Nat) : Option HlbSlot := s.hub.slots.find? (fun x => x.page = page && x.runahead)
/-- Slots of a Slab in use. -/
def State.slotsUsed (s : State) (slab : Nat) : Nat := (s.hub.slots.filter (fun x => x.slab = slab)).length
/-- Remove a page's slots. -/
def State.dropSlot (s : State) (page : Nat) (runahead : Bool) : State :=
  { s with hub := { s.hub with slots := s.hub.slots.filter (fun x => !(x.page = page && x.runahead = runahead)) } }
/-- Put a slot, newest use last. -/
def State.putSlot (s : State) (x : HlbSlot) : State :=
  let t := s.dropSlot x.page x.runahead
  { t with hub := { t.hub with slots := t.hub.slots ++ [{ x with use := t.hub.useCtr }], useCtr := t.hub.useCtr + 1 } }
/-- The least recently used run-ahead slot of a Slab. -/
def State.lruRunahead (s : State) (slab : Nat) : Option HlbSlot :=
  (s.hub.slots.filter (fun x => x.slab = slab && x.runahead)).foldl (fun acc x => match acc with
    | none => some x
    | some y => if x.use < y.use then some x else some y) none
/-- Make room for a slot: a free one, else that of the least recently used run-ahead slot; none when there is no room (R354). -/
def State.slotRoom (s : State) (slab : Nat) : Option State :=
  if s.slotsUsed slab < 512 then some s
  else (s.lruRunahead slab).map (fun x => s.dropSlot x.page true)
/-- A line held in a page's slot. -/
def State.heldLine (s : State) (page line : Nat) : Option HeldLine := match s.slotOf page with
  | some x => x.lines.find? (fun h => h.line = line)
  | none => none
/-- Bytes of a write laid over a line: byte enables pick the new bytes. -/
def mergeLine (old new : Line) (mask : BitVec 64) : Line :=
  lineOf ((List.range 64).map (fun b => if mask.getLsbD b then (new >>> (8 * b)).setWidth 8 else (old >>> (8 * b)).setWidth 8))
/-- All byte enables. -/
def fullMask : BitVec 64 := 0xFFFFFFFFFFFFFFFF
/-- Hold a written line: a later write merges over an earlier one, its enables joined (R30). -/
def State.holdLine (s : State) (page line ctx : Nat) (data : Line) (mask : BitVec 64) (poison : Nat) : State :=
  let slab := s.homeSlab page
  let x : HlbSlot := (s.slotOf page).getD { slab := slab, page := page, ctx := ctx }
  let new : HeldLine := match x.lines.find? (fun h => h.line = line) with
    | some h =>
      if poison ≠ 0 then { line := line, poison := poison }
      else if mask = fullMask then { line := line, data := data }
      else { h with data := mergeLine h.data data mask, mask := h.mask ||| mask }
    | none => { line := line, data := data, poison := poison, mask := mask }
  s.putSlot { x with ctx := ctx, lines := x.lines.filter (fun h => h.line ≠ line) ++ [new] }

/-! ### Vein line buffers (R355 to R357) -/

/-- Chunk entries in use of a Vein. -/
def State.vlbUsed (s : State) (v : Nat) : Nat := (s.hub.vlb.filter (fun x => x.vein = v)).length
/-- Is a line still marked zero in a Vein line buffer? -/
def State.vlbZero (s : State) (k f i : Nat) : Bool :=
  s.hub.vlb.any (fun x => x.vein % 8 = k && x.ofs = (f + i) % 8 && x.chunk = f && i / 8 ∈ x.zeros)
/-- Replace a line's zero mark with data (R357). -/
def State.vlbData (s : State) (k f i : Nat) : State :=
  { s with hub := { s.hub with vlb := s.hub.vlb.map (fun x =>
      if x.vein % 8 = k && x.ofs = (f + i) % 8 && x.chunk = f then { x with zeros := x.zeros.filter (· ≠ i / 8) } else x) } }
/-- Allocate the chunk entries of a whole-frame write, with the lines that `zero` names marked zero (R355, R356). A full Vein line
buffer leaves its chunks in the home line buffer: they take no entry. -/
def State.vlbFrame (s : State) (k f page : Nat) (zero : Nat → Bool) : State :=
  let slab := s.homeSlab page
  let nz := ((List.range 64).filter zero).length
  let s1 := if nz = 0 then s else s.bump .hcac slab F.HCAC_ZERO_LINES_COUNT nz
  (s1.writeVeins k).foldl (fun t v =>
    t.forN 8 (fun u o =>
      if u.vlbUsed v < 256 then
        let zs := (List.range 8).filter (fun pos => zero ((pos * 8 + (o + 8 - f % 8) % 8)))
        { u with hub := { u.hub with vlb := u.hub.vlb ++ ([{ vein := v, ofs := o, chunk := f, page := page, zeros := zs }] : List VlbEnt) } }
      else u)) s1

/-! ### Single-line writes (R248, R249, R345) -/

/-- The write-stamp notice of R338. -/
def State.noticeVein (s : State) (page : Nat) : State :=
  let e := s.entry page
  if e.st = .deep || e.st = .plain || e.st = .moving then
    let v := e.vein
    let vs := sget {} s.veins v
    let i := page % 1024
    { s with veins := sset {} s.veins v { vs with wstamp := sset 0 vs.wstamp i ((sget 0 vs.wstamp i + 1) % 65536) } }
  else s
/-- Write-stamp counter of a page at its Vein. -/
def State.wstampOf (s : State) (page : Nat) : Nat := sget 0 (sget {} s.veins (s.entry page).vein).wstamp (page % 1024)

/-- What every write ordered for a line does to the copies that follow the home: a prefetch or install under way is dropped, a
run-ahead slot is freed, the Vein is told (R338, R347, R350). -/
def State.orderedWrite (s : State) (page line : Nat) : State :=
  let s1 := (s.noticeVein page).dropSlot page true
  if s1.hub.prefetch.any (fun x => x.2.1 = page && x.2.2.1 = line) then
    { s1 with hub := { s1.hub with dirtied := addOnce s1.hub.dirtied (page, line) } }
  else s1

/-- A VALID entry of the line takes the write's ciphertext and MAC (R345), with what a MAC-stage flip left in the ciphertext (R208). -/
def State.hcUpdate (s : State) (page k f i : Nat) (err : Codeword) : State :=
  let slab := s.homeSlab page
  match s.hcWay slab (hotName k f i), s.writeVeins k with
  | some w, v :: _ => match s.hcEnt slab (hcSet (hotName k f i)) w with
    | some e => s.hcPut slab (hcSet (hotName k f i)) w (some { e with cont := { s.stored (s.hotKey v f i) with err := err }, st := .valid })
    | none => s
  | _, _ => s

/-- Minor-counter overflow (R249): the frame's other lines are verified under the old version and take MACs under the new one; one
that fails becomes a marker with code 0x04. -/
def State.overflow (s : State) (k f i page ctx : Nat) : State :=
  let old := s.leaf k f
  let slab := s.homeSlab page
  let s1 := ((s.bump .cryp slab F.CRYP_REMAC_COUNT).raise .cryp slab 21).setLeaf k f
    { old with major := old.major + 1, minors := old.minors.filter (fun m => m.2 = 63) }
  let s2 := (List.range 64).foldl (fun t n => t.hcInval slab (hotName k f n)) s1
  s2.forN 64 (fun t n =>
    if n = i || sget 0 old.minors n = 63 then t
    else (t.writeVeins k).foldl (fun u v =>
      let key := u.hotKey v f n
      let x := u.stored key
      let wantMinor := sget 0 old.minors n
      let was : Sealed := { x.sealedIn with keys := u.keysOf ctx, name := hotName k f n, page := page, ctx := ctx
                                            minor := wantMinor, ver := old.major }
      if x.sealedIn = was then u.putStored key { x with sealedIn := u.bindHot k f n page ctx x.sealedIn.plain }
      else (u.putStored key { sealedIn := u.bindHot k f n page ctx (markerLine 4 page n u.now), marker := true }).noteMarker k page n 4) t)

/-- Write one line of a hot frame (R248, R249): its minor goes up, or the overflow runs; a lost line takes minor 0 under the MAJOR
its rebuild drew (R265). Answers whether the write overflowed. -/
def State.writeLine (s : State) (k f i page ctx : Nat) (plain : Line) (poison : Nat) (injected : Bool := false) : Bool × State :=
  let l := s.leaf k f
  let m := sget 0 l.minors i
  let ovf := decide (m = 62)
  let s1 := if m = 63 then s.setLeaf k f { l with minors := sset 0 l.minors i 0 }
    else if ovf then s.overflow k f i page ctx
    else s.setLeaf k f { l with minors := sset 0 l.minors i (m + 1) }
  let s2 := (s1.vlbData k f i)
  let err : Codeword := match s2.flipHit page i with
    | some n => if s2.get .dprt n F.DPRT_FLIP_CTL_STAGE = 1 then s2.flipErr n k else 0
    | none => 0
  let s3 := if poison = 0 then (s2.storeHot k f i page ctx plain false).unlistPoison page (· = i)
    else (s2.storeHot k f i page ctx (markerLine poison page i s.now) true).noteMarker k page i poison injected
  (ovf, s3.hcUpdate page k f i err)

end Sys2Proof.Machine
end

