-- ==== Sys2Proof/Machine/Regulate.lean ====
section
/-! DEFINITION. Bandwidth regulation (R404 to R430): classes, admission, media charges, the refill and RUN_SCALE of a Layer, misses
and their records, and the checks of an admission commit. -/

namespace Sys2Proof.Machine

/-! ### Classes -/

/-- ATTACH entry of an attach point in a register store: bits [2:0] CLASS, bit 3 BY_LABEL. -/
def attachEntry (m : SMap Nat) (a : Nat) : Nat :=
  if a < 8 then fread m (pg .regu 0) F.REGU_ATTACH_LO_ATTACH a else fread m (pg .regu 0) F.REGU_ATTACH_HI_ATTACH (a - 8)
/-- Class of a request (R404). -/
def State.classOf (s : State) (a ctx : Nat) : Nat :=
  let e := attachEntry s.regs a
  let l := s.get .regu 0 F.REGU_LABEL_LABEL ctx
  if e < 8 then e % 8 else if l < 8 then e % 8 else l % 8
/-- Open budgets of a class. -/
def State.left (s : State) (c : Nat) : ClassLeft := sget {} s.regu.left c
/-- Change the open budgets of a class. -/
def State.modLeft (s : State) (c : Nat) (f : ClassLeft → ClassLeft) : State :=
  { s with regu := { s.regu with left := sset {} s.regu.left c (f (s.left c)) } }
/-- Is a class privileged (R406)? -/
def State.priv (s : State) (c : Nat) : Bool := s.bit .regu 0 F.REGU_CLASS_CFG_PRIV c
/-- OT_CAP of a class. -/
def State.otCap (s : State) (c : Nat) : Nat := s.get .regu 0 F.REGU_CLASS_CFG_OT_CAP c
/-- Admitted reads of a class outstanding at a home; while a Slab is absent both homes are one (R410). -/
def State.outstanding (s : State) (c home : Nat) : Nat := sget 0 s.regu.outst (2 * c + home)
/-- Home under which a read is counted. -/
def State.countHome (s : State) (page : Nat) : Nat := if s.boot.absent = [] then homeOf page else 0
/-- Add to or take from the outstanding reads of a class. -/
def State.modOut (s : State) (c home : Nat) (f : Nat → Nat) : State :=
  { s with regu := { s.regu with outst := sset 0 s.regu.outst (2 * c + home) (f (s.outstanding c home)) } }

/-! ### Admission (R409, R414) -/

/-- Does a request meet the conditions of R409? -/
def State.admissible (s : State) (c page : Nat) (read : Bool) (layer : Nat) : Bool :=
  let l := s.left c
  let st := page % 8
  let home := s.countHome page
  s.regu.running && s.bit .mod 0 F.MOD_READY_READY && layer = s.regu.layer &&
  (if read then
    0 < l.rd && 0 < sget 0 l.rdStripe st &&
    (if s.priv c then s.outstanding c home < s.otCap c
     else
      let sum := (((List.range 8).filter (fun k => !s.priv k)).map (fun k => s.outstanding k home)).sum
      let caps := (((List.range 8).filter s.priv).map s.otCap).sum
      sum < 768 - caps)
   else 0 < l.wr && 0 < sget 0 l.wrStripe st)

/-- Admit or do not admit a request at its stamp: an admitted one takes a line from each budget it was checked against; one that is
not takes nothing and is counted (R409, R413, R419, R430). -/
def State.letIn (s0 : State) (c page : Nat) (read : Bool) (stamp : Stroke) : Bool × State :=
  let s := s0.spend .fg [(0, if read then 1 else 2)]
  if s.admissible c page read (layerOf stamp) then
    let st := page % 8
    let s1 := s.modLeft c (fun l =>
      if read then { l with rd := l.rd - 1, rdUsed := l.rdUsed + 1, used := l.used + 1
                            rdStripe := sset 0 l.rdStripe st (sget 0 l.rdStripe st - 1) }
      else { l with wr := l.wr - 1, wrUsed := l.wrUsed + 1, used := l.used + 2
                    wrStripe := sset 0 l.wrStripe st (sget 0 l.wrStripe st - 1) })
    (true, if read then s1.modOut c (s.countHome page) (· + 1) else s1)
  else
    let s1 := (s.bump .regu 0 F.REGU_NOTADM_COUNT 1 c).modLeft c (fun l => { l with notAdmitted := true })
    (false, if read && s.priv c && !s.regu.privSeen then
      ({ s1 with regu := { s1.regu with privSeen := true } }).raise .regu 0 20 else s1)

/-- An admitted read's last flit leaves, or it is dropped: it is no longer outstanding. -/
def State.readGone (s : State) (c page : Nat) : State := s.modOut c (s.countHome page) (· - 1)

/-- Debt of a class. -/
def State.debt (s : State) (c : Nat) : Nat := s.get .regu 0 F.REGU_LOAD_DEBT_SLOTS c
/-- A media charge (R411, R412): EXTRA_SLOTS, then RD_LINES, then debt; all debt when the Layer of the stamp has ended. -/
def State.charge (s0 : State) (cls : Option Nat) (stamp : Stroke) (n : Nat) : State :=
  match cls with
  | none => s0
  | some c =>
    let s := s0.spend .fg [(0, n)]
    let l := s.left c
    if layerOf stamp = s.regu.layer then
      let x := min n l.extra
      let r := min (n - x) l.rd
      (s.modLeft c (fun l => { l with extra := l.extra - x, rd := l.rd - r, used := l.used + x + r })).put .regu 0
        F.REGU_LOAD_DEBT_SLOTS (min 0xFFFFFF (s.debt c + (n - x - r))) c
    else s.put .regu 0 F.REGU_LOAD_DEBT_SLOTS (min 0xFFFFFF (s.debt c + n)) c

/-! ### Stripes and scales (R421, R426) -/

/-- Ceiling of a quotient by 8. -/
def ceil8 (n : Nat) : Nat := (n + 7) / 8
/-- Stripe demand of a store's configuration (R421). -/
def stripeDemand (m : SMap Nat) : Nat :=
  ((List.range 8).map (fun c => ceil8 (fread m (pg .regu 0) F.REGU_RD_RD_LINES c) + 2 * ceil8 (fread m (pg .regu 0) F.REGU_WR_WR_LINES c) +
    ceil8 (fread m (pg .regu 0) F.REGU_EXTRA_EXTRA_SLOTS c))).sum
/-- Reserved slots of a store's configuration (R407). -/
def reservedSlots (m : SMap Nat) : Nat :=
  ((List.range 8).map (fun c => fread m (pg .regu 0) F.REGU_RD_RD_LINES c + 2 * fread m (pg .regu 0) F.REGU_WR_WR_LINES c +
    fread m (pg .regu 0) F.REGU_EXTRA_EXTRA_SLOTS c)).sum
/-- AVAIL of a stripe at a commit, from the normal plan or the hot-refresh plan. -/
def State.availOf (s : State) (k : Nat) (hot : Bool) : Nat :=
  ([k, k + 8].map (fun v => if s.mediaIn (slabOfVein v) then
    s.get .vein v (if hot then F.VEIN_DELIVERABLE_SLOTS_HOT else F.VEIN_DELIVERABLE_SLOTS) else 0)).sum
/-- Capacity of a stripe under the plan each Vein is in (R426). -/
def State.curAvail (s : State) (k : Nat) : Nat :=
  ([k, k + 8].map (fun v => if s.mediaIn (slabOfVein v) then s.deliverable v (s.get .vein v F.VEIN_STATUS_PLAN) else 0)).sum

/-- Factors of RUN_SCALE in the order of R426, each with its LIMIT code. -/
def State.factors (s : State) : List (Nat × Nat) :=
  let dem := stripeDemand s.regs
  let tot := reservedSlots s.regs
  let en := s.get .regu 0 F.REGU_ENERGY_ENERGY_SLOTS
  [(1, s.get .regu 0 F.REGU_SCALE_COMMIT_SCALE)] ++
  (if s.tb.hot then [(2, s.get .regu 0 F.REGU_HOT_SCALE_HOT_SCALE)] else []) ++
  (List.range 8).filterMap (fun k =>
    if s.curAvail k < sget 0 s.regu.avail k && dem ≠ 0 then
      some (if s.boot.absent = [] then 3 else 4, min 4096 (s.curAvail k * 4096 / dem)) else none) ++
  (if en < tot then [(5, en * 4096 / tot)] else [])
/-- RUN_SCALE and LIMIT (R426, R427). -/
def State.runScale (s : State) : Nat × Nat :=
  s.factors.foldl (fun acc x => if x.2 < acc.1 then (x.2, x.1) else acc) (4096, 0)

/-- The refill at a Layer boundary (R412, R414, R426, R427). -/
def State.refill (s : State) : State :=
  let rs := s.runScale
  let was := s.get .regu 0 F.REGU_SCALE_RUN_SCALE
  let dem := stripeDemand s.regs
  let any := (List.range 8).any (fun c => [s.get .regu 0 F.REGU_RD_RD_LINES c, s.get .regu 0 F.REGU_WR_WR_LINES c,
    s.get .regu 0 F.REGU_EXTRA_EXTRA_SLOTS c].any (fun b => b * rs.1 / 4096 ≠ 0))
  let s1 := ((((s.put .regu 0 F.REGU_SCALE_RUN_SCALE rs.1).put .regu 0 F.REGU_STATUS_LIMIT rs.2).put .regu 0 F.REGU_STATUS_SCALED
    (b2n (rs.1 < 4096))).put .regu 0 F.REGU_STATUS_ACTIVE (b2n any))
  let s2 := if rs.1 < 4096 && was = 4096 then s1.raise .regu 0 17 else s1
  let s3 := s2.forN 8 (fun t k => (t.put .regu 0 F.REGU_STRIPE_AVAIL (t.curAvail k) k).put .regu 0 F.REGU_STRIPE_DEMAND dem k)
  let s4 := s3.forN 8 (fun t c =>
    let old := t.left c
    let rd := t.get .regu 0 F.REGU_RD_RD_LINES c * rs.1 / 4096
    let wr := t.get .regu 0 F.REGU_WR_WR_LINES c * rs.1 / 4096
    let ex := t.get .regu 0 F.REGU_EXTRA_EXTRA_SLOTS c * rs.1 / 4096
    let d := t.debt c
    let dx := min d ex
    let dr := min (d - dx) rd
    let st (b : Nat) : SMap Nat := if b = 0 then [] else (List.range 8).map (fun k => (k, ceil8 b))
    let new : ClassLeft :=
      { rd := rd - dr, wr := wr, extra := ex - dx, rdStripe := st rd, wrStripe := st wr, used := dx + dr
        rdBudget := rd, wrBudget := wr, missedPrev := old.missedNow }
    ((t.put .regu 0 F.REGU_USED_SLOTS (min 0xFFFFFF old.used) c).put .regu 0 F.REGU_LOAD_DEBT_SLOTS (d - dx - dr) c).modLeft c (fun _ => new))
  { s4 with regu := { s4.regu with layer := layerOf s4.now, privSeen := false } }

/-- Load state of each class (R419). -/
def State.setLoads (s : State) : State :=
  s.forN 8 (fun t c =>
    let l := t.left c
    let v := if l.missedNow || l.missedPrev then 3 else if l.notAdmitted then 2
      else if (0 < l.rdBudget && l.rdBudget ≤ 2 * l.rdUsed) || (0 < l.wrBudget && l.wrBudget ≤ 2 * l.wrUsed) then 1 else 0
    t.put .regu 0 F.REGU_LOAD_LOAD v c)

/-! ### Misses (R428, R429) -/

/-- Requests of the module that are admitted reads, with their stamps. -/
def State.admittedReads (s : State) : List HReq :=
  let hs := s.home.reads.map (fun r => r.req) ++ s.home.waiting.map (fun w => w.req) ++ s.home.queue ++ s.home.senders ++
    s.home.regionWait ++ s.regu.held
  hs.filter (fun r => r.admitted && (r.kind = .read || r.kind = .readS || r.kind = .readA))

/-- A miss of an admitted read (R51, R428): `by_` strokes past its bound. -/
def State.miss (s : State) (r : HReq) (by_ : Nat) (a : Nat) : State :=
  let c := r.cls.getD 0
  let k := layerOf r.stamp
  let s1 := (s.bump .regu 0 F.REGU_MISS_MISS 1 c).modLeft c (fun l => { l with missedNow := true })
  if layersSince k s.regu.layer ≤ 2 && s.regu.tallies.any (fun t => t.layer = k) || s.regu.layer = k then
    let t0 : MissTally := (s.regu.tallies.find? (fun t => t.layer = k)).getD { layer := k }
    let t1 : MissTally :=
      { t0 with count := min 0xFFFF (t0.count + 1), classes := setBit t0.classes c true, worst := min 255 (max t0.worst by_)
                firstStamp := if t0.count = 0 || strokeLe r.stamp t0.firstStamp then r.stamp else t0.firstStamp
                firstAttach := if t0.count = 0 || (strokeLe r.stamp t0.firstStamp && r.stamp ≠ t0.firstStamp) ||
                    (r.stamp = t0.firstStamp && a < t0.firstAttach) then a else t0.firstAttach }
    { s1 with regu := { s1.regu with tallies := s1.regu.tallies.filter (fun t => t.layer ≠ k) ++ [t1] } }
  else (s1.bump .regu 0 F.REGU_MISS_LATE_COUNT).raise .regu 0 19

/-- Open the tally of the Layer that begins (R428): the flags its record will carry. -/
def State.openTally (s : State) : State :=
  let t : MissTally := { layer := layerOf s.now, scaled := decide (s.get .regu 0 F.REGU_SCALE_RUN_SCALE < 4096), hot := s.tb.hot, ovr := s.regu.ovr }
  { s with regu := { s.regu with tallies := s.regu.tallies ++ [t] } }

/-- Bytes of a miss record (R429). -/
def missWord (seq : Nat) (t : MissTally) : BitVec 128 :=
  BitVec.ofNat 128 (leNat (leBytes 2 seq ++ leBytes 1 t.classes ++ leBytes 1 (b2n t.scaled + 2 * b2n t.hot + 4 * b2n t.ovr) ++
    leBytes 6 t.layer ++ leBytes 2 t.count ++ leBytes 1 t.worst ++ leBytes 1 t.firstAttach))

/-- Close the tallies that satisfy a condition, in Layer order (R428). -/
def State.closeTalliesIf (s : State) (done : MissTally → Bool) : State :=
  let closing := s.regu.tallies.filter done
  let s1 := { s with regu := { s.regu with tallies := s.regu.tallies.filter (fun t => !done t) } }
  closing.foldl (fun u t =>
    if t.count = 0 then u
    else
      let seq := u.regu.missSeq
      let u1 : State := { u with
        regu := { u.regu with missQ := sput u.regu.missQ (seq % 16) (missWord seq t), missSeq := (seq + 1) % 65536 }
        ring := { u.ring with misses := u.ring.misses + t.count } }
      ((((u1.put .regu 0 F.REGU_MISS_STAT_LAST_SEQ seq).put .regu 0 F.REGU_MISS_STAT_ANY 1).raise .regu 0 16).fault .regu 0 0x15
        { cls := 0x15, agent := 0x10 + t.firstAttach, detail := t.count })) s1
/-- Close the tallies a Layer boundary ends: those of past Layers with no admitted read left, or three Layers back. -/
def State.closeTallies (s : State) : State :=
  let cur := layerOf s.now
  let adm := s.admittedReads
  s.closeTalliesIf (fun t => 0 < layersSince t.layer cur && layersSince t.layer cur < 2 ^ 41 &&
    (3 ≤ layersSince t.layer cur || !(adm.any (fun r => layerOf r.stamp = t.layer))))

/-! ### The admission commit (R420 to R425) -/

/-- A staged REGU field. -/
def State.rs (s : State) (f : Fld) (i : Nat := 0) : Nat := s.getS .regu 0 f i
/-- Bytes an attach point's link carries in one Layer (R274, R421). -/
def State.linkBytes (s : State) (a : Nat) : Nat :=
  if s.linkUp a then
    let lanes := [0, 4, 8, 16].getD (s.link a F.PORT_LINK_WIDTH) 0
    let g2 := [5, 10, 16, 32, 64, 128].getD (s.link a F.PORT_LINK_SPEED) 128
    lanes * g2 * 242 * 15 / 2
  else 0
/-- L_c of the staged fields (R421). -/
def State.classBytes (s : State) (c : Nat) : Nat :=
  let named := (List.range 2048).any (fun j => (List.range 8).any (fun m => s.rs F.REGU_LABEL_LABEL (8 * j + m) = 8 + c))
  ((List.range 16).map (fun a =>
    let e := attachEntry s.staged a
    if e % 8 = c || (8 ≤ e && named) then s.linkBytes a else 0)).sum

/-- The capacity checks in order: CHECK, INDEX, capacity and demand (bytes for checks 3 and 4). -/
def State.capChecks (s : State) : List (Nat × Nat × Nat × Nat) :=
  (List.range 8).map (fun k => (1, k, s.availOf k false, stripeDemand s.staged)) ++
  [(2, 0, s.get .regu 0 F.REGU_ENERGY_ENERGY_SLOTS, reservedSlots s.staged)] ++
  (List.range 8).map (fun c => (3, c, s.classBytes c, 64 * s.rs F.REGU_RD_RD_LINES c)) ++
  (List.range 8).map (fun c => (4, c, s.classBytes c, 64 * s.rs F.REGU_WR_WR_LINES c))
/-- Ratio of a test in 1/4,096, rounded down and at most 4,096. -/
def ratio4096 (cap dem : Nat) : Nat := if dem = 0 then 4096 else min 4096 (cap * 4096 / dem)
/-- The shortfall of a failed test: whole lines for the byte tests 3 and 4, else the unit of the test. -/
def shortOf (x : Nat × Nat × Nat × Nat) : Nat :=
  if 3 ≤ x.1 then (x.2.2.2 - x.2.2.1 + 63) / 64 else x.2.2.2 - x.2.2.1

/-- Result of a REGU commit (R420 to R425): code, DETAIL, shortfall, COMMIT_SCALE, HOT_SCALE. -/
def State.reguCheck (s : State) : Nat × Nat × Nat × Nat × Nat :=
  let caps := ((List.range 8).filter (fun c => s.rs F.REGU_CLASS_CFG_PRIV c = 1)).map (fun c => s.rs F.REGU_CLASS_CFG_OT_CAP c)
  let bad := caps.any (fun x => x = 0 || 768 < x) || decide (768 < caps.sum) ||
    (List.range 8).any (fun c => s.rs F.REGU_CLASS_CFG_TARGET c = 0) ||
    (s.rs F.REGU_CTL_HOLD_EN = 1 && s.rs F.REGU_CTL_HOLD_MAX = 0)
  if bad then (1, 0, 0, 4096, 4096)
  else
    let dem := stripeDemand s.staged
    let hot := ((List.range 8).map (fun k => ratio4096 (s.availOf k true) dem)).foldl min 4096
    let fails := s.capChecks.filter (fun x => x.2.2.1 < x.2.2.2)
    match fails with
    | [] => (0, 0, 0, 4096, hot)
    | x :: _ =>
      let short := shortOf x
      let detail := x.1 + 16 * x.2.1 + 128 * min 0x1FFFF short
      if s.rs F.REGU_CTL_OVERRIDE = 1 then (3, detail, short, max 1 ((fails.map (fun y => ratio4096 y.2.2.1 y.2.2.2)).foldl min 4096), hot)
      else (2, detail, short, 4096, 4096)

end Sys2Proof.Machine
end

