-- ==== Sys2Proof/Machine/Dir.lean ====
section
/-! DEFINITION. The directory (R306 to R313), its victim buffer, census and lookup; internal caches and the contention predictor
(R319, R326, R327); back-invalidate snoops and who waits for their answers (R283, R314). -/

namespace Sys2Proof.Machine

/-- Home-local line number (R307). -/
def hlOf (page line : Nat) : Nat := page / 2 * 64 + line
/-- The page a home-local line number names at a home. -/
def pageOfHl (slab hl : Nat) : Nat := 2 * (hl / 64) + (slab + homeOf (2 * (hl / 64))) % 2
/-- Set of a line (R309). -/
def dirSetOf (hl : Nat) : Nat := bits hl 0 18 ^^^ bits hl 18 16
/-- Tag of a line (R309). -/
def dirTagOf (hl : Nat) : Nat := bits hl 18 16
/-- Key of a way; the directory of a home is kept apart from that which its Slab serves as acting home. -/
def dirKey (slab set way : Nat) : Nat := 4194304 * slab + 16 * set + way
/-- An entry whose HSTATE and ISTATE are zero is free (R309). -/
def DirEnt.unused (e : DirEnt) : Bool := e.hst = .i && e.ist = .i
/-- Census region of a page (R308). -/
def regionOf (page : Nat) : Nat := page / 2 / 512

/-- Is an attach point departed, or viral and about to depart (R288, R332)? -/
def State.gone (s : State) (a : Nat) : Bool := s.viral a || a ∈ s.home.departNext || s.home.departing.any (fun x => x.1 = a)
/-- A lookup treats the HOSTS bit of a departed attach point as 0 (R332). -/
def State.maskEnt (s : State) (e : DirEnt) : DirEnt :=
  let h := (List.range 16).foldl (fun h a => if s.gone a then setBit h a false else h) e.hosts
  { e with hosts := h, hst := if h = 0 then .i else e.hst }
/-- Way that holds a line. -/
def State.dirWay (s : State) (slab hl : Nat) : Option Nat :=
  (List.range 16).find? (fun w =>
    let e := sget {} s.home.dir (dirKey slab (dirSetOf hl) w)
    !e.unused && e.tag = dirTagOf hl)
/-- Directory entry of a line as stored. -/
def State.rawDir (s : State) (page line : Nat) : DirEnt := match s.dirWay (homeOf page) (hlOf page line) with
  | some w => sget {} s.home.dir (dirKey (homeOf page) (dirSetOf (hlOf page line)) w)
  | none => {}
/-- Directory entry of a line as a lookup sees it. -/
def State.dirOf (s : State) (page line : Nat) : DirEnt := s.maskEnt (s.rawDir page line)
/-- The line's entry in the victim buffer (R312). -/
def State.victimEnt (s : State) (page line : Nat) : Option Victim :=
  s.home.victims.find? (fun v => v.slab = homeOf page && v.hl = hlOf page line)
/-- Update a set's tree bits on a hit or an allocation (R312, R342). -/
def State.dirTouch (s : State) (slab set way : Nat) : State :=
  let k := 262144 * slab + set
  { s with home := { s.home with plru := sset 0 s.home.plru k (plruTouch (sget 0 s.home.plru k) way) } }
/-- A lookup that hits updates the tree bits. -/
def State.dirHit (s : State) (page line : Nat) : State := match s.dirWay (homeOf page) (hlOf page line) with
  | some w => s.dirTouch (homeOf page) (dirSetOf (hlOf page line)) w
  | none => s
/-- Write a way. -/
def State.setWay (s : State) (slab set way : Nat) (e : DirEnt) : State :=
  { s with home := { s.home with dir := sset {} s.home.dir (dirKey slab set way) (if e.unused then {} else e) } }
/-- Census of a region (R308): its valid entries, victims included. -/
def State.census (s : State) (slab region : Nat) : Nat :=
  (s.home.dir.filter (fun x => x.1 / 4194304 = slab && (x.2.tag * 2 ^ 18 + (x.1 / 16 % 262144 ^^^ x.2.tag)) / 32768 = region)).length +
  (s.home.victims.filter (fun v => v.slab = slab && v.hl / 32768 = region)).length
/-- Line a way's entry names. -/
def wayHl (set : Nat) (e : DirEnt) : Nat := e.tag * 2 ^ 18 + (set ^^^ e.tag)

/-! ### Holders -/

/-- Group of an internal owner (R309). -/
def groupOf (o : Nat) : Nat := if o < 16 then o / 4 else o - 12
/-- Owners of a group. -/
def ownersOf (g : Nat) : List Nat := if g < 4 then (List.range 4).map (· + 4 * g) else [g + 12]
/-- Hosts an entry names. -/
def hostsOf (e : DirEnt) : List Nat := (List.range 16).filter (fun a => e.hosts.testBit a)
/-- Does an internal owner hold the line dirty? -/
def DirEnt.dirty (e : DirEnt) : Bool := e.ist = .m || e.ist = .o
/-- Internal holders an entry names: the owner, then the groups. -/
def intHolders (e : DirEnt) : List Holder :=
  (if e.ist = .e || e.dirty then [Holder.owner e.iowner] else []) ++
  ((List.range 6).filter (fun g => e.ishare.testBit g)).map Holder.group

/-- Line an internal cache holds. -/
def State.icLine (s : State) (o page line : Nat) : Option ICLine :=
  s.home.icache.find? (fun c => c.owner = o && c.page = page && c.line = line)
/-- Drop a line of an internal cache. -/
def State.icDrop (s : State) (o page line : Nat) : State :=
  { s with home := { s.home with icache := s.home.icache.filter (fun c => !(c.owner = o && c.page = page && c.line = line)) } }
/-- Put a line into an internal cache. -/
def State.icPut (s : State) (c : ICLine) : State :=
  let t := s.icDrop c.owner c.page c.line
  { t with home := { t.home with icache := t.home.icache ++ [c] } }

/-! ### Contention predictor (R326, R327) -/

/-- Index of a line. -/
def predIndex (page line : Nat) : Nat :=
  let x := page * 64 + line
  bits (x ^^^ (x / 2 ^ 12) ^^^ (x / 2 ^ 24)) 0 12
/-- Counter of a line in an engine's Slab. -/
def State.predAt (s : State) (slab page line : Nat) : Nat := sget 0 s.home.pred (4096 * slab + predIndex page line)
/-- Change a counter, saturating at 0 and 7. -/
def State.predAdd (s : State) (slab page line up down : Nat) : State :=
  { s with home := { s.home with pred := sset 0 s.home.pred (4096 * slab + predIndex page line) (min 7 (s.predAt slab page line + up) - down) } }
/-- A near line leaves an engine's cache, by a recall or by itself (R327). -/
def State.nearLeaves (s : State) (c : ICLine) (recalled : Bool) : State :=
  if c.owner < 16 && c.dirty then
    let sl := c.owner / 8
    let nm := s.get .home (s.homeSlab c.page) F.HOME_CTL_NEAR_MIN
    if nm ≤ c.updates then s.predAdd sl c.page c.line 0 1
    else if recalled then s.predAdd sl c.page c.line 2 0
    else s
  else s

/-! ### Snoops (R283, R314) -/

/-- Snoops outstanding to an attach point. -/
def State.snoopsOut (s : State) (a : Nat) : Nat :=
  ((s.home.waiting.filter (fun w => Holder.host a ∈ w.awaiting && !(a ∈ w.unsent)))).length
/-- Send one snoop, or leave it to wait for one of the 64. -/
def State.snoopHost (s : State) (w : Waiting) (a : Nat) : Waiting × State :=
  if s.snoopsOut a < 64 then
    (w, (s.bump .home (s.homeSlab w.req.page) F.HOME_BISNP_SENT_COUNT).emit (.snoop a w.req.page w.req.line w.snp))
  else ({ w with unsent := w.unsent ++ [a] }, s)
/-- Hold a line for its recalls: snoops to hosts, invalidations to internal holders. -/
def State.startRecall (s : State) (w : Waiting) : State :=
  let r := w.awaiting.foldl (fun (acc : Waiting × State) h => match h with
    | .host a => acc.2.snoopHost acc.1 a
    | h => (acc.1, acc.2.emit (.inval h w.req.page w.req.line))) (w, s)
  { r.2 with home := { r.2.home with waiting := r.2.home.waiting ++ [r.1] } }
/-- Send the snoops that wait for an attach point's limit, oldest first. -/
def State.sendUnsent (s : State) : State :=
  let r := s.home.waiting.foldl (fun (acc : List Waiting × State) w =>
      let x := w.unsent.foldl (fun (b : Waiting × State) a =>
        if b.2.snoopsOut a < 64 then
          ({ b.1 with unsent := b.1.unsent.filter (· ≠ a) },
            (b.2.bump .home (b.2.homeSlab w.req.page) F.HOME_BISNP_SENT_COUNT).emit (.snoop a w.req.page w.req.line w.snp))
        else b) (w, acc.2)
      (acc.1 ++ [x.1], x.2)) ([], s)
  { r.2 with home := { r.2.home with waiting := r.1 } }

/-! ### Allocation and victims (R310, R312, R313) -/

/-- Victim classes of R312. -/
def victimClass (e : DirEnt) : Nat := if e.hst = .i && e.ist = .s then 1 else if e.hst = .s then 2 else 3
/-- Is there a way for a new entry, or room in the victim buffer for an old one? -/
def State.dirRoom (s : State) (page line : Nat) : Bool :=
  let slab := homeOf page
  (s.dirWay slab (hlOf page line)).isSome ||
  (List.range 16).any (fun w => (sget {} s.home.dir (dirKey slab (dirSetOf (hlOf page line)) w)).unused) ||
  decide ((s.home.victims.filter (fun v => v.slab = slab)).length < 1024)

/-- Move a way's entry to the victim buffer and recall every copy it names. -/
def State.evict (s : State) (slab set way : Nat) : State :=
  let e0 := sget {} s.home.dir (dirKey slab set way)
  let e := s.maskEnt e0
  let hl := wayHl set e0
  let s1 := (s.bump .home slab F.HOME_DIR_EVICT_COUNT).setWay slab set way {}
  let hold := (hostsOf e).map Holder.host ++ intHolders e
  if hold.isEmpty then s1
  else
    let s2 := { s1 with home := { s1.home with victims := s1.home.victims ++ ([{ slab := slab, hl := hl, ent := e }] : List Victim) } }
    s2.startRecall { req := { id := 0, kind := .discard, who := .mgmt slab, page := pageOfHl slab hl, line := hl % 64 }
                     awaiting := hold, snp := .inv, victim := true }

/-- Write a line's directory entry: in its way, in a free way, or in the way of a victim. A free entry leaves. -/
def State.dirPut (s : State) (page line : Nat) (e : DirEnt) : State :=
  let slab := homeOf page
  let hl := hlOf page line
  let set := dirSetOf hl
  let e1 := { e with tag := dirTagOf hl, iowner := if e.ist = .e || e.dirty then e.iowner else 31 }
  match s.dirWay slab hl with
  | some w => (s.setWay slab set w e1)
  | none =>
    if e.unused then s else
    match (List.range 16).find? (fun w => (sget {} s.home.dir (dirKey slab set w)).unused) with
    | some w => (s.setWay slab set w e1).dirTouch slab set w
    | none =>
      let ents := (List.range 16).map (fun w => s.maskEnt (sget {} s.home.dir (dirKey slab set w)))
      let cls (c : Nat) : List Nat := (List.range 16).filter (fun w => victimClass (ents.getD w {}) = c)
      let ways := if (cls 1).isEmpty then (if (cls 2).isEmpty then cls 3 else cls 2) else cls 1
      let w := plruWalk (sget 0 s.home.plru (262144 * slab + set)) ways
      ((s.evict slab set w).setWay slab set w e1).dirTouch slab set w

/-! ### Figures -/

/-- Trackers in use at a home, and those of the reserved share (R330). -/
def State.trackers (s : State) (slab : Nat) : Nat × Nat :=
  let rs := (s.home.reads.filter (fun r => r.st ≠ .ready)).map (fun r => r.req) ++
    (s.home.waiting.filter (fun w => !w.victim)).map (fun w => w.req) ++ s.home.queue
  let mine := rs.filter (fun r => s.homeSlab r.page = slab)
  (mine.length, (mine.filter (fun r => r.admitted && (r.kind = .read || r.kind = .readS || r.kind = .readA))).length)

end Sys2Proof.Machine
end

