-- ==== Sys2Proof/Machine/Lanes.lean ====
section
/-! DEFINITION. The codec lanes (R164, R169, R172, R173): which work waits for a lane, which lane runs it. -/

namespace Sys2Proof.Machine

/-! ### Codec lanes (R164, R172, R173) -/

/-- Work number of a page's encode, of the decode of its image for a move to hot, and of its run-ahead fill; a read's decode has the read's own. -/
def encodeId (page : Nat) : Nat := 2 ^ 32 + page
def moveId (page : Nat) : Nat := 2 ^ 33 + page
def aheadId (page : Nat) : Nat := 2 ^ 34 + page
/-- Lane work, best first: lower level, then earlier stamp. -/
def workBefore (a b : LaneWork) : Bool := a.level < b.level || (a.level = b.level && strokeLe a.stamp b.stamp && a.stamp ≠ b.stamp)
/-- Best work of a list. -/
def bestWork : List (Nat × LaneWork) → Option (Nat × LaneWork)
  | [] => none
  | x :: r => match bestWork r with
    | none => some x
    | some y => if workBefore y.2 x.2 then some y else some x
/-- Encode effort in force (R169). -/
def State.effortNow (s : State) (slab : Nat) (fg : Bool) : Nat :=
  if fg then 0 else min (s.get .codc slab F.CODC_CTL_EFFORT_MAX) (s.get .codc slab F.CODC_EFFORT_GRANTED)
/-- Give a lane to the waiting work of highest precedence; an encode takes the effort of this Sitting (R169). -/
def State.grantLane (s : State) (slab n : Nat) : State :=
  if (sget none s.codec.lanes (16 * slab + n)).isSome then s else
  let can (x : Nat × LaneWork) : Bool := x.1 = slab && (8 ≤ n || !x.2.offload)
  match bestWork (s.codec.waiting.filter can) with
  | none => s
  | some x =>
    let s1 := { s with codec := { s.codec with lanes := sset none s.codec.lanes (16 * slab + n) (some x.2)
                                               waiting := s.codec.waiting.erase x } }
    let s2 := if 8 ≤ n && !x.2.offload && s1.codec.waiting.any (fun y => y.1 = slab && y.2.offload) then
        (s1.put .codc slab F.CODC_LANE_STATUS_OFLD_LOST 1).lostArb .ofld slab
      else s1
    if 2 ^ 32 ≤ x.2.id && x.2.id < 2 ^ 33 then
      match s2.moveOf (x.2.id - 2 ^ 32) with
      | some m => s2.setMove { m with effort := if m.kind = .deepToDeep then s2.get .codc slab F.CODC_CTL_RECOMP_EFFORT else s2.effortNow slab m.fg }
      | none => s2
    else s2
/-- Give every free lane of a Slab work, in-line lanes first; while the lanes are reset the work waits (R70). -/
def State.grantLanes (s : State) (slab : Nat) : State := if s.blockClosed .codc slab then s else s.forN 16 (fun t n => t.grantLane slab n)
/-- Ask for a lane. -/
def State.askLane (s : State) (slab : Nat) (w : LaneWork) : State :=
  ({ s with codec := { s.codec with waiting := s.codec.waiting ++ [(slab, w)] } }).grantLanes slab
/-- A lane ends its work and goes to the work that waits. -/
def State.freeLane (s : State) (slab n : Nat) : State :=
  ({ s with codec := { s.codec with lanes := sset none s.codec.lanes (16 * slab + n) none } }).grantLanes slab
/-- Does a Slab's codec hold a work, on a lane or waiting for one? -/
def State.laneHas (s : State) (slab id : Nat) : Bool :=
  s.codec.waiting.any (fun w => w.1 = slab && !w.2.offload && w.2.id = id) ||
  (List.range 16).any (fun n => (sget none s.codec.lanes (16 * slab + n)).any (fun w => w.id = id && !w.offload))
/-- Lane of a Slab that runs a work. -/
def State.laneOf (s : State) (slab id : Nat) (offload : Bool) : Option Nat :=
  (List.range 16).find? (fun n => (sget none s.codec.lanes (16 * slab + n)).any (fun w => w.id = id && w.offload = offload))

end Sys2Proof.Machine
end

