-- ==== Sys2Proof/Machine/Place.lean ====
section
/-! DEFINITION. Where writes go (R29 to R31, R105, R117, R222): hot writes and read-modify-writes (R263), frames, row buffers (R102,
R109), demotion sweeps (R110), moves and entry flips (R97, R105 to R107). -/

namespace Sys2Proof.Machine

/-! ### Who asks -/

/-- Agent code of a requester (R71); hardware blocks are 0x40 plus their BLOCK_ID. -/
def agentOf : Requester → Nat
  | .host a => 0x10 + a
  | .engine _ => 0x40 + Block.qeng.id
  | .mgmt s => 1 + s
  | .codec _ => 0x40 + Block.ofld.id
  | .mover _ => 0x40 + Block.tier.id
  | .resync _ => 0x40 + Block.dipt.id
  | .scrub _ => 0x40 + Block.dprt.id
  | .secp s => 3 + s
/-- Attach point of a request, if a host sent it. -/
def HReq.attach (r : HReq) : Option Nat := match r.who with
  | .host a => some a
  | _ => none
/-- Is it a host read? -/
def ReqKind.isRead (k : ReqKind) : Bool := k = .read || k = .readS || k = .readA
/-- Order number of a requester (R328): attach points, engines, the management processor, the codec, the mover, the copier, the scrubber. -/
def Requester.num : Requester → Nat
  | .host a => a
  | .engine q => 16 + q
  | .mgmt _ => 32
  | .secp _ => 33
  | .codec _ => 34
  | .mover _ => 35
  | .resync _ => 36
  | .scrub _ => 37

/-- Did the flip mask cause what is found at a line (R208, R270)? One at the CRC stage changed the page's whole image. -/
def State.checkerAt (s : State) (page line : Nat) : Bool :=
  (List.range 2).any (fun n => s.bit .dprt n F.DPRT_FLIP_CTL_FIRED && s.get .dprt n F.DPRT_FLIP_PAGE_PAGE = page &&
    (s.get .dprt n F.DPRT_FLIP_CTL_STAGE = 2 || s.get .dprt n F.DPRT_FLIP_CTL_LINE = line))
/-- An alarm that a request's line raises at its home (R269, R270). -/
def State.lineAlarm (s : State) (cls : Nat) (r : HReq) (line : Nat) (media : Nat := 0) : State :=
  s.alarm (s.homeSlab r.page) cls
    { cls := cls, stamp := r.stamp, ctx := r.ctx, page := r.page, line := line, agent := agentOf r.who, media := media
      checker := s.checkerAt r.page line, viral := decide (cls = 2) }
/-- An L1 memory-uncorrectable record for a page's line (R198, R547). -/
def State.memFault (s : State) (page line poison : Nat) : State :=
  s.fault .dprt (s.homeSlab page) 0x01 { cls := 1, page := page, line := line, lineValid := true, poison := poison
                                         checker := s.checkerAt page line }

/-! ### Levels and deadlines (R143, R145, R417) -/

/-- Latency target of a class. -/
def State.target (s : State) (c : Option Nat) : Nat := s.get .regu 0 F.REGU_CLASS_CFG_TARGET (c.getD 0)
/-- Is an attach point in panic at a Vein? -/
def State.inPanic (s : State) (v : Nat) (r : HReq) : Bool := match r.attach with
  | some a => a ∈ (sget {} s.veins v).panic
  | none => false
/-- Precedence level of a request at a Vein. -/
def State.levelAt (s : State) (v : Nat) (r : HReq) (write : Bool) : Nat := match r.who with
  | .host _ => if r.admitted then (if write then 3 else 2) else if s.inPanic v r then 4 else 6
  | .engine _ => 5
  | .mgmt _ => 6
  | .secp _ => 6
  | _ => 7
/-- Strokes added to the stamp for its deadline: the bound of an admitted read, TARGET, 8 for a management processor; a query engine's request and
other internal work, to which no rule gives a deadline, take their own stamp (DESIGN CHOICE, log entry 143). -/
def State.allow (s : State) (r : HReq) (write : Bool) : Nat := match r.who with
  | .host _ => if r.admitted && !write then (if r.hotBound then 2 else 1) else s.target r.cls
  | .mgmt _ => 8
  | .secp _ => 8
  | _ => 0
/-- Queue entry of a request at a channel. -/
def State.acc (s : State) (r : HReq) (v o : Nat) (write : Bool) : VAcc :=
  { vein := v, ofs := o, level := s.levelAt v r write, write := write, deadline := r.stamp + BitVec.ofNat 48 (s.allow r write)
    stamp := r.stamp, who := r.who.num, admitted := r.admitted
    engine := match r.who with
      | .engine q => some q
      | _ => none
    id := r.id, hint := if r.hint = 3 then 0 else r.hint }
/-- Queue entry of a write of a hot line. -/
def State.hotWriteAcc (s : State) (r : HReq) (v f : Nat) : VAcc :=
  { s.acc r v (s.hotOfs v f r.line) true with key := some (s.hotKey v f r.line) }
/-- A line that a request fetches to change or to copy it, at the precedence of its writes. -/
def State.fetchAcc (s : State) (r : HReq) (v o n : Nat) : State :=
  if n = 0 then s else s.enqueue { s.acc r v o true with write := false, id := 0, count := n }

/-! ### Completions -/

/-- Highest congestion state of some Veins (R148). -/
def State.congestion (s : State) (vs : List Nat) : Nat := (vs.map (fun v => s.get .vein v F.VEIN_STATUS_CONGESTION)).foldl max 0
/-- DevLoad of a response to an attach point (R289): the Veins that served it, all sixteen when none did, and its class's load; with 4 added where
its flit carries the viral indication (R288). -/
def State.devLoad (s : State) (who : Requester) (cls : Option Nat) (vs : List Nat) : Nat := match who with
  | .host a =>
    (if s.viral a then 4 else 0) + if s.bit .port (portOf a) F.PORT_CFG_DEVLOAD_EN then
      max (s.congestion (if vs.isEmpty then List.range 16 else vs)) (match cls with
        | some c => s.get .regu 0 F.REGU_LOAD_LOAD c
        | none => 0)
    else 0
  | _ => 0
/-- Tell a requester that its request is done: 0 done, 1 refused. A mailbox command is answered by its mailbox. -/
def State.doneTo (s : State) (r : HReq) (result : Nat := 0) (vs : List Nat := []) : State :=
  if r.kind = .inject || r.kind = .clearP then s.emit (.answer ((r.attach).getD 16) 0 [])
  else s.emit (.done r.who r.id result (s.devLoad r.who r.cls vs))
/-- Send the completions that writes to a page are owed (R117). -/
def State.tellOwed (s : State) (page : Nat) : State :=
  let t := (s.home.owed.filter (fun x => x.page = page)).foldl (fun u x => u.doneTo x) s
  { t with home := { t.home with owed := t.home.owed.filter (fun x => x.page ≠ page) } }
/-- Put a hot write into the write queues of its Veins: its completion leaves when every queue has taken it, and while a queue is full
the home holds it (R29, R143). -/
def State.queueWrite (s : State) (r : HReq) (k f : Nat) (tell : Bool) : State :=
  let accs := (s.writeVeins k).map (fun v => s.hotWriteAcc r v f)
  if accs.all (fun a => s.queued a.vein a.ofs true < 64) then
    let t := { s with vq := s.vq ++ accs }
    if tell then t.doneTo r 0 (s.writeVeins k) else t
  else { s with hub := { s.hub with wrHeld := s.hub.wrHeld ++ ([{ accs := accs, req := r, tell := tell }] : List HeldWrite) } }
/-- Writes held for room enter their queues in order as room appears. -/
def State.retryWrites (s : State) : State :=
  s.hub.wrHeld.foldl (fun t w =>
    if w.accs.all (fun a => t.queued a.vein a.ofs true < 64) then
      let u := { t with vq := t.vq ++ w.accs, hub := { t.hub with wrHeld := t.hub.wrHeld.filter (· ≠ w) } }
      if w.tell then u.doneTo w.req 0 (w.accs.map (fun a => a.vein)) else u
    else t) s

/-! ### The stored old line of a partial write (R31, R263) -/

/-- What stands under a partial write; `away`: the only copy that is not stale is on the absent Slab (R229). -/
inductive Old
  | data (l : Line)
  | marker (code : Nat)
  | macBad (marker : Bool)
  | lost
  | away
deriving DecidableEq, Repr

/-- Is a line under a counter-tree line whose loss is still being rebuilt (R265)? Position `p` of Diptych `k`. -/
def State.underLoss (s : State) (k p : Nat) : Bool :=
  s.crypto.losses.any (fun l => !l.ledger && l.dipt = k && p / 8 ^ l.level = l.index)
/-- Is a hot line lost (R261, R265)? -/
def State.lineLost (s : State) (k f i : Nat) : Bool := s.underLoss k f || (s.hotVer k f i).2 = 63

/-- Is an admitted read refresh-bound at a channel: its deadline falls before the channel reopens (R134)? From the cut-off of R133, phase
180, the slot of the next stroke counts. -/
def State.refreshBound (s : State) (v o : Nat) (r : HReq) : Bool :=
  let d := r.stamp + BitVec.ofNat 48 (s.allow r false)
  r.admitted && ((s.closed v o && strokeLe d s.now) ||
    (180 ≤ s.tb.phase && s.refreshes v o (s.now + 1) && strokeLe d (s.now + 1)))
/-- Copy of a hot line a read takes (R134, R201, R214): the partner of a copy for which it is refresh-bound, the one that is not on a retiring
channel, the side a stream hint names, else the shorter queue, then the home's Slab, then Vk. -/
def State.pickCopy (s : State) (k f : Nat) (r : HReq) : Option Nat :=
  let o (v : Nat) : Nat := s.hotOfs v f r.line
  match s.copies k f with
  | [] => none
  | [v] => some v
  | _ =>
    let open_ := [k, k + 8].filter (fun v => !s.refreshBound v (o v) r)
    let sound := [k, k + 8].filter (fun v => !(s.get .vein v F.VEIN_STATUS_CHAN_RETIRED).testBit (o v))
    if open_.length = 1 then open_.head?
    else if sound.length = 1 then sound.head?
    else if r.hint = 1 && s.bit .dipt k F.DIPT_CTL_STREAM_SPLIT then some (if r.line % 2 = 0 then k else k + 8)
    else
      let est (v : Nat) : Nat := s.queued v (o v) false + s.queued v (o v) true + (if s.closed v (o v) then 1000 else 0)
      if est k < est (k + 8) then some k
      else if est (k + 8) < est k then some (k + 8)
      else some (if s.homeSlab r.page = 0 then k else k + 8)

/-- Fetch and verify the old line of a hot page for a merge; a line in a write queue comes from there (R136). -/
def State.oldHot (s : State) (r : HReq) (k f : Nat) : Old × State :=
  let i := r.line
  let want := s.bindHot k f i r.page r.ctx 0
  let judge (g : Got) (t : State) : Old × State := match g with
    | .data x left => (if macOk x left want && !x.marker then .data x.sealedIn.plain else .macBad false, t)
    | .marker x left => (if macOk x left want then .marker (markerCode x) else .macBad true, t)
    | .lost => (.lost, t)
  if s.vlbZero k f i then (.data 0, s)
  else
    let h := s.hcLookup (s.homeSlab r.page) (hotName k f i)
    match h.1 with
    | some x =>
      let left := x.err.toNat % 2 ^ 512
      judge (if x.marker then .marker x left else .data x left) h.2
    | none => match s.pickCopy k f r with
      | none => (if (s.dipt k).st = .failed || s.boot.absent = [] then .lost else .away, h.2)
      | some v =>
        let key := s.hotKey v f i
        let e := r.err
        if h.2.vq.any (fun a => a.key = some key) then judge (if (s.stored key).marker then .marker (s.stored key) 0 else .data (s.stored key) 0) h.2
        else
          let g := (h.2.fetchAcc r v (s.hotOfs v f i) 1).fetchMac key r.page i (s.stored key)
            { idx := i, first := e.1, again := e.2.1, second := e.2.2.1, secondBad := e.2.2.2 } (s.partner v f i)
          judge g.1 g.2

/-- A write to a frame of which the governing side holds the stale copy: every line becomes a marker with code 0x02 before the write (R229). -/
def State.clearBehind (s : State) (k f page ctx : Nat) : State :=
  if f ∈ (s.dipt k).behind && (s.copies k f).isEmpty then
    (s.modDipt k (fun d => { d with behind := d.behind.filter (· ≠ f), mapDirty := addOnce d.mapDirty (f / 512) })).forN 64 (fun t i => (t.writeLine k f i page ctx 0 2).2)
  else s

/-- A write to a line of a hot frame takes effect (R29, R31, R207, R248, R263, R265); it queues its accesses. -/
def State.writeHot (s : State) (r : HReq) (k f : Nat) (tell : Bool) : State :=
  let s0 := (s.orderedWrite r.page r.line).clearBehind k f r.page r.ctx
  let put (t : State) (plain : Line) (poison : Nat) : State :=
    let x := t.writeLine k f r.line r.page r.ctx plain poison (r.kind = .inject)
    let u := if x.1 then x.2.charge r.cls r.stamp 80 else x.2
    u.queueWrite r k f tell
  if s.underLoss k f then
    if r.mask = fullMask || r.poison then
      { s0 with home := { s0.home with treeHeld := s0.home.treeHeld ++ [{ r with phase := if tell then 1 else 0 }] } }
    else if tell then s0.doneTo r else s0
  else if r.poison then put s0 0 (if r.kind = .marker then r.code else 8)
  else if r.mask = fullMask then put s0 r.data 0
  else if (s.hotVer k f r.line).2 = 63 then (if tell then s0.doneTo r else s0)
  else
    let s1 := s0.charge r.cls r.stamp 1
    let o := s1.oldHot r k f
    let partialPoison (t : State) (code : Nat) : State :=
      let u := t.fault .home (t.homeSlab r.page) 5 { cls := 5, page := r.page, line := r.line, lineValid := true, agent := agentOf r.who, poison := code }
      if tell then u.doneTo r else u
    match o.1 with
    | .data l => put o.2 (mergeLine l r.data r.mask) 0
    | .marker c => partialPoison o.2 c
    | .macBad m => (put o.2 0 5).lineAlarm (if m then 11 else 3) r r.line (hotName k f r.line)
    | .lost =>
      let t := (o.2.writeLine k f r.line r.page r.ctx 0 1).2
      partialPoison (t.memFault r.page r.line 1) 1
    | .away => partialPoison o.2 2

/-! ### The tier mover's row buffers (R102, R103, R109, R216) -/

/-- Data positions of a row an image may take. -/
def State.usable (s : State) (v r : Nat) : List Nat := (List.range 7).filter (fun q => !s.retiredPos v r q)
/-- Row buffer of a Vein. -/
def State.rowBuf (s : State) (v : Nat) : Option RowBuf := s.tier.rowBufs.find? (fun b => b.vein = v)
/-- Bytes [64l, 64l+64) of an image as a line; bytes beyond the image are zero. -/
def imageLine (im : List Byte) (n : Nat) : Line := lineOf (sliceB im (64 * n) 64)
/-- Mark which pages own the data positions of a row. -/
def State.setRow (s : State) (v r : Nat) (u : RowUse) : State :=
  { s with tier := { s.tier with rows := sset (List.replicate 7 none) s.tier.rows (rowId v r) u } }

/-- Account of a move (R485): a demotion below FREE_LOW and relocation are foreground, recompression and Spill have their own. -/
def moveAccount (m : Move) : Account := match m.kind with
  | .recallHot | .recallDeep | .spill => .spill
  | .deepToDeep => if m.recomp then .recomp else if m.fg then .fg else .migr
  | _ => if m.fg then .fg else .migr
/-- Cost of the part of a move that its start admits (R629): what it reads, and for a move to hot the frame it writes. -/
def moveCost (m : Move) (g : Nat) : List (Nat × Nat) := match m.kind with
  | .demote => [(1, 64), (3, 64)]
  | .promote => if m.src = .plain then [(1, 192), (3, 128)] else [(1, 8 * g + 128), (3, 8 * g + 64), (4, 4)]
  | .recallHot => [(1, 128), (3, 8 * g + 64), (4, if g = 8 then 0 else 4)]
  | .recallDeep => [(3, 8 * g)]
  | .spill => [(1, 8 * g), (3, 16 * g)]
  | .deepToDeep => [(1, 8 * g), (3, 8 * g), (4, if m.src = .plain then 0 else 4)]
/-- Admit a move while its grant is unspent, and charge it; else it waits (R170, R492). -/
def State.admitMove (s : State) (m : Move) : Move × State :=
  if m.paid then (m, s)
  else if s.grantLeft (moveAccount m) then
    ({ m with paid := true }, s.spend (moveAccount m) (moveCost m ((s.entry m.page).gm1 + 1)))
  else (m, s)

/-- Granules of a Vein that already hold part of a move's new image. -/
def State.newGranules (s : State) (m : Move) : List Nat :=
  let e := s.entry m.page
  let old := if (m.src = .deep || m.src = .plain) && e.vein = m.vein then s.granulesOf e m.page else []
  ((List.range ((m.image.length + 511) / 512 + 7)).map (m.loc + ·)).filter (fun g =>
    (s.rowUse m.vein (g / 7)).getD (g % 7) none = some m.page && !(g ∈ old))
/-- Take a page's new granules out of the row buffers: they become padding, and those already written are freed (R105). -/
def State.dropBuffered (s : State) (page : Nat) : State :=
  let t : State := { s with tier := { s.tier with rowBufs := s.tier.rowBufs.map (fun (b : RowBuf) =>
      { b with slots := b.slots.map (fun x => if x.1 = page then (noPage, 0) else x) }) } }
  match t.moveOf page with
  | some m =>
    if m.encoded && m.kind ≠ .promote then
      (s.newGranules m).foldl (fun u g => u.setRow m.vein (g / 7) ((u.rowUse m.vein (g / 7)).set (g % 7) none)) t
    else t
  | none => t

/-- Give up an open row: its pages' images are to be placed again. -/
def State.dropRow (s : State) (b : RowBuf) : State :=
  let t := (b.slots.filter (fun x => x.1 ≠ noPage)).foldl (fun u x =>
    let w := u.dropBuffered x.1
    match w.moveOf x.1 with
    | some m => w.setMove { m with encoded := false, rowsWritten := false }
    | none => w) s
  { t with tier := { t.tier with rowBufs := t.tier.rowBufs.filter (fun x => x.vein ≠ b.vein) } }
/-- Rows opened before their Vein retired a channel are not written (R216). -/
def State.dropStaleRows (s : State) : State :=
  s.tier.rowBufs.foldl (fun t b => if b.ret = t.retOfs b.vein then t else t.dropRow b) s

/-- Write a row whole with its parity (R102, R196, R248): the row's version goes up, each page's lines are bound to it; padding is zero. -/
def State.writeRow (s0 : State) (b : RowBuf) : State :=
  let v := b.vein
  let r := b.row
  let s : State := { s0 with tier := { s0.tier with oldRows := s0.tier.oldRows.filter (· ≠ rowId v r) } }
  let s1 := s.bumpRow v r
  let at_ := (s.usable v r).zip b.slots
  let s2 := (List.range 7).foldl (fun t q =>
    match at_.find? (fun x => x.1 = q) with
    | none => t.forN 8 (fun u l => if t.retiredPos v r q then u else u.putStored (u.deepKey v (7 * r + q) l) {})
    | some x =>
      match t.moveOf x.2.1 with
      | none => t.forN 8 (fun u l => u.putStored (u.deepKey v (7 * r + q) l) {})
      | some m =>
        let ctx := (t.entry x.2.1).ctx
        t.forN 8 (fun u l =>
          let n := 8 * x.2.2 + l
          u.putStored (u.deepKey v (7 * r + q) l)
            { sealedIn := u.bindDeep m.vein m.loc (7 * r + q) n x.2.1 ctx (imageLine m.image n) })) s1
  let s3 := s2.forN 8 (fun t l => t.putStored (t.parityKey v r l) { parity := true })
  let owned (p : Nat) : Bool := p ≠ noPage && (s3.moveOf p).isSome
  let s4 := s3.setRow v r ((List.range 7).map (fun q => match at_.find? (fun x => x.1 = q) with
    | some x => if owned x.2.1 then some x.2.1 else none
    | none => none))
  let ends := (b.slots.getLast?).bind (fun x => s3.moveOf x.1)
  let pad := (s.usable v r).length - b.slots.length
  let s44 := s4.forN 8 (fun t o => if (t.get .vein v F.VEIN_STATUS_CHAN_RETIRED).testBit o then t else t.offer v o 35 8 true)
  let s45 := s44.spend ((ends.map moveAccount).getD .migr) [(1, 8 * (1 + pad))]
  let s5 := { s45 with tier := { s45.tier with rowBufs := s45.tier.rowBufs.filter (fun x => x.vein ≠ v) } }
  -- a page whose image has no granule left in a buffer is wholly written
  { s5 with tier := { s5.tier with moves := s5.tier.moves.map (fun m =>
      if m.encoded && b.slots.any (fun x => x.1 = m.page) && b.slots.any (fun x => x.1 = m.page && x.2 + 1 = (m.image.length + 511) / 512)
      then { m with rowsWritten := true } else m) } }

/-- Veins a new image may go to, each group in the order of the round-robin: those whose free rows exceed the compaction threshold, then the
others with a free or an open row (R109). -/
def State.outVeins (s : State) : List Nat :=
  let turn := ((List.range 16).map (fun i => (s.tier.rrVein + i) % 16)).filter s.veinOk
  let above (v : Nat) : Bool := s.ownRows v < 16 * s.freeRows v
  let okv := turn.filter (fun v => 0 < s.freeRows v || (s.rowBuf v).isSome)
  okv.filter above ++ okv.filter (fun v => !above v)

/-- Put one granule into the open row of its Vein; a full row is written. -/
def State.pushGranule (s : State) (v row page g : Nat) : State :=
  let b : RowBuf := (s.rowBuf v).getD { vein := v, row := row, first := s.now, ret := s.retOfs v }
  let b1 := { b with slots := b.slots ++ [(page, g)] }
  let t := { s with tier := { s.tier with rowBufs := s.tier.rowBufs.filter (fun x => x.vein ≠ v) ++ [b1] } }
  if b1.slots.length = (s.usable v b1.row).length then t.writeRow b1 else t

/-- Place an encoded image of a move in a Vein: the next positions of its open row and the rows that follow while they are free, else a new
start at the lowest-numbered free row (R102), for an image of two rows the lowest from which two are free (DESIGN CHOICE, log entry 135). None
where the Vein cannot take it. -/
def State.placeIn (s0 : State) (m : Move) (v : Nat) : Option State :=
    let s := s0.dropStaleRows
    let n := (m.image.length + 511) / 512
    let rr (t0 : State) : State :=
      let t := t0.spend (moveAccount m) [(1, 8 * n), (3, 8 * n)]
      { t with tier := { t.tier with rrVein := (v + 1) % 16 } }
    let push (t : State) (row0 : Nat) : State :=
      (List.range n).foldl (fun (acc : State × Nat) g =>
        let row := match acc.1.rowBuf v with
          | some b => b.row
          | none => acc.2
        (acc.1.pushGranule v row m.page g, row + 1)) (t, row0) |>.1
    let place (t : State) (row q : Nat) : State := push (rr (t.setMove { m with vein := v, loc := 7 * row + q, encoded := true })) row
    let fresh (t : State) : Option State := (t.lowRow v 1).bind (fun r0 =>
      if n ≤ (t.usable v r0).length then some (place t r0 ((t.usable v r0).headD 0))
      else (t.lowRow v 2).map (fun r1 => place t r1 ((t.usable v r1).headD 0)))
    match s.rowBuf v with
    | none => fresh s
    | some b =>
      let left := (s.usable v b.row).length - b.slots.length
      let q := (s.usable v b.row).getD b.slots.length 0
      if n ≤ left then some (place s b.row q)
      else if s.rowFree v (b.row + 1) && (n ≤ left + (s.usable v (b.row + 1)).length || s.rowFree v (b.row + 2)) then some (place s b.row q)
      else fresh (s.writeRow b)
/-- Place an encoded image in the first Vein that can take it; it waits while none can (R109). -/
def State.placeImage (s : State) (m : Move) : State := (s.outVeins.findSome? (s.placeIn m)).getD s

/-! ### Frames -/

/-- Diptych a frame allocation has left low: the HOT_LOW interrupt at the fall below FREE_LOW (R110). -/
def State.hotLow (s : State) (k : Nat) : Bool := s.freeFrames k < 256 * s.get .tier 0 F.TIER_FREE_FREE_LOW
/-- Pages that stand in frames of a Diptych, in frame order from a frame on. -/
def insByKey (x : Nat × Nat) : List (Nat × Nat) → List (Nat × Nat)
  | [] => [x]
  | y :: r => if x.1 ≤ y.1 then x :: y :: r else y :: insByKey x r
/-- Sort by the first number. -/
def sortByKey (l : List (Nat × Nat)) : List (Nat × Nat) := l.foldl (fun acc x => insByKey x acc) []
/-- Does a page hold a poisoned line (R171)? -/
def State.hasPoison (s : State) (page : Nat) : Bool := s.ports.poisonList.any (fun x => x.page = page)
/-- Demotions started from a Diptych that have not ended. -/
def State.demoting (s : State) (k : Nat) : Nat :=
  (s.tier.moves.filter (fun m => m.kind = .demote && (s.entry m.page).vein = k)).length

/-- Begin a demotion (R105, R107, R169, R323): the entry moves, every line a host holds in A is asked for by a non-allocating snoop, and
the encode asks for a lane; the page's lines are read when its encode ends. -/
def State.startDemote (s0 : State) (page : Nat) (fg : Bool) : State :=
  let x := s0.admitMove { page := page, kind := .demote, src := .hot, fg := fg }
  if !x.1.paid then s0 else
  let s := x.2
  let e := s.entry page
  let s1 := (s.setEntry page { e with st := .moving }).setMove x.1
  let s2 := s1.forN 64 (fun t i =>
    let d := t.dirOf page i
    if d.hst = .a then
      t.startRecall { req := { id := encodeId page, kind := .snoopRead, who := .mover (t.homeSlab page), page := page, line := i, ctx := e.ctx }
                      awaiting := (hostsOf d).map Holder.host, snp := .cur }
    else t)
  s2.askLane (s2.homeSlab page) { level := if fg then 2 else 4, stamp := s.now, id := encodeId page }

/-- One pass of a Diptych's demotion sweep (R110, R171): from the frame where it stands, unpinned pages at or below DEMOTE_THRESH go, others,
those with a poisoned line among them, cool by one; the sweep stops when free frames and demotions under way reach FREE_HIGH, and
waits at a page whose demotion finds no grant. -/
def State.sweep (s : State) (k : Nat) : State :=
  let hi := 256 * s.get .tier 0 F.TIER_FREE_FREE_HIGH
  let th := s.get .tier 0 F.TIER_HEAT_DEMOTE_THRESH
  let frames := sortByKey (s.tier.pmap.filterMap (fun x => if x.2.st = .hot && x.2.vein = k then some (x.2.loc, x.1) else none))
  let cur := sget 0 s.tier.sweeps k
  let order := frames.filter (fun x => cur ≤ x.1) ++ frames.filter (fun x => x.1 < cur)
  let r := order.foldl (fun (acc : State × Nat × Bool) x =>
      let t := acc.1
      if acc.2.2 then acc
      else if hi ≤ t.freeFrames k + t.demoting k then (t, acc.2.1, true)
      else
        let e := t.entry x.2
        let heat := t.decayed e
        if !e.pinned && heat ≤ th && !t.hasPoison x.2 then
          let u := t.startDemote x.2 (t.hotLow k)
          if (u.moveOf x.2).isSome then (u, x.1 + 1, false) else (t, x.1, true)
        else (t.setEntry x.2 { e with heat := heat - 1, epoch := epochOf t.now }, x.1 + 1, false)) (s, cur, false)
  let t : State := { r.1 with tier := { r.1.tier with sweeps := sset 0 r.1.tier.sweeps k r.2.1 } }
  if hi ≤ t.freeFrames k + t.demoting k then { t with tier := { t.tier with sweeping := t.tier.sweeping.filter (· ≠ k) } } else t
/-- Run a pass of a Diptych's sweep, now under way. -/
def State.sweepOn (s : State) (k : Nat) : State :=
  ({ s with tier := { s.tier with sweeping := s.tier.sweeping.filter (· ≠ k) ++ [k] } } : State).sweep k
/-- After an allocation, and at each stroke edge: HOT_LOW when the Diptych has fallen below FREE_LOW, and a pass of its sweep while that
has not stopped (R110). -/
def State.afterAlloc (s : State) (k : Nat) : State :=
  let was := decide (k ∈ s.tier.lowDipts)
  if s.hotLow k then
    let t := if was then s else ({ s with tier := { s.tier with lowDipts := s.tier.lowDipts ++ [k] } } : State).raise .tier 0 16
    t.sweepOn k
  else
    let t : State := { s with tier := { s.tier with lowDipts := s.tier.lowDipts.filter (· ≠ k) } }
    if k ∈ t.tier.sweeping then t.sweep k else t

/-- Is there no room at all for a write that needs a frame (R117)? -/
def State.noRoom (s : State) : Bool :=
  s.freeRowsAll = 0 && !(s.bit .tier 0 F.TIER_SPILL_TGT_VALID)
/-- Exhaustion is declared for a held write (R117); a write to a page whose time has run out has its own. -/
def State.declareFull (s : State) (page line : Nat) (stamp : Stroke) : State :=
  if s.tier.exhausted.any (fun x => x.1 = page && !x.2.2) then s
  else
    (({ s with tier := { s.tier with exhausted := s.tier.exhausted.filter (fun (x : Nat × Stroke × Bool) => x.1 ≠ page) ++ [(page, stamp, false)] } }.put .tier 0
      F.TIER_STATUS_EXHAUSTED 1).raise .tier 0 19).fault .tier 0 0x0A { cls := 0x0A, page := page, line := line, lineValid := true, poison := 7 }
/-- A write that finds no frame is held in the line buffer; with no room at all, exhaustion is declared (R117). -/
def State.holdForRoom (s : State) (r : HReq) (tell : Bool) : State :=
  let s0 := (s.orderedWrite r.page r.line).holdLine r.page r.line r.ctx r.data r.mask (if r.poison then 8 else 0)
  let s1 := if tell then { s0 with home := { s0.home with owed := s0.home.owed ++ [r] } } else s0
  if s.noRoom then s1.declareFull r.page r.line r.stamp else s1
/-- Pages whose held writes still need a frame: moves to hot without one, and zero pages with a write in the line buffer. -/
def State.needsFrame (s : State) (page : Nat) : Bool := (s.entry page).st = .zero || (match s.moveOf page with
  | some m => !m.hasFrame && (m.kind = .promote || m.kind = .recallHot)
  | none => false)
/-- At a stroke edge, writes that were held for a frame while there was room find none any more (R117). -/
def State.watchRoom (s : State) : State :=
  if !s.noRoom then s
  else (s.hub.slots.filter (fun x => !x.runahead && !x.lines.isEmpty && s.needsFrame x.page &&
      !(s.tier.exhausted.any (fun y => y.1 = x.page)))).foldl (fun t x =>
    let since : Stroke := match s.home.owed.find? (fun r => r.page = x.page), s.moveOf x.page with
      | some r, _ => r.stamp
      | none, some m => m.since
      | none, none => s.now
    t.declareFull x.page ((x.lines.map (fun h => h.line)).headD 0) since) s

/-- Does a move to hot decode an image: one of a deep page, or a coded one that a donor returned? -/
def Move.decodes (m : Move) : Bool := match m.kind with
  | .promote => m.src = .deep
  | .recallHot => !m.plain && !m.image.isEmpty
  | _ => false
/-- A move to hot that may proceed asks for the lane that decodes its image: level 2 for a write merge, else 3 (R172). -/
def State.askDecode (s : State) (page : Nat) : State := match s.moveOf page with
  | some m =>
    if m.paid && m.hasFrame && m.decodes && !m.decoded && !s.laneHas (s.homeSlab page) (moveId page) then
      let level := if m.write || (s.slotOf page).any (fun x => !x.lines.isEmpty) then 2 else 3
      s.askLane (s.homeSlab page) { level := level, stamp := m.since, id := moveId page }
    else s
  | none => s
/-- Give a move to hot its frame when one is free. -/
def State.takeFrame (s0 : State) (m0 : Move) : State :=
  if m0.hasFrame then s0 else
  let x := s0.admitMove m0
  let m := x.1
  let s := x.2.setMove m
  match s.findFrame m.page with
  | some (k, f) => ((s.setMove { m with dk := k, frame := f, hasFrame := true }).afterAlloc k).askDecode m.page
  | none => s.setMove m

/-- Ask for a spilled page back (R105, R468): SPILL_READ with RECALL. -/
def State.askRecall (s : State) (page : Nat) (e : PEntry) : State :=
  if s.ring.fetches.any (fun f => f.page = page && f.isRecall) || !((s.moveOf page).any (fun m => m.paid)) then s else
  let q := s.sendReq 0x14 e.donor (e.handle + 2 ^ 22)
  { q.2 with ring := { q.2.ring with fetches := q.2.ring.fetches ++
    ([{ page := page, tag := q.1, handle := e.handle, donor := e.donor, isRecall := true, stamp := s.now }] : List SpillFetch) } }

/-- Moves that waited for a grant are admitted while one is unspent (R492). -/
def State.payWaiting (s : State) : State :=
  (s.tier.moves.filter (fun m => !m.paid)).foldl (fun t m =>
    let x := t.admitMove m
    if !x.1.paid then t
    else
      let u := x.2.setMove x.1
      if m.src = .spilled then u.askRecall m.page { u.entry m.page with handle := m.handle, donor := m.donor } else u.askDecode m.page) s

/-- Begin a move to hot of a deep, plain or spilled page (R105). -/
def State.startPromote (s : State) (page : Nat) (since : Option Stroke := none) : State :=
  let e := s.entry page
  let t := since.getD s.now
  -- a recalled page's HEAT counts from zero
  let s1 := s.setEntry page (if e.st = .spilled then { e with st := .moving, heat := 0, epoch := epochOf s.now } else { e with st := .moving })
  if e.st = .spilled then
    ((s1.takeFrame { page := page, kind := .recallHot, src := .spilled, handle := e.handle, donor := e.donor, since := t, write := since.isSome })).askRecall page e
  else s1.takeFrame { page := page, kind := .promote, src := e.st, since := t, write := since.isSome }

/-- Fill a frame for a zero page with its first write (R29, R356): the line, and 63 zero lines. -/
def State.fillZero (s : State) (r : HReq) (k f : Nat) (lines : List HeldLine) : State :=
  let s1 := s.setEntry r.page { s.entry r.page with st := .hot, vein := k, loc := f, ctx := r.ctx, gm1 := 0 }
  let of (i : Nat) : Option HeldLine := lines.find? (fun h => h.line = i)
  let s2 := s1.writeFrame k f r.page r.ctx (fun i => match of i with
    | some h => if h.poison ≠ 0 then .poison h.poison else .plain (mergeLine 0 h.data h.mask)
    | none => .plain 0)
  (s2.vlbFrame k f r.page (fun i => (of i).isNone)).afterAlloc k

/-- A write to a page that moves to hot or waits for room: held in the home line buffer, complete at once (R29, R30). -/
def State.holdWrite (s : State) (r : HReq) (tell : Bool) : State :=
  let s0 := s.orderedWrite r.page r.line
  let s1 := s0.holdLine r.page r.line r.ctx r.data r.mask (if r.poison then (if r.kind = .marker then r.code else 8) else 0)
  if tell then s1.doneTo r else s1

/-- The same for a page whose move to hot may find no room at all (R117). -/
def State.holdMoving (s : State) (r : HReq) (tell : Bool) : State := match s.moveOf r.page with
  | some m => if !m.hasFrame && s.noRoom then s.holdForRoom r tell else s.holdWrite r tell
  | none => s.holdWrite r tell

/-- A demotion or a Spill that a write overtakes (R105, R107). -/
def State.abandon (s : State) (page : Nat) : State :=
  match s.moveOf page with
  | none => s
  | some m =>
    let e := s.entry page
    let s1 := s.dropBuffered page
    match m.kind with
    | .demote =>
      let t := (s1.dropMove page).setEntry page { e with st := .hot }
      if t.hotLow e.vein || (sfind t.tier.sweeps e.vein).isSome then t.sweepOn e.vein else t
    | .spill =>
      let t := { s1 with ring := { s1.ring with spills := s1.ring.spills.filter (fun x => x.page ≠ page) } }
      (t.dropMove page).takeFrame { page := page, kind := .promote, src := m.src }
    | .deepToDeep => (s1.dropMove page).takeFrame { page := page, kind := .promote, src := m.src }
    | .recallDeep => (s1.dropMove page).takeFrame { m with kind := .recallHot, encoded := false, rowsWritten := false }
    | _ => s

/-- The effect of a write ordered at the home, by where its page lies (R29, R105, R117, R222). `tell` asks for its completion. -/
def State.putWrite (s : State) (r : HReq) (tell : Bool) : State :=
  let fin (t : State) : State := if tell then t.doneTo r else t
  if s.tier.lostLines.contains (r.page / 8) then fin s
  else
    let e := s.entry r.page
    match e.st with
    | .unmapped => fin s
    | .zero =>
      if (s.slotOf r.page).isSome then s.holdForRoom r tell
      else match s.findFrame r.page with
        | some (k, f) =>
          let h : HeldLine := { line := r.line, data := r.data, mask := r.mask, poison := if r.poison then 8 else 0 }
          let t := ((s.orderedWrite r.page r.line).charge r.cls r.stamp 126).fillZero r k f [h]
          t.queueWrite r k f tell
        | none => (s.charge r.cls r.stamp 126).holdForRoom r tell
    | .hot => s.writeHot r e.vein e.loc tell
    | .deep | .plain => ((s.charge r.cls r.stamp (8 * (e.gm1 + 1) + 126)).startPromote r.page (some r.stamp)).holdMoving r tell
    | .spilled => ((s.charge r.cls r.stamp 126).startPromote r.page (some r.stamp)).holdMoving r tell
    | .moving =>
      let t := s.abandon r.page
      let e1 := t.entry r.page
      if e1.st = .hot then t.writeHot r e1.vein e1.loc tell
      else t.holdMoving r tell

/-- Writes that wait for a frame take those that have become free, oldest first (R117). -/
def State.useRoom (s : State) : State :=
  let s1 := s.tier.moves.foldl (fun t m =>
    if (m.kind = .promote || m.kind = .recallHot) && !m.hasFrame then
      let u := t.takeFrame m
      if (u.moveOf m.page).any (fun x => x.hasFrame) then u.tellOwed m.page else u
    else t) s
  let zero := s1.hub.slots.filter (fun x => !x.runahead && (s1.entry x.page).st = .zero)
  let s2 := zero.foldl (fun t x => match t.findFrame x.page with
    | none => t
    | some (k, f) =>
      ((t.fillZero { id := 0, kind := .write, who := .mover 0, page := x.page, ctx := x.ctx } k f x.lines).dropSlot x.page false).tellOwed x.page) s1
  let ex := s2.tier.exhausted.filter (fun x => s2.needsFrame x.1)
  ({ s2 with tier := { s2.tier with exhausted := ex } }).put .tier 0 F.TIER_STATUS_EXHAUSTED (b2n (!ex.isEmpty))

/-! ### Flips (R97, R106, R346) -/

/-- Flip a page's entry to a new location: Hub Cache lines and run-ahead slots of the old one go, old granules are freed. -/
def State.flip (s : State) (page : Nat) (e : PEntry) : State :=
  let old := s.entry page
  let src := s.srcState page
  let s1 := (s.hcInvalPage page old src).dropSlot page true
  let s2 := if (src = .deep || src = .plain) && !(old.vein = e.vein && (e.st = .deep || e.st = .plain)) then s1.freeGranules old.vein page
    else if src = .deep || src = .plain then
      -- a move within one Vein: only the old positions are freed
      (s1.granulesOf old page).foldl (fun t g => t.setRow old.vein (g / 7) ((t.rowUse old.vein (g / 7)).set (g % 7) none)) s1
    else s1
  ((s2.setEntry page e).dropMove page)

/-- Has a read in flight looked up a donor's copy (R106)? -/
def State.handleRead (s : State) (donor handle : Nat) : Bool :=
  s.home.reads.any (fun r => r.loc.st = .spilled && r.loc.donor = donor && r.loc.handle = handle && r.st ≠ .ready)
/-- Tell the donor to free a handle, and clear its ledger entry (R105, R266, R468). -/
def State.sendFree (s : State) (donor handle : Nat) : State :=
  (({ s with crypto := { s.crypto with ledgerUse := sset false s.crypto.ledgerUse handle false } }).dirtyTree 8 0 (handle / 8)).sendPlain 0x16 1 donor 0 handle

/-- Give a donor's copy up: it is freed once no read in flight looks at it (R106). -/
def State.freeHandle (s : State) (donor handle : Nat) : State :=
  if s.handleRead donor handle then { s with ring := { s.ring with freeing := s.ring.freeing ++ [(donor, handle)] } } else s.sendFree donor handle
/-- Copies given up whose last read has ended are freed. -/
def State.sendFrees (s : State) : State :=
  (s.ring.freeing.filter (fun x => !s.handleRead x.1 x.2)).foldl (fun t x =>
    { t with ring := { t.ring with freeing := t.ring.freeing.filter (· ≠ x) } }.sendFree x.1 x.2) s
/-- Discard a page to a state without media (R94, R105): zero or unmapped; a spilled page's handle is freed. Reads that were ordered before go
on to its old contents (R94, R106). What the spec leaves open of a discard: the page keeps PINNED and NO_SPILL, and HEAT goes to zero (DESIGN
CHOICE, log entry 136). -/
def State.erasePage (s : State) (page : Nat) (st : PState) : State :=
  let old := s.entry page
  let t := s.dropBuffered page
  let s0 := { t with ring := { t.ring with spills := t.ring.spills.filter (fun x => x.page ≠ page)
                                           fetches := t.ring.fetches.filter (fun x => x.page ≠ page || !x.isRecall) } }
  let s1 := s0.flip page { st := st, pinned := st = .zero && old.pinned, noSpill := st = .zero && old.noSpill }
  let s1 := if old.st = .spilled then s1.freeHandle old.donor old.handle
    else match s.moveOf page with
      | some m => if m.src = .spilled then s1.freeHandle m.donor m.handle else s1
      | none => s1
  let s2 := ((s1.dropSlot page false).dropSlot page true).unlistPoison page (fun _ => true)
  let s3 := s2.tellOwed page
  let ex : List (Nat × Stroke × Bool) := s3.tier.exhausted.filter (fun x => x.1 ≠ page)
  let s4 : State := { s3 with tier := { s3.tier with badImages := s3.tier.badImages.filter (· ≠ page), exhausted := ex } }
  if ex = s3.tier.exhausted then s4 else s4.put .tier 0 F.TIER_STATUS_EXHAUSTED (b2n (!ex.isEmpty))

end Sys2Proof.Machine
end

