-- ==== Sys2Proof/Machine/ReadPath.lean ====
section
/-! DEFINITION. How a read is served (R27, R30, R344): line buffer, run-ahead slot, Hub Cache, Vein, donor; codec lanes (R164, R172);
a read that is ready, and what a failed check does to a page (R163, R198, R260). -/

namespace Sys2Proof.Machine

/-! ### Reads in flight -/

/-- Replace a read in flight, or add it. -/
def State.putRd (s : State) (rd : Rd) : State :=
  if s.home.reads.any (fun x => x.req.id = rd.req.id) then
    { s with home := { s.home with reads := s.home.reads.map (fun x => if x.req.id = rd.req.id then rd else x) } }
  else { s with home := { s.home with reads := s.home.reads ++ [rd] } }
/-- Remove a read. -/
def State.dropRd (s : State) (id : Nat) : State := { s with home := { s.home with reads := s.home.reads.filter (fun x => x.req.id ≠ id) } }
/-- A read in flight by its number. -/
def State.rdOf (s : State) (id : Nat) : Option Rd := s.home.reads.find? (fun x => x.req.id = id)

/-- Data a read asked for is at hand: a host's waits for its egress; an internal requester has it at once, and a cache that took the line
holds it (R27 step 10, R319). -/
def State.ready (s : State) (rd0 : Rd) : State :=
  let d := match rd0.merge with
    | some h => mergeLine rd0.data h.data h.mask
    | none => rd0.data
  let rd := { rd0 with st := .ready, needs := [], data := if rd0.poison = 0 then d else 0 }
  let r := rd.req
  match r.who with
  | .host _ => s.putRd rd
  | who =>
    let s1 := (s.dropRd r.id).emit (.readData who r.id rd.data rd.poison 0)
    let own (o : Nat) : State := match r.kind with
      | .intX => s1.icPut { owner := o, page := r.page, line := r.line, dirty := true, data := mergeLine rd.data r.data r.mask, updates := 1, ctx := r.ctx }
      | .intUpg => s1.icPut { owner := o, page := r.page, line := r.line, dirty := true, data := mergeLine rd.data r.data r.mask, updates := 1, ctx := r.ctx }
      | .intS => s1.icPut { owner := o, page := r.page, line := r.line, data := rd.data, ctx := r.ctx }
      | _ => s1
    match who with
    | .engine q => own q
    | .mgmt m => own (16 + m)
    | _ => s1
/-- Return poison with a code. -/
def State.bad (s : State) (rd : Rd) (code : Nat) : State := s.ready { rd with poison := code }

/-- May a read's lines install in the Hub Cache (R343, R352)? -/
def State.mayFill (s : State) (r : HReq) : Bool :=
  let sl := s.homeSlab r.page
  let en := s.bit .hcac sl F.HCAC_CTL_FILL_EN
  !(s.partWays sl (s.ctx r.ctx).prot).isEmpty && r.kind ≠ .snoopRead && (match r.who with
    | .host _ => en
    | .mgmt _ => en
    | .secp _ => en
    | .engine _ => en && (r.hint ≠ 1 || s.bit .hcac sl F.HCAC_CTL_QE_ALLOC)
    | _ => false)
/-- Early release (R259). -/
def State.isEarly (s : State) (r : HReq) : Bool :=
  r.attach.isSome && s.bit .cryp (s.homeSlab r.page) F.CRYP_CTL_EARLY_EN && (s.ctx r.ctx).release

/-- Level of a read's decode (R172). The table names no read of an engine or a processor: it takes level 5 on an in-line lane (DESIGN CHOICE,
log 148). -/
def decodeLevel (r : HReq) : Nat := if r.attach.isSome then (if r.admitted then 1 else 4) else 5

/-! ### Pages whose image fails (R198, R260) -/

/-- Byte range of a sub-block's stream in an image. -/
def subRange (im : List Byte) (j : Nat) : Nat × Nat :=
  let d := strataDir im
  ((d.getD j (0, 0)).1, if j = 3 then fieldB im 2 2 % 8192 else (d.getD (j + 1) (0, 0)).1)
/-- Sub-blocks that image line `n` touches: all of them for the line that holds the header. -/
def touched (plain : Bool) (im : List Byte) (n : Nat) : List Nat :=
  if plain then [n / 16]
  else if n = 0 then [0, 1, 2, 3]
  else (List.range 4).filter (fun j =>
    let b := subRange im j
    b.1 < b.2 && b.1 < 64 * n + 64 && 64 * n < b.2)
/-- Page lines of the sub-blocks that bad image lines touch, each with the code of the first bad line that touches it. -/
def badLines (plain : Bool) (im : List Byte) (bads : List (Nat × Nat)) : List (Nat × Nat) :=
  (List.range 64).filterMap (fun i => (bads.find? (fun b => (i / 16) ∈ touched plain im b.1)).map (fun b => (i, b.2)))
/-- Send a deep or plain page to hot with lines that become markers (R198, R260, R261). -/
def State.promoteBad (s : State) (page : Nat) (bads : List (Nat × Nat)) : State :=
  let e := s.entry page
  if e.st = .deep || e.st = .plain then
    let t := s.startPromote page
    match t.moveOf page with
    | some m => t.setMove { m with bad := bads }
    | none => t
  else match s.moveOf page with
    | some m => s.setMove { m with bad := m.bad ++ bads.filter (fun b => !(m.bad.any (fun c => c.1 = b.1))) }
    | none => s

/-! ### Serving (R27, R344) -/

/-- Accesses of a deep line (R134): its own channel, or, for a refresh-bound read and for a line on a retiring channel (R214), the seven other
channels of its row while they are open (R138, R142). -/
def State.deepAccs (s : State) (r : HReq) (v o : Nat) : List VAcc :=
  let others := (List.range 8).filter (· ≠ o)
  if (s.refreshBound v o r || (s.get .vein v F.VEIN_STATUS_CHAN_RETIRED).testBit o) && others.all (fun x => !s.closed v x) then
    others.map (fun x => { s.acc r v x false with steer := true })
  else [s.acc r v o false]
/-- Queue the accesses of a deep read's lines, given by their channel offsets; a refresh-bound read is counted (R134, R151). -/
def State.queueDeep (s : State) (r : HReq) (v : Nat) (os : List Nat) : State :=
  let t := if os.any (fun o => s.refreshBound v o r) then s.bump .vein v F.VEIN_REBUILD_COUNT_COUNT else s
  (os.flatMap (fun o => s.deepAccs r v o)).foldl (fun u a => u.enqueue a) t

/-- Start a next-line prefetch after a host's miss of a hot line (R351). -/
def State.startPrefetch (s : State) (r : HReq) (k f : Nat) : State :=
  let sl := s.homeSlab r.page
  let n := r.line + 1
  let p := { r with line := n, hint := 2, admitted := false }
  if r.attach.isSome && r.line < 63 && s.bit .hcac sl F.HCAC_CTL_PREFETCH_EN && s.bit .hcac sl F.HCAC_CTL_FILL_EN &&
     (s.entry r.page).st = .hot && !s.hcHas sl (hotName k f n) && (s.heldLine r.page n).isNone &&
     !(s.partWays sl (s.ctx r.ctx).prot).isEmpty && !(s.hub.prefetch.any (fun x => x.2.1 = r.page && x.2.2.1 = n)) then
    match s.pickCopy k f p with
    | some v =>
      if s.get .vein v F.VEIN_STATUS_CONGESTION < 2 then
        let t := (s.bump .hcac sl F.HCAC_PREFETCH_ISSUED_COUNT)
        { t with hub := { t.hub with prefetch := t.hub.prefetch ++ [(sl, r.page, n, (s.ctx r.ctx).prot)]
                                     dirtied := t.hub.dirtied.filter (fun x => x ≠ (r.page, n)) } }.enqueue
          { s.acc p v (s.hotOfs v f n) false with level := 6 }
      else s
    | none => s
  else s

/-- What a verified or failed line gives a hot read: its data, its marker's code, or poison 0x04 with its alarm and marker. The flag asks
for a marker write. -/
def State.judgeHot (s : State) (rd : Rd) (x : Stored) (left : Nat) (want : Sealed) : Rd × State × Bool :=
  if macOk x left want then
    (if x.marker then { rd with poison := markerCode x } else { rd with data := x.sealedIn.plain }, s, false)
  else ({ rd with poison := 4 }, s.lineAlarm (if x.marker then 11 else 1) rd.req rd.req.line want.name, true)

/-- Does a line sit in a Vein write queue, or wait at the home for one (R136)? -/
def State.lineQueued (s : State) (key : Nat) : Bool :=
  s.vq.any (fun a => a.key = some key) || s.hub.wrHeld.any (fun w => w.accs.any (fun a => a.key = some key))
/-- Serve a read of a hot line: from the Hub Cache or a write queue without an access (R134, R136), else from a Vein, of which a refresh-bound
one's partner counts as steered to. The flag asks for a marker write. -/
def State.serveHot (s : State) (rd : Rd) (k f : Nat) : State × Bool :=
  let r := rd.req
  let i := r.line
  if s.lineLost k f i then (s.bad rd 6, false)
  else if s.vlbZero k f i then (s.ready { rd with data := 0 }, false)
  else
    let sl := s.homeSlab r.page
    let want := s.bindHot k f i r.page r.ctx 0
    let h := s.hcLookup sl (hotName k f i)
    match h.1 with
    | some x =>
      let j := h.2.judgeHot rd x (x.err.toNat % 2 ^ 512) want
      (j.2.1.ready j.1, j.2.2)
    | none =>
      let s1 := h.2
      match s1.pickCopy k f r with
      | none =>
        if (s1.dipt k).st = .failed || s1.boot.absent = [] then (s1.bad rd 1, false)
        else (s1.putRd { rd with st := .held, req := { r with unbound := true } }, false)
      | some v =>
        let key := s1.hotKey v f i
        if (s1.copies k f).any (fun u => s1.lineQueued (s1.hotKey u f i)) then
          let x := s1.stored key
          (s1.ready (if x.marker then { rd with poison := markerCode x } else { rd with data := x.sealedIn.plain }), false)
        else
        let s2 := s1
        let q := (v + 8) % 16
        let steer := q ∈ s2.copies k f && s2.refreshBound q (s2.hotOfs q f i) r
        let s3 := if steer then s2.bump .vein q F.VEIN_STEER_COUNT_COUNT else s2
        let s4 := s3.enqueue { s3.acc r v (s3.hotOfs v f i) false with steer := steer, hot := true }
        ((s4.putRd { rd with st := .media, vein := some v, fill := s.mayFill r, early := s.isEarly r, missed := true
                             needs := ([{ idx := i, key := key, snap := s4.stored key, want := want }] : List Need) }).startPrefetch r k f, false)

/-- Serve a read of a deep or plain page (R165, R348). -/
def State.serveDeep (s : State) (rd : Rd) : State :=
  let r := rd.req
  let e := rd.loc
  let v := e.vein
  let sl := s.homeSlab r.page
  let isPlain := e.st = .plain
  if !s.mediaIn (slabOfVein v) then s.putRd { rd with st := .held, req := { r with unbound := true } }
  else
    let gs := s.granulesOf e r.page
    let ns := if isPlain then [r.line] else List.range (8 * (e.gm1 + 1))
    if ns.any (fun n => s.rowLost v (gs.getD (n / 8) 0 / 7) || s.underLoss (v % 8) (s.hotH + gs.getD (n / 8) 0 / 7)) then
      let all := if isPlain then [(16 * (r.line / 16), 6)] else [(0, 6)]
      (s.bad rd 6).promoteBad r.page (badLines isPlain [] (all.map (fun b => (b.1, b.2))))
    else
      let looks := ns.foldl (fun (acc : List (Option Stored) × State) n =>
        let h := acc.2.hcLookup sl (deepName v e.loc n)
        (acc.1 ++ [h.1], h.2)) ([], s)
      let want (n : Nat) : Sealed := s.bindDeep v e.loc (gs.getD (n / 8) 0) n r.page r.ctx 0
      let hits := looks.1.filterMap id
      if looks.1.all (fun x => x.isSome) && (ns.zip hits).all (fun x => macOk x.2 0 (want x.1)) then
        if isPlain then looks.2.ready { rd with data := (hits.headD {}).sealedIn.plain }
        else
          (looks.2.putRd { rd with st := .decode, image := hits.flatMap (fun x => lineBytes x.sealedIn.plain) }).askLane sl
            { level := decodeLevel r, stamp := r.stamp, id := r.id }
      else
        let s1 := looks.2
        let s2 := if isPlain then s1 else s1.charge r.cls r.stamp (8 * (e.gm1 + 1) - 1)
        let needs : List Need := ns.map (fun n =>
          let key := s2.deepKey v (gs.getD (n / 8) 0) (n % 8)
          { idx := n, key := key, snap := s2.stored key, want := want n })
        let s3 := s2.queueDeep r v (ns.map (fun n => dataOfs (gs.getD (n / 8) 0 / 7) (gs.getD (n / 8) 0 % 7)))
        s3.putRd { rd with st := .media, vein := some v, fill := s.mayFill r, early := s.isEarly r, missed := true, needs := needs }

/-- Serve a read of a spilled page: forward it to the donor (R105, R115, R468). -/
def State.serveSpilled (s : State) (rd : Rd) : State :=
  let r := rd.req
  let e := rd.loc
  if sget 0 s.crypto.ledgerSeq e.handle = 0 || s.crypto.losses.any (fun l => l.ledger) then s.bad rd 6
  else
    let q := s.sendReq 0x14 e.donor e.handle
    let s1 := { q.2 with ring := { q.2.ring with fetches := q.2.ring.fetches ++
      ([{ page := r.page, tag := q.1, handle := e.handle, donor := e.donor, id := r.id, stamp := r.stamp }] : List SpillFetch) } }
    s1.putRd { rd with st := .donor }

/-- Serve a read by where its page lies, over a partial write held for the line. The flag asks for a marker write. -/
def State.serveMedia (s : State) (rd : Rd) : State × Bool :=
  let r := rd.req
  match (s.raSlot r.page).bind (fun x => x.lines.find? (fun h => h.line = r.line)) with
  | some h =>
    let x := s.raSlot r.page
    let s1 := match x with
      | some y => s.putSlot y
      | none => s
    ((s1.bump .hcac (s.homeSlab r.page) F.HCAC_RUNAHEAD_HITS_COUNT).ready { rd with data := h.data }, false)
  | none =>
    if r.page ∈ s.tier.badImages then (s.bad rd 9, false)
    else match rd.loc.st with
      | .zero => (s.ready { rd with data := 0 }, false)
      | .hot => s.serveHot rd rd.loc.vein rd.loc.loc
      | .deep | .plain => (s.serveDeep rd, false)
      | .spilled => (s.serveSpilled rd, false)
      | _ => (s.bad rd 0x0A, false)

/-- Serve a read that is ordered and permitted; `given` is a snooped or forwarded line. The flag asks for a marker write. -/
def State.serve (s : State) (r : HReq) (given : Option Line) : State × Bool :=
  let e := s.entry r.page
  let rd : Rd := { req := r, st := .ready, loc := { e with st := s.srcState r.page }, ws := s.wstampOf r.page }
  match given with
  | some d => (s.ready { rd with data := d }, false)
  | none =>
    if s.tier.lostLines.contains (r.page / 8) then (s.bad rd 1, false)
    else match s.heldLine r.page r.line with
      | some h =>
        if h.poison ≠ 0 then (s.bad rd h.poison, false)
        else if h.mask = fullMask then (s.ready { rd with data := h.data }, false)
        else s.serveMedia { rd with merge := some h }
      | none => s.serveMedia rd

/-! ### Media returns (R193, R198, R257, R260) -/

/-- Outcome of one stored line of a read. -/
inductive LineRes
  | good (l : Line) (x : Stored)
  | marker (code : Nat)
  | macBad (isMarker : Bool)
  | lost
deriving DecidableEq, Repr

/-- Fetch and verify one needed line. -/
def State.takeLine (s : State) (rd : Rd) (n : Need) (errs : List LineErr) (second : Second) : LineRes × State :=
  let e := (errs.find? (fun x => x.idx = n.idx)).getD { idx := n.idx }
  let g := s.fetchMac n.key rd.req.page rd.req.line n.snap e second
  (match g.1 with
    | .data x left => if macOk x left n.want && !x.marker then .good x.sealedIn.plain x else .macBad false
    | .marker x left => if macOk x left n.want then .marker (markerCode x) else .macBad true
    | .lost => .lost, g.2)

/-- Rewrite a lost hot line as a marker when no newer write has reached it (R198): it takes its next minor like any write. -/
def State.writeMarkerHot (s : State) (r : HReq) (k f : Nat) (code : Nat) : State :=
  (s.writeLine k f r.line r.page r.ctx 0 code).2

/-- A failed decode of an image in memory (R163). -/
def State.decodeFail (s : State) (rd : Rd) (cause : DecErr) : State :=
  let sl := s.homeSlab rd.req.page
  let s1 := (((s.raise .codc sl 17).bump .codc sl F.CODC_DECODE_ERR_COUNT).put .codc sl F.CODC_ERR_PAGE_PAGE rd.req.page).put .codc sl
    F.CODC_ERR_PAGE_CAUSE cause.code
  let s2 := s1.fault .codc sl 0x0D { cls := 0x0D, page := rd.req.page, line := rd.req.line, lineValid := true, detail := cause.code
                                     poison := 9, agent := agentOf rd.req.who, checker := s.checkerAt rd.req.page rd.req.line }
  ({ s2 with tier := { s2.tier with badImages := addOnce s2.tier.badImages rd.req.page } }).bad rd 9

/-- The decode of a read's image to the requested line (R162, R165). -/
def State.decodeRead (s : State) (rd : Rd) : State :=
  if !memHeadOk rd.image (rd.loc.gm1 + 1) then s.decodeFail rd .format
  else match decodeSubOf rd.image (rd.req.line / 16) with
    | none => s.decodeFail rd .grammar
    | some sub => s.ready { rd with data := imageLine sub (rd.req.line % 16) }

end Sys2Proof.Machine
end

