-- ==== Sys2Proof/Machine/Home.lean ====
section
/-! DEFINITION. The home (R314 to R340): how a request is ordered, what it recalls, what it does when its turn comes, and what
answers to snoops and invalidations do. -/

namespace Sys2Proof.Machine

/-! ### Who holds a line now -/

/-- A request number of the model's own. -/
def State.newId (s : State) : Nat × State := (s.home.nextId, { s with home := { s.home with nextId := s.home.nextId + 1 } })
/-- Does a request that takes or recalls the line, or a discard of its page, hold it (R329)? -/
def State.lineHeld (s : State) (page line : Nat) : Bool :=
  s.home.waiting.any (fun w => w.req.page = page && w.req.line = line) ||
  s.home.reads.any (fun r => (r.req.kind = .intX || r.req.kind = .intS || r.req.kind = .intUpg) && r.req.page = page && r.req.line = line) ||
  (s.victimEnt page line).isSome
/-- Does a request ask for the whole page? -/
def ReqKind.wholePage (k : ReqKind) : Bool := k = .discard || k = .pmapRead || k = .pin || k = .unpin || k = .cachePage
/-- Do two requests meet on a line? -/
def sameLine (a b : HReq) : Bool := a.page = b.page && (a.line = b.line || a.kind.wholePage || b.kind.wholePage)
/-- Key of the census region of a page: its home and region. -/
def regionKey (page : Nat) : Nat := 524288 * homeOf page + regionOf page
/-- Is the page's region unknown (R334)? -/
def State.unknownRegion (s : State) (page : Nat) : Bool := regionKey page ∈ s.home.unknown
/-- Does a request allocate a directory entry (R310)? -/
def State.allocates (r : HReq) : Bool :=
  r.kind = .readS || r.kind = .readA || r.kind = .intS || r.kind = .intX || r.kind = .intUpg || (r.kind = .write && r.keepS)
/-- Is there a tracker for the request (R330)? -/
def State.trackerFree (s : State) (r : HReq) : Bool :=
  let t := s.trackers (s.homeSlab r.page)
  (r.admitted && r.kind.isRead && t.2 < 768) || t.1 - min 768 t.2 < 1280

/-! ### Refusals (R632 steps 3 to 5) -/

/-- World of an engine or of a Slab's offload block is secure (R267, R510). -/
def State.secureUser (s : State) (w : Requester) : Bool := match w with
  | .engine q => s.world .qeng q = 1
  | .codec sl => s.world .ofld sl = 1
  | .secp _ => true
  | .host _ => true
  | .mgmt _ => false
  | _ => true
/-- The key lookup of a request (R237, R267, R268): the alarm class under which its context is refused. -/
def State.keyRefusal (s : State) (r : HReq) : Option Nat :=
  let c := s.ctx r.ctx
  if r.ctx = 0 || !c.valid || (match r.attach with
      | some a => !(c.mask.testBit a)
      | none => false) then some 8
  else if c.prot && (s.crypto.debugOpen || !s.secureUser r.who) then some 9
  else none
/-- The first check that refuses a request: 0 unbacked, else its alarm class. A request whose key lookup has passed meets no second one (R236,
R268, R272). -/
def State.refusedBy (s : State) (r : HReq) : Option Nat :=
  let own := r.kind = .marker || r.kind = .inject || r.kind = .clearP || r.kind.wholePage || r.kind = .dirq
  if own then none
  else if (s.entry r.page).st = .unmapped then some 0
  else match (if r.looked then none else s.keyRefusal r) with
    | some cls => some cls
    | none =>
      let e := s.entry r.page
      if e.st ≠ .zero && e.st ≠ .unmapped && e.ctx ≠ r.ctx then some 7
      else if e.st = .zero && (match s.slotOf r.page with
          | some x => x.ctx ≠ r.ctx
          | none => false) && !r.kind.isRead then some 7
      else none
/-- Is the request a write to the module's eyes: it completes and is discarded when refused? -/
def ReqKind.isWrite (k : ReqKind) : Bool := k = .write || k = .intWb || k = .atomic
/-- Refuse a request (R92, R99, R237): a read returns poison 0x0A, a write completes and is discarded. -/
def State.refuse (s : State) (r : HReq) (why : Nat) : State :=
  let s1 := if why = 0 then
      s.fault .home (s.homeSlab r.page) 0x0C { cls := 0x0C, page := r.page, line := r.line, lineValid := true, agent := agentOf r.who, poison := 0x0A }
    else s.lineAlarm why r r.line
  if r.kind.isWrite then s1.doneTo r 1
  else s1.bad { req := { r with kind := if r.attach.isSome then r.kind else .read }, st := .ready } 0x0A

/-! ### Recalls (R314, R319, R322, R630) -/

/-- Attach point or internal owner that asks. -/
def HReq.owner (r : HReq) : Option Nat := match r.who with
  | .engine q => some q
  | .mgmt m => some (16 + m)
  | _ => none
/-- Holders a request must recall, and the snoop hosts receive. -/
def recallsFor (r : HReq) (e : DirEnt) : List Holder × Snp :=
  let others := (hostsOf e).filter (fun a => r.attach ≠ some a)
  let hs := others.map Holder.host
  let all := (hostsOf e).map Holder.host
  let inA := e.hst = .a
  match r.kind with
  | .read => (if inA then hs else [], .cur)
  | .snoopRead => (if inA then all else [], .cur)
  | .readS => (if inA then hs else [], .data)
  | .readA => (hs ++ intHolders e, .inv)
  | .write => (hs ++ intHolders e, .inv)
  | .atomic | .marker | .inject | .clearP => (all ++ intHolders e, .inv)
  | .intS => (if inA then all else [], .data)
  | .intX => (all ++ (intHolders e).filter (fun h => r.owner.map Holder.owner ≠ some h), .inv)
  | .intUpg =>
    if e.ist = .s && (r.owner.any (fun o => e.ishare.testBit (groupOf o))) then
      (all ++ (intHolders e).filter (fun h => r.owner.map (fun o => Holder.group (groupOf o)) ≠ some h), .inv)
    else (all ++ (intHolders e).filter (fun h => r.owner.map Holder.owner ≠ some h), .inv)
  | _ => ([], .inv)

/-! ### Effects -/

/-- Write an internal owner's dirty line to memory (R29, R319). -/
def State.writeBack (s : State) (o page line : Nat) (data : Line) : State :=
  s.putWrite { id := 0, kind := .intWb, who := if o < 16 then .engine o else .mgmt (o - 16), page := page, line := line
               ctx := (s.entry page).ctx, stamp := s.now, data := data, mask := fullMask } false
/-- Data an internal owner holds dirty. -/
def State.ownerData (s : State) (e : DirEnt) (page line : Nat) : Option Line :=
  if e.dirty then (s.icLine e.iowner page line).map (fun c => c.data) else none
/-- Set a bit of a number. -/
def withBit (v b : Nat) : Nat := setBit v b true

/-- Promotion on read (R105, R107): a deep or plain page at or above PROMOTE_THRESH moves to a frame after the read it served. -/
def State.promoteOnRead (s : State) (page : Nat) : State :=
  let e := s.entry page
  if (e.st = .deep || e.st = .plain) && s.bit .tier 0 F.TIER_HEAT_PROMOTE_ON_READ && s.get .tier 0 F.TIER_HEAT_PROMOTE_THRESH ≤ e.heat &&
     (s.moveOf page).isNone then s.startPromote page else s

/-- Queue the marker write a failed line needs (R262). -/
def State.askMarker (s : State) (r : HReq) (code : Nat) : State :=
  let q := s.newId
  { q.2 with home := { q.2.home with senders := q.2.home.senders ++
    ([{ id := q.1, kind := .marker, who := .mover (s.homeSlab r.page), page := r.page, line := r.line, ctx := r.ctx, stamp := s.now
        el := s.tb.elapsed.toNat, poison := true, code := code, mask := fullMask }] : List HReq) } }
/-- Serve a read, and ask for the marker a Hub Cache line that failed needs. -/
def State.serveR (s : State) (r : HReq) (given : Option Line) : State :=
  let x := s.serve r given
  if x.2 then x.1.askMarker r 4 else x.1

/-- Apply a far atomic to a line (R325, R377): claim, merge, or leave the entry as it is. -/
def farApply (r : HReq) (l : Line) : Line × Bool :=
  let e := AggEnt.ofLine (lineBytes l)
  let vals (c : Nat) : Option Nat := r.vals.getD c none
  if !e.used then (lineOf ((AggEnt.claim r.kernel r.arg).merge r.kernel vals).bytes, true)
  else if e.key = r.arg then (lineOf (e.merge r.kernel vals).bytes, true)
  else (l, false)

/-- Store the result of a far atomic (R325): while the line's next queued request is another far atomic the line stays in the home line buffer,
without a media write of its own; else what was changed is written once. -/
def State.farStore (s : State) (r : HReq) (l : Line) (changed : Bool) : State :=
  let more : Bool := (s.home.queue.find? (fun x => x.id ≠ r.id && sameLine x r)).any (fun x => x.kind = .atomic)
  let due := s.home.atomicHeld.any (fun x => x.page = r.page && x.line = r.line) || changed
  let w : HReq := { r with kind := .intWb, data := l, mask := fullMask }
  let t := { s with home := { s.home with atomicHeld := s.home.atomicHeld.filter (fun x => !(x.page = r.page && x.line = r.line)) } }
  if !due then t
  else if more then
    let u := { t with home := { t.home with atomicHeld := t.home.atomicHeld ++ [w] } }
    if changed then u.bump .home (s.homeSlab r.page) F.HOME_FAR_MERGED_COUNT else u
  else t.putWrite w false
/-- Write the line a refused far atomic would have taken up. -/
def State.farFlush (s : State) (r : HReq) : State := match s.home.atomicHeld.find? (fun x => x.page = r.page && x.line = r.line) with
  | some w => ({ s with home := { s.home with atomicHeld := s.home.atomicHeld.filter (fun x => !(x.page = r.page && x.line = r.line)) } }).putWrite w false
  | none => s
/-- A far atomic takes effect (R325): verify-first, then the operation and the write. A page that is not hot comes to hot first. -/
def State.doAtomic (s : State) (r : HReq) : State :=
  let slab := s.homeSlab r.page
  let eng := match r.who with
    | .engine q => some q
    | _ => none
  let contended := s.home.queue.any (fun x => x.page = r.page && x.line = r.line && x.id ≠ r.id && x.who ≠ r.who &&
    (x.kind = .atomic || x.kind = .intX || x.kind = .intUpg))
  let s1 := match eng with
    | some q => if contended then s.predAdd (q / 8) r.page r.line 1 0 else s.predAdd (q / 8) r.page r.line 0 1
    | none => s
  let finish (t : State) (l : Line) : State :=
    let x := farApply r l
    (((t.bump .home slab F.HOME_FAR_OPS_COUNT).farStore r x.1 x.2).emit (.readData r.who r.id l 0 0)).doneTo r
  match s1.home.atomicHeld.find? (fun x => x.page = r.page && x.line = r.line) with
  | some w => finish s1 w.data
  | none =>
  if s1.tier.lostLines.contains (r.page / 8) then s1.doneTo r 1
  else match s1.heldLine r.page r.line with
  | some h => if h.poison ≠ 0 then s1.doneTo r 1 else finish s1 (mergeLine 0 h.data h.mask)
  | none =>
    let e := s1.entry r.page
    if e.st = .hot then
      let o := s1.oldHot r e.vein e.loc
      match o.1 with
      | .data l => finish o.2 l
      | .marker _ => o.2.doneTo r 1
      | .macBad m => ((o.2.writeMarkerHot r e.vein e.loc 5).lineAlarm (if m then 11 else 3) r r.line).doneTo r 1
      | .lost => ((o.2.writeMarkerHot r e.vein e.loc 1).memFault r.page r.line 1).doneTo r 1
      | .away => (o.2.clearBehind e.vein e.loc r.page r.ctx).doneTo r 1
    else finish s1 0

/-- Write of a line's directory entry after a request of a host or an internal cache (R314, R319, R630). -/
def State.dirAfter (s : State) (r : HReq) (e : DirEnt) : State :=
  match r.kind with
  | .readS => match r.attach with
    | some a =>
      let own := e.hst = .a && hostsOf e = [a]
      let e1 := { e with hst := if own then .a else .s, hosts := withBit e.hosts a }
      let e2 := if e.ist = .e || e.dirty then { e1 with ist := .s, iowner := 31, ishare := withBit e.ishare (groupOf e.iowner) } else e1
      s.dirPut r.page r.line e2
    | none => s
  | .readA => match r.attach with
    | some a => s.dirPut r.page r.line { hst := .a, hosts := 2 ^ a }
    | none => s
  | .write => match r.attach with
    | some a => s.dirPut r.page r.line (if r.keepS then { hst := .s, hosts := 2 ^ a } else {})
    | none => s.dirPut r.page r.line {}
  | .atomic | .marker | .inject | .clearP => s.dirPut r.page r.line {}
  | _ => s

/-- An internal read for sharing (R319): the new state, S where a host held the line in A and has answered, and the data an owner forwards. -/
def State.doRdS (s : State) (r : HReq) (o : Nat) (e : DirEnt) (fwd : Option Line) : State :=
  let g := groupOf o
  if e.hst ≠ .i || r.boundFrom.isSome then (s.dirPut r.page r.line { e with ist := .s, ishare := withBit e.ishare g }).serveR r fwd
  else match e.ist with
    | .i => (s.dirPut r.page r.line { e with ist := .e, iowner := o }).serveR r fwd
    | .s => (s.dirPut r.page r.line { e with ishare := withBit e.ishare g }).serveR r fwd
    | .e => (s.dirPut r.page r.line { e with ist := .s, iowner := 31, ishare := withBit (withBit e.ishare (groupOf e.iowner)) g }).serveR r fwd
    | _ =>
      let d := s.ownerData e r.page r.line
      (s.dirPut r.page r.line { e with ist := .o, ishare := withBit e.ishare g }).serveR r (d <|> fwd)

/-- A request whose recalls are done takes effect; `fwd` is a line a snooped host or an internal owner brought (R316, R319). -/
def State.perform (s : State) (r : HReq) (fwd : Option Line) : State :=
  let e := s.dirOf r.page r.line
  let s0 := (if r.attach.isSome && (r.kind.isRead || r.kind = .write) then s.warm r.page else s).dirHit r.page r.line
  match r.kind with
  | .read =>
    let t := s0.serveR r (s0.ownerData e r.page r.line <|> fwd)
    if r.attach.isSome then t.promoteOnRead r.page else t
  | .snoopRead => match r.who with
    | .mover _ => s0
    | _ => s0.serveR r (s0.ownerData e r.page r.line <|> fwd)
  | .readS =>
    let s1 := match s0.ownerData e r.page r.line with
      | some d => s0.writeBack e.iowner r.page r.line d
      | none => s0
    let s2 := match s1.icLine e.iowner r.page r.line with
      | some c => s1.icPut { c with dirty := false }
      | none => s1
    ((s2.dirAfter r e).serveR r fwd).promoteOnRead r.page
  | .readA => ((s0.dirAfter r e).serveR r fwd).promoteOnRead r.page
  | .write => (s0.dirAfter r e).putWrite r true
  | .marker => (s0.dirAfter r e).putWrite { r with ctx := (s0.entry r.page).ctx } false
  | .inject => (s0.dirAfter r e).putWrite { r with ctx := (s0.entry r.page).ctx } true
  | .clearP => (s0.dirAfter r e).putWrite { r with ctx := (s0.entry r.page).ctx } true
  | .atomic => (s0.dirAfter r e).doAtomic r
  | .intS => match r.owner with
    | some o => s0.doRdS r o e fwd
    | none => s0
  | .intX | .intUpg => match r.owner with
    | some o =>
      let mine := (s0.icLine o r.page r.line).map (fun c => c.data)
      let s1 := (s0.dirPut r.page r.line { ist := .m, iowner := o }).bump .home (s0.homeSlab r.page) F.HOME_NEAR_GRANTS_COUNT
      let upg := r.kind = .intUpg && e.ist = .s && e.ishare.testBit (groupOf o)
      let s2 := if upg then (ownersOf (groupOf o)).foldl (fun t x => if x = o then t else t.icDrop x r.page r.line) s1 else s1
      s2.serveR r (if upg || (e.iowner = o && (e.ist = .e || e.dirty)) then (mine <|> fwd) else fwd)
    | none => s0
  | .intWb => match r.owner with
    | some o =>
      if e.dirty && e.iowner = o then
        let s1 := match s0.icLine o r.page r.line with
          | some c => s0.nearLeaves c false
          | none => s0
        let s2 := (s1.icDrop o r.page r.line).writeBack o r.page r.line r.data
        (s2.dirPut r.page r.line (if e.ist = .m || e.ishare = 0 then { e with ist := .i, ishare := 0 } else { e with ist := .s })).doneTo r
      else s0.doneTo r 1
    | none => s0
  | .intEvict => match r.owner with
    | some o =>
      if e.ist = .e && e.iowner = o then ((s0.icDrop o r.page r.line).dirPut r.page r.line { e with ist := .i }).doneTo r
      else s0.doneTo r 1
    | none => s0
  | .dirq =>
    let sl := r.slab
    let e := match s0.victimEnt r.page r.line with
      | some v => if e.unused then { v.ent with tag := dirTagOf v.hl } else e
      | none => e
    let w := (e.tag + 2 ^ 16 * (match e.hst with
      | .i => 0
      | .s => 1
      | .a => 2) + 2 ^ 18 * e.hosts + 2 ^ 34 * (match e.ist with
      | .i => 0
      | .s => 1
      | .e => 2
      | .m => 3
      | .o => 4) + 2 ^ 37 * e.iowner + 2 ^ 42 * e.ishare)
    let v := (s0.victimEnt r.page r.line).isSome
    let hit := !e.unused || v
    let s1 := ((s0.put .home sl F.HOME_DIRQ_STATUS_HIT (b2n hit)).put .home sl F.HOME_DIRQ_STATUS_UNKNOWN (b2n (s0.unknownRegion r.page))).put
      .home sl F.HOME_DIRQ_ENTRY_LO_ENTRY_LO (if hit then w % 2 ^ 32 else 0)
    let s2 := (s1.put .home sl F.HOME_DIRQ_ENTRY_HI_ENTRY_HI (if hit then w / 2 ^ 32 else 0)).put .home sl F.HOME_DIRQ_STATUS_DONE 1
    s2.put .home sl F.HOME_DIRQ_STATUS_BUSY 0
  | _ => s0

/-! ### Page commands at the home (R94, R111, R122, R199, R358) -/

/-- A PMAP command completes. -/
def State.pmapDone (s : State) (slab : Nat) (extra : Option Fld := none) : State :=
  let s1 := match extra with
    | some f => s.put .pmap slab f 1
    | none => s
  (s1.put .pmap slab F.PMAP_CMD_STATUS_DONE 1).put .pmap slab F.PMAP_CMD_STATUS_BUSY 0

/-- A Hub Cache command completes (R358, R359). -/
def State.hcacDone (s : State) (slab : Nat) (extra : Option Fld := none) : State :=
  let s1 := match extra with
    | some f => s.put .hcac slab f 1
    | none => s
  ({ (s1.put .hcac slab F.HCAC_CMD_STATUS_DONE 1).put .hcac slab F.HCAC_CMD_STATUS_BUSY 0 with
    hub := { s1.hub with cmds := s1.hub.cmds.filter (fun c => c.1 ≠ slab) } }).raise .hcac slab 16

/-- Discard the page, or the eight pages of a lost page-map line (R199); code 1 releases to unmapped (R94). -/
def State.doDiscard (s : State) (r : HReq) : State :=
  let st : PState := if r.op = 1 then .unmapped else .zero
  let pages := if s.tier.lostLines.contains (r.page / 8) then (List.range 8).map (· + r.page / 8 * 8) else [r.page]
  let s1 := pages.foldl (fun t p => if (t.entry p).st = .unmapped then t else (t.noticeVein p).erasePage p st) s
  let s2 := { s1 with tier := { s1.tier with lostLines := s1.tier.lostLines.filter (fun m => m ≠ r.page / 8) } }
  (if r.op = 1 then s2 else s2.pmapDone r.slab).useRoom

/-- Invalidate a page's lines in the Hub Cache and free its run-ahead slot (R358). -/
def State.hcPageInval (s : State) (page : Nat) : State :=
  (s.hcInvalPage page (s.entry page) (s.srcState page)).dropSlot page true
/-- Has every write ordered to a page reached the write queues (R358)? -/
def State.pageClean (s : State) (page : Nat) : Bool :=
  (s.slotOf page).isNone && !(s.hub.vlb.any (fun x => x.page = page)) && !(s.hub.wrHeld.any (fun w => w.req.page = page))

/-- A page command that is ordered takes effect. -/
def State.pageCmd (s : State) (r : HReq) : State :=
  let e := s.entry r.page
  match r.kind with
  | .discard => s.doDiscard r
  | .pmapRead =>
    let w := ({ e with heat := if e.st = PState.spilled then 0 else e.heat } : PEntry).word (s.srcState r.page)
    ((s.put .pmap r.slab F.PMAP_ENTRY_LO_ENTRY_LO (w % 2 ^ 32)).put .pmap r.slab F.PMAP_ENTRY_HI_ENTRY_HI (w / 2 ^ 32)).pmapDone r.slab
  | .unpin =>
    if e.st = .unmapped then s.pmapDone r.slab (some F.PMAP_CMD_STATUS_OUT_OF_RANGE)
    else (s.setEntry r.page { e with pinned := false }).pmapDone r.slab
  | .pin =>
    if e.st = .unmapped then s.pmapDone r.slab (some F.PMAP_CMD_STATUS_OUT_OF_RANGE)
    else if e.pinned then s.pmapDone r.slab
    else
      let k := if e.st = .hot then e.vein else r.page % 8
      if s.framesOf k - 256 * s.get .tier 0 F.TIER_FREE_FREE_HIGH < s.pinnedOf k + 1 then s.pmapDone r.slab (some F.PMAP_CMD_STATUS_PIN_FULL)
      else
        let t := s.setEntry r.page { e with pinned := true }
        let u := match e.st with
          | .deep | .plain | .spilled => t.startPromote r.page
          | .moving => { t with tier := { t.tier with deferredPins := addOnce t.tier.deferredPins r.page } }
          | _ => t
        u.pmapDone r.slab
  | .cachePage => match r.op with
    | 1 => (s.hcPageInval r.page).hcacDone r.slab
    | _ => { s with hub := { s.hub with cmds := s.hub.cmds.filter (fun c => c.1 ≠ r.slab) ++ [(r.slab, r.op, r.page, agentOf r.who)] } }
  | _ => s

/-! ### Ordering (R328, R329) -/

/-- Recalls a discard needs: every line of its pages with a copy (R324). -/
def State.discardLines (s : State) (page : Nat) : List (Nat × DirEnt) :=
  ((List.range 64).map (fun i => (i, s.dirOf page i))).filter (fun x => !x.2.unused)

/-- Look up the page map through the home's cache of entries (R98). -/
def State.mapLookup (s : State) (page : Nat) : State :=
  let sl := s.homeSlab page
  let hit := page ∈ s.tier.mapCache
  let s1 := s.bump .pmap sl (if hit then F.PMAP_CACHE_HIT_HITS else F.PMAP_CACHE_MISS_MISSES)
  if hit then s1 else
  let mine := s1.tier.mapCache.filter (fun p => s1.homeSlab p = sl)
  let c := if mine.length < 1048576 then s1.tier.mapCache else s1.tier.mapCache.erase (mine.headD 0)
  { s1 with tier := { s1.tier with mapCache := c ++ [page] } }

/-- Order a request whose line is free: refuse it, hold the line for its recalls, or let it take effect (R314, R329). -/
def State.process (s0 : State) (r : HReq) : State :=
  let cached := r.page ∈ s0.tier.mapCache
  let s := s0.mapLookup r.page
  match s.refusedBy r with
  | some why => (if r.kind = .atomic then s.farFlush r else s).refuse r why
  | none =>
    if r.kind = .discard then
      let ls := s.discardLines r.page
      if ls.isEmpty then s.pageCmd r
      else
        let t := ls.foldl (fun u x => u.startRecall { req := { r with line := x.1 }, snp := .inv
                                                      awaiting := (hostsOf x.2).map Holder.host ++ intHolders x.2 }) s
        { t with home := { t.home with queue := r :: t.home.queue } }
    else if r.kind.wholePage then s.pageCmd r
    else
      let e := s.dirOf r.page r.line
      let rec_ := recallsFor r e
      let s1 := if r.attach.isSome && r.kind.isRead && cached && s.bit .home (s.homeSlab r.page) F.HOME_CTL_SPEC_EN &&
          ((e.hst = .a && hostsOf e ≠ [(r.attach).getD 16]) || e.dirty) then
        s.bump .home (s.homeSlab r.page) F.HOME_SPEC_DISCARD_COUNT else s
      if State.allocates r && !s1.dirRoom r.page r.line then
        let t := (s1.bump .home (s1.homeSlab r.page) F.HOME_VICTIM_FULL_COUNT).raise .home (s1.homeSlab r.page) 16
        { t with home := { t.home with queue := t.home.queue ++ [r] } }
      else if r.kind = .atomic && (s1.entry r.page).st ≠ .hot && (s1.entry r.page).st ≠ .zero then
        -- the page comes to hot first; the line stays held by the queued request
        let t := if (s1.entry r.page).st = .moving then s1.abandon r.page else s1.startPromote r.page
        { t with home := { t.home with queue := t.home.queue ++ [r] } }
      else if rec_.1.isEmpty then s1.perform r none
      else s1.startRecall { req := r, awaiting := rec_.1, snp := rec_.2 }

/-- May a queued request go now: its line is free, no earlier request meets it, and what it waits for is there? -/
def State.canGo (s : State) (before : List HReq) (r : HReq) : Bool :=
  !before.any (fun x => sameLine x r) && !s.unknownRegion r.page &&
  (if r.kind.wholePage then !s.home.waiting.any (fun w => w.req.page = r.page) else !s.lineHeld r.page r.line) &&
  (!State.allocates r || s.dirRoom r.page r.line) &&
  (!(r.kind = .atomic) || (s.entry r.page).st = .hot || (s.entry r.page).st = .zero)
/-- Queued requests that come before one. -/
def before (q : List HReq) (r : HReq) : List HReq := q.takeWhile (fun x => x.id ≠ r.id)

/-- Enter a request at its home: a directory query that finds its line's entry in the victim buffer shows it at once (R340), an unknown region, a full share of trackers, or a held line make it wait (R317, R329, R330, R335). -/
def State.order (s : State) (r0 : HReq) : State :=
  let r := { r0 with looked := r0.looked || (s.keyRefusal r0).isNone }
  if r.kind = .dirq && (s.victimEnt r.page r.line).isSome then s.perform r none
  else if s.unknownRegion r.page then { s with home := { s.home with regionWait := s.home.regionWait ++ [r] } }
  else if !s.trackerFree r then { s with home := { s.home with senders := s.home.senders ++ [r] } }
  else if s.canGo s.home.queue r || (r.kind = .atomic && !(s.home.queue.any (fun x => sameLine x r)) && !s.lineHeld r.page r.line) ||
      (State.allocates r && !(s.home.queue.any (fun x => sameLine x r)) && !s.lineHeld r.page r.line) then s.process r
  else
    let conflict := match r.attach with
      | some a => s.home.waiting.any (fun w => w.req.page = r.page && w.req.line = r.line && Holder.host a ∈ w.awaiting)
      | none => false
    let t := if conflict then s.bump .home (s.homeSlab r.page) F.HOME_BI_CONFLICT_COUNT else s
    { t with home := { t.home with queue := t.home.queue ++ [r] } }

/-- Let queued requests and waiting senders go as their lines come free, in order, until none can. -/
def State.drainN : Nat → State → State
  | 0, s => s
  | n + 1, s =>
    match s.home.queue.find? (fun r => s.canGo (before s.home.queue r) r) with
    | some r => State.drainN n ({ s with home := { s.home with queue := s.home.queue.filter (fun x => x.id ≠ r.id) } }.process r)
    | none =>
      match s.home.senders.find? (fun r => s.trackerFree r) with
      | some r => State.drainN n ({ s with home := { s.home with senders := s.home.senders.filter (fun x => x.id ≠ r.id) } }.order r)
      | none => s
/-- Resolve what answered waits allow, then drain; donors' copies that no read looks at any more are freed. -/
def State.settle (s : State) : State :=
  (State.drainN (2 * (s.home.queue.length + s.home.senders.length) + 8) (s.sendUnsent)).sendFrees

/-- Enter a request and settle. -/
def State.enter (s : State) (r : HReq) : State := (s.order r).settle

/-- A recall whose last answer has come: its request takes effect, or its discarded line's entry leaves. A victim's waits for
VICTIM_RECALL_DONE. -/
def State.finishWait (s : State) (w : Waiting) : State :=
  let s1 := { s with home := { s.home with waiting := s.home.waiting.filter (fun x => !(x.req.id = w.req.id && x.req.page = w.req.page &&
    x.req.line = w.req.line && x.victim = w.victim)) } }
  if w.req.kind = .discard then s1.dirPut w.req.page w.req.line {}
  else
    let r := match w.lastRsp with
      | some e => { w.req with boundFrom := some e }
      | none => w.req
    s1.perform r w.fwd
/-- Finish every recall with no answer outstanding. -/
def State.finishWaits (s : State) : State :=
  ((s.home.waiting.filter (fun w => !w.victim && w.awaiting.isEmpty)).foldl (fun t w => t.finishWait w) s).settle

/-- Replace the recall that waits on a line. -/
def State.modWait (s : State) (page line : Nat) (f : Waiting → Waiting) : State :=
  { s with home := { s.home with waiting := s.home.waiting.map (fun w => if w.req.page = page && w.req.line = line then f w else w) } }

/-- A host leaves a line's entry, or keeps a clean copy (R631). -/
def State.hostAnswers (s : State) (a page line rsp : Nat) : State :=
  let e := s.rawDir page line
  if e.unused then s
  else match rsp with
    | 0 =>
      let h := setBit e.hosts a false
      s.dirPut page line { e with hosts := h, hst := if h = 0 then .i else e.hst }
    | 1 => s.dirPut page line { e with hst := .s }
    | _ => s

/-- A line a host writes back, ordered at once (R316, R318). -/
def State.hostWriteBack (s : State) (a page line : Nat) (d : Line) : State :=
  let t := s.putWrite { id := 0, kind := .write, who := .host a, page := page, line := line, ctx := (s.entry page).ctx, stamp := s.now
                        data := d, mask := fullMask } false
  t.modWait page line (fun w => { w with fwd := some d })

/-- BISNP_RESPONSE (R316, R631): a host's answer, with the data it writes back. `rsp`: 0 BIRspI, 1 BIRspS, 2 BIRspE. -/
def State.bisnpResponse (s : State) (a page line rsp : Nat) (data : Option Line) : State :=
  match s.home.waiting.find? (fun w => w.req.page = page && w.req.line = line && Holder.host a ∈ w.awaiting && !(a ∈ w.unsent)) with
  | none => s
  | some w =>
    if (rsp = 2 && w.snp ≠ .cur) || (rsp = 1 && w.snp = .inv) || 2 < rsp then s
    else
      let s1 := match data with
        | some d => s.hostWriteBack a page line d
        | none => s
      let s2 := s1.hostAnswers a page line rsp
      (s2.modWait page line (fun w => { w with awaiting := w.awaiting.filter (· ≠ Holder.host a), lastRsp := some s.tb.elapsed.toNat })).finishWaits

/-- An internal cache acknowledges (R320): dirty data goes to the requester that takes ownership, else to memory first (R319, R630). -/
def State.invalAck (s : State) (h : Holder) (page line : Nat) (data : Option Line) : State :=
  match s.home.waiting.find? (fun w => w.req.page = page && w.req.line = line && h ∈ w.awaiting) with
  | none => s
  | some w =>
    let owners : List Nat := match h with
      | .owner o => [o]
      | .group g => ownersOf g
      | .host _ => []
    let taker := w.req.owner
    let gone := owners.filter (fun o => some o ≠ taker)
    let e := s.rawDir page line
    let s1 := match h with
      | .owner o =>
        let held := s.icLine o page line
        let d : Option Line := data <|> held.map (fun (c : ICLine) => c.data)
        let t := match held with
          | some c => s.nearLeaves c true
          | none => s
        if e.dirty || (w.victim && (match s.victimEnt page line with
            | some v => v.ent.dirty
            | none => false)) then
          if (w.req.kind = ReqKind.intX || w.req.kind = ReqKind.intUpg) && !w.victim then t.modWait page line (fun x => { x with fwd := d })
          else match d with
            | some l => t.writeBack o page line l
            | none => t
        else if w.req.kind = ReqKind.intX || w.req.kind = ReqKind.intUpg then t.modWait page line (fun x => { x with fwd := d })
        else t
      | _ => s
    let s2 := gone.foldl (fun t o => t.icDrop o page line) s1
    (s2.modWait page line (fun x => { x with awaiting := x.awaiting.filter (· ≠ h) })).finishWaits

/-! ### Media returns and verdicts -/

/-- Has a line's fill been overtaken by a write, an overflow or a flip of its page (R347)? -/
def State.overtaken (s : State) (rd : Rd) (n : Need) : Bool :=
  let e := s.entry rd.req.page
  decide ((s.stored n.key).sealedIn ≠ n.snap.sealedIn) || s.srcState rd.req.page ≠ rd.loc.st || e.vein ≠ rd.loc.vein || e.loc ≠ rd.loc.loc

/-- Verify-first failure of a hot line, or a lost one: the response, and its marker when no newer write stands (R198, R260, R262). -/
def State.hotReturn (s : State) (rd : Rd) (n : Need) (res : LineRes) : State :=
  let r := rd.req
  let k := rd.loc.vein
  let newer := s.stored n.key ≠ n.snap || s.home.queue.any (fun x => x.page = r.page && x.line = r.line && x.kind.isWrite)
  match res with
  | .good l x =>
    let t := if rd.fill then
        s.hcInstall (s.homeSlab r.page) n.want.name r.page { x with err := 0 } (s.ctx r.ctx).prot false (s.overtaken rd n)
      else s
    t.ready { rd with data := l }
  | .marker c => s.bad rd c
  | .lost =>
    let t := s.memFault r.page r.line 1
    (if newer then t else t.writeMarkerHot r k rd.loc.loc 1).bad rd 1
  | .macBad isMarker =>
    if rd.early && !isMarker then
      let g := s.draw 512
      let rd1 := { rd with lateBad := true }
      let t := { g.2 with home := { g.2.home with late := g.2.home.late ++ [rd1] } }
      t.ready { rd1 with data := g.1 }
    else
      let t := s.lineAlarm (if isMarker then 11 else 1) r r.line n.want.name
      (if newer then t else t.askMarker r 4).bad rd 4

/-- A deep or plain read's lines are back (R165, R198, R260). -/
def State.deepReturn (s : State) (rd : Rd) (rs : List (Need × LineRes)) : State :=
  let r := rd.req
  let isPlain := rd.loc.st = .plain
  let sl := s.homeSlab r.page
  let isBad (x : LineRes) : Option Nat := match x with
    | .good _ _ => none
    | .lost => some 1
    | .macBad _ => some 4
    | .marker c => some c
  let bads := rs.filterMap (fun x => (isBad x.2).map (fun c => (x.1.idx, c)))
  let s1 := rs.foldl (fun t x => match x.2 with
    | .macBad m => t.lineAlarm (if m then 11 else 1) r r.line x.1.want.name
    | .lost => t.memFault r.page r.line 1
    | .good _ st =>
      if rd.fill then
        t.hcInstall sl x.1.want.name r.page { st with err := 0 } (t.ctx r.ctx).prot false
          (t.overtaken rd x.1)
      else t
    | .marker _ => t) s
  let lineData (x : LineRes) : Line := match x with
    | .good l _ => l
    | _ => 0
  let image := rs.flatMap (fun x => lineBytes (lineData x.2))
  if bads.isEmpty then
    if isPlain then s1.ready { rd with data := (rs.head?.map (fun x => lineData x.2)).getD 0 }
    else (s1.putRd { rd with st := .decode, image := image, needs := [] }).askLane sl { level := decodeLevel r, stamp := r.stamp, id := r.id }
  else
    let lines := badLines isPlain image bads
    let late := rd.early && bads.all (fun b => b.2 = 4)
    match lines.find? (fun b => b.1 = r.line) with
    | some b =>
      if late then
        let g := s1.draw 512
        let rd1 := { rd with lateBad := true }
        let t := { g.2 with home := { g.2.home with late := g.2.home.late ++ [{ rd1 with image := [] }] } }
        (t.ready { rd1 with data := g.1 }).promoteBad r.page lines
      else (s1.bad rd b.2).promoteBad r.page lines
    | none =>
      ((s1.putRd { rd with st := .decode, image := image, needs := [] }).askLane sl
        { level := decodeLevel r, stamp := r.stamp, id := r.id }).promoteBad r.page lines

/-- MEDIA_READ_RETURN (R193): the lines a read waits for come from their Vein, each with the error patterns that lay over it. -/
def State.mediaReturn (s : State) (id : Nat) (errs : List LineErr) : State :=
  match s.rdOf id with
  | none => s
  | some rd =>
    if rd.st ≠ .media then s
    else
      let s0 := s.dropAccs (fun a => !a.write && a.id = id)
      let r := rd.req
      let second (n : Need) : Second :=
        if rd.loc.st = .hot then s0.partner ((rd.vein).getD 0) rd.loc.loc n.idx
        else
          let g := (s0.granulesOf rd.loc r.page).getD (n.idx / 8) 0
          .row rd.loc.vein (g / 7) (g % 7) (n.idx % 8)
      let res := rd.needs.foldl (fun (acc : List (Need × LineRes) × State) n =>
        let t := acc.2.takeLine rd n errs (second n)
        (acc.1 ++ [(n, t.1)], t.2)) ([], s0)
      let s1 := res.2
      if rd.loc.st = .hot then
        let s2 := s1.bump .dipt rd.loc.vein (if (rd.vein).getD 0 < 8 then F.DIPT_READS_LO_COUNT else F.DIPT_READS_HI_COUNT)
        (match res.1 with
          | [x] => s2.hotReturn rd x.1 x.2
          | _ => s2).settle
      else (s1.deepReturn rd res.1).settle

/-- LATE_VERDICT (R259): the ports sent the data enter viral, the alarm is raised, and the line becomes a marker. -/
def State.lateVerdict (s : State) (id : Nat) : State :=
  match s.home.late.find? (fun x => x.req.id = id) with
  | none => s
  | some rd =>
    let r := rd.req
    let s0 := { s with home := { s.home with late := s.home.late.filter (fun x => x.req.id ≠ id) } }
    let hq := s0.nextSeq
    let s1 := s0.lineAlarm 2 r r.line
    let s2 := match r.attach with
      | some a => s1.enterViral a 1 hq
      | none => s1
    (if rd.loc.st = .hot then s2.askMarker r 4 else s2).settle

end Sys2Proof.Machine
end

