-- ==== Sys2Proof/Machine/Tree.lean ====
section
/-! DEFINITION. The counter trees and the spill ledger (R250 to R256, R264 to R266), and page-map lines lost in both copies (R199). -/

namespace Sys2Proof.Machine

/-- Raise the parent's counter of a line by one; a node that holds it changes in the cache (R253, R256). -/
def State.raiseParent (s : State) (k level index : Nat) : State :=
  if level < 6 then (s.treeUse k (level + 1) (index / 8) true).raiseCounter k level index else s.raiseCounter k level index

/-- TREE_LINE_EVICT (R253): a dirty line leaves its owner's cache for both Veins under its parent's next counter. -/
def State.cmdTreeLineEvict (s : State) (dipt level index : Nat) : State :=
  let mine (t : TreeLine) : Bool := t.isLine dipt level index
  match s.crypto.cache.find? mine with
  | some t =>
    let u := { s with crypto := { s.crypto with cache := s.crypto.cache.filter (fun x => !mine x) } }
    if t.dirty then (u.treeStore dipt level index).raiseParent dipt level index else u
  | none => s

/-! ### Losses -/

/-- What a fetch of a metadata or counter-class line met beside the data it was for: a page-map line lost in both copies, or a counter-class
line whose copies failed: an uncorrectable copy counts on its channel (R264), and the bad one of two is rewritten from the other. -/
def State.metaEvent (s : State) (m : MetaLoss) (stamp : Stroke) : State := match m with
  | .pageMap page =>
    let g := page / 8
    if g ∈ s.tier.lostLines then s
    else (({ s with tier := { s.tier with lostLines := s.tier.lostLines ++ [g] } } : State).forN 2 (fun t d =>
      if t.present d then (t.bump .dprt d F.DPRT_POISON_COUNT_COUNT).raise .dprt d 19 else t)).fault .dprt (s.homeSlab page) 0x06
      { cls := 6, page := page, poison := 1 }
  | .tree k level index mac both =>
    let sl := s.ownerOf k
    let cls := if mac then 5 else 4
    let o := treeLineNo k level index % 8
    let v := k % 8 + 8 * sl
    let ue (t : State) (v : Nat) : State := if mac then t else t.uncorrectable v o noPage 0 false
    let s := if both then ue (ue s v) ((v + 8) % 16) else (ue s v).metaSlot v o
    let al (t : State) : State := t.alarm sl cls { cls := cls, stamp := stamp, media := treeName (k % 8) (treeLineNo k level index), agent := 0x40 + Block.cryp.id } k
    if both then
      if s.crypto.losses.any (fun l => l.ledger = decide (k = 8) && (k = 8 || l.dipt = k) && l.level = level && l.index = index) then s
      else
        let t := (al s).bump .cryp sl F.CRYP_TREE_LOSS_COUNT
        { t with crypto := { t.crypto with
            losses := t.crypto.losses ++ ([{ dipt := k, level := level, index := index, ledger := decide (k = 8) }] : List TreeLoss)
            cache := t.crypto.cache.filter (fun x => !x.isLine k level index) } }
    else if mac then al s else s

/-- A leaf rebuilt after a loss (R265): every version drawn with bit 63 set, hot minors 63, deep rows lost. -/
def State.rebuildLeaf (s : State) (k p : Nat) : State :=
  let a := s.draw 63
  let b := a.2.draw 63
  let big (x : BitVec 63) : Nat := 2 ^ 63 + x.toNat
  if p < s.hotH then
    b.2.setLeaf k p { major := big a.1, minors := (List.range 64).map (fun i => (i, 63)) }
  else b.2.setLeaf k p { verLo := big a.1, verHi := big b.1, lostLo := true, lostHi := true }

/-- Leaf position that covers a Hub Cache entry's line: the frame of a hot line, the row of an image line's granule (R247). -/
def State.posOf (s : State) (e : HcEnt) : Nat :=
  if e.name % 8 = 1 then e.name / 64 % 2 ^ 23
  else s.hotH + (s.granulesOf (s.entry e.page) e.page).getD (e.name / 2 ^ 35 / 8) 0 / 7
/-- Every entry of a line under a lost counter-tree line leaves the Hub Caches (R346). -/
def State.hcLoss (s : State) (k level index : Nat) : State :=
  s.forN 2 (fun t d => t.hcSweep d (fun _ _ e =>
    (if e.name % 8 = 1 then e.name / 8 % 8 else e.name / 8 % 16 % 8) = k && t.posOf e / 8 ^ level = index))

/-- SUBTREE_REBUILD_DONE (R265): the subtree of a lost line is rebuilt, and the writes held for it are released. -/
def State.cmdSubtreeRebuildDone (s : State) (dipt level index : Nat) : State :=
  let mine (l : TreeLoss) : Bool := l.dipt = dipt && l.level = level && l.index = index
  match s.crypto.losses.find? mine with
  | none => s
  | some _ =>
    let lo := index * 8 ^ level
    let n := 8 ^ level
    -- nodes beneath and at the line, with zero counters
    let zeroed := s.crypto.nodes.filter (fun x =>
      let t := x.1 / 8
      let q := t % 4194304
      let l := t / 4194304 % 8
      let k := t / 4194304 / 8
      !(k = dipt && l ≤ level && q / 8 ^ (level - l) = index))
    let s1 := { s with crypto := { s.crypto with nodes := zeroed, losses := s.crypto.losses.filter (fun l => !mine l) } }
    if dipt = 8 then
      -- ledger lines hold eight entries: sequence 0, IN_USE 1
      let s2 := s1.forN (8 * n) (fun t i =>
        let h := 8 * lo + i
        { t with crypto := { t.crypto with ledgerSeq := sset 0 t.crypto.ledgerSeq h 0, ledgerUse := sset false t.crypto.ledgerUse h true } })
      s2.raiseParent dipt level index
    else
      let s2 := (s1.hcLoss dipt level index).forN n (fun t i => if lo + i < dataChunks then t.rebuildLeaf dipt (lo + i) else t)
      let s3 := s2.raiseParent dipt level index
      let held := s3.home.treeHeld.filter (fun r =>
        let e := s3.entry r.page
        e.st = .hot && e.vein = dipt && e.loc / 8 ^ level = index)
      let s4 := { s3 with home := { s3.home with treeHeld := s3.home.treeHeld.filter (fun r => !(r ∈ held)) } }
      held.foldl (fun t r =>
        let e := t.entry r.page
        t.writeHot r e.vein e.loc (r.phase = 1)) s4

end Sys2Proof.Machine
end

