-- ==== Sys2Proof/Machine/HostCmd.lean ====
section
/-! DEFINITION. Host CXL.mem requests (R27, R29, R88, R277, R404 to R418, R632), the egress of a read and its bound (R43 to R51, R284),
and the answers to snoops. -/

namespace Sys2Proof.Machine

/-! ### Ingress -/

/-- Stroke and phase of an arrival `at10` tenths of a nanosecond into the stroke (R38, R39); true when it belongs to the next stroke. -/
def State.stampAt (s : State) (at10 : Nat) : Stroke × Nat × Bool :=
  let tick := (at10 + 24) / 25
  if s.tb.len ≤ tick then (s.now + 1, 0, true) else (s.now, tick, false)

/-- Requests that stand in an attach point's ingress buffer (R282). -/
def State.ingress (s : State) (a : Nat) : Nat :=
  let mine (r : HReq) : Bool := r.attach = some a
  (s.att a).early.length + (s.regu.held.filter mine).length + (s.home.senders.filter mine).length
/-- Entries of an attach point's ingress buffer. -/
def State.ingressSize (s : State) (a : Nat) : Nat := if s.bit .port (portOf a) F.PORT_CFG_SPLIT then 256 else 512

/-- Refuse a host request at its port or home: poison with a code for a read, a discarded write. -/
def State.turnAway (s : State) (r : HReq) (code : Nat) : State :=
  if r.kind = .write then s.doneTo r else s.bad { req := r, st := .ready } code

/-- An attach point that is not ready, viral, or whose stream is not secure (R277, R288, R291): true when it refuses. -/
def State.portRefuses (s : State) (a : Nat) : Bool × Bool :=
  let ready := s.bit .mod 0 F.MOD_READY_READY
  let ide := !s.bit .port (portOf a) F.PORT_CFG_IDE_REQUIRED || s.link a F.PORT_LINK_IDE_SECURE = 1
  (!ready || !ide, !ready || !ide || s.viral a)

/-- Is a request held for congestion at its port (R418)? -/
def State.holds (s : State) (r : HReq) : Bool :=
  let k := r.page % 8
  let a := (r.attach).getD 16
  s.bit .regu 0 F.REGU_CTL_HOLD_EN && !r.admitted && 2 ≤ s.congestion [k, k + 8] &&
  strokesSince r.stamp s.now < s.get .regu 0 F.REGU_CTL_HOLD_MAX && strokesSince r.stamp s.now ≤ s.target r.cls &&
  !([k, k + 8].any (fun v => a ∈ (sget {} s.veins v).panic))
/-- Is an earlier request of the attach point to the same line held? -/
def heldAhead (q : List HReq) (r : HReq) : Bool := q.any (fun x => x.who = r.who && x.page = r.page && x.line = r.line)

/-- A writeback from the host a line is held in A by goes ahead of what waits on the line (R318). -/
def State.passAhead (s : State) (r : HReq) (a : Nat) : Option State :=
  let e := s.rawDir r.page r.line
  if r.kind = .write && e.hst = .a && hostsOf e = [a] && s.lineHeld r.page r.line && (s.refusedBy r).isNone then
    let t := ((s.warm r.page).dirPut r.page r.line (if r.keepS then { e with hst := .s } else {})).putWrite r true
    some (if r.mask = fullMask then t.modWait r.page r.line (fun w => { w with fwd := some r.data }) else t)
  else none

/-- A host request at its port, stamped: the checks of R632 in order, its class and admission, the hold, then its home. -/
def State.hostArrive (s : State) (a : Nat) (r0 : HReq) : State :=
  let ref := s.portRefuses a
  if ref.2 then
    let t := if ref.1 then
        (((s.setLink a F.PORT_NOT_READY_COUNT (min 0xFFFFFFFF (s.link a F.PORT_NOT_READY_COUNT + 1))).raise .port (portOf a) 20).fault .port
          (portOf a) 0x13 { cls := 0x13, agent := 0x10 + a, poison := 0x0B, unit := portOf a })
      else s
    t.turnAway r0 0x0B
  else match s.hostDecode a r0.arg with
    | none => (s.fault .home (slabOfAttach a) 0x0C { cls := 0x0C, agent := 0x10 + a, poison := 0x0A }).turnAway r0 0x0A
    | some h =>
      let r1 := { r0 with page := h.page, line := h.line }
      match s.aliasCtx a h.entry with
      | none => (s.lineAlarm 6 r1 h.line).turnAway r1 0x0A
      | some 0 => (s.lineAlarm 6 r1 h.line).turnAway r1 0x0A
      | some c =>
        let r2 := { r1 with ctx := c }
        match s.refusedBy r2 with
        | some 0 => s.refuse r2 0
        | some 8 => s.refuse r2 8
        | _ =>
          let cls := s.classOf a c
          let adm := s.letIn cls h.page r2.kind.isRead r2.stamp
          let r3 := { r2 with cls := some cls, admitted := adm.1, hotBound := s.tb.hot, looked := (s.keyRefusal r2).isNone }
          let t := adm.2
          match t.passAhead r3 a with
          | some u => u.settle
          | none =>
            if t.holds r3 || heldAhead t.regu.held r3 then { t with regu := { t.regu with held := t.regu.held ++ [r3] } }
            else t.enter r3

/-- A host request arrives at a link that is up with CXL.mem enabled (R40), its port not under a block-level reset (R70); one that belongs to the next stroke waits for its edge. -/
def State.hostRequest (s : State) (a at10 : Nat) (r : HReq) : State :=
  if s.linkUp a && s.link a F.PORT_LINK_MEM_EN = 1 && !s.blockClosed .port (portOf a) then
    let q := s.newId
    let st := s.stampAt at10
    let r1 := { r with id := q.1, who := .host a, stamp := st.1, phase := st.2.1, el := s.tb.elapsed.toNat + (if st.2.2 then 1 else 0) }
    if st.2.2 then q.2.modAtt a (fun t => { t with early := t.early ++ [r1] }) else q.2.hostArrive a r1
  else s

/-- HOST_READ (R27): meta 0 asks for no caching, 1 for S, 2 for A. -/
def State.cmdHostRead (s : State) (a hpa meta_ at10 : Nat) : State :=
  s.hostRequest a at10
  { id := 0, kind := if meta_ = 2 then .readA else if meta_ = 1 then .readS else .read, who := .host a, page := noPage, arg := hpa }

/-- HOST_WRITE (R29): meta 1 keeps the writer in S; `err` is what lies over the old line a partial write fetches. -/
def State.cmdHostWrite (s : State) (a hpa meta_ at10 : Nat) (data : Line) (mask : BitVec 64) (poison : Bool) (err : LineErr) : State :=
  s.hostRequest a at10
  { id := 0, kind := .write, who := .host a, page := noPage, arg := hpa, keepS := decide (meta_ = 1), data := data
    mask := if poison then fullMask else mask, poison := poison, err := (err.first, err.again, err.second, err.secondBad) }

/-- Requests stamped at the stroke that begins arrive (R39). -/
def State.replayEarly (s : State) : State :=
  s.forN 16 (fun t a =>
    let q := (t.att a).early
    q.foldl (fun u r => u.hostArrive a r) (t.modAtt a (fun x => { x with early := [] })))

/-- Held requests whose hold has ended go on, in order (R418). -/
def State.releaseHeld (s : State) : State :=
  let q := s.regu.held
  let r := q.foldl (fun (acc : State × List HReq) x =>
      if acc.1.holds x || heldAhead acc.2 x then (acc.1, acc.2 ++ [x]) else (acc.1.enter x, acc.2))
    ({ s with regu := { s.regu with held := [] } }, [])
  { r.1 with regu := { r.1.regu with held := r.2 ++ r.1.regu.held } }

/-! ### Egress -/

/-- Local strokes from one count of elapsed strokes to another, modulo 2^32 (R36). -/
def elapsedSince (a b : Nat) : Nat := (b + 2 ^ 32 - a) % 2 ^ 32
/-- Strokes after its stamp's, on the local counter, by whose end a read must have left (R36, R45). -/
def readBound (rd : Rd) : Nat :=
  let hot := if rd.req.hotBound then 2 else 1
  let sp := if rd.loc.st = .spilled then 3 else 1
  let sn := match rd.req.boundFrom with
    | some e => elapsedSince rd.req.el e + 1
    | none => 1
  max hot (max sp sn)

/-- Start a run-ahead fill after a deep page's line has gone to a host (R349). -/
def State.startRunahead (s : State) (rd : Rd) : State :=
  let page := rd.req.page
  let sl := s.homeSlab page
  let mx := s.get .hcac sl F.HCAC_CTL_RUNAHEAD_MAX
  if s.bit .hcac sl F.HCAC_CTL_RUNAHEAD_EN && rd.loc.st = .deep && rd.image ≠ [] && rd.poison = 0 && !(s.ctx rd.req.ctx).prot &&
     (s.raSlot page).isNone && (s.entry page).st = .deep && 0 < mx then
    let used := (s.hub.slots.filter (fun x => x.slab = sl && x.runahead)).length
    let t := if mx ≤ used || 512 ≤ s.slotsUsed sl then (match s.lruRunahead sl with
        | some y => some (s.dropSlot y.page true)
        | none => none) else some s
    match t with
    | none => s
    | some t =>
      let j := rd.req.line / 16
      (t.putSlot { slab := sl, page := page, runahead := true, ctx := rd.req.ctx, ws := rd.ws, image := rd.image
                   left := (List.range 4).map (fun i => (j + i) % 4) }).askLane sl { level := 3, stamp := rd.req.stamp, id := aheadId page }
  else s

/-- READ_EGRESS (R51): the last flit of a response leaves `at10` tenths of a nanosecond into the stroke. -/
def State.egress (s : State) (id at10 : Nat) : State :=
  match s.rdOf id with
  | none => s
  | some rd =>
    match rd.st, rd.req.attach with
    | .ready, some a =>
      -- the last bit is out before the end of this stroke, or not (R43)
      let late := decide (25 * s.tb.len ≤ at10)
      let took := elapsedSince rd.req.el (s.tb.elapsed.toNat + (if late then 1 else 0))
      let code := rd.poison
      let s1 := (s.dropRd id).emit (.readData rd.req.who id (if code = 0 then rd.data else 0) code
        (s.devLoad rd.req.who rd.req.cls rd.vein.toList))
      let s2 := if code = 0 then s1 else s1.setLink a F.PORT_POISON_SENT_COUNT (min 0xFFFFFFFF (s1.link a F.PORT_POISON_SENT_COUNT + 1))
      let s3 := if rd.req.admitted then
          let t := s2.readGone (rd.req.cls.getD 0) rd.req.page
          if rd.req.unbound || took ≤ readBound rd then t else t.miss rd.req (took - readBound rd) a
        else match rd.req.cls with
          | some c => if s2.target (some c) < took then s2.bump .regu 0 F.REGU_MISS_TARGET_MISS 1 c else s2
          | none => s2
      (if rd.req.kind.isRead then s3.startRunahead rd else s3).settle
    | _, _ => s

/-- READ_EGRESS (R51). -/
def State.cmdReadEgress (s : State) (id at10 : Nat) : State := s.egress id at10
/-- MEDIA_READ_RETURN (R193). -/
def State.cmdMediaReadReturn (s : State) (id : Nat) (errs : List LineErr) (metas : List MetaLoss) : State :=
  match s.rdOf id with
    | none => s
    | some rd =>
      if rd.st ≠ .media then s
      else
        let s1 := metas.foldl (fun t m => t.metaEvent m rd.req.stamp) s
        let e := rd.loc
        let lost := match e.st with
          | .hot => s1.underLoss e.vein e.loc
          | _ => (s1.granulesOf e rd.req.page).any (fun g => s1.underLoss (e.vein % 8) (s1.hotH + g / 7))
        let drop (t : State) : State := t.dropAccs (fun a => !a.write && a.id = id)
        if s1.tier.lostLines.contains (rd.req.page / 8) then ((drop s1).bad rd 1).settle
        else if lost then ((drop s1).bad rd 6).settle
        else s1.mediaReturn id errs
/-- LATE_VERDICT (R259). -/
def State.cmdLateVerdict (s : State) (id : Nat) : State := s.lateVerdict id
/-- BISNP_RESPONSE (R631). -/
def State.cmdBisnpResponse (s : State) (a page line rsp : Nat) (data : Option Line) : State := s.bisnpResponse a page line rsp data

/-- Drop the in-flight requests of an attach point whose link resets (R304): its reads, and its writes not yet held. -/
def State.dropInFlight (s : State) (a : Nat) : State :=
  let mine (r : HReq) : Bool := r.attach = some a
  let gone := s.home.reads.filter (fun r => mine r.req)
  let waiting := (s.home.queue ++ s.home.senders ++ s.home.regionWait ++ s.regu.held ++ s.home.waiting.map (fun w => w.req)).filter mine
  let s1 := (gone.map (fun r => r.req) ++ waiting).foldl (fun t r =>
    if r.admitted && r.kind.isRead then t.readGone (r.cls.getD 0) r.page else t) s
  let ids := gone.map (fun r => r.req.id)
  let s2 := { s1 with
    home := { s1.home with
      reads := s1.home.reads.filter (fun r => !mine r.req), late := s1.home.late.filter (fun r => !mine r.req)
      queue := s1.home.queue.filter (fun r => !mine r), senders := s1.home.senders.filter (fun r => !mine r)
      regionWait := s1.home.regionWait.filter (fun r => !mine r)
      -- a recall that has begun goes on; nothing follows it
      waiting := s1.home.waiting.map (fun (w : Waiting) => if w.victim || !mine w.req then w
        else { w with req := { w.req with kind := .snoopRead, who := .mover 0, admitted := false } }) }
    regu := { s1.regu with held := s1.regu.held.filter (fun r => !mine r) } }
  ((s2.dropAccs (fun x => !x.write && x.id ∈ ids)).modAtt a (fun t => { t with early := [] })).settle

end Sys2Proof.Machine
end

