-- ==== Sys2Proof/Machine/HomeCmd.lean ====
section
/-! DEFINITION. Commands of the home, the page map and the Hub Cache (R122, R312, R319 to R340, R349 to R359). -/

namespace Sys2Proof.Machine

/-- Requester of an internal owner number: engines 0 to 15, management processors 16 and 17, secure processors 18 and 19, codecs 20
and 21. -/
def intWho (o : Nat) : Requester := if o < 16 then .engine o else if o < 18 then .mgmt (o - 16) else if o < 20 then .secp (o - 18) else .codec (o - 20)
/-- An internal request, stamped now (R26, R40). -/
def State.internal (s : State) (k : ReqKind) (o page line ctx : Nat) : HReq × State :=
  let q := s.newId
  ({ id := q.1, kind := k, who := intWho o, page := page, line := line % 64, ctx := ctx, stamp := s.now, phase := s.tb.phase
     el := s.tb.elapsed.toNat }, q.2)
/-- Enter an internal request. -/
def State.enterInt (s : State) (k : ReqKind) (o page line ctx : Nat) (f : HReq → HReq := id) : State :=
  let x := s.internal k o page line ctx
  x.2.enter (f x.1)

/-- INT_RDS (R319). -/
def State.cmdIntRds (s : State) (o page line ctx hint : Nat) : State := s.enterInt .intS o page line ctx (fun r => { r with hint := hint })
/-- Does the cache hold the line in M already? Its own store is then local (R319). -/
def State.ownsM (s : State) (o page line : Nat) : Bool :=
  let e := s.dirOf page line
  e.ist = .m && e.iowner = o && (s.icLine o page line).isSome
/-- A store of the holder in M changes its line. -/
def State.localStore (s : State) (o page line : Nat) (data : Line) (mask : BitVec 64) : State := match s.icLine o page line with
  | some c => s.icPut { c with data := mergeLine c.data data mask, updates := c.updates + 1 }
  | none => s
/-- INT_RDO (R319): the line is taken in M and the cache's store is laid over it. -/
def State.cmdIntRdo (s : State) (o page line ctx : Nat) (data : Line) (mask : BitVec 64) : State :=
  if s.ownsM o page (line % 64) then s.localStore o page (line % 64) data mask
  else s.enterInt .intX o page line ctx (fun r => { r with data := data, mask := mask })
/-- INT_UPG (R319). -/
def State.cmdIntUpg (s : State) (o page line ctx : Nat) (data : Line) (mask : BitVec 64) : State :=
  if s.ownsM o page (line % 64) then s.localStore o page (line % 64) data mask
  else s.enterInt .intUpg o page line ctx (fun r => { r with data := data, mask := mask })
/-- INT_WB (R319): the dirty line and its data. -/
def State.cmdIntWb (s : State) (o page line ctx : Nat) (data : Line) : State := s.enterInt .intWb o page line ctx (fun r => { r with data := data, mask := fullMask })
/-- INT_EVICT (R319). -/
def State.cmdIntEvict (s : State) (o page line ctx : Nat) : State := s.enterInt .intEvict o page line ctx
/-- INVAL_ACK (R320): kind 0 an owner, 1 a sharing group; with the dirty data, if the cache changed the line. -/
def State.cmdInvalAck (s : State) (kind n page line : Nat) (data : Option Line) : State := s.invalAck (if kind = 0 then .owner n else .group n) page line data
/-- SNOOP_READ (R322). -/
def State.cmdSnoopRead (s : State) (o page line ctx : Nat) : State := s.enterInt .snoopRead o page line ctx
/-- FAR_ATOMIC (R325, R377): the kernel's merge of one row under a key. -/
def State.cmdFarAtomic (s : State) (q page line ctx key : Nat) (kernel : List (BitVec 8)) (vals : List (Option Nat)) : State :=
  s.enterInt .atomic q page line ctx (fun r => { r with arg := key, kernel := kernel, vals := vals, mask := fullMask })

/-- VICTIM_RECALL_DONE (R312): a victim's recall has ended; its buffer entry is freed. -/
def State.cmdVictimRecallDone (s : State) (slab hl : Nat) : State :=
  let page := pageOfHl slab hl
  let mine (w : Waiting) : Bool := w.victim && w.req.page = page && w.req.line = hl % 64
  match s.home.waiting.find? mine with
  | some w =>
    if w.awaiting.isEmpty then
      ({ s with home := { s.home with waiting := s.home.waiting.filter (fun x => !mine x)
                                      victims := s.home.victims.filter (fun v => !(v.slab = slab && v.hl = hl)) } }).settle
    else s
  | none => s

/-! ### Departure (R332, R333) -/

/-- The departing edge of an attach point: outstanding snoops count as answered with BIRspI, from here its HOSTS bit reads 0. -/
def State.departEdge (s : State) (a : Nat) : State :=
  let s1 := { s with home := { s.home with departNext := s.home.departNext.filter (· ≠ a)
                                           departing := s.home.departing.filter (fun (x : Nat × Nat) => x.1 ≠ a) ++ [(a, 0)] } }
  let s2 := s1.forN 2 (fun t d => (t.put .home d F.HOME_STATUS_DEPARTED (setBit (t.get .home d F.HOME_STATUS_DEPARTED) a true)).put .home d
    F.HOME_STATUS_SWEEPING 1)
  let s3 := { s2 with home := { s2.home with waiting := s2.home.waiting.map (fun (w : Waiting) =>
    if Holder.host a ∈ w.awaiting then
      { w with awaiting := w.awaiting.filter (· ≠ Holder.host a), unsent := w.unsent.filter (· ≠ a), lastRsp := some s2.tb.elapsed.toNat }
    else w) } }
  s3.finishWaits
/-- Departing edges of the stroke that begins. -/
def State.departEdges (s : State) : State := s.home.departNext.foldl (fun t a => t.departEdge a) s
/-- An attach point is to depart at the next stroke edge. -/
def State.depart (s : State) (a : Nat) : State := { s with home := { s.home with departNext := addOnce s.home.departNext a } }

/-- SWEEP_DONE (R332): both sweeps of a departed attach point have ended: its bit leaves every entry, and a link that has retrained
since may enable CXL.mem. -/
def State.cmdSweepDone (s : State) (a : Nat) : State :=
  if s.home.departing.any (fun x => x.1 = a) then
      let drops := (s.home.dir.filter (fun (x : Nat × DirEnt) => x.2.hst = .a && x.2.hosts.testBit a))
      let s1 := drops.foldl (fun t x => t.bump .home (x.1 / 4194304 % 2) F.HOME_DEPARTED_DROPS_COUNT) s
      let clr (e : DirEnt) : DirEnt :=
        let h := setBit e.hosts a false
        { e with hosts := h, hst := if h = 0 then .i else e.hst }
      let s2 := { s1 with home := { s1.home with
        dir := s1.home.dir.filterMap (fun (x : Nat × DirEnt) => if (clr x.2).unused then none else some (x.1, clr x.2))
        departing := s1.home.departing.filter (fun (x : Nat × Nat) => x.1 ≠ a) } }
      let still := !s2.home.departing.isEmpty
      let s2 := if (s2.att a).memWait && s2.linkUp a then
          (s2.modAtt a (fun x => { x with memWait := false })).setLink a F.PORT_LINK_MEM_EN 1
        else s2
      (s2.forN 2 (fun t d =>
        ((t.put .home d F.HOME_STATUS_DEPARTED (setBit (t.get .home d F.HOME_STATUS_DEPARTED) a false)).put .home d F.HOME_STATUS_SWEEPING
          (b2n still)).raise .home d 18)).settle
    else s

/-! ### Unknown regions and the hand-back (R334 to R336) -/

/-- Does a committed decoder of the attach point map part of a region? -/
def State.mapsRegion (s : State) (a region : Nat) : Bool :=
  s.linkUp a && (s.committedDecs a).any (fun x =>
    x.2 < (region + 1) * 4194304 && region * 4194304 < x.2 + s.aliasSpan (portOf a) x.1)

/-- REGION_RESOLVE (R335): the first request that waits on an unknown region starts its resolution. -/
def State.cmdRegionResolve (s : State) : State :=
  match s.home.resolving, s.home.regionWait with
    | none, r :: _ =>
      let key := regionKey r.page
      let reg := regionOf r.page
      let s1 := { s with home := { s.home with resolving := some key } }
      let s2 := s1.forN 16 (fun t a =>
        if t.mapsRegion a reg && !t.gone a then (t.bump .home (t.homeSlab r.page) F.HOME_BISNP_SENT_COUNT 8192).emit (.snoopRegion a reg) else t)
      let mine := s2.home.icache.filter (fun c => regionKey c.page = key)
      mine.foldl (fun t c =>
        let u := t.icDrop c.owner c.page c.line
        if c.dirty then u.writeBack c.owner c.page c.line c.data else u) s2
    | _, _ => s
/-- REGION_RESOLVED (R335): the writebacks that answered come first; the region is known and its requests are ordered. -/
def State.cmdRegionResolved (s : State) (wbs : List (Nat × Nat × Nat × Line)) : State :=
  match s.home.resolving with
    | none => s
    | some key =>
      let s1 := wbs.foldl (fun t w => if regionKey w.2.1 = key then t.hostWriteBack w.1 w.2.1 w.2.2.1 w.2.2.2 else t) s
      let sl := 1 - key / 524288
      let ready := s1.home.regionWait.filter (fun r => regionKey r.page = key)
      let s2 := { s1 with home := { s1.home with unknown := s1.home.unknown.filter (· ≠ key), resolving := none
                                                 regionWait := s1.home.regionWait.filter (fun r => regionKey r.page ≠ key) } }
      let s3 := (s2.put .home sl F.HOME_UNKNOWN_REGIONS_REGIONS s2.home.unknown.length).raise .home sl 20
      ready.foldl (fun t r => t.enter r) s3

/-- Survivor that serves as acting home. -/
def State.actingHome (s : State) : Option Nat := (List.range 2).find? (fun d => s.bit .home d F.HOME_STATUS_ACTING)
/-- HANDBACK (R336, R346): once every Diptych is PAIRED, the survivor sweeps its Hub Cache of the returning Slab's pages and begins the
transfer. -/
def State.cmdHandback (s : State) : State :=
  match s.actingHome with
    | some d =>
      if s.home.handback && !s.bit .home d F.HOME_STATUS_HANDBACK then
        (s.hcSweep d (fun _ _ e => homeOf e.page ≠ d)).put .home d F.HOME_STATUS_HANDBACK 1
      else s
    | none => s
/-- HANDBACK_DONE (R228, R336): the returning Slab is home for its pages, with the entries, census and unknown marks it was sent. -/
def State.cmdHandbackDone (s : State) : State :=
  match s.actingHome with
    | some d =>
      if s.bit .home d F.HOME_STATUS_HANDBACK then
        let s1 := (((s.put .home d F.HOME_STATUS_HANDBACK 0).put .home d F.HOME_STATUS_ACTING 0).raise .home d 17).raise .home d 19
        let s2 := { s1 with home := { s1.home with handback := false }
                            hub := { s1.hub with slots := s1.hub.slots.map (fun (x : HlbSlot) => { x with slab := homeOf x.page }) } }
        let n := s2.home.unknown.length
        (s2.put .home d F.HOME_UNKNOWN_REGIONS_REGIONS 0).put .home (1 - d) F.HOME_UNKNOWN_REGIONS_REGIONS n
      else s
    | none => s

/-- DIRQ (R340): a write of HOME_DIRQ_CTL. -/
def State.cmdDirq (s : State) (agent slab line : Nat) : State :=
  s.fieldWrite agent .home slab F.HOME_DIRQ_CTL_LINE (fun s =>
    let s1 := s.put .home slab F.HOME_DIRQ_CTL_LINE line
    if s1.bit .home slab F.HOME_DIRQ_STATUS_BUSY then s1
    else
      let page := s1.get .home slab F.HOME_DIRQ_PAGE_PAGE
      if s1.homeSlab page ≠ slab then
        ((s1.put .home slab F.HOME_DIRQ_STATUS_NOT_HOME 1).put .home slab F.HOME_DIRQ_STATUS_DONE 1).put .home slab F.HOME_DIRQ_STATUS_HIT 0
      else
        (s1.put .home slab F.HOME_DIRQ_STATUS_BUSY 1).enterInt .dirq 16 page line 0 (fun r => { r with slab := slab }))

/-! ### PMAP commands (R111, R122) -/

/-- A PMAP command on a Slab's page (R122). A page that does not exist and is not homed on the Slab sets OUT_OF_RANGE (DESIGN CHOICE, log
entry 137). -/
def State.pmapCmd (s : State) (slab : Nat) (k : ReqKind) : State :=
  if s.bit .pmap slab F.PMAP_CMD_STATUS_BUSY then s
  else
    let page := s.get .pmap slab F.PMAP_PAGE_PAGE
    if !s.pageExists page then s.pmapDone slab (some F.PMAP_CMD_STATUS_OUT_OF_RANGE)
    else if s.homeSlab page ≠ slab then s.pmapDone slab (some F.PMAP_CMD_STATUS_NOT_HOME)
    else (s.put .pmap slab F.PMAP_CMD_STATUS_BUSY 1).enterInt k 16 page 0 0 (fun r => { r with slab := slab })
/-- PMAP_READ_ENTRY (R122). -/
def State.cmdPmapReadEntry (s : State) (agent slab : Nat) : State := s.fieldWrite agent .pmap slab F.PMAP_CMD_OP (fun s => s.pmapCmd slab .pmapRead)
/-- PMAP_PIN (R111). -/
def State.cmdPmapPin (s : State) (agent slab : Nat) : State := s.fieldWrite agent .pmap slab F.PMAP_CMD_OP (fun s => s.pmapCmd slab .pin)
/-- PMAP_UNPIN (R111). -/
def State.cmdPmapUnpin (s : State) (agent slab : Nat) : State := s.fieldWrite agent .pmap slab F.PMAP_CMD_OP (fun s => s.pmapCmd slab .unpin)
/-- PMAP_DISCARD (R105, R324). -/
def State.cmdPmapDiscard (s : State) (agent slab : Nat) : State := s.fieldWrite agent .pmap slab F.PMAP_CMD_OP (fun s => s.pmapCmd slab .discard)

/-! ### Hub Cache (R347, R349, R351 to R359) -/

/-- PREFETCH_INSTALL (R351, R347): a prefetched line returns with the error patterns that lay over it. -/
def State.cmdPrefetchInstall (s : State) (page line : Nat) (err : LineErr) : State :=
  match s.hub.prefetch.find? (fun x => x.2.1 = page && x.2.2.1 = line) with
    | none => s
    | some p =>
      let s1 := { s with hub := { s.hub with prefetch := s.hub.prefetch.filter (fun x => x ≠ p) } }
      let e := s1.entry page
      let dropped := decide ((page, line) ∈ s1.hub.dirtied) || e.st ≠ .hot
      let done (t : State) : State := { t with hub := { t.hub with dirtied := t.hub.dirtied.filter (fun x => x ≠ (page, line)) } }
      if dropped then done (s1.hcInstall p.1 0 page {} p.2.2.2 true true)
      else
        let r : HReq := { id := 0, kind := .snoopRead, who := .host 0, page := page, line := line }
        match s1.pickCopy e.vein e.loc r with
        | none => done s1
        | some v =>
          let key := s1.hotKey v e.loc line
          let g := s1.fetchMac key page line (s1.stored key) err (s1.partner v e.loc line)
          match g.1 with
          | .data x left =>
            if macOk x left (s1.bindHot e.vein e.loc line page e.ctx 0) && !x.marker then
              done (g.2.hcInstall p.1 (hotName e.vein e.loc line) page { x with err := 0 } p.2.2.2 true false)
            else done g.2
          | _ => done g.2

/-- RUNAHEAD_INSTALL (R338, R349): the next sub-block of a page's run-ahead fill installs its sixteen lines, or the fill is squashed. -/
def State.cmdRunaheadInstall (s : State) (page : Nat) : State :=
  match s.raSlot page with
    | none => s
    | some x =>
      let sl := s.homeSlab page
      match x.left with
      | [] => s
      | j :: rest =>
        if !x.ready then (if s.laneHas sl (aheadId page) then s else s.askLane sl { level := 3, stamp := s.now, id := aheadId page })
        else if s.wstampOf page ≠ x.ws then (s.dropSlot page true).bump .home sl F.HOME_WSTAMP_SQUASH_COUNT
        else match (if memHeadOk x.image ((s.entry page).gm1 + 1) then decodeSubOf x.image j else none) with
          | none => s.putSlot { x with left := [] }
          | some sub =>
            let ls : List HeldLine := (List.range 16).map (fun i => { line := 16 * j + i, data := imageLine sub i })
            (s.putSlot { x with left := rest, lines := x.lines ++ ls }).bump .hcac sl F.HCAC_RUNAHEAD_FILLS_COUNT

/-- CHUNK_DRAIN (R355 to R357): a chunk entry drains as one whole-chunk write; its zero lines are data in media from here on. -/
def State.cmdChunkDrain (s : State) (vein ofs chunk : Nat) : State :=
  { s with hub := { s.hub with vlb := s.hub.vlb.filter (fun x => !(x.vein = vein && x.ofs = ofs && x.chunk = chunk)) } }

/-- A Hub Cache command on a page (R358, R359). -/
def State.hcacPageCmd (s : State) (agent slab op : Nat) : State :=
  if s.bit .hcac slab F.HCAC_CMD_STATUS_BUSY then s
  else
    let page := s.get .hcac slab F.HCAC_CMD_PAGE_PAGE
    if !s.pageExists page then s.hcacDone slab (some F.HCAC_CMD_STATUS_OUT_OF_RANGE)
    else if s.homeSlab page ≠ slab then s.hcacDone slab (some F.HCAC_CMD_STATUS_NOT_HOME)
    else
      let t := (s.put .hcac slab F.HCAC_CMD_STATUS_BUSY 1).enterInt .cachePage (if isSecp agent then 18 else 16) page 0 0
        (fun r => { r with slab := slab, op := op })
      let held := match t.slotOf page with
        | some x => x.lines
        | none => []
      { t with hub := { t.hub with cleaning := t.hub.cleaning.filter (fun c => c.1 ≠ slab) ++
        [(slab, held, t.hub.vlb.filter (fun x => x.page = page), t.hub.wrHeld.filter (fun w => w.req.page = page))] } }
/-- Invalidate one way of one set (R358, R359): a secure way only for the secure processor. -/
def State.hcacSetWay (s : State) (agent slab set way : Nat) : State :=
  if s.bit .hcac slab F.HCAC_CMD_STATUS_BUSY then s
  else if 16 - s.secureWays slab ≤ way && !isSecp agent then s.hcacDone slab (some F.HCAC_CMD_STATUS_WORLD_DENIED)
  else
    let t := s.hcSweep slab (fun st w _ => decide (st = set) && decide (w = way)) false
    { t.put .hcac slab F.HCAC_CMD_STATUS_BUSY 1 with
      hub := { t.hub with cmds := t.hub.cmds.filter (fun c => c.1 ≠ slab) ++ [(slab, 4, 0, agent)] } }
/-- The sweep of all entries begins (R358, R359). -/
def State.hcacAll (s : State) (agent slab : Nat) : State :=
  if s.bit .hcac slab F.HCAC_CMD_STATUS_BUSY then s
  else { s.put .hcac slab F.HCAC_CMD_STATUS_BUSY 1 with
    hub := { s.hub with cmds := s.hub.cmds.filter (fun c => c.1 ≠ slab) ++ [(slab, 5, 0, agent)] } }
/-- A write of HCAC_CMD by an agent: the command `w`, whose effect is `f`, reaches the block (R70, R358). -/
def State.hcacWrite (s : State) (agent slab : Nat) (w : ResetWork) (f : State → State) : State :=
  s.fieldWrite agent .hcac slab F.HCAC_CMD_OP (fun t => t.reaches .hcac slab w f)
/-- HCAC_INVAL_PAGE (R358). -/
def State.cmdHcacInvalPage (s : State) (agent slab : Nat) : State :=
  s.hcacWrite agent slab (.hcacPage agent 1) (fun t => t.hcacPageCmd agent slab 1)
/-- HCAC_CLEAN_PAGE (R358). -/
def State.cmdHcacCleanPage (s : State) (agent slab : Nat) : State :=
  s.hcacWrite agent slab (.hcacPage agent 2) (fun t => t.hcacPageCmd agent slab 2)
/-- HCAC_CLEAN_INVAL_PAGE (R358). -/
def State.cmdHcacCleanInvalPage (s : State) (agent slab : Nat) : State :=
  s.hcacWrite agent slab (.hcacPage agent 3) (fun t => t.hcacPageCmd agent slab 3)
/-- HCAC_INVAL_SET_WAY (R358, R359). -/
def State.cmdHcacInvalSetWay (s : State) (agent slab set way : Nat) : State :=
  s.hcacWrite agent slab (.hcacSetWay agent set way) (fun t => t.hcacSetWay agent slab set way)
/-- HCAC_INVAL_ALL (R358, R359). -/
def State.cmdHcacInvalAll (s : State) (agent slab : Nat) : State :=
  s.hcacWrite agent slab (.hcacAll agent) (fun t => t.hcacAll agent slab)

/-- Has everything a clean command waits for left the line buffers? -/
def State.cleaned (s : State) (slab page : Nat) : Bool := match s.hub.cleaning.find? (fun c => c.1 = slab) with
  | none => true
  | some c =>
    let held := match s.slotOf page with
      | some x => x.lines
      | none => []
    c.2.1.all (fun h => !(h ∈ held)) && c.2.2.1.all (fun x => !(s.hub.vlb.any (fun y => y.vein = x.vein && y.ofs = x.ofs && y.chunk = x.chunk))) &&
    c.2.2.2.all (fun w => !(w ∈ s.hub.wrHeld))
/-- HCAC_CMD_DONE (R358): a Slab's command in progress ends: a clean whose writes have reached the queues, a set/way, or a full sweep. -/
def State.cmdHcacCmdDone (s : State) (slab : Nat) : State :=
  match s.hub.cmds.find? (fun c => c.1 = slab) with
    | none => s
    | some c => match c.2.1 with
      | 2 => if s.cleaned slab c.2.2.1 then s.hcacDone slab else s
      | 3 => if s.cleaned slab c.2.2.1 then (s.hcPageInval c.2.2.1).hcacDone slab else s
      | 5 =>
        let sec := isSecp c.2.2.2
        let t := s.hcSweep slab (fun _ w _ => sec || decide (w < 16 - s.secureWays slab)) false
        ({ t with hub := { t.hub with slots := t.hub.slots.filter (fun x =>
          !(x.slab = slab && x.runahead && (sec || !(t.ctx x.ctx).prot))) } }).hcacDone slab
      | _ => s.hcacDone slab

/-- HCAC_REPARTITION (R353): only the secure processor; a change starts the sweep. -/
def State.cmdHcacRepartition (s : State) (agent slab ways : Nat) : State :=
  let off := pg .hcac slab + F.HCAC_PART_SECURE_WAYS.off
  match s.dropCause agent off 4 true with
  | some c => s.denied agent off c true
  | none =>
    if !isSecp agent then s.denied agent off 1 true
    else if s.bit .hcac slab F.HCAC_PART_REPART_BUSY || ways = s.get .hcac slab F.HCAC_PART_SECURE_WAYS then s
    else { s.put .hcac slab F.HCAC_PART_REPART_BUSY 1 with
      hub := { s.hub with repart := s.hub.repart.filter (fun x => x.1 ≠ slab) ++ [(slab, ways)] } }
/-- REPART_DONE (R346, R353): entries in ways that change partition are gone, and the new partition governs. -/
def State.cmdRepartDone (s : State) (slab : Nat) : State :=
  match s.hub.repart.find? (fun x => x.1 = slab) with
    | none => s
    | some x =>
      let old := s.secureWays slab
      let new := min 8 x.2
      let t := s.hcSweep slab (fun _ w _ => decide (16 - old ≤ w) != decide (16 - new ≤ w))
      let u := (t.put .hcac slab F.HCAC_PART_SECURE_WAYS x.2).put .hcac slab F.HCAC_PART_REPART_BUSY 0
      ({ u with hub := { u.hub with repart := u.hub.repart.filter (fun y => y.1 ≠ slab) } }).raise .hcac slab 17

end Sys2Proof.Machine
end

