-- ==== Sys2Proof/Machine/Port.lean ====
section
/-! DEFINITION. Host links, their resets and their decoders (R273 to R281, R304), IDE failures (R290), the page interrupt vector
(R293), and host configuration writes (R496). -/

namespace Sys2Proof.Machine

/-! ### Links -/

/-- Abort the mailbox command of an attach point (R304): an injection or clearing of poison not yet ordered. One whose recall has begun
leaves only the recall. -/
def State.abortMailbox (s : State) (a : Nat) : State :=
  let mine (r : HReq) : Bool := (r.kind = ReqKind.inject || r.kind = ReqKind.clearP) && r.attach = some a
  let t := { s with
    home := { s.home with
      queue := s.home.queue.filter (fun r => !mine r), senders := s.home.senders.filter (fun r => !mine r)
      regionWait := s.home.regionWait.filter (fun r => !mine r)
      waiting := s.home.waiting.map (fun (w : Waiting) => if w.victim || !mine w.req then w
        else { w with req := { w.req with kind := .snoopRead, who := .mover 0 } }) }
    ports := { s.ports with fwOwner := if s.ports.fwOwner = some a then none else s.ports.fwOwner } }
  t.settle

/-- Fields of PORT_LINK a link that goes down loses. -/
def linkFields : List Fld :=
  [F.PORT_LINK_UP, F.PORT_LINK_WIDTH, F.PORT_LINK_SPEED, F.PORT_LINK_FLIT256, F.PORT_LINK_MEM_EN, F.PORT_LINK_IDE_SECURE, F.PORT_LINK_VIRAL]

/-- Uncommit and clear the decoders of an attach point (R304). -/
def State.clearDecoders (s : State) (a : Nat) : State :=
  let keys := (s.decNums a).map (fun d => 8 * portOf a + d)
  { s with ports := { s.ports with
      hdm := s.ports.hdm.filter (fun x => !(x.1 ∈ keys))
      hdmNext := s.ports.hdmNext.filter (fun x => !(x.1 ∈ keys)) } }

/-- A link leaves service (R304, R332): its decoders are cleared, viral ends, its mailbox command is aborted, in-flight reads and writes not
yet held are dropped, and its attach point departs. -/
def State.linkFalls (s : State) (a : Nat) : State :=
  let up := s.linkUp a
  let s1 := linkFields.foldl (fun t f => t.setLink a f 0) s
  let s2 := ((s1.clearDecoders a).abortMailbox a).dropInFlight a
  let s3 := s2.modAtt a (fun t => { t with memWait := false, bme := false, d3 := false, msixOn := false })
  if up then (s3.depart a).raise .port (portOf a) 16 else s3

/-- Halves of a port under its SPLIT. -/
def State.halves (s : State) (p : Nat) : List Nat := if s.bit .port p F.PORT_CFG_SPLIT then [2 * p, 2 * p + 1] else [2 * p]
/-- Does the staged copy of a port change SPLIT or MAX_SPEED? -/
def State.formChanges (s : State) (p : Nat) : Bool :=
  s.getS .port p F.PORT_CFG_SPLIT ≠ s.get .port p F.PORT_CFG_SPLIT || s.getS .port p F.PORT_CFG_MAX_SPEED ≠ s.get .port p F.PORT_CFG_MAX_SPEED
/-- A conventional reset of an attach point's link: a SPLIT or MAX_SPEED change that waits reaches its activation point once every half has
been reset (R273). -/
def State.convReset (s : State) (a : Nat) : State :=
  let p := portOf a
  let s1 := s.linkFalls a
  if s1.bit .port p F.HDR_STATUS_COMMIT_PENDING && s1.formChanges p then
    let s2 := s1.modAtt a (fun t => { t with sawReset := true })
    if (s2.halves p).all (fun x => (s2.att x).sawReset) then { s2 with actDue := addOnce s2.actDue (pg .port p) } else s2
  else s1

/-- May the links train at all: no reset is flushing (R587), the clock is not gated (R601), the reference is there (R603), the wire of the port is sound (R537), the Slab present? -/
def State.mayTrain (s : State) (a : Nat) : Bool :=
  s.hasAttach a && s.present (slabOfAttach a) && !(s.att a).linkBarred && (s.boot.refPresent || s.get .rstc 0 F.RSTC_STRAPS_CLK_MODE ≠ 0) &&
  !(s.get .clkc 0 F.CLKC_GATE_STATUS_GATED).testBit (portOf a) && !s.boot.inReset.any (fun r => r.stage = .flush)
/-- Factory recovery and test clock mode keep links in plain PCIe (R596). -/
def State.plainPcie (s : State) : Bool := s.get .rstc 0 F.RSTC_STRAPS_BOOT_SRC = 3 || s.get .rstc 0 F.RSTC_STRAPS_CLK_MODE = 3
/-- MAX_SPEED as it governs: other codes count as 0b101 (R305). -/
def State.maxSpeed (s : State) (p : Nat) : Nat := min 5 (s.get .port p F.PORT_CFG_MAX_SPEED)

/-- A link trains (R274): `width` 0 is x2 or x1 only, 1 x4, 2 x8, 3 x16. -/
def State.linkTrains (s : State) (a width speed : Nat) (flit256 memOn : Bool) : State :=
  let p := portOf a
  let full := if s.bit .port p F.PORT_CFG_SPLIT then 2 else 3
  let w := min width full
  if w = 0 then (if s.linkUp a then s.linkFalls a else s).setLink a F.PORT_LINK_TRAIN_NARROW 1
  else
    let flit := flit256 && !s.plainPcie
    let mem := flit && memOn
    let departing := a ∈ s.home.departNext || s.home.departing.any (fun x => x.1 = a)
    let s0 := if s.linkUp a then s.setLink a F.PORT_RETRAIN_COUNT (min 0xFFFFFFFF (s.link a F.PORT_RETRAIN_COUNT + 1)) else s
    let was := s.link a F.PORT_LINK_DEGRADED = 1
    let s1 := (((((s0.setLink a F.PORT_LINK_UP 1).setLink a F.PORT_LINK_WIDTH w).setLink a F.PORT_LINK_SPEED (min speed (s.maxSpeed p))).setLink a
      F.PORT_LINK_FLIT256 (b2n flit)).setLink a F.PORT_LINK_MEM_EN (b2n (mem && !departing))).setLink a F.PORT_LINK_TRAIN_NARROW 0
    let s2 := (s1.modAtt a (fun t => { t with memWait := mem && departing })).setLink a F.PORT_LINK_DEGRADED (b2n (decide (w < full)))
    let s3 := s2.raise .port p 16
    if w < full then
      if was then s3 else (s3.raise .port p 17).logEvent a { evOf 1 0x07 1 p with stroke := s.now }
    else if was then s3.logEvent a { evOf 0 0x08 0 p with stroke := s.now }
    else s3

/-- LINK_UP (R274, R275): a link finishes training; `memOn` is what the host asks for CXL.mem. -/
def State.cmdLinkUp (s : State) (a width speed : Nat) (flit256 memOn : Bool) : State := if s.mayTrain a then s.linkTrains a width speed flit256 memOn else s
/-- Count a retrain of a link (R305). -/
def State.countRetrain (s : State) (a : Nat) : State :=
  s.setLink a F.PORT_RETRAIN_COUNT (min 0xFFFFFFFF (s.link a F.PORT_RETRAIN_COUNT + 1))
/-- LINK_DOWN (R304). -/
def State.cmdLinkDown (s : State) (a : Nat) : State := if s.linkUp a then (s.linkFalls a).countRetrain a else s
/-- PERST (R304): a conventional reset by the attach point's pin. -/
def State.cmdPerst (s : State) (a : Nat) : State := if s.hasAttach a then (s.convReset a).countRetrain a else s
/-- HOT_RESET (R304): a conventional reset over a link that is up. -/
def State.cmdHotReset (s : State) (a : Nat) : State := if s.linkUp a then (s.convReset a).countRetrain a else s
/-- FLR (R304): the mailbox command is aborted, MSI-X and Bus Master Enable are cleared; the link, decoders and viral stay. -/
def State.cmdFlr (s : State) (a : Nat) : State :=
  if s.linkUp a then (s.abortMailbox a).modAtt a (fun t => { t with bme := false, d3 := false, msixOn := false }) else s
/-- What the configuration space of an attach point's function shows (R276, R277). -/
structure FnConfig where
  vendor : BitVec 16 := Config.vendorId
  classCode : BitVec 24 := 0x050210
  revision : BitVec 8 := 0x0B
  /-- the device serial number: the module's, in every function -/
  serial : BitVec 64 := Config.serial
  d3 : Bool := false
  bme : Bool := false
  msixOn : Bool := false
  /-- Memory Active and a ready Media Status -/
  memActive : Bool := false
deriving Repr
/-- Configuration space of an attach point's function. -/
def State.fnConfig (s : State) (a : Nat) : FnConfig :=
  { d3 := (s.att a).d3, bme := (s.att a).bme, msixOn := (s.att a).msixOn, memActive := s.bit .mod 0 F.MOD_READY_READY }
/-- A memory region of an attach point's CDAT (R276): its DPA range in bytes, DSLBIS read latency in ns and bandwidth in MB/s. -/
structure CdatRegion where
  base : Nat
  len : Nat
  dynamic : Bool
  readNs : Nat := 960
  mbps : Nat
deriving DecidableEq, Repr
/-- Trained rate of an attach point's link in MB/s: lanes times gigabits a second, by the codes of PORT_LINK; 0 while it is down. -/
def State.linkRate (s : State) (a : Nat) : Nat :=
  if s.linkUp a then 125 * [2500, 5000, 8000, 16000, 32000, 64000].getD (s.link a F.PORT_LINK_SPEED) 64000 * [0, 4, 8, 16].getD (s.link a F.PORT_LINK_WIDTH) 0 / 1000
  else 0
/-- The CDAT of an attach point (R276): the static region and the dynamic-capacity region. -/
def State.cdat (s : State) (a : Nat) : List CdatRegion :=
  let static := s.get .tier 0 F.TIER_CAP_STATIC_CAP * 2 ^ 28
  [{ base := 0, len := static, dynamic := false, mbps := s.linkRate a },
   { base := static, len := s.get .tier 0 F.TIER_CAP_LOGICAL_CAP * 2 ^ 28 - static, dynamic := true, mbps := s.linkRate a }]
/-- CONFIG_SPACE_WRITE (R304, R496): a host sets its function's power state, Bus Master Enable and MSI-X Enable. -/
def State.cmdConfigSpaceWrite (s : State) (a : Nat) (d3 bme msix : Bool) : State :=
  if s.linkUp a then s.modAtt a (fun t => { t with d3 := d3, bme := bme, msixOn := msix }) else s

/-! ### HDM decoders (R279 to R281) -/

/-- Decoders as they stand after the changes that wait for the next edge. -/
def State.hdmAhead (s : State) : State :=
  { s with ports := { s.ports with hdm := s.ports.hdmNext.foldl (fun m x => sset {} m x.1 x.2) s.ports.hdm, hdmNext := [] } }
/-- The breach of R87 by a decoder of a port at DPA base `base`: span, capacity, table. -/
def State.breaks87 (s : State) (port d size ways base : Nat) : Bool :=
  let w := s.get .port port F.PORT_DEC_ALIAS_WIDTH d
  let span := size / ways
  let al := span / 2 ^ w
  6 < w || span % (2 ^ w * 2 ^ 28) ≠ 0 || al = 0 || s.get .tier 0 F.TIER_CAP_LOGICAL_CAP * 2 ^ 28 < base + al ||
  64 < s.get .port port F.PORT_DEC_ALIAS_ALIAS_BASE d + 2 ^ w
/-- May decoder `j` of an attach point commit (R87, R279 to R281)? Decoders commit in ascending order. -/
def State.hdmOk (s : State) (a j : Nat) (x : HdmDec) : Bool :=
  let ds := s.decNums a
  let before := ds.take j
  let port := portOf a
  x.ways ∈ [1, 2, 3, 4, 6, 8, 12, 16] && x.gran ∈ [256, 512, 1024, 2048, 4096, 8192, 16384] &&
  x.base % 2 ^ 28 = 0 && x.size % 2 ^ 28 = 0 && x.size ≠ 0 && x.size % x.ways = 0 &&
  before.all (fun d => (s.dec port d).committed) &&
  !s.breaks87 port (ds.getD j 0) x.size x.ways (x.skip + (before.map (fun d => (s.dec port d).skip + s.aliasSpan port d)).sum)

/-- HDM_COMMIT (R281): a host commits or uncommits decoder `j` of its attach point, from the next stroke edge. A locked decoder keeps its
setting; a commit that fails sets Error Not Committed and changes nothing else. -/
def State.cmdHdmCommit (s : State) (a j base size ways gran pos skip : Nat) (commit lock : Bool) : State :=
  let t := s.hdmAhead
  let d := (s.decNums a).getD j 8
  let key := 8 * portOf a + d
  if !s.linkUp a || (s.decNums a).length ≤ j || ((t.dec (portOf a) d).committed && (t.dec (portOf a) d).lock) then s
  else
    let x : HdmDec := { base := base, size := size, ways := ways, gran := gran, pos := pos, skip := skip, committed := true, lock := lock }
    if !commit then { s with ports := { s.ports with hdmNext := s.ports.hdmNext ++ [(key, {})] } }
    else if t.hdmOk a j x then { s with ports := { s.ports with hdmNext := s.ports.hdmNext ++ [(key, x)] } }
    else { s with ports := { s.ports with hdm := sset {} s.ports.hdm key { s.dec (portOf a) d with err := true } } }

/-! ### IDE (R290, R291) -/

/-- IDE_FAIL (R290): the stream becomes insecure, the failure is counted and recorded at L2, and the attach point enters viral. -/
def State.cmdIdeFail (s : State) (a : Nat) : State :=
  if s.linkUp a && s.link a F.PORT_LINK_IDE_SECURE = 1 then
      let p := portOf a
      let s1 := (s.setLink a F.PORT_LINK_IDE_SECURE 0).setLink a F.PORT_IDE_FAIL_COUNT (min 0xFFFFFFFF (s.link a F.PORT_IDE_FAIL_COUNT + 1))
      let seq := s1.nextSeq
      let s2 := (s1.fault .port p 0x14 { cls := 0x14, agent := 0x10 + a, unit := p }).raise .port p 19
      s2.enterViral a 2 seq
    else s
/-- IDE_KM (R290): the secure processor answers the key messages; once the keys are set the stream is secure. -/
def State.cmdIdeKm (s : State) (a : Nat) : State :=
  if s.linkUp a && s.boot.released && s.link a F.PORT_LINK_FLIT256 = 1 then s.setLink a F.PORT_LINK_IDE_SECURE 1 else s

/-! ### Page interrupts (R293) -/

/-- Pages of a block on a Slab, or of a module block: instances by module-wide number. -/
def instsAt (b : Block) (loc : Nat) : List Nat :=
  if b.perSlab then (if loc < 2 then (List.range b.insts).map (· + loc * b.insts) else [])
  else if loc = 2 then List.range b.insts else []
/-- MOD_INT_SUM of a location (0, 1 Slabs, 2 module pages); agents of the normal world see normal-world pages only (R85). -/
def State.intSum (s : State) (loc : Nat) (secure : Bool) : Nat :=
  (Block.all.map (fun b => if (instsAt b loc).any (fun n => (secure || s.world b n = 0) && s.intOut (pg b n)) then 2 ^ b.id else 0)).foldl
    (fun x y => x ||| y) 0 % 2 ^ 32
/-- The value vector 2 of an attach point follows. -/
def State.irqNow (s : State) (a : Nat) : Bool :=
  (s.intSum 0 false ||| s.intSum 1 false ||| s.intSum 2 false) &&& s.link a F.PORT_PAGE_IRQ_BLOCK_MASK ≠ 0
/-- Vector 2 at a stroke edge. -/
def State.irqEdge (s : State) : State :=
  s.forN 16 (fun t a =>
    let x := t.att a
    let v := t.hasAttach a && t.irqNow a
    if v = x.irqWas && !x.rearm then t else
    let u := t.modAtt a (fun y => { y with irqWas := v, rearm := false })
    if v && (!x.irqWas || x.rearm) then u.msix a 2 else u)
/-- PORT_IRQ_REARM (R293): REARM_h in bit h. -/
def State.cmdPortIrqRearm (s : State) (agent port mask : Nat) : State :=
  s.fieldWrite agent .port port F.PORT_IRQ_REARM_REARM_0 (fun s =>
    s.forN 2 (fun t h => if mask.testBit h then t.modAtt (2 * port + h) (fun y => { y with rearm := true }) else t))

end Sys2Proof.Machine
end

