-- ==== Sys2Proof/Machine/TierCmd.lean ====
section
/-! DEFINITION. The tier mover (R97, R102 to R107, R110, R117, R121, R168 to R171, R215, R216): encodes, row writes, the end of each
move with its flip, compaction, recompression, relocation and the emptying of chunks that change sides; the end of a decode (R163). -/

namespace Sys2Proof.Machine

/-! ### Reading pages for a move -/

/-- The tier mover's own request for a page, stamped now. -/
def State.moverReq (s : State) (page line : Nat) : HReq :=
  { id := 0, kind := .snoopRead, who := .mover (s.homeSlab page), page := page, line := line, ctx := (s.entry page).ctx, stamp := s.now }

/-- Read one line of a hot page for an encode (R323, R198, R260): an internal dirty owner's data, else the frame's. A line that is poison or
fails ends the demotion. -/
def State.readHotLine (s : State) (page : Nat) (e : PEntry) (i : Nat) : Option Line × State :=
  let r := s.moverReq page i
  match s.ownerData (s.dirOf page i) page i with
  | some d => (some d, s)
  | none =>
    if s.lineLost e.vein e.loc i then (none, s)
    else
      let o := s.oldHot { r with ctx := e.ctx } e.vein e.loc
      match o.1 with
      | .data l => (some l, o.2)
      | .marker _ => (none, o.2)
      | .macBad m => (none, (o.2.lineAlarm (if m then 11 else 1) r i (hotName e.vein e.loc i)).askMarker r 4)
      | .lost => (none, (o.2.memFault page i 1).writeMarkerHot { r with ctx := e.ctx } e.vein e.loc 1)
      | .away => (none, o.2)

/-- Read all 64 lines of a hot page. -/
def State.readHotPage (s : State) (page : Nat) : Option (List Byte) × State :=
  let e := s.entry page
  (List.range 64).foldl (fun (acc : Option (List Byte) × State) i => match acc.1 with
    | none => acc
    | some bs =>
      let x := acc.2.readHotLine page e i
      (x.1.map (fun l => bs ++ lineBytes l), x.2)) (some [], s)

/-- Fetch and verify the image of a deep or plain page, for the tier mover or for the requester given: its bytes, and its bad lines with their codes (R198, R222, R260, R261). -/
def State.readImage (s0 : State) (page : Nat) (e : PEntry) (errs : List LineErr) (who : Option Requester := none) : List Byte × List (Nat × Nat) × State :=
  let gs := s0.granulesOf e page
  let r := { s0.moverReq page 0 with who := who.getD (.mover (s0.homeSlab page)) }
  let s := if s0.mediaIn (slabOfVein e.vein) then gs.foldl (fun t g => t.fetchAcc r e.vein (dataOfs (g / 7) (g % 7)) 8) s0 else s0
  (List.range (8 * (e.gm1 + 1))).foldl (fun (acc : List Byte × List (Nat × Nat) × State) n =>
    let t := acc.2.2
    let g := gs.getD (n / 8) 0
    let fail (c : Nat) (u : State) : List Byte × List (Nat × Nat) × State := (acc.1 ++ lineBytes 0, acc.2.1 ++ [(n, c)], u)
    if !t.mediaIn (slabOfVein e.vein) then fail 2 t
    else if t.rowLost e.vein (g / 7) || t.underLoss (e.vein % 8) (t.hotH + g / 7) then fail 6 t
    else
      let key := t.deepKey e.vein g (n % 8)
      let x := (errs.find? (fun (x : LineErr) => x.idx = n)).getD { idx := n }
      let got := t.fetchMac key page (n % 64) (t.stored key) x (.row e.vein (g / 7) (g % 7) (n % 8))
      let want := t.bindDeep e.vein e.loc g n page e.ctx 0
      match got.1 with
      | .data y left =>
        if macOk y left want && !y.marker then (acc.1 ++ lineBytes y.sealedIn.plain, acc.2.1, got.2)
        else fail 4 (got.2.lineAlarm 1 r (n % 64) want.name)
      | .marker y left => if macOk y left want then fail (markerCode y) got.2 else fail 4 (got.2.lineAlarm 11 r (n % 64) want.name)
      | .lost => fail 1 (got.2.memFault page (n % 64) 1)) ([], [], s)

/-- Counts and records of an image in memory that fails a check (R163, R168), on a Slab's CODC page, with its interrupt (R187). -/
def State.imageFault (s0 : State) (sl page cause poison : Nat) : State :=
  let s := s0.raise .codc sl (if cause = 4 then 16 else 17)
  let s1 := (s.put .codc sl F.CODC_ERR_PAGE_PAGE page).put .codc sl F.CODC_ERR_PAGE_CAUSE cause
  s1.fault .codc sl (if cause = 4 then 0x0E else 0x0D)
    { cls := 0x0D, page := page, detail := cause, poison := poison, agent := 0x40 + Block.tier.id, checker := s.checkerAt page (s.get .dprt sl F.DPRT_FLIP_CTL_LINE) }
/-- A page whose image does not decode (R163): it reads as poison until it is rewritten or discarded. -/
def State.badImage (s : State) (page : Nat) (c : DecErr) : State :=
  let s1 := (s.bump .codc (s.homeSlab page) F.CODC_DECODE_ERR_COUNT).imageFault (s.homeSlab page) page c.code 9
  { s1 with tier := { s1.tier with badImages := addOnce s1.tier.badImages page } }

/-! ### Encodes (R104, R105, R168 to R170) -/

/-- Images that wait for a Vein with room take their place (R109). -/
def State.retryPlaces (s : State) : State :=
  s.tier.moves.foldl (fun t m =>
    if !m.image.isEmpty && !m.encoded && (m.kind = .demote || m.kind = .deepToDeep || m.kind = .recallDeep) then t.placeImage m else t) s
/-- Entry of a page whose encode finds zeros only: it keeps its heat and its bits (R105, R166). -/
def State.zeroEntry (s : State) (page : Nat) : PEntry :=
  let e := s.entry page
  { st := .zero, heat := e.heat, epoch := e.epoch, pinned := e.pinned, noSpill := e.noSpill }
/-- Put an image to be placed into a move, and place it. -/
def State.giveImage (s : State) (m : Move) (image : List Byte) (isPlain : Bool) : State :=
  let m1 := { m with image := image, plain := isPlain }
  (s.setMove m1).placeImage m1
/-- The flip mask at the CRC stage corrupts the CRC field of one encoded image (R208). -/
def State.flipCrc (s : State) (page : Nat) (image : List Byte) : List Byte × State :=
  let n := s.homeSlab page
  if s.bit .dprt n F.DPRT_FLIP_CTL_ARM && s.get .dprt n F.DPRT_FLIP_CTL_STAGE = 2 && !s.bit .dprt n F.DPRT_FLIP_CTL_OFLD &&
     s.get .dprt n F.DPRT_FLIP_PAGE_PAGE = page then
    (image.take 4 ++ leBytes 4 (fieldB image 4 4 ^^^ s.get .dprt n F.DPRT_FLIP_MASK_LO_MASK_LO) ++ image.drop 8, s.flipFire n)
  else (image, s)

/-- What follows the end of a move: frames and rows that it freed are used, and a pin that waited starts its move (R107, R117). -/
def State.afterMove (s : State) (page : Nat) : State :=
  let s1 := if page ∈ s.tier.deferredPins then
      let t := { s with tier := { s.tier with deferredPins := s.tier.deferredPins.filter (· ≠ page) } }
      let e := t.entry page
      if e.pinned && (e.st = .deep || e.st = .plain || e.st = .spilled) then t.startPromote page else t
    else s
  s1.useRoom.retryPlaces

/-- A demotion's encode has ended (R104, R105, R168). -/
def State.encodeDemote (s : State) (m : Move) (slab : Nat) (selfFail : Bool) : State :=
  let page := m.page
  let x := s.readHotPage page
  match x.1 with
  | none => x.2.abandon page
  | some bytes =>
    let s1 := (({ x.2 with energy := { x.2.energy with encKib := x.2.energy.encKib + 4 } }).spend (moveAccount m) [(5, 4)]).surcharge m.effort 4
    let raw (t : State) : State := (t.bump .codc slab F.CODC_PAGES_RAW_COUNT).giveImage m bytes true
    match strataEncode m.effort bytes with
    | .zero => (s1.flip page (s1.zeroEntry page)).afterMove page
    | .plain => raw s1
    | .coded im =>
      if selfFail then raw ((s1.bump .codc slab F.CODC_VERIFY_FAIL_COUNT).imageFault slab page 4 0)
      else
        let f := s1.flipCrc page im
        (f.2.bump .codc slab F.CODC_PAGES_CODED_COUNT).giveImage m f.1 false

/-- A recompression ends with the page where it stands (R170). -/
def State.endRecomp (s : State) (m : Move) : State :=
  ((s.setEntry m.page { s.entry m.page with st := m.src }).dropMove m.page).afterMove m.page

/-- A recompression's encode has ended (R166, R168, R170): a page of zeros turns to zero, a smaller image is placed, an image that fails its
self-check is stored raw, any other is dropped. -/
def State.encodeRecomp (s : State) (m : Move) (slab : Nat) (selfFail : Bool) : State :=
  let page := m.page
  let e := { s.entry page with st := m.src }
  let x := s.readImage page e []
  let s1 := x.2.2.spend .recomp [(5 + m.effort, 4)]
  if !x.2.1.isEmpty then (s1.endRecomp m).promoteBad page (badLines (m.src = .plain) x.1 x.2.1)
  else
    let bytes : Except DecErr (List Byte) := if m.src = .plain then .ok x.1 else decodeMem x.1 (e.gm1 + 1)
    match bytes with
    | .error c => (s1.endRecomp m).badImage page c
    | .ok b => match strataEncode m.effort b with
      | .zero => (s1.flip page (s1.zeroEntry page)).afterMove page
      | .plain => s1.endRecomp m
      | .coded im =>
        if selfFail then
          let t := (s1.bump .codc slab F.CODC_VERIFY_FAIL_COUNT).imageFault slab page 4 0
          if m.src = .plain then t.endRecomp m else (t.bump .codc slab F.CODC_PAGES_RAW_COUNT).giveImage m b true
        else if (im.length + 511) / 512 < e.gm1 + 1 then
          let f := s1.flipCrc page im
          ((f.2.bump .codc slab F.CODC_RECOMP_COUNT_COUNT).bump .codc slab F.CODC_PAGES_CODED_COUNT).giveImage m f.1 false
        else s1.endRecomp m

/-- A page's encode ends, once every host asked for a line has answered (R323). -/
def State.encodeDone (s : State) (page : Nat) (selfFail : Bool) : State :=
  let at_ := (List.range 2).findSome? (fun sl => (s.laneOf sl (encodeId page) false).map (fun n => (sl, n)))
  match at_ with
  | none => s
  | some (sl, n) =>
    if s.home.waiting.any (fun w => w.req.page = page && w.req.id = encodeId page) then s
    else
      let s1 := s.freeLane sl n
      match s1.moveOf page with
      | some m =>
        if !m.image.isEmpty then s1
        else if m.kind = .demote then (s1.encodeDemote m sl selfFail).settle
        else if m.kind = .deepToDeep then (s1.encodeRecomp m sl selfFail).settle
        else s1
      | none => s1
/-- ENCODE_DONE (R168, R169): the lane that encodes a page ends. -/
def State.cmdEncodeDone (s : State) (page : Nat) (selfFail : Bool) : State := s.encodeDone page selfFail

/-- The decode of a read's image ends on its lane. -/
def State.decodeDone (s : State) (slab lane : Nat) : State := match sget none s.codec.lanes (16 * slab + lane) with
  | none => s
  | some w =>
    if w.offload || 2 ^ 32 ≤ w.id then s
    else
      let s1 := s.freeLane slab lane
      match s1.rdOf w.id with
      | some rd => if rd.st = .decode then (s1.decodeRead rd).settle else s1
      | none => s1
/-- The decode of a page for a move to hot, or its run-ahead fill, ends on its lane. -/
def State.pageDecoded (s : State) (slab lane : Nat) (w : LaneWork) : State :=
  let s1 := s.freeLane slab lane
  if 2 ^ 34 ≤ w.id then match s1.raSlot (w.id - 2 ^ 34) with
    | some x => s1.putSlot { x with ready := true }
    | none => s1
  else match s1.moveOf (w.id - 2 ^ 33) with
    | some m => s1.setMove { m with decoded := true }
    | none => s1
/-- CODEC_DECODE_DONE (R162, R163, R165): the decode of a read's image ends on its lane, which goes to the work that waits. -/
def State.cmdCodecDecodeDone (s : State) (slab lane : Nat) : State := match sget none s.codec.lanes (16 * slab + lane) with
  | some w => if !w.offload && 2 ^ 33 ≤ w.id then s.pageDecoded slab lane w else s.decodeDone slab lane
  | none => s

/-! ### Rows -/

/-- ROW_BUFFER_TIMEOUT (R102): 64 strokes after its first granule, a row is padded and written; one opened before its Vein retired a channel is
given up instead (R216). -/
def State.cmdRowBufferTimeout (s : State) (vein : Nat) : State :=
  match s.rowBuf vein with
    | none => s
    | some b => if 64 ≤ strokesSince b.first s.now then (if b.ret = s.retOfs vein then s.writeRow b else s.dropRow b).retryPlaces else s

/-- Begin a move of a deep or plain page to a new image of the same bytes (R103, R216, R218, R121): an image with a line that cannot be
rebuilt goes to hot instead. -/
def State.startRewrite (s : State) (page : Nat) (fg : Bool := false) : State :=
  let e := s.entry page
  if !(e.st = .deep || e.st = .plain) || !(s.grantLeft (if fg then .fg else .migr)) then s
  else
    let t := s.spend (if fg then .fg else .migr) [(1, 8 * (e.gm1 + 1)), (3, 8 * (e.gm1 + 1))]
    let x := t.readImage page e []
    if !x.2.1.isEmpty then x.2.2.promoteBad page (badLines (e.st = .plain) x.1 x.2.1)
    else (x.2.2.setEntry page { e with st := .moving }).giveImage { page := page, kind := .deepToDeep, src := e.st, fg := fg, paid := true } x.1 (e.st = .plain)

/-- Live pages of a row. -/
def livePages (u : RowUse) : List Nat := (u.filterMap id).dedup
/-- COMPACTION (R103): with fewer than 1/16 of a Vein's deep rows free, the live pages of its emptiest row are rewritten into new rows. -/
def State.cmdCompaction (s : State) (vein : Nat) : State :=
  if s.veinOk vein && 16 * s.freeRows vein < s.ownRows vein then
      let rows := s.tier.rows.filter (fun x => x.1 / 2 ^ 24 = vein && (livePages x.2).all (fun p => (s.moveOf p).isNone))
      let best := rows.foldl (fun (b : Option (Nat × RowUse)) x => match b with
        | none => some x
        | some y => if (x.2.filterMap id).length < (y.2.filterMap id).length then some x else b) none
      match best with
      | none => s
      | some x => (livePages x.2).foldl (fun t p => t.startRewrite p) s
    else s

/-! ### Ends of moves -/

/-- The flip of a move whose rows are written (R97, R105). -/
def State.flipDeep (s : State) (m : Move) : State :=
  let e := s.entry m.page
  let n := (m.image.length + 511) / 512
  let st : PState := if m.plain then .plain else .deep
  let t := s.flip m.page { st := st, heat := e.heat, vein := m.vein, loc := m.loc, gm1 := n - 1, epoch := e.epoch, ctx := e.ctx
                           pinned := e.pinned, noSpill := e.noSpill }
  let u := if m.src = .spilled then t.freeHandle m.donor m.handle else t
  let w := (List.range 8).foldl (fun x k => x.modDipt k (fun d => { d with relocPages := d.relocPages.filter (· ≠ m.page) })) u
  w.afterMove m.page

/-- What one line of a page becomes in its frame, a held write merged over what the image gave (R30, R207, R263). -/
def State.mergeHeld (s : State) (page i : Nat) (base : Fill) : Fill × State := match s.heldLine page i with
  | none => (base, s)
  | some h =>
    if h.poison ≠ 0 then (.poison h.poison, s)
    else if h.mask = fullMask then (.plain h.data, s)
    else match base with
      | .plain l => (.plain (mergeLine l h.data h.mask), s)
      | .poison 4 => (.poison 5, s.lineAlarm 3 (s.moverReq page i) i)
      | .poison c =>
        (.poison c, s.fault .home (s.homeSlab page) 5 { cls := 5, page := page, line := i, lineValid := true, poison := c, agent := 0x40 + Block.tier.id })

/-- Lines of a frame that the tier mover writes take their slots in each Vein (R143, R145). -/
def State.offerFrame (s : State) (k f : Nat) (ls : List Nat) : State :=
  (s.writeVeins k).foldl (fun t v => t.forN 8 (fun u o => u.offer v o 35 ((ls.filter (fun i => u.hotOfs v f i = o)).length) true)) s
/-- Write a page into the frame of its move, and flip its entry (R97, R105, R106, R356). -/
def State.landHot (s : State) (m : Move) (fills : List Fill) (zero : Nat → Bool) : State :=
  let page := m.page
  let e := s.entry page
  let x := (List.range 64).foldl (fun (acc : List Fill × State) i =>
    let y := acc.2.mergeHeld page i (fills.getD i (.plain 0))
    (acc.1 ++ [y.1], y.2)) ([], s)
  let s1 := x.2.writeFrame m.dk m.frame page e.ctx (fun i => x.1.getD i (.plain 0))
  let s2 := (s1.vlbFrame m.dk m.frame page (fun i => zero i && (s.heldLine page i).isNone)).offerFrame m.dk m.frame
    ((List.range 64).filter (fun i => !(zero i && (s.heldLine page i).isNone)))
  let s3 := s2.flip page { st := .hot, vein := m.dk, loc := m.frame, heat := e.heat, epoch := e.epoch, ctx := e.ctx, pinned := e.pinned, noSpill := e.noSpill }
  let s4 := if m.src = .spilled then s3.freeHandle m.donor m.handle else s3
  let s5 := { s4 with tier := { s4.tier with badImages := s4.tier.badImages.filter (· ≠ page), exhausted := s4.tier.exhausted.filter (fun y => y.1 ≠ page) } }
  let s6 := (List.range 8).foldl (fun t k => t.modDipt k (fun d => { d with relocPages := d.relocPages.filter (· ≠ page) })) s5
  ((s6.dropSlot page false).tellOwed page).afterMove page

/-- A move to hot ends: the image is read, verified, decoded and merged, the bad lines become markers (R105, R163, R198, R260). -/
def State.promoteDone (s : State) (m : Move) (errs : List LineErr) : State :=
  let page := m.page
  let e := { s.entry page with st := m.src }
  let x : List Byte × List (Nat × Nat) × State := if m.src = .spilled then (m.image, [], s) else s.readImage page e errs
  let isPlain := m.src = .plain || (m.src = .spilled && m.plain)
  let im := x.1
  let n := if m.src = .spilled then (im.length + 511) / 512 else e.gm1 + 1
  let bads := m.bad ++ (badLines isPlain im x.2.1).filter (fun b => !(m.bad.any (fun c => c.1 = b.1)))
  let fillAll (f : Nat → Option Fill) : List Fill := (List.range 64).map (fun i => match bads.find? (fun b => b.1 = i) with
    | some b => .poison b.2
    | none => (f i).getD (.plain 0))
  let allHeld := (List.range 64).all (fun i => (s.heldLine page i).any (fun h => h.mask = fullMask || h.poison ≠ 0))
  let fail (t : State) (c : DecErr) : State :=
    let u := if page ∈ t.tier.badImages then t else t.badImage page c
    if allHeld then u.landHot m [] (fun _ => false) else u
  if isPlain then x.2.2.landHot m (fillAll (fun i => some (.plain (imageLine im i)))) (fun _ => false)
  else if (List.range 64).all (fun i => bads.any (fun b => b.1 = i)) then x.2.2.landHot m (fillAll (fun _ => none)) (fun _ => false)
  else if !memHeadOk im n then fail x.2.2 .format
  else
    let good := (List.range 4).filter (fun j => !(bads.any (fun b => b.1 / 16 = j)))
    let subs := good.map (fun j => (j, decodeSubOf im j))
    if subs.any (fun y => y.2.isNone) then fail x.2.2 .grammar
    else
      match (if good.length = 4 then decodeMem im n else .ok []) with
      | .error c => fail x.2.2 c
      | .ok _ =>
        let line (i : Nat) : Option Fill := (subs.find? (fun y => y.1 = i / 16)).bind (fun y => y.2.map (fun b => .plain (imageLine b (i % 16))))
        x.2.2.landHot m (fillAll line) (fun i => ((strataDir im).getD (i / 16) (0, 0)).2 = 2 && !(bads.any (fun b => b.1 = i)))

/-! ### Relocation and emptying (R121, R215, R216, R218) -/

/-- Page in a frame. -/
def State.pageInFrame (s : State) (k f : Nat) : Option Nat :=
  (s.tier.pmap.find? (fun x => x.2.vein = k && x.2.loc = f && (x.2.st = .hot || (x.2.st = .moving && s.srcState x.1 = .hot)))).map (fun x => x.1)
/-- Move a frame's lines on the retired channel to its relief frame, read from the partner where it has them (R214, R215): the counters stand, the
stored lines move, and a line no source gives goes as a marker with code 0x01. -/
def State.reliefFrame (s : State) (k f : Nat) : State :=
  let page := (s.pageInFrame k f).getD noPage
  let lines := [k, k + 8].flatMap (fun v => (List.range 64).filterMap (fun i =>
    if s.retOfs v = some ((f + i) % 8) && s.veinOk v then some (v, i) else none))
  let got := lines.foldl (fun (acc : List (Nat × Nat × Option Stored) × State) x =>
    let key := acc.2.hotKey x.1 f x.2
    let g := acc.2.fetch key page x.2 (acc.2.stored key) { idx := x.2 } (acc.2.partner x.1 f x.2)
    match g.1 with
    | .data y left => (acc.1 ++ [(x.1, x.2, some { y with err := leftErr left })], g.2)
    | .marker y left => (acc.1 ++ [(x.1, x.2, some { y with err := leftErr left })], g.2)
    | .lost => (acc.1 ++ [(x.1, x.2, none)], g.2)) ([], s)
  let t := got.2.modDipt k (fun d => { d with relocFrames := d.relocFrames.filter (· ≠ f) })
  got.1.foldl (fun u x =>
    let u1 := ((u.offer ((x.1 + 8) % 16) (u.hotOfs ((x.1 + 8) % 16) f x.2.1) 35 1 false).offer x.1 (u.hotOfs x.1 f x.2.1) 35 1 true).spend .fg [(1, 2), (3, 2)]
    match x.2.2 with
    | some y => u1.putStored (u1.hotKey x.1 f x.2.1) y
    | none => (u1.memFault page x.2.1 1).writeMarkerHot { u1.moverReq page x.2.1 with ctx := (u1.entry page).ctx } k f 1) t
/-- Items still to move (DIPT_RELOC_LEFT). -/
def State.relocLeft (s : State) (k : Nat) : Nat := (s.dipt k).relocFrames.length + (s.dipt k).relocPages.length

/-- Work the tier mover starts at a stroke edge for a retiring Diptych, for a HOT_SHARE change and for recompression: pages in frames that
are to be empty are demoted, and one page a Diptych is rewritten. `recomp` admits recompression. -/
def State.moverWork (s : State) (recomp : Bool) : State :=
  let idle (t : State) (p : Nat) : Bool := (t.moveOf p).isNone
  let s0 := s.dropStaleRows.retryPlaces
  let s1 := (s0.forN 8 (fun t k => t.afterAlloc k)).forN 8 (fun t k =>
    let lim := if t.diptRet k || t.hotNext < t.hotH then t.framesAlloc k else t.hotH
    let ps := t.tier.pmap.filterMap (fun x => if x.2.st = .hot && x.2.vein = k && lim ≤ x.2.loc && !t.hasPoison x.1 then some x.1 else none)
    let t1 := ps.foldl (fun u p => if idle u p then u.startDemote p (u.diptRet k) else u) t
    let d := t1.dipt k
    -- frames that hold nothing any more need no move
    let t2 := t1.modDipt k (fun d => { d with relocFrames := d.relocFrames.filter (fun f => (t1.pageInFrame k f).isSome)
                                              relocPages := d.relocPages.filter (fun p => let st := t1.srcState p
                                                st = .deep || st = .plain) })
    if d.relocPages.any (fun p => (t1.moveOf p).isSome) then t2
    else match d.relocPages.find? (fun p => idle t1 p && t1.mediaIn (slabOfVein (t1.entry p).vein)) with
      | some p => t2.startRewrite p true
      | none => t2)
  let s2 := if s1.hotH < s1.hotNext then
      match s1.tier.rows.find? (fun x => x.1 % 2 ^ 24 < s1.hotNext - s1.hotH && (livePages x.2).any (idle s1)) with
      | some x => (livePages x.2).foldl (fun t p => if idle t p then t.startRewrite p else t) s1
      | none => s1
    else s1
  if !recomp then s2 else
  s2.forN 16 (fun t v =>
    let cur := sget 0 t.tier.recomp v
    let sl := slabOfVein v
    if cur = 0 || !t.bit .codc sl F.CODC_CTL_RECOMP_EN || !t.grantLeft .recomp || t.tier.moves.any (fun m => m.kind = .deepToDeep && (t.entry m.page).vein = v) then t
    else
      let eff := t.get .codc sl F.CODC_CTL_RECOMP_EFFORT
      let cands := sortByKey (t.tier.pmap.filterMap (fun x =>
        if (x.2.st = .deep || x.2.st = .plain) && x.2.vein = v && cur ≤ x.2.loc + 1 then some (x.2.loc, x.1) else none))
      -- the header's EFFORT of a deep page's image
      let lower (x : Nat × Nat) : Bool := match t.entry x.2 with
        | e => e.st = .plain || fieldB (lineBytes (t.stored (t.deepKey v ((t.granulesOf e x.2).headD 0) 0)).sealedIn.plain) 1 1 / 32 % 4 < eff
      match cands.find? lower with
      | none => { t with tier := { t.tier with recomp := sset 0 t.tier.recomp v 0 } }
      | some x =>
        let e := t.entry x.2
        let u := { t with tier := { t.tier with recomp := sset 0 t.tier.recomp v (x.1 + 2) } }
        let q := u.admitMove { page := x.2, kind := .deepToDeep, src := e.st, recomp := true }
        ((q.2.setEntry x.2 { e with st := .moving }).setMove q.1).askLane sl
          { level := 4, stamp := u.now, id := encodeId x.2 })

/-- TIER_MOVE_DONE (R97, R105, R106): a page's move ends, its image read with the error patterns given; a frame of a retiring Diptych moves
its lines to its relief frame. -/
def State.cmdTierMoveDone (s : State) (page : Nat) (errs : List LineErr) : State :=
  match s.moveOf page with
    | some m => match m.kind with
      | .demote | .deepToDeep | .recallDeep => if m.rowsWritten then (s.flipDeep m).settle else s
      | .promote =>
        if !(m.paid && m.hasFrame && s.mediaIn (slabOfVein (s.entry page).vein)) then s
        else if m.decodes && !m.decoded then s.askDecode page
        else (s.promoteDone m errs).settle
      | .recallHot =>
        if !(m.hasFrame && (!m.image.isEmpty || (List.range 64).all (fun i => m.bad.any (fun b => b.1 = i)))) then s
        else if m.decodes && !m.decoded then s.askDecode page
        else (s.promoteDone m errs).settle
      | _ => s
    | none =>
      let e := s.entry page
      if e.st = .hot && e.loc ∈ (s.dipt e.vein).relocFrames && e.loc < s.framesOf e.vein &&
         !((s.dipt e.vein).relocFrames.any (fun f => s.framesOf e.vein ≤ f)) &&
         [e.vein, e.vein + 8].all (fun v => (s.retOfs v).isNone || s.mediaIn (slabOfVein v)) then s.reliefFrame e.vein e.loc
      else s

/-! ### Exhaustion (R117) -/

/-- EXHAUSTION_TIMEOUT (R117): 2,048 strokes after its stamp a write still has no room; it completes, and its held lines are poison with
code 0x07 until they are rewritten; it stays held, and EXHAUSTED 1, until a frame is there. -/
def State.cmdExhaustionTimeout (s : State) (page : Nat) : State :=
  match s.tier.exhausted.find? (fun x => x.1 = page && !x.2.2 && 2048 ≤ strokesSince x.2.1 s.now) with
    | none => s
    | some _ =>
      let s1 := { s with hub := { s.hub with slots := s.hub.slots.map (fun (x : HlbSlot) =>
        if x.page = page && !x.runahead then { x with lines := x.lines.map (fun (h : HeldLine) => { h with poison := 7, mask := fullMask }) } else x) } }
      let s2 := { s1 with tier := { s1.tier with exhausted := s1.tier.exhausted.map (fun (x : Nat × Stroke × Bool) => if x.1 = page then (x.1, x.2.1, true) else x) } }
      s2.tellOwed page

end Sys2Proof.Machine
end

