-- ==== Sys2Proof/Machine/VeinCmd.lean ====
section
/-! DEFINITION. Veins and their channels (chapter 04): training, polls, refresh outside the plan, slot grants and panic; what the Veins do
at stroke edges and when their plan changes. -/

namespace Sys2Proof.Machine

/-- Channel state. -/
def State.chanSt (s : State) (c : Nat) : ChanSt := sget {} s.chans c
/-- Change a channel. -/
def State.modChan (s : State) (c : Nat) (f : ChanSt → ChanSt) : State := { s with chans := sset {} s.chans c (f (s.chanSt c)) }

/-! ### Training (R126 to R129) -/

/-- Width of a run of taps, and its centre (R127); an eye's third number is its setting. -/
def runWidth (r : Nat × Nat) : Nat := if r.2 < r.1 then 0 else r.2 - r.1 + 1
def eyeWidth (e : Nat × Nat × Nat) : Nat := runWidth (e.1, e.2.1)
/-- Centre of a run. -/
def runCentre (r : Nat × Nat) : Nat := (r.1 + r.2) / 2
def eyeCentre (e : Nat × Nat × Nat) : Nat := runCentre (e.1, e.2.1)
/-- Distance of two numbers. -/
def distance (a b : Nat) : Nat := (a - b) + (b - a)
/-- Is run `a` the better eye (R127): longer, its centre nearer tap 64, or lower? -/
def betterRun (a b : Nat × Nat) : Bool :=
  if runWidth a ≠ runWidth b then runWidth b < runWidth a
  else if distance (runCentre a) 64 ≠ distance (runCentre b) 64 then distance (runCentre a) 64 < distance (runCentre b) 64
  else a.1 < b.1
/-- The eye of a sweep: the best of its runs of passing taps; where no tap passes, a run of width 0 (R127). -/
def eyeOf (rs : PassRuns) : Nat × Nat :=
  (rs.filter (fun r => r.1 ≤ r.2 && r.2 < 128)).foldl (fun b r => if betterRun r b then r else b) (1, 0)
/-- The widest eye of a sweep over settings, the setting nearer the die default on a tie, then the lower (R127). -/
def bestSetting (dflt : Nat) (sweeps : List PassRuns) : Nat × Nat × Nat :=
  (sweeps.map eyeOf).zipIdx.foldl (fun b x =>
    let e : Nat × Nat × Nat := (x.1.1, x.1.2, x.2)
    if eyeWidth b < eyeWidth e || (eyeWidth b = eyeWidth e && distance x.2 dflt < distance b.2.2 dflt) then e else b) (1, 0, 0)
/-- Setting 4 of the eight VREF(DQ) settings is the die default (DESIGN CHOICE, log entry 141). -/
def vrefDq : Nat := 4
/-- The die default of VREF(CA), by JESD209-4 (PRESUMED, log entry 141). -/
def vrefCa : Nat := 13
/-- First tap at which the write leveling feedback goes from 0 to 1 (R126). -/
def levelTap (wl : PassRuns) : Nat := (((wl.map (fun r => r.1)).filter (fun a => 0 < a && a < 128)).foldl (fun b a => some (min a (b.getD a))) (none : Option Nat)).getD 0
/-- What a run leaves in use on a channel: read eyes with their VREF(DQ), write eyes with their leveling tap, CA centres with their VREF(CA). -/
structure Trained where
  rd : List (Nat × Nat × Nat) := []
  wr : List (Nat × Nat × Nat) := []
  ca : List (Nat × Nat) := []
deriving DecidableEq, Repr
/-- The eye rule over a run's sweeps (R126, R127). -/
def trainEyes (t : TrainRun) : Trained :=
  let lane (e : Nat) : LaneSweep := t.lanes.getD e {}
  { rd := (List.range 4).map (fun e => bestSetting vrefDq (lane e).rd)
    wr := (List.range 4).map (fun e => let w := eyeOf (lane e).wr
      (w.1, w.2, levelTap (lane e).wl))
    ca := (List.range 2).map (fun r => let b := bestSetting vrefCa (t.ca.getD r [])
      (eyeCentre b, b.2.2)) }
/-- Does a run fail on a channel: some lane's eye is narrower than EYE_MIN (R128)? -/
def State.trainFails (s : State) (c : Nat) (t : Trained) : Bool :=
  let m := s.get .chan c F.CHAN_TRAIN_CTL_EYE_MIN
  (List.range 4).any (fun e => eyeWidth (t.rd.getD e (1, 0, 0)) < m || eyeWidth (t.wr.getD e (1, 0, 0)) < m)
/-- Store what a run found. -/
def State.storeTraining (s : State) (c : Nat) (vendor : Nat) (t : Trained) : State :=
  let s1 := s.put .chan c F.CHAN_CFG_MR5_VENDOR vendor
  let s2 := s1.forN 4 (fun u e =>
    let r := t.rd.getD e (0, 0, 0)
    let w := t.wr.getD e (0, 0, 0)
    let u1 := (((u.put .chan c F.CHAN_REYE_LEFT r.1 e).put .chan c F.CHAN_REYE_RIGHT r.2.1 e).put .chan c F.CHAN_REYE_CENTRE (eyeCentre r) e).put
      .chan c F.CHAN_REYE_VREF_SEL r.2.2 e
    let u2 := (((u1.put .chan c F.CHAN_WEYE_LEFT w.1 e).put .chan c F.CHAN_WEYE_RIGHT w.2.1 e).put .chan c F.CHAN_WEYE_CENTRE (eyeCentre w) e).put
      .chan c F.CHAN_WEYE_WL_TAP w.2.2 e
    u2.modChan c (fun x => { x with trained := sset 0 x.trained e (eyeCentre r) }))
  s2.forN 2 (fun u r => (u.put .chan c F.CHAN_CA_CA_CENTRE (t.ca.getD r (0, 0)).1 r).put .chan c F.CHAN_CA_VREF_CA (t.ca.getD r (0, 0)).2 r)
/-- A training run takes a committed CHAN_TRAIN_CTL (R152). -/
def State.chanTake (s : State) (c : Nat) : State := if s.bit .chan c F.HDR_STATUS_COMMIT_PENDING then s.copyStaged .chan c else s
/-- A channel's training has ended (R128): a run that fails is followed by one more, and after that the channel is trained, or it enters service
retired. -/
def State.endTraining (s : State) (c : Nat) (t : ChanTrain) : State :=
  let e := if s.trainFails c (trainEyes t.first) then trainEyes t.again else trainEyes t.first
  let s1 := s.storeTraining c t.vendor e
  if s.trainFails c e then
    (((s1.put .chan c F.CHAN_STATUS_TRAIN_FAILED 1).raise .chan c 16).fault .chan c 0x03 { cls := 3, unit := c }).retireChannel (c / 8) (c % 8)
  else s1.put .chan c F.CHAN_STATUS_TRAINED 1

/-- TRAINING_DONE (R126 to R128): cold-reset training, which the configuration's speed grade starts, ends; `base` is what it found on every channel but those listed. -/
def State.cmdTrainingDone (s : State) (base : ChanTrain) (others : List (Nat × ChanTrain)) : State :=
  if s.boot.trained || s.get .mgmt s.primary F.MGMT_BOOT_STATUS_STAGE = 0 then s
  else
    let of (c : Nat) : ChanTrain := ((others.find? (fun x => x.1 = c)).map (fun x => x.2)).getD base
    -- a Diptych's dies are of one organisation, which its first channel tells (R123)
    let s1 := s.forN 128 (fun t c =>
      if t.present (c / 64) then ((t.chanTake c).put .chan c F.CHAN_CFG_BYTE_MODE (b2n (of (c / 8 % 8 * 8)).byteMode)).endTraining c (of c) else t)
    let s2 := s1.forN 16 (fun t v => t.setDeliverable v)
    { s2 with boot := { s2.boot with trained := true } }

/-- WARM_TRAINING_CHECK (R129): the read calibration of a Vein is repeated. `news` gives, for a channel, the new read centres of its four
lanes and what steps 2 to 6 find should it need them; a channel not listed finds its stored centres. -/
def State.cmdWarmTrainingCheck (s : State) (vein : Nat) (news : List (Nat × List Nat × ChanTrain)) : State :=
  if !(vein ∈ s.boot.warmLeft) then s
  else
    let s1 := (s.forN 8 (fun t o => t.chanTake (chanOf vein o))).forN 8 (fun t o =>
      let c := chanOf vein o
      match news.find? (fun x => x.1 = c) with
      | none => t
      | some x =>
        let far := (List.range 4).any (fun e =>
          let old := t.get .chan c F.CHAN_REYE_CENTRE e
          let n := x.2.1.getD e old
          old + 4 < n || n + 4 < old)
        if far && !t.bit .chan c F.CHAN_STATUS_RETIRED then t.endTraining c x.2.2 else t)
    let s2 := s1.setDeliverable vein
    { s2 with boot := { s2.boot with warmLeft := s2.boot.warmLeft.filter (· ≠ vein) } }

/-! ### Refresh (R132 to R142) -/

/-- A Vein takes a plan (R139, R141). -/
def State.setPlan (s : State) (v p : Nat) : State := s.put .vein v F.VEIN_STATUS_PLAN p
/-- REFab a code asks for in one stroke, in 1/65 of a command: tREFI is 8.125 strokes, halved at 0b100, quartered above; the codes
below 0b011, of which the spec gives no rate, take the normal one (DESIGN CHOICE, log entry 140). -/
def owedPerStroke (code : Nat) : Nat := if code ≤ 3 then 8 else if code = 4 then 16 else 32
/-- Show the debt. -/
def State.showDebt (s : State) (c : Nat) : State := s.put .chan c F.CHAN_STATUS_DEBT (min 8 ((s.chanSt c).owed / 65))
/-- A refresh has been issued to a channel. -/
def State.refreshed (s : State) (c : Nat) : State := (s.modChan c (fun x => { x with owed := x.owed - 65 })).showDebt c
/-- Would a channel's debt reach eight with the stroke to come? -/
def State.debtFull (s : State) (c : Nat) : Bool :=
  decide (8 * 65 ≤ (s.chanSt c).owed + owedPerStroke (s.get .chan c F.CHAN_STATUS_MR4_CODE))
/-- A refresh outside the plan in the next stroke (R140). -/
def State.force (s : State) (c : Nat) : State :=
  ((s.modVein (c / 8) (fun x => { x with forcedNext := addOnce x.forcedNext (c % 8) })).bump .vein (c / 8) F.VEIN_FORCED_REF_COUNT).raise .vein (c / 8) 20

/-- What a poll records is stamped at phase 161 (R133). -/
def State.atPoll (s : State) (f : State → State) : State :=
  let t := f { s with tb := { s.tb with phase := 161 } }
  { t with tb := { t.tb with phase := s.tb.phase } }
/-- MR4_POLL (R125, R130, R133, R137, R140, R141): the reading of a refresh slot. `centres` are the read centres the check of R130 finds. -/
def State.cmdMr4Poll (s : State) (chan code : Nat) (centres : List Nat) : State :=
  let v := chan / 8
  let o := chan % 8
  if !s.closed v o || !s.veinOk v || s.bit .chan chan F.CHAN_STATUS_RETIRED || s.get .rest 0 F.REST_STATUS_STATE = 4 || 127 < chan || 7 < code ||
     s.tb.phase < 161 || (s.chanSt chan).polled = some s.now then s
  else
    let was := s.get .chan chan F.CHAN_STATUS_MR4_CODE
    -- the reading is taken, and a ZQ calibration of an earlier slot is latched
    let s0 := s.modChan chan (fun x => { x with polled := some s.now, zqPending := if x.zqPending = some s.now then x.zqPending else none })
    let s1 := s0.put .chan chan F.CHAN_STATUS_MR4_CODE code
    let s2 := if code ≠ was then s1.raise .chan chan 17 else s1
    let s3 := if 5 ≤ code then s2.raise .chan chan 18 else s2
    let s4 := s3.put .vein v F.VEIN_STATUS_CHAN_HOT (setBit (s3.get .vein v F.VEIN_STATUS_CHAN_HOT) o (4 ≤ code))
    let s5 := if 4 ≤ code then { s4 with tb := { s4.tb with hotSeen := true, hotBad := true } } else s4
    let s6 := if 4 ≤ code && !s5.tb.hot && !(s5.chanSt chan).debtOn then s5.modChan chan (fun x => { x with debtOn := true, owed := 0 }) else s5
    let s7 := if 5 ≤ code then s6.modVein v (fun x => { x with quarterNext := x.quarterNext || code ≠ 7, quarterBad := true }) else s6
    let s8 := if 5 ≤ code && was ≤ 4 then s7.atPoll (fun t => t.fault .chan chan 0x0F { cls := 0x0F, unit := chan, detail := code }) else s7
    let s9 := if code = 7 then s8.atPoll (fun t => t.fault .chan chan 0x10 { cls := 0x10, unit := chan, detail := code }) else s8
    let s10 := s9
    -- the read-centre check
    if s10.bit .chan chan F.CHAN_TRAIN_CTL_PERIODIC_EN && !centres.isEmpty && (s10.chanSt chan).centreSitting ≠ some (sittingOf s10.now) then
      let s11 := s10.modChan chan (fun x => { x with centreSitting := some (sittingOf s10.now) })
      s11.forN 4 (fun t e =>
        let c := t.get .chan chan F.CHAN_REYE_CENTRE e
        let n := centres.getD e c
        let m := if c < n then c + 1 else if n < c then c - 1 else c
        let tr := sget 0 (t.chanSt chan).trained e
        let u := t.put .chan chan F.CHAN_REYE_CENTRE m e
        if tr + 8 < n || n + 8 < tr then u.raise .chan chan 19 else u)
    else s10

/-- FORCED_REFRESH (R140, R142): a channel's debt would reach eight. -/
def State.cmdForcedRefresh (s : State) (chan : Nat) : State :=
  if chan < 128 && s.veinOk (chan / 8) && s.debtFull chan && !((chan % 8) ∈ (s.veinSt (chan / 8)).forcedNext) then s.force chan else s

/-- Is an admitted hot read queued for a channel due by the end of the present stroke (R134, R142)? -/
def State.boundRead (s : State) (v o : Nat) : Bool :=
  s.vq.any (fun a => a.vein = v && a.ofs = o && a.hot && a.level = 2 && !a.write && strokeLe a.deadline s.now)

/-- Does a Vein run by the solo rules: its partner Slab is away, is being resynchronised from it, or has its Vein retired (R142, R218)? -/
def State.runsSolo (s : State) (v : Nat) : Bool :=
  let d := (s.dipt (v % 8)).st
  (d = .solo || d = .resync || d = .single) && s.get .dipt (v % 8) F.DIPT_STATUS_SIDE = slabOfVein v
/-- A channel's refresh slot begins: its REFab is issued, and every 32 slots a ZQ calibration starts (R125, R133). -/
def State.slotBegins (s : State) (c : Nat) : State :=
  (s.refreshed c).modChan c (fun x => if 31 ≤ x.zqCount then { x with zqCount := 0, zqPending := some s.now } else { x with zqCount := x.zqCount + 1 })

/-- What the refresh of a Vein does at the edge that begins a stroke: a debt that would reach eight forces a REFab, debts grow, forced
refreshes close their channels, the slots of the plan begin, and a solo Vein postpones a slot or makes up for one (R132, R140, R142). -/
def State.veinEdge (s : State) (v : Nat) : State :=
  let solo := s.runsSolo v
  let inUse (t : State) (o : Nat) : Bool := t.veinOk v && !t.bit .chan (chanOf v o) F.CHAN_STATUS_RETIRED
  let s1 := s.forN 8 (fun t o =>
    let c := chanOf v o
    if inUse t o && ((t.chanSt c).debtOn || solo) then
      let u := if (t.chanSt c).debtOn && !solo && t.debtFull c && !t.refreshes v o t.now && !(o ∈ (t.veinSt v).forcedNext) then t.force c else t
      (u.modChan c (fun x => { x with owed := min 1040 (x.owed + owedPerStroke (u.get .chan c F.CHAN_STATUS_MR4_CODE)) })).showDebt c
    else t)
  let s2 := s1.modVein v (fun x => { x with forced := x.forcedNext, forcedNext := [] })
  let s3a := (s2.veinSt v).forced.foldl (fun t o => t.refreshed (chanOf v o)) s2
  let s3 := s3a.forN 8 (fun t o =>
    if inUse t o && t.refreshes v o t.now && !(o ∈ (t.veinSt v).forced) && !(o ∈ (t.veinSt v).postponed) &&
       !(solo && t.boundRead v o && !t.debtFull (chanOf v o)) then t.slotBegins (chanOf v o) else t)
  -- the hot plan repays the debt (R140)
  let s4 := s3.forN 8 (fun t o =>
    if (t.chanSt (chanOf v o)).debtOn && t.plan v ≠ 0 && (t.chanSt (chanOf v o)).owed < 65 then
      (t.modChan (chanOf v o) (fun x => { x with debtOn := false, owed := if solo then x.owed else 0 })).showDebt (chanOf v o)
    else t)
  -- rows held open close at the cut-off
  let s5 := s4.modVein v (fun x => { x with held := x.held.filter (fun h => !s4.closed v h.ofs) })
  if !solo then s5.modVein v (fun x => { x with postponed := [] })
  else
    s5.forN 8 (fun t o =>
      let c := chanOf v o
      let late := o ∈ (t.veinSt v).postponed
      if t.refreshes v o t.now && !late then
        (if t.boundRead v o && !t.debtFull c then t.modVein v (fun x => { x with postponed := x.postponed ++ [o] }) else t)
      else if late && (!t.boundRead v o || t.debtFull c) then
        let u := (t.modVein v (fun x => { x with postponed := x.postponed.filter (· ≠ o), forced := addOnce x.forced o })).refreshed c
        if t.debtFull c then (u.bump .vein v F.VEIN_FORCED_REF_COUNT).raise .vein v 20 else u
      else t)

/-! ### Slots (R143 to R147) -/

/-- Write queue levels at which a channel's drain starts and ends (R143). -/
def State.setDrain (s : State) (v o : Nat) : State :=
  let n := s.queued v o true
  if s.get .vein v F.VEIN_SCHED_CTL_WQ_HIGH ≤ n then s.modVein v (fun x => { x with draining := addOnce x.draining o })
  else if n ≤ s.get .vein v F.VEIN_SCHED_CTL_WQ_LOW then s.modVein v (fun x => { x with draining := x.draining.filter (· ≠ o) })
  else s
/-- Steering reserve and data slots a channel has given in the stroke. -/
def State.reserveOf (s : State) (v o : Nat) : Nat := sget 0 (s.veinSt v).reserveUsed o
def State.slotsOf (s : State) (v o : Nat) : Nat := sget 0 (s.veinSt v).slotsUsed o
/-- Level of a queued access now: steering and rebuild reads beyond the reserve go ahead of all other work (R135); drains and panic (R143,
R146). -/
def State.levelNow (s : State) (a : VAcc) : Nat :=
  if a.steer && slotsReserve ≤ s.reserveOf a.vein a.ofs then 1
  else if a.write && a.ofs ∈ (s.veinSt a.vein).draining then 3
  else if a.who < 16 && !a.admitted then (if a.who ∈ (s.veinSt a.vein).panic then 4 else 6)
  else a.level
/-- Rank of level-7 work (R145): resync, tier mover, codec offload, scrub. -/
def bgRank (who : Nat) : Nat := if who = 36 then 0 else if who = 35 then 1 else if who = 34 then 2 else 3
/-- Does an access go before another of its channel (R145)? `hits` are the accesses whose row is open. -/
def State.accBefore (s : State) (hits : List Nat) (a b : VAcc) : Bool :=
  let la := s.levelNow a
  let lb := s.levelNow b
  let draining (x : VAcc) : Bool := x.write && x.ofs ∈ (s.veinSt x.vein).draining
  if la ≠ lb then la < lb
  else if la = 3 && draining a ≠ draining b then draining a
  else if la = 3 && draining a then false
  else if la = 7 && bgRank a.who ≠ bgRank b.who then bgRank a.who < bgRank b.who
  else if a.deadline ≠ b.deadline then strokeLe a.deadline b.deadline
  else if decide (a.id ∈ hits) ≠ decide (b.id ∈ hits) then decide (a.id ∈ hits)
  else if a.stamp ≠ b.stamp then strokeLe a.stamp b.stamp
  else a.who < b.who
/-- Best access of a list, the earlier entry on a tie. -/
def State.bestAcc (s : State) (hits : List Nat) (l : List VAcc) : Option VAcc :=
  l.foldl (fun best a => match best with
    | none => some a
    | some b => if s.accBefore hits a b then some a else some b) none

/-- Does a channel close for a refresh in the next stroke? -/
def State.closesNext (s : State) (v o : Nat) : Bool := s.refreshes v o (s.now + 1) || o ∈ (s.veinSt v).forcedNext
/-- Does a channel take column commands now: it is open, and the cut-off of a slot in the next stroke, phase 180, has not come (R133)? -/
def State.chanOpen (s : State) (v o : Nat) : Bool := s.veinOk v && !s.closed v o && !(180 ≤ s.tb.phase && s.closesNext v o)
/-- Accesses of a channel that a slot of this stroke is left for: data slots, and the reserve for steering and rebuild reads (R131, R135). -/
def State.servable (s : State) (v o : Nat) : List VAcc :=
  let q := s.vq.filter (fun a => a.vein = v && a.ofs = o)
  if s.slotsOf v o < s.dataSlots v then q else if s.reserveOf v o < slotsReserve then q.filter (fun a => a.steer) else []
/-- An admitted host read that stands in a channel's queue for a slot of this stroke. -/
def State.readWaits (s : State) (v o : Nat) : Bool := s.chanOpen v o && (s.servable v o).any (fun a => a.admitted && !a.write)
/-- Rows a channel holds open now (R144). -/
def State.rowsHeld (s : State) (v o : Nat) : List HeldRow :=
  (s.veinSt v).held.filter (fun h => h.ofs = o && (s.tb.elapsed.toNat < h.el || (s.tb.elapsed.toNat = h.el && s.tb.phase ≤ h.phase)))
/-- What an access leaves of a channel's held rows (R144): an activate at a higher level or for an earlier deadline closes them at once, and the
access's own row stays open for HINT_HOLD ticks when it is hinted as a stream, else it closes. -/
def State.holdRow (s : State) (a : VAcc) (lvl : Nat) (hit : Bool) : State :=
  let held := s.rowsHeld a.vein a.ofs
  let left := if hit then held.drop 1 else held.filter (fun h => !(lvl < h.level || (a.deadline ≠ h.deadline && strokeLe a.deadline h.deadline)))
  let t := s.tb.phase + s.get .vein a.vein F.VEIN_SCHED_CTL_HINT_HOLD
  let row : HeldRow := { ofs := a.ofs, el := s.tb.elapsed.toNat + t / s.tb.len, phase := t % s.tb.len, level := lvl, deadline := a.deadline }
  s.modVein a.vein (fun x => { x with held := x.held.filter (fun h => h.ofs ≠ a.ofs) ++ (if a.hint = 1 then left ++ [row] else left) })
/-- VEIN_SLOT_GRANT (R131, R133 to R135, R144, R145, R147): an open channel with a slot left serves its best access; what lost the slot is shown.
`hits` are accesses to rows that are open, which only a held row can be (DESIGN CHOICE, log entry 27). A channel whose slot comes in the next
stroke serves its admitted reads before another channel serves reads of that level. -/
def State.cmdVeinSlotGrant (s0 : State) (vein ofs : Nat) (hits0 : List Nat) : State :=
  let s := s0.setDrain vein ofs
  let q := s.vq.filter (fun a => a.vein = vein && a.ofs = ofs)
  let hits := if (s.rowsHeld vein ofs).isEmpty then [] else hits0
  if !s.chanOpen vein ofs then s0
  else match s.bestAcc hits (s.servable vein ofs) with
  | none => s
  | some a =>
    let lvl := s.levelNow a
    if lvl = 2 && !s.closesNext vein ofs && (List.range 8).any (fun o => o ≠ ofs && s.closesNext vein o && s.readWaits vein o) then s else
    let rest := q.erase a
    let s1 := ({ s with vq := if a.count ≤ 1 then s.vq.erase a else s.vq.map (fun x => if x = a then { a with count := a.count - 1 } else x) } : State).holdRow
      a lvl (decide (a.id ∈ hits))
    let qe := rest.filter (fun x => s.levelNow x = 5)
    let s2 := if (lvl = 3 || lvl = 4) && !qe.isEmpty then
        qe.foldl (fun t x => match x.engine with
          | some n => (t.put .vein vein F.VEIN_PREC_STATUS_ENGINE_MASK (setBit (t.get .vein vein F.VEIN_PREC_STATUS_ENGINE_MASK) n true)).lostArb .qeng n |>.bump .qeng n F.QENG_LOST_SLOTS_COUNT
          | none => t) (s1.put .vein vein (if lvl = 3 then F.VEIN_PREC_STATUS_QE_LOST_DRAIN else F.VEIN_PREC_STATUS_QE_LOST_PANIC) 1)
      else s1
    let s3 := if lvl = 4 && rest.any (fun x => s.levelNow x = 7) then s2.put .vein vein F.VEIN_PREC_STATUS_BG_LOST_PANIC 1 else s2
    let take (t : State) : State := t.modVein vein (fun x => { x with slotsUsed := sset 0 x.slotsUsed ofs (s.slotsOf vein ofs + 1) })
    let s4 := if a.steer then
        (if s.reserveOf vein ofs < slotsReserve then s3.modVein vein (fun x => { x with reserveUsed := sset 0 x.reserveUsed ofs (s.reserveOf vein ofs + 1) })
        else (((take s3).modVein vein (fun x => { x with reserveHit := true })).put .vein vein F.VEIN_PREC_STATUS_RESERVE_EXHAUSTED 1).raise .vein vein 21)
      else take s3
    (s4.setDrain vein ofs).retryWrites.retryAccs

/-- PANIC_LEVEL_REPORT (R146): the port reports an attach point's ingress level, in eighths of its buffer, to every Vein. One in
panic whose mask bit a commit has cleared stays in it until a report at or below PANIC_OFF (DESIGN CHOICE, log entry 142). -/
def State.cmdPanicLevelReport (s : State) (a : Nat) : State :=
  if !s.hasAttach a then s else
  let lvl := min 7 (s.ingress a * 8 / s.ingressSize a)
  s.forN 16 (fun t v =>
    let was := a ∈ (t.veinSt v).panic
    let on := (t.get .vein v F.VEIN_PANIC_CTL_PANIC_MASK).testBit a && decide (t.get .vein v F.VEIN_PANIC_CTL_PANIC_ON ≤ lvl)
    let off := decide (lvl ≤ t.get .vein v F.VEIN_PANIC_CTL_PANIC_OFF)
    let t1 := if was && off then t.modVein v (fun x => { x with panic := x.panic.filter (· ≠ a) })
      else if !was && on then (t.modVein v (fun x => { x with panic := x.panic ++ [a] })).raise .vein v 18
      else t
    t1.put .vein v F.VEIN_STATUS_PANIC (b2n (!(t1.veinSt v).panic.isEmpty)))

/-! ### Congestion (R148) -/

/-- Strokes up to a deadline, at most eight, in which a channel is open. -/
def State.openStrokes (s : State) (v o : Nat) (d : Stroke) : Nat :=
  ((List.range (min 8 (strokesSince s.now d + 1))).filter (fun i =>
    if i = 0 then !s.closed v o else !(s.refreshes v o (s.now + BitVec.ofNat 48 i) || (i = 1 && o ∈ (s.veinSt v).forcedNext)))).length
/-- Can a level-2 access no longer be served by its deadline: it has passed, or more reads are due on the channel by then than its open strokes
have slots, the reserve being there for steering and rebuild reads alone? -/
def State.tooLate (s : State) (a : VAcc) : Bool :=
  let due := s.vq.filter (fun b => b.vein = a.vein && b.ofs = a.ofs && b.level = 2 && strokeLe b.deadline a.deadline)
  let n := s.openStrokes a.vein a.ofs a.deadline
  !strokeLe s.now a.deadline ||
  n * s.dataSlots a.vein < (due.filter (fun b => !b.steer)).length + ((due.filter (fun b => b.steer)).length - slotsReserve * n)
/-- The congestion report of every Vein at a stroke edge. -/
def State.reportCongestion (s : State) : State :=
  s.forN 16 (fun t v =>
    let mine := t.vq.filter (fun a => a.vein = v)
    let q := t.admittedQueued v
    let vs := t.veinSt v
    let c := if vs.reserveHit || mine.any (fun a => a.level = 2 && t.tooLate a) then 3
      else if t.get .vein v F.VEIN_FB_CTL_FB_HEAVY ≤ q then 2
      else if t.get .vein v F.VEIN_FB_CTL_FB_MODERATE ≤ q then 1 else 0
    let u := t.put .vein v F.VEIN_STATUS_CONGESTION c
    let w := if c = 3 && t.get .vein v F.VEIN_STATUS_CONGESTION ≠ 3 then u.raise .vein v 19 else u
    w.modVein v (fun x => { x with reserveHit := false, reserveUsed := [], slotsUsed := [], metaUsed := [] }))

end Sys2Proof.Machine
end

