-- ==== Sys2Proof/Machine/Protect.lean ====
section
/-! DEFINITION. Diptych and stored-data protection (chapter 06): the scrubber, the flip mask, retirement and relocation, requests held for
an absent Vein, resynchronisation. -/

namespace Sys2Proof.Machine

/-! ### Scrub (R202 to R204) -/

/-- Lines of a channel. -/
def chanLines : Nat := 67108864
/-- Lines of a Vein, and so of one pass. -/
def passLines : Nat := 8 * chanLines
/-- Lines a Vein may read in a Sitting: those the ledger admits to its Slab, or 64 times RATE in a return pass (R204, R224, R492). -/
def State.scrubRate (s : State) (v : Nat) : Nat :=
  let sl := slabOfVein v
  if v ∈ s.media.fastPass then 64 * s.get .dprt sl F.DPRT_SCRUB_CTL_RATE
  else s.get .ledg 0 (if sl = 0 then F.LEDG_GRANT_MISC_SCRUB_LINES_S0 else F.LEDG_GRANT_MISC_SCRUB_LINES_S1)

/-- Where a line of the hot area belongs: frame and line, at its own place or at the relief place of a retired channel (R100, R215). -/
def State.frameLine (s : State) (v ofs chunk pos : Nat) : Option (Nat × Nat × Nat) :=
  let k := v % 8
  let own := (chunk, 8 * pos + (ofs + 8 - chunk % 8) % 8)
  let moved := match s.retOfs v with
    | some x => if s.framesOf k ≤ chunk then (List.range 6).map (fun n =>
        let f := 6 * (chunk - s.framesOf k) + n
        (f, 8 * pos + (x + 8 - f % 8) % 8)) else []
    | none => []
  (own :: moved).findSome? (fun x => if s.hotKey v x.1 x.2 = mediaKey v ofs chunk pos then (s.pageInFrame k x.1).map (fun p => (p, x)) else none)
/-- Second source of a MAC line of a Vein (R245): that of the partner's copy for the hot area, else the others of its row. -/
def State.macMirror (s : State) (v ofs c : Nat) : Second :=
  if c < s.hotH then (if s.veinOk ((v + 8) % 16) then .copy (mediaKey ((v + 8) % 16) ofs c 0) else .none)
  else
    let r := c - s.hotH
    .row v r (if r % 8 = ofs then 7 else (ofs + 7 - r % 8) % 8) 0
/-- Scrub a line of the reservation (R189, R195, R198, R199): MAC lines from their second source, metadata lines from the mirror in the partner
Vein; a check line has no check of its own. A lost line is a marker, and what it held is lost as its use says (DESIGN CHOICE: which line holds what
is a free value, log entry 149). -/
def State.scrubResv (s : State) (v ofs chunk pos : Nat) (e : LineErr) : State :=
  let key := resvKey v ofs chunk pos
  let q := (v + 8) % 16
  let second (t : State) : Option Nat × State :=
    if e.secondBad then (none, t)
    else if chunk < metaArea then t.macSecond (t.macMirror v ofs (8 * (chunk - macArea) + pos)) e.second
    else if t.veinOk q then t.readResvOnce (resvKey q ofs chunk pos) q ofs e.second
    else (none, t)
  if checkArea ≤ chunk then s
  else
    let g := s.readResv key v ofs e.first e.again second
    match g.1 with
    | some _ => g.2
    | none =>
      if chunk < metaArea then g.2.fault .dprt (slabOfVein v) 0x01 { cls := 1, unit := v, detail := chanOf v ofs, page := noPage, poison := 1 }
      else match Config.mapLine v ofs chunk pos, Config.counterLine v ofs chunk pos with
      | some p, _ => g.2.metaEvent (.pageMap p) g.2.now
      | none, some (k, level, index) => g.2.metaEvent (.tree k level index false true) g.2.now
      | none, none => g.2.fault .dprt (slabOfVein v) 0x01 { cls := 1, unit := v, detail := chanOf v ofs, page := noPage, poison := 1 }

/-- Scrub one line outside the deep area: check, correction and repair (R193, R198, R203). -/
def State.scrubLine (s : State) (v ofs chunk pos : Nat) (e : LineErr) : State :=
  let key := mediaKey v ofs chunk pos
  if dataChunks ≤ chunk then s.scrubResv v ofs chunk pos e
  else if chunk < s.hotH then match s.frameLine v ofs chunk pos with
    | some (p, f, i) =>
      if s.lineLost (v % 8) f i || s.vlbZero (v % 8) f i then s
      else
        let g := s.fetch key p i (s.stored key) e (s.partner v f i)
        match g.1 with
        | .lost => (g.2.memFault p i 1).writeMarkerHot { s.moverReq p i with who := .scrub (slabOfVein v) } (v % 8) f 1
        | _ => g.2
    | none => (s.fetch key noPage 0 (s.stored key) { e with second := 0, secondBad := false } (.given s.freeLine)).2
  else s

/-- Logical page and line that line `l` of data position `q` of a row carries: for a plain page its own line, else the first line of the image's
sub-blocks (R198). -/
def State.rowLine (s : State) (v r q l : Nat) : Option (Nat × Nat) := ((s.rowUse v r).getD q none).map (fun p =>
  let e := s.entry p
  (p, if e.st = .plain then ((s.granulesOf e p).idxOf (7 * r + q)) * 8 + l else 0))
/-- Scrub a deep row (R202, R203): every line of its data positions, then its parity against them. Errors are numbered 8 × position + line,
parity being position 7. A position on a retired channel is left out, and the parity of a row that has data there is not judged. -/
def State.scrubRow (s : State) (v r : Nat) (errs : List LineErr) : State :=
  let err (n : Nat) : LineErr := (errs.find? (fun x => x.idx = n)).getD { idx := n }
  let gone (t : State) (p : Nat) : Bool := !t.rowReach v (if p = 7 then r % 8 else dataOfs r p)
  let res := (List.range 56).foldl (fun (acc : State × List (Nat × Option Nat)) n =>
    let t := acc.1
    let q := n / 8
    let key := t.posKey v r q (n % 8)
    if !t.rowHolds v r q || gone t q then acc
    else
      let at_ := (t.rowLine v r q (n % 8)).getD (noPage, 0)
      let x := t.fetch key at_.1 at_.2 (t.stored key) (err n) (.row v r q (n % 8))
      match x.1 with
      | .data _ left => (x.2, acc.2 ++ [(n, some left)])
      | .marker _ left => (x.2, acc.2 ++ [(n, some left)])
      | .lost => (x.2, acc.2 ++ [(n, none)])) (s, [])
  -- pages with a line no source gives go to hot with markers
  let lost := res.2.filter (fun x => x.2.isNone)
  let s1 := lost.foldl (fun t x =>
    match t.rowLine v r (x.1 / 8) (x.1 % 8) with
    | some (p, i) =>
      let e := t.entry p
      let n := ((t.granulesOf e p).idxOf (7 * r + x.1 / 8)) * 8 + x.1 % 8
      let im := (t.readImage p e []).1
      (t.memFault p i 1).promoteBad p (badLines (e.st = .plain) im [(n, 1)])
    | none => t) res.1
  -- parity
  let p := (List.range 8).foldl (fun (acc : State × Bool) l =>
    let t := acc.1
    let key := t.parityKey v r l
    let mine := res.2.filter (fun x => x.1 % 8 = l)
    let sum := mine.foldl (fun a x => a ^^^ x.2.getD 0) 0
    let allOk := mine.all (fun x => x.2.isSome) && (List.range 7).all (fun q => !t.rowHolds v r q || !gone t q)
    if !t.rowHolds v r 7 || gone t 7 then acc
    else
    let x := t.fetch key noPage 0 (t.stored key) (err (56 + l)) (if allOk then .given { parity := true, err := leftErr sum } else .none)
    match x.1 with
    | .lost => (x.2, acc.2)
    | .data _ left | .marker _ left =>
      if allOk && left ≠ sum then (x.2.putStored key { parity := true, err := leftErr sum }, true) else (x.2, acc.2)) (s1, false)
  if p.2 then (p.1.bump .dprt (slabOfVein v) F.DPRT_PARITY_FIX_COUNT).fault .dprt (slabOfVein v) 0x04 { cls := 4, unit := v, detail := r } else p.1

/-- SCRUB_LINE (R202 to R204): the next line of a Vein's pass, or the next whole row of its deep area, channels in turn. -/
def State.cmdScrubLine (s : State) (vein : Nat) (errs : List LineErr) : State :=
  let sl := slabOfVein vein
  let n := sget 0 s.media.scrubPos vein
  let used := sget 0 s.media.scrubUsed vein
  let ofs := n % 8
  let chunk := n / 64
  let inRow := s.hotH ≤ chunk && chunk < dataChunks
  if !s.bit .dprt sl F.DPRT_SCRUB_CTL_SCRUB_EN || s.scrubRate vein ≤ used || !s.veinOk vein || !s.working then s
  else
    let e := (errs.find? (fun x => x.idx = 0)).getD { idx := 0 }
    let s1 := if inRow then s.scrubRow vein (chunk - s.hotH) errs
      else if (s.get .vein vein F.VEIN_STATUS_CHAN_RETIRED).testBit ofs then s
      else s.scrubLine vein ofs chunk (n / 8 % 8) e
    let step := if inRow then 64 else 1
    let s1 := if inRow then (s1.forN 8 (fun t o => if (t.get .vein vein F.VEIN_STATUS_CHAN_RETIRED).testBit o then t else t.offer vein o 37 8 false))
      else s1.offer vein ofs 37 1 false
    let s1 := s1.spend (if vein ∈ s.media.fastPass then .fg else .scrub) [(12, step)]
    let s2 := { s1 with media := { s1.media with scrubUsed := sset 0 s1.media.scrubUsed vein (used + step) } }
    if n + step < passLines then { s2 with media := { s2.media with scrubPos := sset 0 s2.media.scrubPos vein (n + step) } }
    else
      let s3 := { s2 with media := { s2.media with
        scrubPos := sset 0 s2.media.scrubPos vein 0, scrubAge := sset 0 s2.media.scrubAge vein 0
        fastPass := s2.media.fastPass.filter (· ≠ vein), latePass := s2.media.latePass.filter (· ≠ vein) } }
      let s4 := s3.put .dprt sl F.DPRT_SCRUB_STATUS_PASSES ((s3.get .dprt sl F.DPRT_SCRUB_STATUS_PASSES + 1) % 65536)
      if s3.media.latePass.any (fun v => slabOfVein v = sl) then s4 else s4.put .dprt sl F.DPRT_SCRUB_STATUS_BEHIND 0

/-- What a Sitting boundary does to the scrubber (R202, R204): its grant covers the lines read, a row's 64 being read at once and covered over
several Sittings; a pass grows older, and BEHIND is set at twice its nominal length. -/
def State.scrubSitting (s : State) : State :=
  let s0 := { s with media := { s.media with scrubUsed := s.media.scrubUsed.filterMap (fun (x : Nat × Nat) =>
    let n := x.2 - s.scrubRate x.1
    if n = 0 then none else some (x.1, n)) } }
  s0.forN 16 (fun t v =>
    let sl := slabOfVein v
    let rate := t.get .dprt sl F.DPRT_SCRUB_CTL_RATE
    if t.bit .dprt sl F.DPRT_SCRUB_CTL_SCRUB_EN && t.veinOk v && 0 < rate then
      let age := sget 0 t.media.scrubAge v + 1
      let t1 := { t with media := { t.media with scrubAge := sset 0 t.media.scrubAge v age } }
      if 2 * ((passLines + rate - 1) / rate) ≤ age && !(v ∈ t.media.latePass) then
        let t2 : State := { t1 with media := { t1.media with latePass := t1.media.latePass ++ [v] } }
        if t2.bit .dprt sl F.DPRT_SCRUB_STATUS_BEHIND then t2 else (t2.put .dprt sl F.DPRT_SCRUB_STATUS_BEHIND 1).raise .dprt sl 21
      else t1
    else t)
/-- The buckets leak at a Layer boundary (R212). -/
def State.bucketLeak (s : State) : State :=
  s.forN 2 (fun t sl => t.forN 64 (fun u j =>
    u.put .dprt sl F.DPRT_BUCKET_LEVEL (u.get .dprt sl F.DPRT_BUCKET_LEVEL j - u.get .dprt sl F.DPRT_BUCKET_CFG_LEAK) j))

/-! ### The flip mask (R208, R209) -/

/-- A write of DPRT_FLIP_CTL: ignored but for FIRED while armed; an ARM of an invalid setting leaves ARM at 0. -/
def State.flipCtl (s : State) (sl v : Nat) : State :=
  let s1 := if v.testBit 1 then s.put .dprt sl F.DPRT_FLIP_CTL_FIRED 0 else s
  if s.bit .dprt sl F.DPRT_FLIP_CTL_ARM then s1
  else
    let st := bits v 2 2
    let sel := bits v 4 4
    let cp := bits v 8 2
    let s2 := ((((s1.put .dprt sl F.DPRT_FLIP_CTL_STAGE st).put .dprt sl F.DPRT_FLIP_CTL_SEL sel).put .dprt sl F.DPRT_FLIP_CTL_COPY cp).put
      .dprt sl F.DPRT_FLIP_CTL_OFLD (bits v 10 1)).put .dprt sl F.DPRT_FLIP_CTL_LINE (bits v 16 6)
    let bad := st = 3 || (st = 0 && 8 < sel) || (st = 1 && 7 < sel) || (st = 0 && cp = 0)
    if v.testBit 0 && !bad then s2.put .dprt sl F.DPRT_FLIP_CTL_ARM 1 else s2
/-- FLIP_ARM (R208, R209): a write of the whole DPRT_FLIP_CTL word, ARM included. -/
def State.cmdFlipArm (s : State) (agent slab value : Nat) : State := s.fieldWrite agent .dprt slab F.DPRT_FLIP_CTL_ARM (fun s => s.flipCtl slab value)

/-! ### Retirement and relocation (R214 to R218, R230, R231) -/

/-- A DIPT_RETIRE request. -/
def State.diptRetire (s : State) (k ofs side : Nat) : State :=
  let v := k + 8 * side
  let other := (List.range 8).any (fun j => j ≠ k && ((s.dipt j).st = .resync || (s.dipt j).st = .retiring))
  if (s.dipt k).st ≠ .paired || (s.retOfs v).isSome || other then s.put .dipt k F.DIPT_RETIRE_REFUSED 1
  else s.retireChannel v ofs
/-- DIPT_RETIRE (R231). -/
def State.cmdDiptRetire (s : State) (agent k ofs side : Nat) : State := s.fieldWrite agent .dipt k F.DIPT_RETIRE_GO (fun s => s.diptRetire k (ofs % 8) (side % 2))

/-- RELOC_DONE (R216, R230): no frame and no page remains to move, and the Diptych leaves RETIRING. -/
def State.cmdRelocDone (s : State) (k : Nat) : State :=
  if (s.dipt k).reloc && s.relocLeft k = 0 then
      let t := (s.modDipt k (fun d => { d with reloc := false })).raise .dipt k 18
      if (t.dipt k).st = .retiring then t.setDState k .paired else t
    else s

/-! ### Requests held for an absent Vein (R222, R229) -/

/-- ABSENT_VEIN_HOLD_TIMEOUT (R222): requests to a page of an absent Vein have been held to the end of stroke s + 64: reads return poison with
code 0x02, and a written page becomes hot with its other lines as markers of that code. -/
def State.cmdAbsentVeinHoldTimeout (s : State) (page : Nat) : State :=
  let due (t : Stroke) : Bool := decide (64 ≤ strokesSince t s.now) && strokeLe t s.now
  let rds := s.home.reads.filter (fun r => r.st = .held && r.req.page = page && due r.req.stamp)
  let s1 := rds.foldl (fun t r => t.bad r 2) s
  match s1.moveOf page with
  | some m =>
    if m.kind = .promote && m.hasFrame && s1.hub.slots.any (fun x => x.page = page && !x.runahead && !x.lines.isEmpty) && !s1.mediaIn (slabOfVein (s1.entry page).vein) && (m.src = .deep || m.src = .plain) && due m.since then
      ((s1.fault .home (s1.homeSlab page) 0x09 { cls := 9, page := page, poison := 2 }).promoteDone m []).settle
    else s1.settle
  | none => s1.settle

/-- Reads held for media that has returned to service are served (R222). -/
def State.serveHeld (s : State) : State :=
  let held := s.home.reads.filter (fun r => r.st = .held)
  held.foldl (fun t r =>
    let e := t.entry r.req.page
    let back := match r.loc.st with
      | .hot => !(t.copies e.vein e.loc).isEmpty
      | .deep => t.mediaIn (slabOfVein r.loc.vein)
      | .plain => t.mediaIn (slabOfVein r.loc.vein)
      | _ => false
    if back then (t.dropRd r.req.id).serveR r.req none else t) s

/-! ### Resynchronisation (R225 to R229) -/

/-- Copy a line of a frame to the side that lacks it (R226): it is checked and corrected as read; a line that is lost is a marker with code 0x01
on both sides. -/
def State.resyncLine (s : State) (vs vd f i : Nat) : State :=
  let k := vs % 8
  let page := (s.pageInFrame k f).getD noPage
  let key := s.hotKey vs f i
  let g := s.fetch key page i (s.stored key) { idx := i } .none
  let t := ((g.2.offer vs (s.hotOfs vs f i) 36 1 false).offer vd (s.hotOfs vd f i) 36 1 true).spend .fg [(1, 2), (2, 1)]
  match g.1 with
  | .data x left => t.putStored (t.hotKey vd f i) { x with err := leftErr left }
  | .marker x left => t.putStored (t.hotKey vd f i) { x with err := leftErr left }
  | .lost => (t.memFault page i 1).writeMarkerHot { t.moverReq page i with ctx := (t.entry page).ctx, who := .resync (slabOfVein vs) } k f 1
/-- RESYNC_FRAME_COPY (R226): the next frame whose bit is set, in ascending order, is copied whole to the side that lacks it, and its bit
clears, once both Veins are in service. -/
def State.cmdResyncFrameCopy (s : State) (k : Nat) : State :=
  let d := s.dipt k
  if d.st ≠ .resync || !s.working then s
  else match d.stale.foldl (fun (b : Option Nat) f => some (min f (b.getD f))) none with
  | none => s
  | some f =>
    let side := s.get .dipt k F.DIPT_STATUS_SIDE
    let src := if f ∈ d.behind then 1 - side else side
    let vs := k + 8 * src
    let vd := k + 8 * (1 - src)
    if !(s.veinOk vs && s.veinOk vd) then s
    else
    let s1 := (s.bulkTake src 2).forN 64 (fun t i => t.resyncLine vs vd f i)
    let s2 := s1.modDipt k (fun d => { d with stale := d.stale.filter (· ≠ f), behind := d.behind.filter (· ≠ f), mapDirty := addOnce d.mapDirty (f / 512) })
    if (s2.dipt k).stale.isEmpty then s2.raise .dipt k 17 else s2

/-- Bitmap lines changed in a DPRT block's cache are written back with masked writes, each in a metadata slot of the governing side's Vein (R223);
line `n` stands on channel offset n mod 8 (DESIGN CHOICE, log entry 149). -/
def State.bitmapEdge (s : State) : State :=
  s.forN 8 (fun t k =>
    let u := (t.dipt k).mapDirty.foldl (fun w n => w.metaSlot (k + 8 * w.get .dipt k F.DIPT_STATUS_SIDE) (n % 8)) t
    u.modDipt k (fun d => { d with mapDirty := [] }))

/-- What a Layer boundary does to the Diptychs (R225, R228, R230): with the partner back, SOLO ones enter RESYNC; those whose last bit has
cleared are PAIRED, or RETIRING while relocation remains, and their Veins leave the solo rules. -/
def State.diptLayer (s : State) : State :=
  let back := s.boot.returning
  let s1 := s.forN 8 (fun t k =>
    let d := t.dipt k
    if d.st = .solo && back.isSome then t.setDState k .resync
    else if d.st = .resync && d.stale.isEmpty then
      let u := (t.setDState k (if d.reloc then .retiring else .paired)).put .dipt k F.DIPT_STATUS_FULL_RESYNC 0
      if d.reloc then u.put .dipt k F.DIPT_STATUS_SIDE (if (u.retOfs k).isSome then 0 else 1) else u
    else t)
  match back with
  | none => s1
  | some d => ({ s1 with boot := { s1.boot with absent := s1.boot.absent.filter (· ≠ d), returning := none } } : State).forN 16 (fun t v =>
      t.put .vein v F.VEIN_STATUS_SOLO 0)

end Sys2Proof.Machine
end

