-- ==== Sys2Proof/Machine/Mailbox.lean ====
section
/-! DEFINITION. The mailbox command set of the attach points and of the I3C path (R294 to R303), poison and media commands (R284 to R286,
R298), event logs (R300) and dynamic capacity (R93, R94, R301 to R303). The firmware commands stand with boot, the register commands with
the register bus. Attach point 16 is the I3C path. -/

namespace Sys2Proof.Machine

/-- Is a command of the mailbox still under way? -/
def State.mboxBusy (s : State) (a : Nat) : Bool :=
  let mine (r : HReq) : Bool := (r.kind = ReqKind.inject || r.kind = ReqKind.clearP) && (r.attach).getD 16 = a
  s.home.queue.any mine || s.home.senders.any mine || s.home.regionWait.any mine || s.home.waiting.any (fun w => mine w.req)
/-- A mailbox command takes effect while its link is up and no command is under way. -/
def State.mbox (s : State) (a : Nat) (f : State → State) : State := if (a = 16 || s.linkUp a) && !s.mboxBusy a then f s else s
/-- Answer of a command: 0 Success, 2 Invalid Input, 6 Busy. -/
def State.answer (s : State) (a code : Nat) (payload : List Byte := []) : State := s.emit (.answer a code payload)
/-- Agent of a mailbox (R71, R294). -/
def mboxAgent (a : Nat) : Nat := if a < 16 then 0x10 + a else 8

/-! ### Event logs (R300) -/

/-- UUID of the vendor record. -/
def vendorUuid : List Byte := [0x5c, 0x1e, 0x3a, 0x70, 0x9d, 0x2b, 0x4c, 0x8e, 0xa6, 0xf1, 0x0b, 0x8d, 0x2e, 0x4f, 0x7a, 0x31]
/-- UUIDs of the General Media and Dynamic Capacity records. -/
def mediaUuid : List Byte := [0xfb, 0xcd, 0x0a, 0x77, 0xc2, 0x60, 0x41, 0x7f, 0x85, 0xa9, 0x08, 0x8b, 0x16, 0x21, 0xeb, 0xa6]
def dynUuid : List Byte := [0xca, 0x95, 0xaf, 0xa7, 0xf1, 0x83, 0x40, 0x18, 0x8c, 0x2f, 0x95, 0x26, 0x8e, 0x10, 0x1a, 0x2a]
/-- Bytes 48 to 127 of a record. -/
def EvRec.body (e : EvRec) : List Byte :=
  if e.ev = 0x100 then
    leBytes 1 (b2n e.release) ++ List.replicate 7 0 ++ leBytes 8 (e.ext.1 * 2 ^ 28) ++ leBytes 8 (e.ext.2 * 2 ^ 28) ++ List.replicate 56 0
  else if e.gme then leBytes 8 e.dpa ++ List.replicate 72 0
  else
    leBytes 1 e.ev ++ leBytes 1 e.level ++ leBytes 2 e.hqSeq ++ leBytes 6 e.stroke.toNat ++ leBytes 2 e.unit ++ leBytes 4 e.page ++
    leBytes 1 e.cls ++ leBytes 1 (if e.lineValid then e.line % 64 + 64 else 0) ++ List.replicate 62 0
/-- A record of 128 bytes: the standard's 48-byte header, then the record's own bytes. -/
def EvRec.bytes (e : EvRec) : List Byte :=
  (if e.ev = 0x100 then dynUuid else if e.gme then mediaUuid else vendorUuid) ++ leBytes 1 128 ++ leBytes 3 (min e.log 3) ++
  leBytes 2 e.handle ++ leBytes 2 0 ++ leBytes 8 e.time ++ List.replicate 16 0 ++ e.body

/-- Records of a log, oldest first. -/
def State.logOf (s : State) (a log : Nat) : List EvRec := (s.att a).logs.filter (fun e => e.log = log)

/-- GET_EVENT_RECORDS (R300): the log's records, with the overflow count and its first and last times. -/
def State.cmdGetEventRecords (s : State) (a log : Nat) : State :=
  s.mbox a (fun s =>
    if 4 < log then s.answer a 2 else
    let o := sget (0, 0, 0) (s.att a).overflow log
    let rs := s.logOf a log
    s.answer a 0 (leBytes 1 (b2n (o.1 ≠ 0)) ++ leBytes 1 0 ++ leBytes 2 o.1 ++ leBytes 8 o.2.1 ++ leBytes 8 o.2.2 ++ leBytes 2 rs.length ++
      List.replicate 10 0 ++ rs.flatMap EvRec.bytes))
/-- CLEAR_EVENT_RECORDS (R300): the named records, or the whole log, leave; the overflow of the log ends with them. -/
def State.cmdClearEventRecords (s : State) (a log : Nat) (all : Bool) (handles : List Nat) : State :=
  s.mbox a (fun s =>
    let hs := (s.logOf a log).map (fun e => e.handle)
    if 4 < log || (!all && !handles.all (fun h => h ∈ hs)) then s.answer a 2
    else
      let gone := hs.filter (fun h => all || h ∈ handles)
      if gone.isEmpty then s.answer a 0
      else (s.modAtt a (fun t => { t with logs := t.logs.filter (fun e => !(e.log = log && e.handle ∈ gone))
                                          overflow := sdel t.overflow log })).answer a 0)
/-- GET_EVENT_INTERRUPT_POLICY (R294): one byte a log. -/
def State.cmdGetEventInterruptPolicy (s : State) (a : Nat) : State :=
  s.mbox a (fun s => s.answer a 0 ((List.range 5).flatMap (fun l => leBytes 1 (sget 0x10 (s.att a).policy l))))
/-- SET_EVENT_INTERRUPT_POLICY (R294): the bytes of the logs in order. -/
def State.cmdSetEventInterruptPolicy (s : State) (a : Nat) (bytes : List Nat) : State :=
  s.mbox a (fun s =>
    let t := (List.range (min 5 bytes.length)).foldl (fun (u : State) l =>
      u.modAtt a (fun x => { x with policy := sset 0x10 x.policy l (bytes.getD l 0 % 256) })) s
    t.answer a 0)

/-! ### Timestamp, identity and configuration (R294, R295, R297) -/

/-- GET_TIMESTAMP (R297). -/
def State.cmdGetTimestamp (s : State) (a : Nat) : State := s.mbox a (fun s => s.answer a 0 (leBytes 8 s.timestamp))
/-- SET_TIMESTAMP (R297). -/
def State.cmdSetTimestamp (s : State) (a value : Nat) : State :=
  s.mbox a (fun s => ({ s with ports := { s.ports with tstamp := some (value % 2 ^ 64, s.now) } }).answer a 0)

/-- Opcodes the module supports (R294). -/
def mboxOpcodes : List Nat :=
  [0x0100, 0x0101, 0x0102, 0x0103, 0x0200, 0x0201, 0x0202, 0x0300, 0x0301, 0x0400, 0x0401, 0x4000, 0x4100, 0x4200, 0x4201, 0x4202,
   0x4300, 0x4301, 0x4302, 0x4303, 0x4304, 0x4305, 0x4800, 0x4801, 0x4802, 0x4803, 0xC000, 0xC001, 0xC002, 0xC003]
/-- The Command Effects Log: opcode and effects of every command; the effects are free values. -/
def effectsLog : List Byte := mboxOpcodes.flatMap (fun o => leBytes 2 o ++ leBytes 2 (Config.commandEffect o).toNat)
/-- UUID of the Command Effects Log. -/
def effectsUuid : List Byte := [0x0d, 0xa9, 0xc0, 0xb5, 0xbf, 0x41, 0x4b, 0x78, 0x8f, 0x79, 0x96, 0xb1, 0x62, 0x3b, 0x3f, 0x17]
/-- GET_SUPPORTED_LOGS (R294). -/
def State.cmdGetSupportedLogs (s : State) (a : Nat) : State :=
  s.mbox a (fun s =>
    s.answer a 0 (leBytes 2 1 ++ List.replicate 6 0 ++ effectsUuid ++ leBytes 4 effectsLog.length))
/-- GET_LOG (R294): `n` bytes of the Command Effects Log from `ofs`. -/
def State.cmdGetLog (s : State) (a ofs n : Nat) : State :=
  s.mbox a (fun s =>
    if effectsLog.length < ofs + n then s.answer a 2 else s.answer a 0 (sliceB effectsLog ofs n))

/-- A free answer field of `n` bytes. -/
def State.drawBytes (s : State) (n : Nat) : List Byte × State :=
  let d := s.draw (8 * n)
  (leBytes n d.1.toNat, d.2)
/-- IDENTIFY_MEMORY_DEVICE (R2, R294): the revision code, capacities in units of 256 MiB, log sizes of 64 records, a poison list of 1,024; the
fields the spec does not give are free (the revision code's place is the model's choice: log entry 133). -/
def State.cmdIdentifyMemoryDevice (s : State) (a : Nat) : State :=
  s.mbox a (fun s =>
    let fw := s.drawBytes 15
    let al := fw.2.drawBytes 8
    let rest := al.2.drawBytes 4
    rest.2.answer a 0 (leBytes 1 0x0B ++ fw.1 ++ leBytes 8 (s.get .tier 0 F.TIER_CAP_LOGICAL_CAP) ++ leBytes 8 (s.get .tier 0 F.TIER_CAP_STATIC_CAP) ++ leBytes 8 0 ++
      al.1 ++ (List.range 4).flatMap (fun _ => leBytes 2 64) ++ leBytes 4 0 ++ leBytes 3 1024 ++ rest.1 ++ leBytes 2 64))
/-- GET_PARTITION_INFO (R294): volatile only. -/
def State.cmdGetPartitionInfo (s : State) (a : Nat) : State :=
  s.mbox a (fun s =>
    s.answer a 0 (leBytes 8 (s.get .tier 0 F.TIER_CAP_STATIC_CAP) ++ leBytes 8 0 ++ leBytes 8 0 ++ leBytes 8 0))
/-- Two's complement value of a temperature reading (R482), in 1/16 °C. -/
def tempOf (reading : Nat) : Int := signedOf 2 (reading % 65536)
/-- Temperature of the hottest hub die, in 1/16 °C. -/
def State.hubTemp (s : State) : Int := max (tempOf (s.get .ledg 0 F.LEDG_SENSOR_READING 10)) (tempOf (s.get .ledg 0 F.LEDG_SENSOR_READING 11))
/-- GET_HEALTH_INFO (R294): life used is not implemented; the fields the spec does not give are free. -/
def State.cmdGetHealthInfo (s : State) (a : Nat) : State :=
  s.mbox a (fun s =>
    let st := s.drawBytes 3
    let rest := st.2.drawBytes 12
    rest.2.answer a 0 (st.1 ++ leBytes 1 0xFF ++ leBytes 2 ((s.hubTemp / 16) % 65536).toNat ++ rest.1))
/-- GET_ALERT_CONFIG (R294). -/
def State.cmdGetAlertConfig (s : State) (a : Nat) : State := s.mbox a (fun s => s.answer a 0 (leBytes 12 s.ports.alertCfg.toNat))
/-- SET_ALERT_CONFIG (R294, R299). -/
def State.cmdSetAlertConfig (s : State) (a : Nat) (cfg : BitVec 96) : State := s.mbox a (fun s => ({ s with ports := { s.ports with alertCfg := cfg } }).answer a 0)

/-- ROLE, FABRIC_ADDR and the rest of Gnorrid Identify (R295). -/
def State.identify (s : State) (a : Nat) : List Byte :=
  leBytes 1 0x0B ++ leBytes 1 s.role ++ leBytes 3 s.addr ++ leBytes 1 (b2n (s.present 0) + 2 * b2n (s.present 1)) ++
  leBytes 1 (if a < 16 then a else 0xFF) ++ leBytes 1 0 ++ leBytes 6 s.now.toNat ++ leBytes 2 0 ++ leBytes 8 Config.serial.toNat
/-- GNORRID_IDENTIFY (R295). -/
def State.cmdGnorridIdentify (s : State) (a : Nat) : State := s.mbox a (fun s => s.answer a 0 (s.identify a))
/-- The low byte of TMB_STATUS: SOURCE, IN_SPEC, SLEWING, HOT_REFRESH, ADOPTED and OUT_OF_SPEC. -/
def State.tmbStatus (s : State) : Nat :=
  s.get .tmb 0 F.TMB_STATUS_SOURCE + 4 * s.get .tmb 0 F.TMB_STATUS_IN_SPEC + 8 * b2n (decide (s.tb.len ≠ 192)) + 16 * b2n s.tb.hot +
  32 * s.get .tmb 0 F.TMB_STATUS_ADOPTED + 64 * s.get .tmb 0 F.TMB_STATUS_OUT_OF_SPEC
/-- GET_TIMEBASE (R294): stroke number, phase, the low byte of TMB_STATUS and TMB_LOCAL_ELAPSED. -/
def State.cmdGetTimebase (s : State) (a : Nat) : State :=
  s.mbox a (fun s =>
    s.answer a 0 (leBytes 6 s.now.toNat ++ leBytes 1 s.tb.phase ++ leBytes 1 s.tmbStatus ++ leBytes 4 s.tb.elapsed.toNat))

/-! ### Poison and media (R285, R286, R298) -/

/-- Source of a poison-list entry: 1 External, 2 Internal, 3 Injected, 7 Vendor specific. -/
def PoisonEnt.source (x : PoisonEnt) : Nat :=
  if x.code = 4 ∨ x.code = 5 then 7 else if x.code = 8 then (if x.injected then 3 else 1) else 2
/-- A poison record: the line's DPA with its source, and a length of one line. -/
def PoisonEnt.bytes (x : PoisonEnt) : List Byte := leBytes 8 (x.page * 4096 + 64 * x.line + x.source) ++ leBytes 4 1 ++ leBytes 4 0
/-- Does an entry lie in a DPA range? -/
def PoisonEnt.within (x : PoisonEnt) (dpa len : Nat) : Bool := dpa ≤ x.page * 4096 + 64 * x.line && x.page * 4096 + 64 * x.line < dpa + len
/-- GET_POISON_LIST (R285): the entries in the DPA range, with the overflow flag and its time. -/
def State.cmdGetPoisonList (s : State) (a dpa len : Nat) : State :=
  s.mbox a (fun s =>
    let l := s.ports.poisonList.filter (fun x => x.within dpa len)
    let o := s.ports.poisonOverflow
    s.answer a 0 (leBytes 1 (if o.isSome then 2 else 0) ++ leBytes 1 0 ++ leBytes 8 ((o.map (fun t => t.toNat)).getD 0) ++ leBytes 2 l.length ++
      List.replicate 20 0 ++ l.flatMap PoisonEnt.bytes))
/-- A poison command of a mailbox at the home of its line (R286): refused for a page that is zero or unmapped. -/
def State.poisonCmd (s : State) (a dpa : Nat) (k : ReqKind) (data : Line) : State :=
  s.mbox a (fun s =>
    let page := dpa / 4096
    let e := s.entry page
    if e.st = PState.zero || e.st = PState.unmapped then s.answer a 2
    else
      let q := s.newId
      q.2.enter { id := q.1, kind := k, who := if a < 16 then .host a else .mgmt s.primary, page := page, line := dpa % 4096 / 64, ctx := e.ctx
                  stamp := s.now, phase := s.tb.phase, el := s.tb.elapsed.toNat, data := data, mask := fullMask
                  poison := decide (k = .inject), code := 8 })
/-- INJECT_POISON (R286). -/
def State.cmdInjectPoison (s : State) (a dpa : Nat) : State := s.poisonCmd a dpa .inject 0
/-- CLEAR_POISON (R286). -/
def State.cmdClearPoison (s : State) (a dpa : Nat) (data : Line) : State := s.poisonCmd a dpa .clearP data

/-- Pages of a range that hold stored lines, with their entries. -/
def State.pagesIn (s : State) (first n : Nat) : List (Nat × PEntry) :=
  s.tier.pmap.filter (fun x => first ≤ x.1 && x.1 < first + n && x.2.st ≠ .zero && x.2.st ≠ .unmapped)
/-- Stored lines of a page on this module: 64 on each Vein of a hot page's Diptych, 8 a granule in the deep tier. -/
def State.storedLines (s : State) (x : Nat × PEntry) : Nat := match s.srcState x.1 with
  | .hot => 64 * (s.writeVeins x.2.vein).length
  | .deep | .plain => 8 * (x.2.gm1 + 1)
  | _ => 0
/-- Pages a DPA range touches: the first and their number. -/
def pageRange (dpa len : Nat) : Nat × Nat := (dpa / 4096, if len = 0 then 0 else (dpa + len - 1) / 4096 - dpa / 4096 + 1)
/-- Strokes a scan takes: one line a Vein in a stroke (R298). -/
def State.scanTime (s : State) (first n : Nat) : Nat := ((s.pagesIn first n).map s.storedLines).sum / 16
/-- GET_SCAN_MEDIA_CAPABILITIES (R298): the estimate in strokes. -/
def State.cmdGetScanMediaCapabilities (s : State) (a dpa len : Nat) : State :=
  s.mbox a (fun s => s.answer a 0 (leBytes 4 (s.scanTime (pageRange dpa len).1 (pageRange dpa len).2)))
/-- SCAN_MEDIA (R298, R299): one scan in the module at a time. -/
def State.cmdScanMedia (s : State) (a dpa len : Nat) : State :=
  s.mbox a (fun s =>
    if s.ports.scan.isSome then s.answer a 6
    else ({ s with ports := { s.ports with scan := some (a, (pageRange dpa len).1, (pageRange dpa len).2, s.now), scanResult := [] } }).answer a 0)
/-- Markers stored on a hot page. -/
def State.markersOf (s : State) (x : Nat × PEntry) : List PoisonEnt :=
  if s.srcState x.1 ≠ .hot then [] else
  (List.range 64).filterMap (fun i =>
    ((s.copies x.2.vein x.2.loc).map (fun v => s.stored (s.hotKey v x.2.loc i))).find? (fun c => c.marker) |>.map (fun c =>
      { page := x.1, line := i, code := markerCode c
        injected := s.ports.poisonList.any (fun y => y.page = x.1 && y.line = i && y.injected) }))
/-- SCAN_MEDIA_DONE (R298): every stored line of the range has been read as scrub work, at most one a Vein in a stroke; `hots` are the errors
met on hot lines by media key, `rows` those met on deep rows. -/
def State.cmdScanMediaDone (s : State) (hots : List (Nat × LineErr)) (rows : List (Nat × Nat × List LineErr)) : State :=
  match s.ports.scan with
    | none => s
    | some (_, first, n, t0) =>
      if strokesSince t0 s.now < s.scanTime first n then s
      else
        let s1 := hots.foldl (fun t x => t.scrubLine (keyVein x.1) (keyOfs x.1) (x.1 / 8 % dataChunks) (x.1 % 8) x.2) s
        let s2 := rows.foldl (fun t x => t.scrubRow x.1 x.2.1 x.2.2) s1
        { s2 with ports := { s2.ports with scan := none, scanResult := (s2.pagesIn first n).flatMap s2.markersOf } }
/-- GET_SCAN_MEDIA_RESULTS (R298): the markers found. -/
def State.cmdGetScanMediaResults (s : State) (a : Nat) : State :=
  s.mbox a (fun s =>
    if s.ports.scan.isSome then s.answer a 6
    else s.answer a 0 (leBytes 2 s.ports.scanResult.length ++ s.ports.scanResult.flatMap PoisonEnt.bytes))

/-! ### Dynamic capacity (R93, R94, R301 to R303) -/

/-- Do two extents overlap? -/
def extOverlap (x y : Nat × Nat) : Bool := x.1 < y.1 + y.2 && y.1 < x.1 + x.2
/-- Does the second extent hold the first? -/
def extWithin (x y : Nat × Nat) : Bool := y.1 ≤ x.1 && x.1 + x.2 ≤ y.1 + y.2 && x.2 ≠ 0
/-- Offered extents, in units of 256 MiB. -/
def State.offered256 (s : State) : Nat := (s.tier.offers.map (fun o => o.2.1.2)).sum
/-- Allowance of capacity beyond this module's own; none while it runs alone (R93). -/
def State.allowance (s : State) : Nat := if s.alone then 0 else s.get .tier 0 F.TIER_SPILL_ALLOW_ALLOW
/-- Accepted extents exceed what may be granted (R303). -/
def State.overcommit (s : State) : Bool := s.effective + s.allowance < s.granted256
/-- May an extent be offered (R93, R301)? Pending offers count as accepted. -/
def State.mayOffer (s : State) (x : Nat × Nat) : Bool :=
  x.2 ≠ 0 && s.get .tier 0 F.TIER_CAP_STATIC_CAP ≤ x.1 && x.1 + x.2 ≤ s.get .tier 0 F.TIER_CAP_LOGICAL_CAP &&
  !s.tier.extents.any (extOverlap x) && !s.tier.offers.any (fun o => extOverlap x o.2.1) &&
  (s.pagesIn (x.1 * 65536) (x.2 * 65536)).isEmpty && s.granted256 + s.offered256 + x.2 ≤ s.effective + s.allowance
/-- DC_OFFER (R301): the management processor offers an extent to an attach point. -/
def State.cmdDcOffer (s : State) (a first n : Nat) : State :=
  if s.hasAttach a && s.boot.released && s.mayOffer (first, n) then
      ({ s with tier := { s.tier with offers := s.tier.offers ++ [(a, (first, n), sittingOf s.now)] } }).logEvent a
        { log := 4, ev := 0x100, ext := (first, n), page := noPage, stroke := s.now }
    else s
/-- ADD_DYNAMIC_CAPACITY_RESPONSE (R302): accepts the extents it lists out of the offers to its attach point; listing none declines the oldest
offer. -/
def State.cmdAddDynamicCapacityResponse (s : State) (a : Nat) (exts : List (Nat × Nat)) : State :=
  s.mbox a (fun s =>
    let mine := s.tier.offers.filter (fun o => o.1 = a)
    let apart := (List.range exts.length).all (fun i => (List.range i).all (fun j => !extOverlap (exts.getD i (0, 0)) (exts.getD j (0, 0))))
    if mine.isEmpty || !apart || !exts.all (fun x => mine.any (fun o => extWithin x o.2.1)) then s.answer a 2
    else
      let answered (o : Nat × (Nat × Nat) × Nat) : Bool :=
        o.1 = a && (if exts.isEmpty then some o = mine.head? else exts.any (fun x => extWithin x o.2.1))
      ({ s with tier := { s.tier with extents := s.tier.extents ++ exts, offers := s.tier.offers.filter (fun o => !answered o) } }).answer a 0)
/-- What remains of an extent when a range leaves it. -/
def extMinus (x y : Nat × Nat) : List (Nat × Nat) :=
  if extOverlap x y then
    (if x.1 < y.1 then [(x.1, y.1 - x.1)] else []) ++ (if y.1 + y.2 < x.1 + x.2 then [(y.1 + y.2, x.1 + x.2 - (y.1 + y.2))] else [])
  else [x]
/-- Pages of a range that hold contents, or that some request or copy names. -/
def State.touchedPages (s : State) (first n : Nat) : List Nat :=
  let ins (p : Nat) : Bool := first ≤ p && p < first + n
  ((s.tier.pmap.map (fun x => x.1)) ++ s.hub.slots.map (fun x => x.page) ++ s.home.queue.map (fun r => r.page) ++
    s.home.senders.map (fun r => r.page) ++ s.home.regionWait.map (fun r => r.page) ++ s.home.waiting.map (fun w => w.req.page) ++
    s.home.dir.map (fun x => pageOfHl (x.1 / 4194304 % 2) (wayHl (x.1 / 16 % 262144) x.2))).filter ins |>.dedup
/-- Pages of a range leave every region (R94, R105): each page that holds anything gets an ordered release, the others are unmapped at once.
`cut` takes the range out of its region. -/
def State.releasePages (s : State) (first n : Nat) (cut : State → State) : State :=
  let pages := s.touchedPages first n
  let old := pages.map (fun p => (p, s.entry p))
  let s1 := old.foldl (fun t x => t.setEntry x.1 x.2) (cut s)
  pages.foldl (fun t p =>
    let q := t.newId
    q.2.enter { id := q.1, kind := .discard, who := .mover (t.homeSlab p), page := p, op := 1, stamp := s.now, el := s.tb.elapsed.toNat }) s1
/-- RELEASE_DYNAMIC_CAPACITY (R94, R303): a host releases an accepted extent. -/
def State.cmdReleaseDynamicCapacity (s : State) (a : Nat) (ext : Nat × Nat) : State :=
  s.mbox a (fun s =>
    if s.tier.extents.any (extWithin ext) then
      (s.releasePages (ext.1 * 65536) (ext.2 * 65536) (fun t =>
        { t with tier := { t.tier with extents := t.tier.extents.flatMap (fun x => extMinus x ext) } })).answer a 0
    else s.answer a 2)
/-- DC_OFFER_TIMEOUT (R302): offers unanswered for OFFER_TIMEOUT Sittings are withdrawn. -/
def State.cmdDcOfferTimeout (s : State) : State :=
  let late (o : Nat × (Nat × Nat) × Nat) : Bool := s.get .port (portOf o.1) F.PORT_DC_CTL_OFFER_TIMEOUT ≤ (sittingOf s.now + 2 ^ 37 - o.2.2) % 2 ^ 37
  let gone := s.tier.offers.filter late
  gone.foldl (fun t o => t.raise .port (portOf o.1) 21)
    { s with tier := { s.tier with offers := s.tier.offers.filter (fun o => !late o) } }
/-- Extents asked back, newest first, until nothing is in excess (R303). -/
def excessExtents : Nat → List (Nat × Nat) → List (Nat × Nat)
  | 0, _ => []
  | _, [] => []
  | k + 1, x :: r => x :: excessExtents (k + 1 - x.2) r
/-- TIER_SPILL_ALLOW has changed: when the accepted extents exceed what may be granted, the excess is asked back with Release Capacity records
(R303). -/
def State.askBack (s : State) : State :=
  if s.overcommit then
    (excessExtents (s.granted256 - (s.effective + s.allowance)) s.tier.extents.reverse).foldl (fun t x =>
      t.logWhere { log := 4, ev := 0x100, ext := x, release := true, page := x.1 * 65536, stroke := s.now }
        (fun a => t.mapsPage a (x.1 * 65536))) s
  else s

end Sys2Proof.Machine
end

