-- ==== Sys2Proof/Machine/Crypto.lean ====
section
/-! DEFINITION. AES-256 (FIPS 197) and what the spec builds on it: XTS encryption of a line (R241), the CMAC of lines and ring frames (R243,
R471, R472) and the key wrap of RFC 3394 (R235). Bytes are numbers; a key or a tag as a number has its byte 0 least significant. -/

namespace Sys2Proof.Machine

/-! ### AES-256 -/

/-- The forward and the inverse S-box, entry 0 least significant. -/
def aesBox : BitVec 2048 :=
  0x16bb54b00f2d99416842e6bf0d89a18cdf2855cee9871e9b948ed9691198f8e19e1dc186b95735610ef6034866b53e708a8bbd4b1f74dde8c6b4a61c2e2578ba#512 ++
  0x08ae7a65eaf4566ca94ed58d6d37c8e779e4959162acd3c25c2406490a3a32e0db0b5ede14b8ee4688902a22dc4f816073195d643d7ea7c41744975fec130ccd#512 ++
  0xd2f3ff1021dab6bcf5389d928f40a351a89f3c507f02f94585334d43fbaaefd0cf584c4a39becb6a5bb1fc20ed00d153842fe329b3d63b52a05a6e1b1a2c8309#512 ++
  0x75b227ebe28012079a059618c323c7041531d871f1e5a534ccf73f362693fdb7c072a49cafa2d4adf04759fa7dc982ca76abd7fe2b670130c56f6bf27b777c63#512
def aesInvBox : BitVec 2048 :=
  0x7d0c2155631469e126d677ba7e042b17619953833cbbebc8b0f52aae4d3be0a0ef9cc9939f7ae52d0d4ab519a97f51605fec8027591012b131c7078833a8dd1f#512 ++
  0xf45acd78fec0db9a2079d2c64b3e56fc1bbe18aa0e62b76f89c5291d711af1476edf751ce837f9e28535ade72274ac9673e6b4f0cecff297eadc674f4111913a#512 ++
  0x6b8a130103bdafc1020f3fca8f1e2cd00645b3b80558e4f70ad3bc8c00abd890849d8da75746155edab9edfd5048706c92b6655dcc5ca4d41698688664f6f872#512 ++
  0x25d18b6d49a25b76b224d92866a12e084ec3fa420b954cee3d23c2a632947b54cbe9dec444438e3487ff2f9b8239e37cfbd7f3819ea340bf38a53630d56a0952#512
/-- A byte through a box. -/
def boxByte (box : BitVec 2048) (b : Nat) : Nat := (box.toNat >>> (8 * b)) % 256
/-- Multiply by x in GF(2^8) with polynomial 0x11B. -/
def aesDouble (a : Nat) : Nat := if 128 ≤ a then (2 * a) ^^^ 0x11B else 2 * a
/-- Product by a constant of at most four bits. -/
def aesMul (k a : Nat) : Nat :=
  let a2 := aesDouble a
  let a4 := aesDouble a2
  let a8 := aesDouble a4
  (if k.testBit 0 then a else 0) ^^^ (if k.testBit 1 then a2 else 0) ^^^ (if k.testBit 2 then a4 else 0) ^^^ (if k.testBit 3 then a8 else 0)
/-- Exclusive-or of byte strings. -/
def xorBytes (a b : List Nat) : List Nat := List.zipWith (fun x y => x ^^^ y) a b
/-- Bytes of a number, byte 0 least significant. -/
def natBytes (n v : Nat) : List Nat := (List.range n).map (fun i => (v >>> (8 * i)) % 256)
/-- The number whose byte 0 is least significant. -/
def bytesNat (l : List Nat) : Nat := l.foldr (fun b acc => b + 256 * acc) 0

/-- One more word of the key schedule: `i` is its number, `ws` the words so far, newest first. -/
def keyWord (i : Nat) (ws : List (List Nat)) : List Nat :=
  let w := ws.headD []
  let t := if i % 8 = 0 then xorBytes ((w.drop 1 ++ w.take 1).map (boxByte aesBox)) [2 ^ (i / 8 - 1), 0, 0, 0]
    else if i % 8 = 4 then w.map (boxByte aesBox) else w
  xorBytes t (ws.getD 7 [])
/-- The round keys of a 32-byte key: 15 of 16 bytes. -/
def roundKeys (key : List Nat) : List (List Nat) :=
  let first := ((List.range 8).map (fun i => (key.drop (4 * i)).take 4)).reverse
  let ws := ((List.range 52).foldl (fun acc i => keyWord (i + 8) acc :: acc) first).reverse
  (List.range 15).map (fun r => ((ws.drop (4 * r)).take 4).flatten)
/-- Mix the columns of a block by the circulant of four constants. -/
def mixColumns (c0 c1 c2 c3 : Nat) (b : List Nat) : List Nat :=
  (List.range 16).map (fun i =>
    let at_ (k : Nat) : Nat := b.getD (i / 4 * 4 + (i + k) % 4) 0
    aesMul c0 (at_ 0) ^^^ aesMul c1 (at_ 1) ^^^ aesMul c2 (at_ 2) ^^^ aesMul c3 (at_ 3))
/-- Shift the rows of a block: 5 forward, 13 back. -/
def shiftRows (k : Nat) (b : List Nat) : List Nat := (List.range 16).map (fun i => b.getD (k * i % 16) 0)
/-- Encrypt a block of 16 bytes. -/
def aesEncrypt (rks : List (List Nat)) (b : List Nat) : List Nat :=
  let sub (x : List Nat) : List Nat := shiftRows 5 (x.map (boxByte aesBox))
  let x := (List.range 13).foldl (fun x r => xorBytes (mixColumns 2 3 1 1 (sub x)) (rks.getD (r + 1) [])) (xorBytes b (rks.getD 0 []))
  xorBytes (sub x) (rks.getD 14 [])
/-- Decrypt a block of 16 bytes. -/
def aesDecrypt (rks : List (List Nat)) (b : List Nat) : List Nat :=
  let sub (x : List Nat) : List Nat := (shiftRows 13 x).map (boxByte aesInvBox)
  let x := (List.range 13).foldl (fun x r => mixColumns 14 11 13 9 (xorBytes (sub x) (rks.getD (13 - r) []))) (xorBytes b (rks.getD 14 []))
  xorBytes (sub x) (rks.getD 0 [])

/-! ### XTS (R241) -/

/-- The tweak of a line: its media name and logical page (R241). -/
def lineTweak (name page : Nat) : List Nat := natBytes 8 name ++ natBytes 4 page ++ [0, 0, 0, 0]
/-- The masks of the four blocks of a data unit: the encrypted tweak times α^j. -/
def xtsMasks (k2 tweak : List Nat) : List Nat :=
  let t := bytesNat (aesEncrypt (roundKeys k2) tweak)
  let double (x : Nat) : Nat := if 2 ^ 127 ≤ x then (2 * x) % 2 ^ 128 ^^^ 0x87 else 2 * x
  [t, double t, double (double t), double (double (double t))]
/-- A line of 64 bytes through XTS, each block by `f`. -/
def xtsLine (f : List Nat → List Nat) (masks : List Nat) (v : Nat) : Nat :=
  bytesNat ((List.range 4).flatMap (fun j =>
    let m := natBytes 16 (masks.getD j 0)
    xorBytes (f (xorBytes (natBytes 16 (v >>> (128 * j))) m)) m))
/-- Keys of a context as bytes: K1, K2, KM, each 32 bytes (R234). -/
def keyPart (keys : KeyMaterial) (i : Nat) : List Nat := natBytes 32 (keys.toNat >>> (256 * i))
/-- Ciphertext of a line (R241). -/
def encryptLine (keys : KeyMaterial) (name page : Nat) (plain : Line) : Line :=
  BitVec.ofNat 512 (xtsLine (aesEncrypt (roundKeys (keyPart keys 0))) (xtsMasks (keyPart keys 1) (lineTweak name page)) plain.toNat)
/-- Plaintext of a line (R241). -/
def decryptLine (keys : KeyMaterial) (name page : Nat) (cipher : Line) : Line :=
  BitVec.ofNat 512 (xtsLine (aesDecrypt (roundKeys (keyPart keys 0))) (xtsMasks (keyPart keys 1) (lineTweak name page)) cipher.toNat)

/-! ### CMAC (R243, R471, R472) -/

/-- Double a block in GF(2^128), its first byte most significant. -/
def cmacDouble (b : List Nat) : List Nat :=
  let v := bytesNat b.reverse
  (natBytes 16 (if 2 ^ 127 ≤ v then (2 * v) % 2 ^ 128 ^^^ 0x87 else 2 * v)).reverse
/-- The blocks of a message; the last may be short, and an empty message has one empty block. -/
def msgBlocks (n : Nat) (m : List Nat) : List (List Nat) := (List.range (max 1 ((n + 15) / 16))).map (fun i => (m.drop (16 * i)).take 16)
/-- AES-256 CMAC (NIST SP 800-38B) of a message under a 32-byte key: 16 bytes. -/
def cmacBytes (key m : List Nat) : List Nat :=
  let rks := roundKeys key
  let k1 := cmacDouble (aesEncrypt rks (List.replicate 16 0))
  let bs := msgBlocks m.length m
  let last := bs.getLastD []
  let fin := if last.length = 16 then xorBytes last k1
    else xorBytes (last ++ 0x80 :: List.replicate (15 - last.length) 0) (cmacDouble k1)
  let x := bs.dropLast.foldl (fun x b => aesEncrypt rks (xorBytes x b)) (List.replicate 16 0)
  aesEncrypt rks (xorBytes x fin)
/-- The CMAC of a byte string under a key, tag byte 0 least significant. -/
def aesCmac (key : BitVec 256) (m : List Byte) : BitVec 128 :=
  BitVec.ofNat 128 (bytesNat (cmacBytes (natBytes 32 key.toNat) (m.map (fun b => b.toNat))))
/-- MAC of a line: the low 56 bits of the CMAC of its ciphertext and its binding block (R243). -/
def lineMac (keys : KeyMaterial) (name page ctx minor ver : Nat) (cipher : Line) : BitVec 56 :=
  let block := natBytes 8 name ++ natBytes 4 page ++ natBytes 2 ctx ++ [minor, 0] ++ natBytes 8 ver ++ natBytes 8 0
  BitVec.ofNat 56 (bytesNat (cmacBytes (keyPart keys 2) (natBytes 64 cipher.toNat ++ block)))

/-! ### Key wrap (R235, RFC 3394) -/

/-- One step of the unwrap: the check register and the registers, of which the last taken stands first. -/
def unwrapStep (rks : List (List Nat)) (n : Nat) (x : List Nat × List (List Nat)) (t : Nat) : List Nat × List (List Nat) :=
  let a := xorBytes x.1 (natBytes 8 (n - t)).reverse
  let b := aesDecrypt rks (a ++ x.2.headD [])
  (b.take 8, x.2.drop 1 ++ [b.drop 8])
/-- Unwrap a blob of 8 × (k + 1) bytes; none when its check register is not the initial value. -/
def unwrapBytes (kek blob : List Nat) : Option (List Nat) :=
  let k := blob.length / 8 - 1
  let regs := ((List.range k).map (fun i => (blob.drop (8 * (i + 1))).take 8)).reverse
  let r := (List.range (6 * k)).foldl (unwrapStep (roundKeys kek) (6 * k)) (blob.take 8, regs)
  if r.1 = List.replicate 8 0xA6 then some r.2.reverse.flatten else none
/-- RFC 3394 unwrap of a key context's material under a key-encryption key (R235, R471). -/
def unwrapKeys (kek : BitVec 256) (blob : List Byte) : Option KeyMaterial :=
  (unwrapBytes (natBytes 32 kek.toNat) (blob.map (fun b => b.toNat))).map (fun l => BitVec.ofNat 768 (bytesNat l))

end Sys2Proof.Machine
end

