-- ==== Sys2Proof/Machine/Keys.lean ====
section
/-! DEFINITION. The key store (R234 to R240, R272, R530): generate, load, unwrap, erase and attributes. One store stands for the copies of
both Slabs. -/

namespace Sys2Proof.Machine

/-- A KEYS command completes with a code: DONE, ERR, and KEYS_MATERIAL cleared (R272). -/
def State.keysDone (s : State) (slab err : Nat) : State :=
  let s1 := ((s.put .keys slab F.KEYS_STATUS_ERR err).put .keys slab F.KEYS_STATUS_DONE 1).put .keys slab F.KEYS_STATUS_BUSY 0
  s1.forN 28 (fun t w => t.put .keys slab F.KEYS_MATERIAL_DATA 0 w)
/-- Context in KEYS_SEL. -/
def State.keysSel (s : State) (slab : Nat) : Nat := s.get .keys slab F.KEYS_SEL_CTX
/-- Is a context valid, or still draining (R236)? -/
def State.ctxBusy (s : State) (c : Nat) : Bool :=
  (s.ctx c).valid || s.crypto.erasing.any (fun x => x.1 = c) || s.crypto.eraseEdge.any (fun x => x.1 = c)
/-- Write a context. -/
def State.setCtx (s : State) (c : Nat) (k : KeyCtx) : State := { s with crypto := { s.crypto with ctxs := sset {} s.crypto.ctxs c k } }
/-- Fill a context with keys and the staged attributes, or refuse: code 1 for context 0, code 2 for a valid one. -/
def State.keysFill (s : State) (slab : Nat) (keys : State → Option KeyMaterial × State) : State :=
  let c := s.keysSel slab
  if s.bit .keys slab F.KEYS_STATUS_BUSY then s
  else if c = 0 then s.keysDone slab 1
  else if s.ctxBusy c then s.keysDone slab 2
  else match keys s with
    | (some m, t) => (t.setCtx c { valid := true, release := t.bit .keys slab F.KEYS_ATTR_RELEASE, prot := t.bit .keys slab F.KEYS_ATTR_PROTECTED
                                   mask := t.get .keys slab F.KEYS_ATTR_ATTACH_MASK, keys := m }).keysDone slab 0
    | (none, t) => t.keysDone slab 3
/-- The words of KEYS_MATERIAL as bytes. -/
def State.keysMaterial (s : State) (slab n : Nat) : List Byte :=
  (List.range n).flatMap (fun w => leBytes 4 (s.get .keys slab F.KEYS_MATERIAL_DATA w))
/-- Generate (R235, R272). -/
def State.keysGenerate (s : State) (slab : Nat) : State := s.keysFill slab (fun t => ((t.draw 768).1, (t.draw 768).2))
/-- Load from KEYS_MATERIAL. -/
def State.keysLoad (s : State) (slab : Nat) : State :=
  s.keysFill slab (fun t => (some (BitVec.ofNat 768 (leNat (t.keysMaterial slab 24))), t))
/-- Unwrap a blob under a key-encryption key. -/
def State.keysUnwrap (s : State) (slab kek : Nat) : State :=
  s.keysFill slab (fun t => ((sget none t.secure.keks kek).bind (fun k => unwrapKeys k (t.keysMaterial slab 26)), t))
/-- Erase: it takes effect at the next stroke edge and completes when its drain ends (R236). -/
def State.keysErase (s : State) (slab : Nat) : State :=
  let c := s.keysSel slab
  if s.bit .keys slab F.KEYS_STATUS_BUSY then s
  else if c = 0 then s.keysDone slab 1
  else if !(s.ctx c).valid then s.keysDone slab 4
  else ({ s with crypto := { s.crypto with eraseEdge := s.crypto.eraseEdge ++ [(c, slab)] } }).put .keys slab F.KEYS_STATUS_BUSY 1
/-- Write attributes: they take effect, and the command completes, at the next stroke edge. -/
def State.keysWriteAttr (s : State) (slab : Nat) : State :=
  let c := s.keysSel slab
  if s.bit .keys slab F.KEYS_STATUS_BUSY then s
  else if c = 0 then s.keysDone slab 1
  else if !(s.ctx c).valid then s.keysDone slab 4
  else
    let a := (c, s.bit .keys slab F.KEYS_ATTR_RELEASE, s.bit .keys slab F.KEYS_ATTR_PROTECTED, s.get .keys slab F.KEYS_ATTR_ATTACH_MASK)
    ({ s with crypto := { s.crypto with attrNext := s.crypto.attrNext ++ [a] } }).put .keys slab F.KEYS_STATUS_BUSY 1
/-- Read attributes into KEYS_ATTR. -/
def State.keysReadAttr (s : State) (slab : Nat) : State :=
  let c := s.keysSel slab
  if s.bit .keys slab F.KEYS_STATUS_BUSY then s
  else if c = 0 then s.keysDone slab 1
  else
    let k := s.ctx c
    ((((s.put .keys slab F.KEYS_ATTR_VALID (b2n k.valid)).put .keys slab F.KEYS_ATTR_RELEASE (b2n k.release)).put .keys slab
      F.KEYS_ATTR_PROTECTED (b2n k.prot)).put .keys slab F.KEYS_ATTR_ATTACH_MASK k.mask).keysDone slab 0

/-- What a stroke edge does to the key store (R236, R268, R272): erased contexts become invalid and drain, attributes change, debug opens. -/
def State.keysEdge (s : State) : State :=
  let s1 := s.crypto.attrNext.foldl (fun t a =>
    let k := t.ctx a.1
    if k.valid then t.setCtx a.1 { k with release := a.2.1, prot := a.2.2.1, mask := a.2.2.2 } else t) s
  let attrSlabs := (List.range 2).filter (fun sl => !s.crypto.attrNext.isEmpty && s.bit .keys sl F.KEYS_STATUS_BUSY &&
    !(s.crypto.eraseEdge ++ s.crypto.erasing).any (fun x => x.2 = sl))
  let s2 := attrSlabs.foldl (fun t sl => t.keysDone sl 0) s1
  let s3 := s2.crypto.eraseEdge.foldl (fun t x => t.setCtx x.1 { t.ctx x.1 with valid := false }) s2
  { s3 with crypto := { s3.crypto with attrNext := [], eraseEdge := [], erasing := s3.crypto.erasing ++ s3.crypto.eraseEdge
                                       debugOpen := s3.crypto.debugOpen || s3.crypto.debugNext, debugNext := false } }

/-- Does a request that passed its key lookup still carry the context (R236)? -/
def State.ctxInUse (s : State) (c : Nat) : Bool :=
  s.home.reads.any (fun r => r.req.ctx = c) || s.home.late.any (fun r => r.req.ctx = c) ||
  (s.home.queue ++ s.home.senders ++ s.home.regionWait ++ s.regu.held).any (fun r => r.looked && r.ctx = c) || s.home.waiting.any (fun w => !w.victim && w.req.ctx = c) || s.home.owed.any (fun r => r.ctx = c) ||
  s.home.treeHeld.any (fun r => r.ctx = c) || s.hub.wrHeld.any (fun w => w.req.ctx = c)

/-- KEYS_GENERATE (R272). -/
def State.cmdKeysGenerate (s : State) (agent slab : Nat) : State := s.fieldWrite agent .keys slab F.KEYS_CMD_OP (fun s => s.keysGenerate slab)
/-- KEYS_LOAD (R272). -/
def State.cmdKeysLoad (s : State) (agent slab : Nat) : State := s.fieldWrite agent .keys slab F.KEYS_CMD_OP (fun s => s.keysLoad slab)
/-- KEYS_UNWRAP (R235, R272): the key-encryption key the secure processor names unwraps the blob in KEYS_MATERIAL. -/
def State.cmdKeysUnwrap (s : State) (agent slab kek : Nat) : State := s.fieldWrite agent .keys slab F.KEYS_CMD_OP (fun s => s.keysUnwrap slab kek)
/-- KEYS_ERASE (R236). -/
def State.cmdKeysErase (s : State) (agent slab : Nat) : State := s.fieldWrite agent .keys slab F.KEYS_CMD_OP (fun s => s.keysErase slab)
/-- KEYS_WRITE_ATTR (R272). -/
def State.cmdKeysWriteAttr (s : State) (agent slab : Nat) : State := s.fieldWrite agent .keys slab F.KEYS_CMD_OP (fun s => s.keysWriteAttr slab)
/-- KEYS_READ_ATTR (R272). -/
def State.cmdKeysReadAttr (s : State) (agent slab : Nat) : State := s.fieldWrite agent .keys slab F.KEYS_CMD_OP (fun s => s.keysReadAttr slab)
/-- KEYS_ERASE_DONE (R236): the last request under an erased context has completed; its keys are destroyed. -/
def State.cmdKeysEraseDone (s : State) (slab : Nat) : State :=
  match s.crypto.erasing.find? (fun x => x.2 = slab) with
    | none => s
    | some x =>
      if s.ctxInUse x.1 then s
      else
        let t := { s with crypto := { s.crypto with erasing := s.crypto.erasing.filter (· ≠ x), ctxs := sdel s.crypto.ctxs x.1 } }
        t.keysDone slab 0

end Sys2Proof.Machine
end

