-- ==== Sys2Proof/Machine/Ring.lean ====
section
/-! DEFINITION. Lode rings (R431 to R467, R479, R480): link events of a side, the timing upstream, taking and forwarding frames, membership,
order, splice and wrap. -/

namespace Sys2Proof.Machine

/-! ### States of a pair -/

/-- STATE_A or STATE_B (R481). -/
def State.pairState (s : State) (p : Nat) : Nat := s.get .lode 0 (if p = 0 then F.LODE_STATE_STATE_A else F.LODE_STATE_STATE_B)
/-- Set the state of a pair. -/
def State.setPairState (s : State) (p v : Nat) : State := s.put .lode 0 (if p = 0 then F.LODE_STATE_STATE_A else F.LODE_STATE_STATE_B) v
/-- Own position on a pair's ring. -/
def State.position (s : State) (p : Nat) : Nat := s.get .lode 0 F.LODE_RING_POSITION p
/-- Does the module hold a position on a pair's ring as a member (R467)? -/
def State.isMember (s : State) (p : Nat) : Bool := s.pairState p = 4 || s.pairState p = 7
/-- Is it the head of the pair's ring? -/
def State.isHead (s : State) (p : Nat) : Bool := s.pairState p = 0xA
/-- The pair on which the module is a member: A for a worker, B for a manager (R6). -/
def State.memberPair (s : State) : Nat := if s.role = 0 then 0 else 1
/-- The FABRIC_ID in force (R458). -/
def State.fabricId (s : State) : Nat := s.get .lode 0 F.LODE_FABRIC_LO_ID_LO + 2 ^ 32 * s.get .lode 0 F.LODE_FABRIC_HI_ID_HI
/-- Take a FABRIC_ID. -/
def State.setFabricId (s : State) (v : Nat) : State :=
  (s.put .lode 0 F.LODE_FABRIC_LO_ID_LO (v % 2 ^ 32)).put .lode 0 F.LODE_FABRIC_HI_ID_HI (v / 2 ^ 32)
/-- Draw a FABRIC_ID of its own, at the start of a fabric or of running alone (R458). -/
def State.drawFabricId (s : State) : State := let x := s.draw 64; x.2.setFabricId x.1.toNat

/-- Choose the timing upstream afresh (R450, R456): the first neighbour on the route to the head, or the other side when that one is down; a
module with none is the stroke source of what it can reach. -/
def State.chooseTiming (s : State) : State :=
  let p := s.memberPair
  let none_ : Bool := s.role = 3 || !s.isMember p || (!s.sideUp p 0 && !s.sideUp p 1)
  if none_ then
    ((((s.put .lode 0 F.LODE_STATE_TIMING_PORT 0).put .lode 0 F.LODE_STATE_TIMING_SIDE 0).put .lode 0 F.LODE_STATE_HOLDOVER 0).put .tmb 0
      F.TMB_STATUS_SOURCE 0).put .tmb 0 F.TMB_STATUS_IN_SPEC 1 |>.put .lode 0 F.LODE_TIMING_DEPTH 0
  else
    let sd := (s.pair p).routeSide 0
    let side := if s.sideUp p sd then sd else 1 - sd
    ((s.put .lode 0 F.LODE_STATE_TIMING_PORT (p + 1)).put .lode 0 F.LODE_STATE_TIMING_SIDE side).put .tmb 0 F.TMB_STATUS_SOURCE 1
/-- Is a side the timing upstream? -/
def State.isUpstream (s : State) (p sd : Nat) : Bool :=
  s.get .lode 0 F.LODE_STATE_TIMING_PORT = p + 1 && s.get .lode 0 F.LODE_STATE_TIMING_SIDE = sd

/-- Run alone (R8): address 0.0.0, no Spill target, own strokes, own FABRIC_ID. -/
def State.runAlone (s : State) : State :=
  let s1 := ((((s.put .lode 0 F.LODE_ID_FABRIC_ADDR 0).put .lode 0 F.LODE_ID_ADDR_VALID 1).put .lode 0 F.LODE_ID_ROOTED 0).put .tier 0
    F.TIER_SPILL_TGT_VALID 0)
  s1.chooseTiming.drawFabricId

/-- Is the pair's bypass cell to be open in a state (R435)? -/
def cellOpenIn (st : Nat) : Bool := !(st ∈ [0, 1, 2, 8, 0xF])
/-- Close both cells of a pair: its sides go down and what they held is lost (R435, R464). -/
def State.closeCells (s : State) (p : Nat) : State :=
  let s1 := [0, 1].foldl (fun t sd =>
    let u := (((((t.ringPut p sd F.RING_LINK_CELL_OPEN 0).ringPut p sd F.RING_LINK_UP 0).ringPut p sd F.RING_LINK_LOCKED 0).ringPut p sd
      F.RING_LINK_WRAP 0).ringPut p sd F.RING_LINK_NEIGH_VALID 0).ringPut p sd F.RING_DELAY_VALID 0
    u.modSide p sd (fun x => { trained := x.trained, barred := x.barred })) s
  let s2 := { s1 with ring := { s1.ring with egress := s1.ring.egress.filter (fun x => x.1 ≠ p) } }
  (s2.put .lode 0 F.LODE_RING_WRAPPED 0 p).put .lode 0 F.LODE_RING_MEMBERS 0 p
/-- Open both cells of a pair; training follows as a physical event. -/
def State.openCells (s : State) (p : Nat) : State := (s.ringPut p 0 F.RING_LINK_CELL_OPEN 1).ringPut p 1 F.RING_LINK_CELL_OPEN 1
/-- A pair starts to listen (R467). -/
def State.listen (s : State) (p : Nat) : State :=
  ((s.closeCells p).setPairState p 1).modPair p (fun _ => { heard := s.now })
/-- A pair leaves its ring for a state in which its cells are closed. -/
def State.leavePair (s : State) (p : Nat) : State :=
  let s1 := (((s.closeCells p).setPairState p 8).modPair p (fun _ => {})).raise .lode 0 17
  if s1.alone then s1.runAlone else s1.chooseTiming
/-- What the release of a reset starts on each pair (R467): a manager enumerates on A, everyone else listens; a pair the role leaves unused
shows 0xF. The root manager is rooted from the start (R447). -/
def State.ringStart (s : State) : State :=
  let s1 := (s.listen 0).listen 1
  let s2 := if s.role = 0 then s1.setPairState 1 0xF
    else
      let t := (s1.setPairState 0 9).openCells 0
      if s.role = 3 then t.setPairState 1 0xF else t
  if s.role = 3 then s2.runAlone.put .lode 0 F.LODE_ID_ROOTED 1 else s2.runAlone

/-! ### Buckets and link loss (R439, R465, R479) -/

/-- Turn what a lost side still holds to the other side of its pair (R465). -/
def State.turnFrames (s : State) (p sd : Nat) : State :=
  let own := s.ring.egress.filter (fun x => x.1 = p && x.2.1 = sd)
  let held := (s.side p sd).replay.map (fun r => r.frame)
  let s1 := ({ s with ring := { s.ring with egress := s.ring.egress.filter (fun x => !(x.1 = p && x.2.1 = sd)) } }).modSide p sd
    (fun x => { x with replay := [] })
  (held ++ own.map (fun x => x.2.2)).foldl (fun t f => t.sendOn p sd f) s1
/-- A side wraps (R465): frames for it leave on the other side of the pair. -/
def State.wrapSide (s : State) (p sd : Nat) : State :=
  if s.ringGet p sd F.RING_LINK_WRAP = 1 then s
  else
    let s1 := ((s.ringPut p sd F.RING_LINK_WRAP 1).raise .ring (slabOfSide sd) 19).raise .lode 0 19
    let s2 := (s1.put .lode 0 F.LODE_RING_WRAPPED 1 p).turnFrames p sd
    if s2.isUpstream p sd then s2.chooseTiming else s2
/-- A side goes down: it wraps until it trains again (R465, R479). -/
def State.sideDown (s : State) (p sd : Nat) : State :=
  if !cellOpenIn (s.pairState p) then s
  else
    let was := s.sideUp p sd
    let s1 := (s.ringPut p sd F.RING_LINK_UP 0).ringPut p sd F.RING_LINK_LOCKED 0
    let s2 := s1.modSide p sd (fun x => { x with rxSeq := 0, nak := false, replaySince := none, unwrapMine := none, unwrapPeer := none
                                                 echo := false, used := [0, 0, 0, 0] })
    let s3 := if was then s2.raise .ring (slabOfSide sd) 16 else s2
    s3.wrapSide p sd
/-- The link of a side is permanently down (R479). -/
def State.permDown (s : State) (p sd : Nat) : State :=
  let s1 := ((s.ringPut p sd F.RING_LINK_PERM_DOWN 1).ringPut p sd F.RING_BUCKET_PERMANENT 1).raise .ring (slabOfSide sd) 18
  (s1.sideDown p sd).fault .ring (slabOfSide sd) 0x19 { cls := 0x19, unit := p }
/-- Add a weight to a side's bucket (R479). -/
def State.ringAdd (s : State) (p sd : Nat) (w : Fld) : State :=
  let sl := slabOfSide sd
  let lvl := min 0xFFFF (s.ringGet p sd F.RING_BUCKET_LEVEL + 256 * s.get .ring sl w)
  let s1 := s.ringPut p sd F.RING_BUCKET_LEVEL lvl
  if 256 * s.get .ring sl F.RING_BUCKET_CFG_THRESH ≤ lvl && s.ringGet p sd F.RING_LINK_PERM_DOWN = 0 then s1.permDown p sd else s1
/-- The leak of every ring bucket at a Layer boundary (R479). -/
def State.ringLeak (s : State) : State :=
  s.forN 4 (fun t i => t.ringPut (i / 2) (i % 2) F.RING_BUCKET_LEVEL
    (t.ringGet (i / 2) (i % 2) F.RING_BUCKET_LEVEL - t.get .ring (slabOfSide (i % 2)) F.RING_BUCKET_CFG_LEAK))
/-- A side replays from the oldest flit it holds (R439, R479): the frames go out again. -/
def State.replay (s : State) (p sd : Nat) (w : Fld) : State :=
  let s1 := s.bump .ring (slabOfSide sd) F.RING_RETRY_COUNT 1 p
  let s2 := s1.modSide p sd (fun x => { x with replaySince := some (x.replaySince.getD s.now) })
  let s3 := (s.side p sd).replay.foldl (fun t r => (t.spend .ring [(10, r.flits)]).emit (.frame p sd r.frame)) s2
  s3.ringAdd p sd w
/-- RING_REPLAY_TIMEOUT (R439): the oldest flit has had no acknowledgement. -/
def State.cmdRingReplayTimeout (s : State) (pair side : Nat) : State :=
  if s.sideUp pair side && !(s.side pair side).replay.isEmpty then s.replay pair side F.RING_BUCKET_CFG_W_TIMEOUT else s
/-- RING_LOCK_LOSS (R465, R479): a side's receiver loses lock, or the link is declared down. -/
def State.cmdRingLockLoss (s : State) (pair side : Nat) (down : Bool) : State :=
  if !s.sideUp pair side then s
  else
    let t := s.sideDown pair side
    if down then t else t.ringAdd pair side F.RING_BUCKET_CFG_W_LOCK
/-- Replays that have failed for eight strokes count as a transient loss of the side (R479). -/
def State.replayEarly8 (s : State) : State :=
  s.forN 4 (fun t i => match (t.side (i / 2) (i % 2)).replaySince with
    | some b => if 8 ≤ strokesSince b t.now then t.sideDown (i / 2) (i % 2) else t
    | none => t)

/-- Send the probe of a splice half once every flit sent is acknowledged (R462). -/
def State.probeIfDone (s : State) (p sd : Nat) : State :=
  if sd ∈ (s.pair p).probing && (s.side p sd).replay.isEmpty && s.sideUp p sd then
    (s.modPair p (fun x => { x with probing := x.probing.filter (· ≠ sd) })).emit
      (.oset p sd 0xD2 (1 :: (leBytes 6 s.now.toNat).map (fun b => b.toNat) ++ [s.position p]))
  else s

/-- Is a flit number at or before another, counting back fewer than 2,048? -/
def flitLe (a b : Nat) : Bool := (b + 4096 - a % 4096) % 4096 < 2048
/-- A good flit in order (R437, R439, R441): its slots fill the buffers; what it acknowledges leaves the replay buffer, what it returns comes
back as credits; a NAK asks for a replay. `slots` gives the slots the flit fills on each channel and, fifth, the header slots in it whose HCRC
fails: each is dropped with its payload and counted (R440). -/
def State.flitGood (s : State) (p sd ackSeq : Nat) (ackValid nak : Bool) (crVc crCount : Nat) (slots : List Nat) : State :=
  let s1 := s.modSide p sd (fun x =>
    let rep := if ackValid then x.replay.filter (fun r => !flitLe r.last ackSeq) else x.replay
    { x with rxSeq := (x.rxSeq + 1) % 4096, nak := false, replay := rep
             replaySince := if rep.length < x.replay.length then none else x.replaySince
             credits := x.credits.set crVc (x.credits.getD crVc 0 + crCount)
             used := (List.range 4).map (fun v => x.used.getD v 0 + slots.getD v 0) })
  let s1 := if slots.getD 4 0 = 0 then s1 else s1.bump .ring (slabOfSide sd) F.RING_DISCARD_COUNT (slots.getD 4 0) p
  let s2 := if nak then s1.replay p sd F.RING_BUCKET_CFG_W_CRC else s1
  (s2.probeIfDone p sd).drainEgress
/-- FLIT_RECEIVE (R432, R437 to R439, R441): its block moves every lane's generator on by 16 bytes; a flit that fails its CRC, as one with a block
error does, or that leaves a gap, is dropped with every later one until the replay arrives, and a NAK goes out. -/
def State.cmdFlitReceive (s0 : State) (pair side fseq ackSeq : Nat) (ackValid nak crcOk : Bool) (crVc crCount : Nat) (slots : List Nat) : State :=
  if !s0.sideTakes pair side then s0
  else
    let s := s0.modSide pair side (fun x => { x with rxScr := x.rxScr + 16 })
    let x := s.side pair side
    let ask (t : State) : State :=
      if x.nak then t else (t.modSide pair side (fun y => { y with nak := true })).emit (.link pair side ((x.rxSeq + 4095) % 4096) true)
    if !crcOk then ask (s.bump .ring (slabOfSide side) F.RING_CRC_ERR_COUNT 1 pair)
    else if fseq % 4096 ≠ x.rxSeq then ask s
    else (s.flitGood pair side ackSeq ackValid nak (crVc % 4) crCount slots).emit (.link pair side (fseq % 4096) false)

/-! ### Membership (R443, R444, R446, R467) -/

/-- Hops a frame has taken tell the order index of its source: East-bound it arrives on W (R442, R445). -/
def indexOfHops (n side hops : Nat) : Nat := if side = 0 then n - 1 - hops else hops + 1
/-- Send JOIN_REQ with the serial and the preferred position (R443, R444). -/
def State.sendJoin (s : State) (p : Nat) : State :=
  let v := s.get .lode 0 (if p = 0 then F.LODE_PREV_VALID_A else F.LODE_PREV_VALID_B)
  let pos := s.get .lode 0 (if p = 0 then F.LODE_PREV_POS_A else F.LODE_PREV_POS_B)
  let tag := s.ring.nextTag
  let f : Frame := { ty := 4, vc := 1, dst := (s.pair p).headAddr, tag := tag, arg := pos + 64 * v + 128 * s.role, src := s.addr
                     payload := leBytes 16 Config.serial.toNat }
  let sd := (s.pair p).routeSide 0
  let s1 := { s with ring := { s.ring with nextTag := (tag + 1) % 65536
                                           reqs := s.ring.reqs ++ ([{ tag := tag, frame := f, pair := p, side := sd, sent := s.now }] : List Req1) } }
  (s1.modPair p (fun x => { x with joinTag := some tag })).sendOn p sd f

/-- Address of position `i` on a ring whose head has address `h` (R447). -/
def State.addrUnder (s : State) (p h i : Nat) : Nat := match s.ringLevel p with
  | 0 => h / 64 * 64 + i
  | 1 => h / 4096 * 4096 + 64 * i
  | _ => 4096 * i
/-- Set the address that a position under a head gives; a module that heads a ring below adopts it there too (R447). -/
def State.setAddr (s : State) (p : Nat) : State :=
  (s.put .lode 0 F.LODE_ID_FABRIC_ADDR (s.addrUnder p (s.pair p).headAddr (s.position p))).put .lode 0 F.LODE_ID_ADDR_VALID 1
/-- A ring-role or head-conflict fault. -/
def State.lodeFault (s : State) (cls : Nat) (p : Nat) : State := s.fault .lode 0 cls { cls := cls, unit := p }

/-- Start an enumeration of the ring the module heads (R443). -/
def State.startEnum (s : State) (p : Nat) : State :=
  let tag := s.ring.nextTag
  let s1 := { s with ring := { s.ring with nextTag := (tag + 1) % 65536 } }
  let s2 := s1.modPair p (fun x => { x with enumTag := some tag, counted := none, joins := [] })
  s2.sendOn p 1 { ty := 3, vc := 1, dst := s.addr, tag := tag, arg := 1, src := s.addr, bcast := true }

/-- Payload of ORDER: the position at each order index, 0xFF past the last member (R443). -/
def Pair.orderBytes (x : Pair) : List Byte := (List.range 64).map (fun k => BitVec.ofNat 8 (x.order.getD k 0xFF))
/-- The head issues a new ORDER: EPOCH + 1; it goes out after the next STROKE frame (R444, R457). -/
def State.newOrder (s : State) (p : Nat) : State :=
  let s1 := s.put .lode 0 F.LODE_RING_EPOCH ((s.get .lode 0 F.LODE_RING_EPOCH p + 1) % 65536) p
  let s2 := s1.put .lode 0 F.LODE_RING_MEMBERS (s1.pair p).order.length p
  s2.modPair p (fun x => { x with orderDue := true, orderIdx := some 0 })
/-- Role a member of the ring of a pair must have (R446). -/
def State.memberRole (s : State) : Nat := s.role - 1
/-- Answer a JOIN_REQ with ASSIGN: a position, or REFUSED. -/
def State.assign (s : State) (p : Nat) (j : JoinReq) (pos : Option Nat) : State :=
  let f : Frame := { ty := 5, vc := 1, dst := s.addr + (pos.getD 0) * 64 ^ s.ringLevel p, tag := j.tag, src := s.addr
                     arg := match pos with
                       | some q => q
                       | none => 64 }
  let sd := (s.pair p).routeSide (pos.getD 0)
  (s.modPair p (fun x => match pos with
    | some q => { x with held := sput x.held q j.serial }
    | none => x)).sendOn p sd f
/-- Positions the head gives (R443 step 4): preferred ones that are valid, free and asked for once, then the lowest free ones in order of
the order index. -/
def State.assignAll (s : State) (p : Nat) : State :=
  let x := s.pair p
  let ok := x.joins.filter (fun j => j.role = s.memberRole)
  let s0 := (x.joins.filter (fun j => j.role ≠ s.memberRole)).foldl (fun t j => t.assign p j none) s
  let taken (t : State) (q : Nat) : Bool := (sfind (t.pair p).held q).isSome
  let wish (t : State) (j : JoinReq) : Option Nat := match j.pref with
    | some q => if 1 ≤ q && q ≤ 63 && !taken t q && (ok.filter (fun i => i.pref = some q)).length = 1 then some q else none
    | none => none
  let byIdx := ok.foldl (fun (acc : List JoinReq) j => acc.filter (fun i => i.index < j.index) ++ [j] ++ acc.filter (fun i => !(i.index < j.index))) []
  let first := byIdx.foldl (fun (acc : State × List (JoinReq × Nat)) j => match wish acc.1 j with
    | some q => (acc.1.assign p j (some q), acc.2 ++ [(j, q)])
    | none => acc) (s0, [])
  let rest_ := byIdx.filter (fun j => !(first.2.any (fun y => y.1 = j)))
  let all := rest_.foldl (fun (acc : State × List (JoinReq × Nat)) j =>
    match (List.range 63).map (· + 1) |>.find? (fun q => !taken acc.1 q) with
    | some q => (acc.1.assign p j (some q), acc.2 ++ [(j, q)])
    | none => (acc.1.assign p j none, acc.2)) first
  let order := 0 :: byIdx.filterMap (fun j => (all.2.find? (fun y => y.1 = j)).map (fun y => y.2))
  (all.1.modPair p (fun y => { y with joins := [], order := order })).newOrder p

/-- JOIN_REQ at the head (R443, R446): gathered while an enumeration waits for its members, else answered at once as a late joiner. -/
def State.doJoinReq (s : State) (p side : Nat) (f : Frame) : State :=
  if !(s.isHead p || s.pairState p = 9) then s
  else
    let x := s.pair p
    let pref := if f.arg.testBit 6 then some (f.arg % 64) else none
    let j (n : Nat) : JoinReq := { serial := BitVec.ofNat 64 (fieldB f.payload 0 8), pref := pref, role := bits f.arg 7 2, tag := f.tag
                                   index := indexOfHops n side f.hops }
    if x.enumTag.isSome then
      let s1 := s.modPair p (fun y => { y with joins := y.joins.filter (fun i => i.serial ≠ (j 0).serial) ++ [j (x.counted.getD 64)] })
      match x.counted with
      | some n => if n ≤ (s1.pair p).joins.length + 1 then
          ((s1.modPair p (fun y => { y with enumTag := none, held := [] })).assignAll p).setPairState p 0xA else s1
      | none => s1
    else
      let n := x.order.length + 1
      let q := j n
      if q.role ≠ s.memberRole then s.assign p q none
      else
        let free (i : Nat) : Bool := (sfind x.held i).isNone
        let pos := match q.pref with
          | some i => if 1 ≤ i && i ≤ 63 && free i then some i else ((List.range 63).map (· + 1)).find? free
          | none => ((List.range 63).map (· + 1)).find? free
        match pos with
        | none => s.assign p q none
        | some i =>
          let s1 := s.modPair p (fun y => { y with order := y.order.take q.index ++ [i] ++ y.order.drop q.index })
          (s1.assign p q (some i)).newOrder p

/-- ENUM at a member or at the head (R443, R449). -/
def State.doEnum (s : State) (p side : Nat) (f : Frame) (serial : BitVec 64) : State :=
  let st := s.pairState p
  let x := s.pair p
  let on (g : Frame) : State := s.sendOn p (1 - side) { g with hops := (g.hops + 1) % 64 }
  if st = 9 || st = 0xA then
    if serial = Config.serial then
      if x.enumTag = some f.tag && x.counted.isNone then
        let s1 := s.modPair p (fun y => { y with counted := some (f.arg % 128) })
        if f.arg % 128 ≤ (s1.pair p).joins.length + 1 then
          ((s1.modPair p (fun y => { y with enumTag := none, held := [] })).assignAll p).setPairState p 0xA else s1
      else s
    else if serial.toNat < Config.serial.toNat then
      let s1 := ((s.put .lode 0 F.LODE_STATE_HEAD_CONFLICT 1).lodeFault 0x17 p).raise .lode 0 22
      s1.leavePair p
    else s
  else if st ∈ [3, 4, 5, 6, 7] then
    let s0 := s.modPair p (fun y => { y with headAddr := f.src })
    if x.enumTag = some f.tag then on f
    else
      let g := { f with arg := (f.arg + 1) % 128, hops := (f.hops + 1) % 64 }
      let s1 := (s0.modPair p (fun y => { y with enumTag := some f.tag, orderIdx := some (f.arg % 128) })).sendOn p (1 - side) g
      if st = 6 then s1 else s1.sendJoin p
  else s

/-- ASSIGN at a member (R443, R446, R447, R467). -/
def State.doAssign (s : State) (p : Nat) (f : Frame) : State :=
  let st := s.pairState p
  if (s.pair p).joinTag ≠ some f.tag || !(st ∈ [3, 4, 5, 6, 7]) then s
  else
    let s0 := (s.reqDone f.tag).modPair p (fun x => { x with joinTag := none, headAddr := f.src })
    if f.arg.testBit 6 then (s0.setPairState p 6).lodeFault 0x16 p
    else
      let pos := f.arg % 64
      let s1 := (s0.put .lode 0 F.LODE_RING_POSITION pos p).setAddr p
      let s2 := if p = 0 then (s1.put .lode 0 F.LODE_PREV_POS_A pos).put .lode 0 F.LODE_PREV_VALID_A 1
        else (s1.put .lode 0 F.LODE_PREV_POS_B pos).put .lode 0 F.LODE_PREV_VALID_B 1
      let s3 := if st = 7 then s2 else s2.setPairState p 4
      (s3.modPair p (fun x => { x with lastStrokeFrame := some s.now })).chooseTiming.raise .lode 0 16

/-- ORDER at a member (R443 to R445): its payload names the positions in physical order. -/
def State.doOrder (s : State) (p : Nat) (f : Frame) : State :=
  if !s.isMember p then s
  else
    let order := ((List.range 64).map (fun k => fieldB f.payload k 1)).takeWhile (· ≠ 0xFF)
    let idx := order.idxOf (s.position p)
    let fold := bits f.arg 16 7
    let s1 := s.modPair p (fun x => { x with order := order, orderIdx := if idx < order.length then some idx else x.orderIdx
                                             fold := if fold = 0x7F then none else some fold })
    let s2 := (s1.put .lode 0 F.LODE_RING_EPOCH (f.arg % 65536) p).put .lode 0 F.LODE_RING_MEMBERS order.length p
    (s2.put .lode 0 F.LODE_RING_WRAPPED (b2n (fold ≠ 0x7F)) p).chooseTiming

/-! ### Sides, timing, splice (R434, R450 to R456, R461 to R464) -/

/-- RING_SIDE_UP (R434, R463, R464): a link has trained in both directions. -/
def State.ringSideUp (s : State) (p sd position : Nat) : State :=
  let st := s.pairState p
  let x := s.side p sd
  if s.ringGet p sd F.RING_LINK_CELL_OPEN = 0 || s.ringGet p sd F.RING_LINK_PERM_DOWN = 1 || x.barred || s.sideUp p sd || !(st ∈ [2, 3, 4, 5, 6, 7, 9, 0xA]) then s
  else
    let s1 := s.modSide p sd (fun y => { trained := y.trained + 1, echo := true, barred := y.barred })
    let s2 := (((s1.ringPut p sd F.RING_LINK_UP 1).ringPut p sd F.RING_LINK_LOCKED 1).ringPut p sd F.RING_LINK_NEIGH_POS (position % 64)).ringPut p sd
      F.RING_LINK_NEIGH_VALID (b2n (position ≠ 0xFF))
    let s3 := if x.trained = 0 then s2 else s2.bump .ring (slabOfSide sd) F.RING_RETRAIN_COUNT 1 p
    let s4 := (s3.raise .ring (slabOfSide sd) 17).emit (.oset p sd 0xC3 [0])
    let s5 := if s4.ringGet p sd F.RING_LINK_WRAP = 1 then
        let t := ((s4.now.toNat + 4 + 63) / 64 * 64) % 2 ^ 48
        (s4.modSide p sd (fun y => { y with unwrapMine := some (BitVec.ofNat 48 t) })).emit
          (.oset p sd 0xD2 (2 :: (leBytes 6 t).map (fun b => b.toNat) ++ [s4.position p]))
      else s4
    let both := s5.sideUp p 0 && s5.sideUp p 1
    if st = 2 && both && (s5.pair p).opened.length = 2 then
      ((s5.setPairState p 3).modPair p (fun y => { y with trainedAt := some s5.now, opened := [] })).sendJoin p
    else if st = 3 && both then s5.modPair p (fun y => { y with trainedAt := some (y.trainedAt.getD s5.now) })
    else if st = 4 || st = 7 then s5.chooseTiming.drainEgress else s5.drainEgress
/-- RING_SIDE_UP (R434). -/
def State.cmdRingSideUp (s : State) (pair side position _role : Nat) (_serial : BitVec 64) (_head _pairB : Bool) : State := s.ringSideUp pair side position

/-- LSKP (R432, R433): it reseeds the generators of the lanes that receive; dropping or repeating it changes nothing above them. -/
def State.cmdLskp (s : State) (pair side _adjust : Nat) : State :=
  if pair < 2 && side < 2 then s.modSide pair side (fun x => { x with rxScr := 0 }) else s
/-- Every side that is up sends LSKP once in 1,024 block times of 130/28 ns (R433), and reseeds the generators of the lanes that send. -/
def State.sendLskp (s : State) : State :=
  s.forN 4 (fun t i =>
    let due := (t.side (i / 2) (i % 2)).lskpDue + 28000
    if !t.sideUp (i / 2) (i % 2) then t
    else if 133120 ≤ due then
      (t.modSide (i / 2) (i % 2) (fun x => { x with lskpDue := due - 133120, txScr := 0 })).emit (.oset (i / 2) (i % 2) 0xAA [])
    else t.modSide (i / 2) (i % 2) (fun x => { x with lskpDue := due }))

/-- LSTRK from the timing upstream (R451, R453, R455, R456). -/
def State.lstrk (s : State) (p sd : Nat) (stroke : Stroke) (txOfs : Nat) (sourceOk holdover rooted : Bool) (depth : Nat) (tr : Int) : State :=
  let listening := s.pairState p = 1 || s.pairState p = 2
  if !listening && !(s.isUpstream p sd && s.sideUp p sd) then s
  else
    let delay : Nat := if listening then s.get .lode 0 F.LODE_PROV_DELAY_DELAY else s.ringGet p sd F.RING_DELAY_DELAY
    let e : Int := (txOfs : Int) + (delay : Int) - tr
    let s1 := { s with ring := { s.ring with err := e, errFresh := true, lstrkSeen := true, holdoverCount := 0 } }
    let s2 := s1.put .lode 0 F.LODE_TIMING_ERROR ((e % 65536).toNat)
    let spec := decide (-3 ≤ e) && decide (e ≤ 3) && sourceOk
    let s3 := if listening then s2 else
      (((s2.put .tmb 0 F.TMB_STATUS_IN_SPEC (b2n spec)).put .lode 0 F.LODE_TIMING_DEPTH ((depth + 1) % 256)).put .lode 0 F.LODE_STATE_HOLDOVER
        (b2n holdover)).put .lode 0 F.LODE_ID_ROOTED (b2n rooted)
    -- the matching edge is the nearest local one; the adoption is at the local edge after it (R455)
    let edge : Stroke := if tr < 0 then s.now + 1 else s.now
    if stroke ≠ edge then { s3 with tb := { s3.tb with adopt := some (edge + 1, stroke + 1) } } else s3
/-- LSTRK (R453). -/
def State.cmdLstrk (s : State) (pair side : Nat) (stroke : Stroke) (txOfs : Nat) (sourceOk holdover rooted : Bool) (depth : Nat) (tr : Int) : State := s.lstrk pair side stroke txOfs sourceOk holdover rooted depth tr

/-- LECHO (R452): a request is answered with the time it waited. -/
def State.cmdLecho (s : State) (pair side ta : Nat) : State :=
  if s.sideUp pair side then s.emit (.oset pair side 0xC3 [1, ta % 256, ta / 256 % 256]) else s
/-- LECHO_REPLY (R452): LINK_DELAY is half of what the round trip took beyond the peer's wait, to the nearest u. -/
def State.cmdLechoReply (s : State) (pair side ta t4 : Nat) : State :=
  if !s.sideUp pair side || !(s.side pair side).echo then s
  else
    let s1 := s.modSide pair side (fun x => { x with echo := false })
    (s1.ringPut pair side F.RING_DELAY_DELAY ((t4 - ta + 1) / 2)).ringPut pair side F.RING_DELAY_VALID 1

/-- Strokes of a splice half: the direction East-bound (0) runs over [W, W + 4), West-bound over [W + 4, W + 8) (R461). -/
def halfStart (w : Stroke) (dir : Nat) : Stroke := w + BitVec.ofNat 48 (4 * dir)
/-- LSPL_PROBE (R463): in a splice half a joiner opens its cells in that direction and sends its own probe. -/
def State.splProbe (s : State) (p sd : Nat) : State :=
  -- a probe that arrives on W travels East-bound
  let dir := sd
  match (s.pair p).window with
  | none => s
  | some w =>
    if s.pairState p ≠ 2 || dir ∈ (s.pair p).opened || 4 ≤ strokesSince (halfStart w dir) s.now then s
    else
      let s1 := s.modPair p (fun x => { x with opened := x.opened ++ [dir], heard := s.now })
      let s2 := if (s1.pair p).opened.length = 2 then s1.openCells p else s1
      s2.emit (.oset p (1 - sd) 0xD2 (1 :: (leBytes 6 s.now.toNat).map (fun b => b.toNat) ++ [0xFF]))
/-- LSPL_PROBE (R462, R463). -/
def State.cmdLsplProbe (s : State) (pair side : Nat) (_stroke : Stroke) (_position : Nat) : State := s.splProbe pair side
/-- LSPL_UNWRAP (R464): the neighbour names its unwrap stroke. -/
def State.cmdLsplUnwrap (s : State) (pair side : Nat) (stroke : Stroke) (_position : Nat) : State :=
  if s.sideUp pair side && s.ringGet pair side F.RING_LINK_WRAP = 1 then
    s.modSide pair side (fun x => { x with unwrapPeer := some stroke }) else s
/-- A side unwraps at the later of the two strokes named (R464). -/
def State.unwrapEdge (s : State) : State :=
  s.forN 4 (fun t i =>
    let p := i / 2
    let sd := i % 2
    match (t.side p sd).unwrapMine, (t.side p sd).unwrapPeer with
    | some a, some b =>
      if strokeLe (if strokeLe a b then b else a) t.now && t.ringGet p sd F.RING_LINK_WRAP = 1 then
        let u := (t.ringPut p sd F.RING_LINK_WRAP 0).raise .ring (slabOfSide sd) 19 |>.raise .lode 0 19
        let v := u.modSide p sd (fun x => { x with unwrapMine := none, unwrapPeer := none })
        let w := if v.ringGet p (1 - sd) F.RING_LINK_WRAP = 0 then v.put .lode 0 F.LODE_RING_WRAPPED 0 p else v
        w.chooseTiming.drainEgress
      else t
    | _, _ => t)

/-- SPLICE_HALF_START (R461, R462): in a half's first stroke a member stops new frames in its direction and sends its probe once all it sent
is acknowledged. -/
def State.cmdSpliceHalfStart (s : State) (pair dir : Nat) : State :=
  match (s.pair pair).window with
    | none => s
    | some w =>
      if (s.isMember pair || s.isHead pair) && s.now = halfStart w dir && dir < 2 then
        let sd := 1 - dir
        (s.modPair pair (fun x => { x with paused := addOnce x.paused sd, probing := addOnce x.probing sd })).probeIfDone pair sd
      else s
/-- Egress resumes at the third stroke of a half, and a window that is over is forgotten (R462). -/
def State.spliceEdge (s : State) : State :=
  s.forN 2 (fun t p => match (t.pair p).window with
    | none => t
    | some w =>
      let n := strokesSince w t.now
      let free (dir : Nat) (u : State) : State :=
        if n < 2 ^ 47 && 4 * dir + 2 ≤ n then u.modPair p (fun x => { x with paused := x.paused.filter (· ≠ 1 - dir) }) else u
      let u := (free 1 (free 0 t)).drainEgress
      if n < 2 ^ 47 && 8 ≤ n then u.modPair p (fun x => { x with window := none, probing := [] }) else u)

/-- TAP_TRAFFIC (R448, R463, R467): ring traffic is heard in LISTEN. A manager's pair B joins only while UP_JOIN_EN is 1 and its subtree holds
no spilled or lent page; until then it asks its members to have no Spill target. -/
def State.tapTraffic (s : State) (p : Nat) : State :=
  let s0 := s.modPair p (fun x => { x with heard := s.now })
  if s.pairState p ≠ 1 || !s.bit .lode 0 F.LODE_CTL_JOIN_EN then s0
  else if p = 1 && s.role ≠ 0 then
    let clean := s.countPages .spilled = 0 && s.tier.lent.isEmpty &&
      (s.pair 0).reports.all (fun x => fieldB x.2 20 4 = 0 && fieldB x.2 24 4 = 0)
    if s.bit .lode 0 F.LODE_CTL_UP_JOIN_EN && clean then s0.setPairState 1 2
    else if s.bit .lode 0 F.LODE_CTL_UP_JOIN_EN then
      let t := s0.put .tier 0 F.TIER_SPILL_TGT_VALID 0
      ((s.pair 0).order.filter (· ≠ 0)).foldl (fun u q =>
        (u.sendReq 8 (u.addr + q * 64 ^ u.ringLevel 0) (pg .tier 0 + 0x114) (leBytes 16 0)).2) t
    else s0
  else s0.setPairState p 2
/-- TAP_TRAFFIC (R467). -/
def State.cmdTapTraffic (s : State) (pair : Nat) : State := s.tapTraffic pair
/-- TAP_SILENCE_TIMEOUT (R467): both taps silent for two Sittings. -/
def State.cmdTapSilenceTimeout (s : State) (pair : Nat) : State :=
  if s.pairState pair = 1 && 4096 ≤ strokesSince (s.pair pair).heard s.now then (s.setPairState pair 3).openCells pair else s
/-- ENUM_TIMEOUT (R467): no ENUM for two Sittings after training. -/
def State.cmdEnumTimeout (s : State) (pair : Nat) : State :=
  match (s.pair pair).trainedAt with
    | some t => if s.pairState pair = 3 && 4096 ≤ strokesSince t s.now then ((s.setPairState pair 5).raise .lode 0 18).runAlone else s
    | none => s
/-- STROKE_FRAME_TIMEOUT (R466, R467): no STROKE frame for 64 strokes. -/
def State.cmdStrokeFrameTimeout (s : State) (pair : Nat) : State :=
  let late := match (s.pair pair).lastStrokeFrame with
    | some t => decide (64 ≤ strokesSince t s.now)
    | none => false
  if s.pairState pair = 4 && late then ((s.setPairState pair 5).raise .lode 0 18).runAlone else s
/-- HOLDOVER_TIMEOUT (R456): after 64 strokes of holdover the upstream is chosen afresh: the other side when it is up, else none. -/
def State.cmdHoldoverTimeout (s : State) : State :=
  if s.ring.holdoverCount < 64 then s
  else
    let s1 := { s with ring := { s.ring with holdoverCount := 0 } }
    let p := s.get .lode 0 F.LODE_STATE_TIMING_PORT - 1
    let sd := s.get .lode 0 F.LODE_STATE_TIMING_SIDE
    if s.sideUp p (1 - sd) then s1.put .lode 0 F.LODE_STATE_TIMING_SIDE (1 - sd)
    else (((s1.put .lode 0 F.LODE_STATE_TIMING_PORT 0).put .lode 0 F.LODE_STATE_HOLDOVER 0).put .tmb 0 F.TMB_STATUS_SOURCE 0).put .tmb 0
      F.TMB_STATUS_IN_SPEC 1
/-- LODE_REJOIN (R467): pairs in LEFT or ALONE listen again. -/
def State.cmdLodeRejoin (s : State) (agent : Nat) : State :=
  s.fieldWrite agent .lode 0 F.LODE_REJOIN_GO (fun s =>
    s.forN 2 (fun t p => if t.pairState p = 8 || t.pairState p = 5 then t.listen p else t))
/-- RING_REVIVE (R479, R480): PERM_DOWN and the bucket of the sides named are cleared, and they train again. -/
def State.cmdRingRevive (s : State) (agent slab sides : Nat) : State :=
  s.fieldWrite agent .ring slab F.RING_CTL_REVIVE_0 (fun s =>
    s.forN 2 (fun t p => if sides.testBit p then
      ((t.ringPut p (1 - slab) F.RING_LINK_PERM_DOWN 0).ringPut p (1 - slab) F.RING_BUCKET_PERMANENT 0).ringPut p (1 - slab) F.RING_BUCKET_LEVEL 0
      else t))

/-! ### Taking and forwarding frames (R442, R502) -/

/-- Pass a frame on: in its direction on the same ring, or to the head's other pair when its destination lies on another ring. -/
def State.forward (s : State) (p side : Nat) (f : Frame) : State :=
  let g := { f with hops := (f.hops + 1) % 64 }
  if !f.bcast && s.role ≠ 0 && s.pairFor f.dst ≠ p && cellOpenIn (s.pairState (s.pairFor f.dst)) then
    let q := s.pairFor f.dst
    s.sendOn q ((s.pair q).routeSide (s.posOn q f.dst)) { g with hops := 0, wrapped := false }
  else s.sendOn p (1 - side) g
/-- Is the module in Rest (R495)? -/
def State.resting (s : State) : Bool := s.get .rest 0 F.REST_STATUS_STATE = 4
/-- Hold a VC1 frame for a resting module: it sets the wake latch; a later copy within 64 strokes is dropped (R502). -/
def State.holdFrame (s : State) (p : Nat) (f : Frame) : State :=
  let s1 := { s with ring := { s.ring with wakeLatch := true } }
  if s.ring.heldFrames.any (fun x => x.2.1.src = f.src && x.2.1.ty = f.ty && x.2.1.tag = f.tag && strokesSince x.2.2 s.now ≤ 64) then s1
  else { s1 with ring := { s1.ring with heldFrames := s1.ring.heldFrames ++ [(p, f, s.now)] } }
/-- Slots of a frame leave our receive buffer, and their credits go back (R441). -/
def State.freeSlots (s : State) (p side : Nat) (f : Frame) : State :=
  let n := frameSlots f
  let u := (s.side p side).used.getD f.vc 0
  (s.modSide p side (fun x => { x with used := x.used.set f.vc (u - n) })).emit (.credit p side f.vc n)
/-- A whole frame arrives on a side: it is taken when it is ours or a broadcast, and passed on otherwise; a broadcast goes on until it is back at
its source (R442). `h` is what taking it does. -/
def State.onFrame (s : State) (p side : Nat) (f : Frame) (h : State → State) : State :=
  if !s.sideTakes p side then s
  else
    let s0 := s.freeSlots p side f
    let mine := !f.bcast && f.dst = s.addr && s.bit .lode 0 F.LODE_ID_ADDR_VALID
    let s1 := if f.bcast || mine then (if s.resting && f.vc = 1 && !f.bcast then s0.holdFrame p f else h s0) else s0
    if (f.bcast && f.src ≠ s.addr) || !(f.bcast || mine) then s1.forward p side f else s1

/-- ENUM (R443): it is not a frame any member takes whole: each passes it on with its index. -/
def State.cmdEnum (s : State) (pair side : Nat) (f : Frame) (serial : BitVec 64) : State :=
  if s.sideTakes pair side then (s.freeSlots pair side f).doEnum pair side f serial else s
/-- JOIN_REQ (R443, R446). -/
def State.cmdJoinReq (s : State) (pair side : Nat) (f : Frame) : State :=
  if s.isHead pair || s.pairState pair = 9 then (if s.sideTakes pair side then (s.freeSlots pair side f).doJoinReq pair side f else s)
  else s.onFrame pair side f (fun t => t.doJoinReq pair side f)
/-- ASSIGN (R443, R446, R447): the member whose JOIN_REQ bears its tag takes it, others pass it on. -/
def State.cmdAssign (s : State) (pair side : Nat) (f : Frame) : State :=
  if !s.sideTakes pair side then s
  else if (s.pair pair).joinTag = some f.tag then (s.freeSlots pair side f).doAssign pair f
  else (s.freeSlots pair side f).forward pair side f
end Sys2Proof.Machine
end

