-- ==== Sys2Proof/Machine/Spill.lean ====
section
/-! DEFINITION. Spill over the ring (R105, R112 to R116, R266, R468, R469): what a borrower sends and checks, what a donor grants, stores and
returns, and requests that fail (R466). -/

namespace Sys2Proof.Machine

/-! ### Granules on the ring (R266, R468) -/

/-- Spill argument (R468). -/
def spillArg (handle g n : Nat) : Nat := handle % 2 ^ 22 + 2 ^ 22 * (g % 8) + 2 ^ 25 * ((n - 1) % 8)
/-- Payload of one granule: its 512 bytes encrypted again under the page's context, then the MAC line with its eight MACs (R266, R468). -/
def granulePayload (keys : KeyMaterial) (ctx donor handle page seq : Nat) (im : List Byte) (g : Nat) : List Byte :=
  let c (i : Nat) : Line := encryptLine keys (spillName donor handle (8 * g + i)) page (imageLine im (8 * g + i))
  (List.range 8).flatMap (fun i => lineBytes (c i)) ++
  (List.range 8).flatMap (fun i => leBytes 7 (lineMac keys (spillName donor handle (8 * g + i)) page ctx 0 seq (c i)).toNat) ++ leBytes 8 0
/-- A returned line and whether its MAC verifies under the ledger sequence (R115, R266). -/
def openLine (keys : KeyMaterial) (ctx donor handle page seq : Nat) (got : List (Nat × List Byte)) (n : Nat) : Line × Bool :=
  match got.find? (fun x => x.1 = n / 8) with
  | none => (0, false)
  | some x =>
    let c := lineOf (sliceB x.2 (64 * (n % 8)) 64)
    let name := spillName donor handle n
    (decryptLine keys name page c, fieldB x.2 (512 + 7 * (n % 8)) 7 = (lineMac keys name page ctx 0 seq c).toNat)

/-! ### Borrowing (R112, R468) -/

/-- Rows of the module's own deep area (R112). -/
def State.deepRows (s : State) : Nat := ((List.range 16).map s.ownRows).sum
/-- Are the free deep rows fewer than 1/64 of the deep area (R112)? -/
def State.shortOfRows (s : State) : Bool := 64 * s.freeRowsAll < s.deepRows
/-- May the module borrow (R112, R475)? -/
def State.mayBorrow (s : State) : Bool :=
  s.bit .tier 0 F.TIER_SPILL_SPILL_ENABLE && s.bit .tier 0 F.TIER_SPILL_TGT_VALID && s.shortOfRows && !s.bit .lode 0 F.LODE_EVAC_EVAC
/-- DEEP_LOW as R112's threshold is crossed, SPILL_NEEDED as borrowing becomes wanted with no donor named (R121), looked at in every stroke. -/
def State.spillWatch (s : State) : State :=
  let low := s.shortOfRows
  let want := low && s.bit .tier 0 F.TIER_SPILL_SPILL_ENABLE && !s.bit .tier 0 F.TIER_SPILL_TGT_VALID && !s.bit .lode 0 F.LODE_EVAC_EVAC
  let s1 := if low && !s.tier.deepLow then s.raise .tier 0 17 else s
  let s2 := if want && !s.tier.spillWant then s1.raise .tier 0 18 else s1
  if low = s.tier.deepLow && want = s.tier.spillWant then s2
  else { s2 with tier := { s2.tier with deepLow := low, spillWant := want }, ring := { s2.ring with deepLowSeen := s2.ring.deepLowSeen || low } }
/-- A spill ends without a donor: the page stays deep or plain. -/
def State.spillBack (s : State) (page : Nat) : State :=
  let s1 := { s with ring := { s.ring with spills := s.ring.spills.filter (fun x => x.page ≠ page) } }
  match s1.moveOf page with
  | some m => if m.kind = .spill then ((s1.setEntry page { s1.entry page with st := m.src }).dropMove page).afterMove page else s1
  | none => s1
/-- SPILL_START (R112, R266, R468): the deep or plain page of lowest HEAT whose NO_SPILL is 0 begins its way to the donor. -/
def State.cmdSpillStart (s : State) : State :=
  if !s.mayBorrow then s
  else
    let cand := s.tier.pmap.filter (fun x => (x.2.st = .deep || x.2.st = .plain) && !x.2.noSpill && (s.moveOf x.1).isNone)
    let best := cand.foldl (fun (b : Option (Nat × PEntry)) x => match b with
      | none => some x
      | some y => if s.decayed x.2 < s.decayed y.2 then some x else b) none
    match best with
    | none => s
    | some x =>
      let e := x.2
      let q := s.admitMove { page := x.1, kind := .spill, src := e.st }
      if !q.1.paid then s
      else
        let im := q.2.readImage x.1 e []
        if !im.2.1.isEmpty then im.2.2.promoteBad x.1 (badLines (e.st = .plain) im.1 im.2.1)
        else
          let donor := s.get .tier 0 F.TIER_SPILL_TGT_DONOR
          let t := (im.2.2.setEntry x.1 { e with st := .moving }).setMove { q.1 with image := im.1, plain := decide (e.st = .plain), donor := donor }
          let r := t.sendReq 0x10 donor e.gm1
          { r.2 with ring := { r.2.ring with spills := r.2.ring.spills ++
            ([{ page := x.1, tag := r.1, donor := donor, granules := e.gm1 + 1 }] : List SpillJob) } }

/-- SPILL_GRANT at the borrower (R266, R468): a handle still IN_USE is declined; else its ledger entry takes the next spill sequence, and the
granules go out. -/
def State.doGrant (s : State) (f : Frame) : State :=
  match s.ring.spills.find? (fun x => x.tag = f.tag && x.donor = f.src && x.handle.isNone) with
  | none => if f.arg.testBit 22 then s.reqDone f.tag else (s.reqDone f.tag).sendPlain 0x16 1 f.src 0 (f.arg % 2 ^ 22)
  | some j =>
    let h := f.arg % 2 ^ 22
    if f.arg.testBit 22 then (s.reqDone f.tag).spillBack j.page
    else if sget false s.crypto.ledgerUse h then s.sendPlain 0x17 1 j.donor j.tag h
    else match s.moveOf j.page with
      | none => ((s.reqDone f.tag).spillBack j.page).sendPlain 0x16 1 f.src 0 h
      | some m =>
        let seq := s.crypto.spillSeq
        let s1 := ({ s with crypto := { s.crypto with ledgerSeq := sset 0 s.crypto.ledgerSeq h seq, ledgerUse := sset false s.crypto.ledgerUse h true
                                                      spillSeq := seq + 1 } }).reqDone f.tag
        let s2 := { s1 with ring := { s1.ring with spills := s1.ring.spills.map (fun (x : SpillJob) =>
          if x.page = j.page then { x with handle := some h } else x) } }
        let s3 := (s2.setMove { m with handle := h }).dirtyTree 8 0 (h / 8)
        let keys := s3.keysOf (s3.entry j.page).ctx
        (List.range j.granules).foldl (fun t g =>
          t.sendPlain 0x12 3 j.donor j.tag (spillArg h g j.granules) (granulePayload keys (s3.entry j.page).ctx j.donor h j.page seq m.image g)) s3
/-- SPILL_DONE at the borrower (R105, R468): the entry flips to spilled and the local granules are freed; a spill given up frees its
handle. -/
def State.doSpillDone (s : State) (f : Frame) : State :=
  let h := f.arg % 2 ^ 22
  match s.ring.spills.find? (fun x => x.handle = some h && x.donor = f.src) with
  | none => if sget false s.crypto.ledgerUse h && !(s.tier.pmap.any (fun x => x.2.handle = h && x.2.donor = f.src && s.srcState x.1 = .spilled))
      then s.freeHandle f.src h else s
  | some j =>
    let e := s.entry j.page
    let s1 := { s with ring := { s.ring with spills := s.ring.spills.filter (fun x => x.page ≠ j.page) } }
    (s1.flip j.page { st := .spilled, heat := 0, epoch := epochOf s.now, ctx := e.ctx, gm1 := j.granules - 1, pinned := e.pinned, noSpill := e.noSpill
                      handle := h, donor := j.donor }).afterMove j.page

/-- Begin a recall of a spilled page for local space (R105, R116, R469, R475). -/
def State.startRecallDeep (s : State) (page : Nat) : State :=
  let e := s.entry page
  if e.st ≠ .spilled || (s.moveOf page).isSome then s
  else
    let q := s.admitMove { page := page, kind := .recallDeep, src := .spilled, handle := e.handle, donor := e.donor, since := s.now }
    ((q.2.setEntry page { e with st := .moving, heat := 0, epoch := epochOf s.now }).setMove q.1).askRecall page e
/-- A spilled page with lines that do not verify is recalled and promoted with them as markers (R260, R266). -/
def State.spillBad (s : State) (page : Nat) (x : SpillFetch) (bads : List (Nat × Nat)) : State :=
  let e := s.entry page
  if s.srcState page ≠ .spilled || e.handle ≠ x.handle || e.donor ≠ x.donor then s else
  let s1 := if e.st = .spilled && (s.moveOf page).isNone then s.startPromote page else s
  match s1.moveOf page with
  | some m => s1.setMove { m with bad := m.bad ++ bads.filter (fun b => !(m.bad.any (fun c => c.1 = b.1))) }
  | none => s1

/-- All granules of a read or recall are back (R115, R266). -/
def State.fetchDone (s : State) (x : SpillFetch) (n : Nat) : State :=
  let s0 := { (s.reqDone x.tag) with ring := { (s.reqDone x.tag).ring with fetches := s.ring.fetches.filter (fun y => y.tag ≠ x.tag) } }
  let s0 := s0.treeUse 8 0 (x.handle / 8) false
  let ctx := match s0.rdOf x.id with
    | some rd => if x.isRecall then (s0.entry x.page).ctx else rd.req.ctx
    | none => (s0.entry x.page).ctx
  let keys := s0.keysOf ctx
  let seq := sget 0 s0.crypto.ledgerSeq x.handle
  let ls := (List.range (8 * n)).map (openLine keys ctx x.donor x.handle x.page seq x.got)
  let image := ls.flatMap (fun l => lineBytes l.1)
  let isPlain : Bool := n = 8
  let fails := (List.range (8 * n)).filter (fun i => !((ls.getD i (0, false)).2))
  let bads := badLines isPlain image (fails.map (fun i => (i, 4)))
  let alarm (t : State) (r : HReq) : State := fails.foldl (fun u i => u.lineAlarm 10 r (i % 64) (spillName x.donor x.handle i)) t
  if x.isRecall then
    match s0.moveOf x.page with
    | none => s0
    | some m =>
      let t := alarm s0 (s0.moverReq x.page 0)
      if m.kind = .recallDeep then
        if bads.isEmpty then t.giveImage { m with plain := isPlain } image isPlain
        else t.takeFrame { m with kind := .recallHot, image := image, plain := isPlain, bad := bads }
      else (t.setMove { m with image := image, plain := isPlain, bad := m.bad ++ bads }).askDecode x.page
  else match s0.rdOf x.id with
    | none => s0
    | some rd =>
      if rd.st ≠ .donor then s0
      else
        let r := rd.req
        let t := alarm s0 r
        let go (u : State) : State :=
          if isPlain then u.ready { rd with data := imageLine image r.line }
          else (u.putRd { rd with st := .decode, image := image, needs := [], loc := { rd.loc with gm1 := n - 1 } }).askLane (u.homeSlab r.page)
            { level := decodeLevel r, stamp := r.stamp, id := r.id }
        if bads.isEmpty then go t
        else
          let u := if bads.any (fun b => b.1 = r.line) then t.bad rd 4 else go t
          u.spillBad r.page x bads
/-- SPILL_RDATA at the borrower (R468). -/
def State.doRdata (s : State) (f : Frame) : State :=
  match s.ring.fetches.find? (fun x => x.tag = f.tag && x.donor = f.src && x.handle = f.arg % 2 ^ 22) with
  | none => s
  | some x =>
    let n := bits f.arg 25 3 + 1
    let g := bits f.arg 22 3
    let y := { x with got := x.got.filter (fun z => z.1 ≠ g) ++ [(g, f.payload)] }
    if n ≤ y.got.length then (s.fetchDone y n).settle
    else { s with ring := { s.ring with fetches := s.ring.fetches.map (fun z => if z.tag = x.tag then y else z) } }
/-- SPILL_RETURN at the borrower (R469): the page comes back ahead of other Spill work. -/
def State.doReturn (s : State) (f : Frame) : State :=
  match s.tier.pmap.find? (fun x => x.2.st = .spilled && x.2.handle = f.arg % 2 ^ 22 && x.2.donor = f.src) with
  | none => s
  | some x => s.startRecallDeep x.1

/-! ### Lending (R112, R113, R468, R469) -/

/-- Granules the Spill pool holds. -/
def State.poolSize (s : State) : Nat := (s.tier.pool.map (fun k => (s.usable (k / 2 ^ 24) (k % 2 ^ 24)).length)).sum
/-- Free granules of the pool. -/
def State.poolFree (s : State) : Nat :=
  s.poolSize - ((s.tier.lent.map (fun l => l.granules)).sum + (s.ring.granted.map (fun g => g.granules)).sum)
/-- Rows of a Vein's share of a pool of `gib` GiB (R112). -/
def State.poolShare (s : State) (gib : Nat) : Nat :=
  let n := ((List.range 16).filter (fun v => !s.veinRet v)).length
  (gib * 262144 + n - 1) / n
/-- Rows a smaller pool keeps: the lowest of each Vein (R113). -/
def State.poolKept (s : State) (gib : Nat) : List Nat :=
  (List.range 16).flatMap (fun v => (sortNat (s.tier.pool.filter (fun k => k / 2 ^ 24 = v))).take (s.poolShare gib))
/-- Do the lent granules and `more` fit a smaller pool (R113)? -/
def State.lentFits (s : State) (gib more : Nat) : Bool :=
  (s.tier.lent.map (fun l => l.granules)).sum + (s.ring.granted.map (fun g => g.granules)).sum + more ≤
    ((s.poolKept gib).map (fun k => (s.usable (k / 2 ^ 24) (k % 2 ^ 24)).length)).sum
/-- The donor grants no new handle while it evacuates, nor one that a smaller pool which waits could not hold (R113, R475). -/
def State.mayGrant (s : State) (g : Nat) : Bool :=
  !s.bit .lode 0 F.LODE_EVAC_EVAC &&
  !(s.bit .tier 0 F.HDR_STATUS_COMMIT_PENDING && s.getS .tier 0 F.TIER_SPILL_DONATE < s.get .tier 0 F.TIER_SPILL_DONATE &&
    !s.lentFits (s.getS .tier 0 F.TIER_SPILL_DONATE) g)
/-- Is a handle of this donor in use? -/
def State.handleUsed (s : State) (h : Nat) : Bool :=
  s.tier.lent.any (fun l => l.handle = h) || s.ring.granted.any (fun g => g.handle = h) || s.ring.declined.any (fun d => d.1 = h)
/-- Lent pages to be returned, lowest handle first, until the rest fits `room` granules (R113). -/
def returnsFor : List Lent → Nat → Nat → List Lent
  | [], _, _ => []
  | x :: r, have_, room => if have_ ≤ room then [] else x :: returnsFor r (have_ - x.granules) room
/-- Send SPILL_RETURN for a lent page (R469). -/
def State.sendReturn (s : State) (x : Lent) : State := s.sendPlain 0x18 1 x.borrower 0 x.handle
/-- While a smaller pool waits, ask for lent pages back, lowest handle first, until those that stay, those a borrower still sends among them, fit
it (R113). -/
def State.askReturns (s : State) : State :=
  let d1 := s.getS .tier 0 F.TIER_SPILL_DONATE
  if !s.bit .tier 0 F.HDR_STATUS_COMMIT_PENDING || s.get .tier 0 F.TIER_SPILL_DONATE ≤ d1 then s
  else
    let room := ((s.poolKept d1).map (fun k => (s.usable (k / 2 ^ 24) (k % 2 ^ 24)).length)).sum
    let stay := s.tier.lent.filter (fun l => !l.asked)
    let have_ := (stay.map (fun l => l.granules)).sum + (s.ring.granted.map (fun g => g.granules)).sum
    let byHandle := (sortNat (stay.map (fun l => l.handle))).filterMap (fun h => stay.find? (fun l => l.handle = h))
    (returnsFor byHandle have_ room).foldl (fun t l =>
      ({ t with tier := { t.tier with lent := t.tier.lent.map (fun (x : Lent) => if x.handle = l.handle then { x with asked := true } else x) } } : State).sendReturn l) s
/-- Offer a handle for `g` granules, or refuse (R468). -/
def State.offerHandle (s : State) (dst tag g : Nat) : State :=
  let free := (List.range 64).map (fun i => (s.ring.nextHandle + i) % 2 ^ 22) |>.find? (fun h => !s.handleUsed h)
  match if s.mayGrant g && g ≤ s.poolFree then free else none with
  | none => s.sendPlain 0x11 2 dst tag (2 ^ 22)
  | some h =>
    let s1 := { s with ring := { s.ring with nextHandle := (h + 1) % 2 ^ 22
                                             granted := s.ring.granted ++ ([{ handle := h, borrower := dst, granules := g, tag := tag }] : List Granted) } }
    s1.sendPlain 0x11 2 dst tag h
/-- SPILL_REQ at the donor. -/
def State.doSpillReq (s : State) (f : Frame) : State := s.offerHandle f.src f.tag (f.arg % 8 + 1)
/-- SPILL_DATA at the donor: the page is stored with its last granule (R115, R468). -/
def State.doSpillData (s : State) (p side : Nat) (f : Frame) : State :=
  let h := f.arg % 2 ^ 22
  match s.ring.granted.find? (fun x => x.handle = h && x.borrower = f.src) with
  | none => s.ringDiscard p side
  | some x =>
    let g := bits f.arg 22 3
    let y := { x with got := x.got.filter (fun z => z.1 ≠ g) ++ [(g, f.payload)] }
    if y.got.length < x.granules then
      { s with ring := { s.ring with granted := s.ring.granted.map (fun z => if z.handle = h then y else z) } }
    else
      let s1 := { s with ring := { s.ring with granted := s.ring.granted.filter (fun z => z.handle ≠ h) }
                         tier := { s.tier with lent := s.tier.lent ++ ([{ handle := h, borrower := f.src, granules := x.granules
                                                                          data := (List.range x.granules).map (fun i =>
                                                                            ((y.got.find? (fun (z : Nat × List Byte) => z.1 = i)).map (fun (z : Nat × List Byte) => z.2)).getD []) }] : List Lent) } }
      (s1.sendPlain 0x13 2 f.src f.tag h).askReturns
/-- SPILL_READ at the donor: only the borrower may read its page (R468, R469). -/
def State.doSpillRead (s : State) (p side : Nat) (f : Frame) : State :=
  let h := f.arg % 2 ^ 22
  match s.tier.lent.find? (fun x => x.handle = h && x.borrower = f.src) with
  | none => s.ringDiscard p side
  | some x =>
    let waits := s.ring.returns.filter (fun r => s.ring.egress.any (fun e => e.2.2.ty = 0x15 && e.2.2.dst = r.1 && e.2.2.tag = r.2.1))
    let q := s.pairFor f.src
    let lvl := if s.bit .lode 0 F.LODE_EVAC_EVAC || 4 < (s.pair q).hops (s.position q) (s.posOn q f.src) then 3 else 4
    let s1 := if f.arg.testBit 22 then { s with ring := { s.ring with returns := waits ++ [(f.src, f.tag, lvl)] } } else s
    (List.range x.granules).foldl (fun t g => t.sendPlain 0x15 2 f.src f.tag (spillArg h g x.granules) (x.data.getD g [])) s1
/-- SPILL_FREE at the donor. -/
def State.doSpillFree (s : State) (p side : Nat) (f : Frame) : State :=
  let h := f.arg % 2 ^ 22
  let mine := s.tier.lent.any (fun x => x.handle = h && x.borrower = f.src) || s.ring.granted.any (fun x => x.handle = h && x.borrower = f.src) ||
    (h, f.src) ∈ s.ring.declined
  if !mine then s.ringDiscard p side
  else { s with ring := { s.ring with granted := s.ring.granted.filter (fun x => x.handle ≠ h), declined := s.ring.declined.filter (fun x => x.1 ≠ h) }
                tier := { s.tier with lent := s.tier.lent.filter (fun x => x.handle ≠ h) } }
/-- SPILL_DECLINE at the donor: the handle is held, and another is offered (R468). -/
def State.doDecline (s : State) (p side : Nat) (f : Frame) : State :=
  let h := f.arg % 2 ^ 22
  match s.ring.granted.find? (fun x => x.handle = h && x.borrower = f.src) with
  | none => s.ringDiscard p side
  | some x =>
    let s1 := { s with ring := { s.ring with granted := s.ring.granted.filter (fun z => z.handle ≠ h), declined := s.ring.declined ++ [(h, f.src)] } }
    s1.offerHandle f.src x.tag x.granules

/-! ### Requests without a response (R116, R466) -/

/-- Is a donor absent: not among the positions held on its ring, or no ring at all (R116)? -/
def State.donorAbsent (s : State) (d : Nat) : Bool :=
  let p := s.pairFor d
  s.alone || !(s.isMember p || s.isHead p) || (s.isMember p && !(s.pair p).present.getLsbD (s.posOn p d)) ||
  (s.isHead p && (sfind (s.pair p).held (s.posOn p d)).isNone && s.posOn p d ≠ 0)
/-- A recall gets no answer: a page with a held write becomes hot, its other lines poisoned with code 0x03; any other stays spilled (R116). -/
def State.recallFails (s : State) (page : Nat) : State :=
  match s.moveOf page with
  | none => s
  | some m =>
    let e := s.entry page
    if m.kind = .recallHot && (List.range 64).any (fun i => (s.heldLine page i).isSome) then
      (s.setMove { m with bad := (List.range 64).map (fun i => (i, 3)) }).fault .tier 0 0x0B
        { cls := 0x0B, page := page, poison := 3, agent := 0x40 + Block.tier.id }
    else ((s.setEntry page { e with st := .spilled, heat := 0, handle := m.handle, donor := m.donor }).dropMove page).afterMove page
/-- A read of a spilled page gets no data: poison 0x03 (R116, R466). -/
def State.fetchFails (s : State) (x : SpillFetch) : State :=
  let s0 := { (s.reqDone x.tag) with ring := { (s.reqDone x.tag).ring with fetches := s.ring.fetches.filter (fun y => y.tag ≠ x.tag) } }
  let s1 := s0.raise .tier 0 20
  if x.isRecall then s1.recallFails x.page
  else match s1.rdOf x.id with
    | some rd => if rd.st = .donor then s1.bad rd 3 else s1
    | none => s1
/-- DONOR_ABSENT_TIMEOUT (R116): a read of a page on an absent donor has been held for 64 strokes. -/
def State.cmdDonorAbsentTimeout (s : State) (id : Nat) : State :=
  match s.ring.fetches.find? (fun x => x.id = id && !x.isRecall) with
    | some x => if s.donorAbsent x.donor && 64 ≤ strokesSince x.stamp s.now then (s.fetchFails x).settle else s
    | none => s
/-- RING_REQUEST_RETRY (R466): with no response within 8 strokes a request is sent once more, the other way round. -/
def State.cmdRingRequestRetry (s : State) (tag : Nat) : State :=
  match s.ring.reqs.find? (fun r => r.tag = tag) with
    | none => s
    | some r =>
      if r.retried || strokesSince r.sent s.now < 8 then s
      else
        let t := { s with ring := { s.ring with reqs := s.ring.reqs.map (fun (x : Req1) => if x.tag = tag then { x with retried := true } else x) } }
        t.sendOn r.pair (1 - r.side) r.frame
/-- RING_REQUEST_FAIL (R466): no response by 64 strokes after the first send. -/
def State.cmdRingRequestFail (s : State) (tag : Nat) : State :=
  match s.ring.reqs.find? (fun r => r.tag = tag) with
    | none => s
    | some r =>
      if strokesSince r.sent s.now < 64 then s
      else
        let t := s.reqDone tag
        if r.frame.ty = 0x14 then match s.ring.fetches.find? (fun x => x.tag = tag) with
          | some x => (t.fetchFails x).settle
          | none => t
        else if r.frame.ty = 0x10 then match s.ring.spills.find? (fun x => x.tag = tag) with
          | some x => t.spillBack x.page
          | none => t
        else if r.frame.ty = 4 then t.modPair r.pair (fun x => { x with joinTag := none })
        else t

/-! ### The frames -/

/-- SPILL_REQ (R468). -/
def State.cmdSpillReq (s : State) (pair side : Nat) (f : Frame) : State := s.onFrame pair side f (fun t => t.doSpillReq f)
/-- SPILL_GRANT (R468). -/
def State.cmdSpillGrant (s : State) (pair side : Nat) (f : Frame) : State := s.onFrame pair side f (fun t => t.doGrant f)
/-- SPILL_DATA (R468). -/
def State.cmdSpillData (s : State) (pair side : Nat) (f : Frame) : State := s.onFrame pair side f (fun t => t.doSpillData pair side f)
/-- SPILL_DONE (R468). -/
def State.cmdSpillDone (s : State) (pair side : Nat) (f : Frame) : State := s.onFrame pair side f (fun t => t.doSpillDone f)
/-- SPILL_READ (R468). -/
def State.cmdSpillRead (s : State) (pair side : Nat) (f : Frame) : State := s.onFrame pair side f (fun t => t.doSpillRead pair side f)
/-- SPILL_RDATA (R468). -/
def State.cmdSpillRdata (s : State) (pair side : Nat) (f : Frame) : State := s.onFrame pair side f (fun t => t.doRdata f)
/-- SPILL_FREE (R468). -/
def State.cmdSpillFree (s : State) (pair side : Nat) (f : Frame) : State := s.onFrame pair side f (fun t => t.doSpillFree pair side f)
/-- SPILL_DECLINE (R468). -/
def State.cmdSpillDecline (s : State) (pair side : Nat) (f : Frame) : State := s.onFrame pair side f (fun t => t.doDecline pair side f)
/-- SPILL_RETURN (R469). -/
def State.cmdSpillReturn (s : State) (pair side : Nat) (f : Frame) : State := s.onFrame pair side f (fun t => t.doReturn f)

end Sys2Proof.Machine
end

