-- ==== Sys2Proof/Machine/RingFrames.lean ====
section
/-! DEFINITION. What ring frames carry (R457 to R460, R471 to R478, R491): strokes, reports, ORDER, budgets, key transfers, commands,
evacuation, and the pod manager's Spill plan. -/

namespace Sys2Proof.Machine

/-! ### The stroke frame (R457, R458) -/

/-- Payload of the head's STROKE frame. -/
def State.strokePayload (s : State) : List Byte :=
  let x := s.pair 0
  let rooted := s.role = 3 || s.bit .lode 0 F.LODE_ID_ROOTED
  let w := (x.window).getD 0
  let soon := match x.window with
    | some w => decide (0 < strokesSince s.now w) && decide (strokesSince s.now w ≤ 64)
    | none => false
  let held := 0 :: x.held.map (fun y => y.1)
  let present := (held.map (fun q => 2 ^ q)).sum
  let evac := ((x.reports.filter (fun y => (fieldB y.2 1 1).testBit 3 && y.1 ∈ held)).map (fun y => 2 ^ y.1)).sum
  let m := s.now.toNat % 64
  leBytes 6 s.now.toNat ++
  leBytes 1 (b2n rooted + 2 * b2n soon + 4 * s.get .lode 0 F.LODE_RING_WRAPPED + 8 * b2n x.orderDue) ++
  leBytes 1 held.length ++ leBytes 6 w.toNat ++ leBytes 2 (s.get .lode 0 F.LODE_RING_EPOCH) ++ leBytes 8 present ++ leBytes 8 evac ++
  leBytes 1 m ++ leBytes 1 (b2n (s.ring.divided && m ∈ held)) ++ leBytes 2 0 ++ leBytes 4 (s.get .ledg 0 F.LEDG_GRANT_OUT_GRANT m) ++
  leBytes 8 s.fabricId
/-- ORDER goes out (R443 step 5): the position at each order index and the fold. -/
def State.sendOrder (s : State) : State :=
  let x := s.pair 0
  let s1 := s.modPair 0 (fun y => { y with orderDue := false })
  s1.sendOn 0 1 { ty := 6, vc := 1, dst := s.addr, bcast := true, src := s.addr, payload := x.orderBytes
                  arg := s.get .lode 0 F.LODE_RING_EPOCH + 2 ^ 16 * (match x.fold with
                    | some k => k
                    | none => 0x7F) }
/-- Rewrite the targets whose hops an ORDER change has changed (R477). -/
def State.writeTarget (s : State) (pos donor hops valid allow : Nat) : State :=
  let w := donor + 2 ^ 18 * hops + 2 ^ 21 * valid
  if pos = 0 then
    (((s.put .tier 0 F.TIER_SPILL_TGT_DONOR donor).put .tier 0 F.TIER_SPILL_TGT_HOPS hops).put .tier 0 F.TIER_SPILL_TGT_VALID valid).put .tier 0
      F.TIER_SPILL_ALLOW_ALLOW allow
  else (s.sendReq 8 (s.addrUnder 0 s.addr pos) (pg .tier 0 + 0x114 + 2 ^ 24) (leBytes 4 w ++ leBytes 4 allow ++ leBytes 8 0)).2
/-- The hops of every target after an ORDER change (R477). -/
def State.retarget (s : State) : State :=
  if s.role ≠ 1 then s else
  (s.pair 0).targets.foldl (fun t x =>
    let h := (t.pair 0).hops x.1 x.2.1
    if h = x.2.2 then t
    else
      let u := t.modPair 0 (fun y => { y with targets := sput y.targets x.1 (x.2.1, h) })
      u.writeTarget x.1 (u.addrUnder 0 u.addr x.2.1) (h % 8) (b2n (h ≤ 4)) (fieldB (((sfind (u.pair 0).reports x.1)).getD []) 28 2)) s
/-- In every stroke the head sends STROKE both ways, and an ORDER that is due (R457). -/
def State.headStroke (s : State) : State :=
  if !s.isHead 0 then s
  else
    let f : Frame := { ty := 1, vc := 0, dst := s.addr, bcast := true, src := s.addr, payload := s.strokePayload }
    let s1 := (s.sendOn 0 1 f).sendOn 0 0 f
    if (s.pair 0).orderDue then s1.sendOrder.retarget else s1
/-- The head announces a window of every SPLICE_PERIOD-th Sitting (R461). -/
def State.headWindow (s : State) : State :=
  let m := sittingOf s.now
  let per := s.get .lode 0 F.LODE_CTL_SPLICE_PERIOD
  if s.isHead 0 && m % per = 0 then s.modPair 0 (fun x => { x with window := some (BitVec.ofNat 48 (2048 * m + 1024)) }) else s

/-- STROKE at a member (R457, R458): the frame from the timing upstream gives the window, the membership, the identifier and the budget. -/
def State.doStroke (s : State) (p side : Nat) (f : Frame) : State :=
  let b := f.payload
  if s.isHead p then
    -- the head's own frame comes back: folded, or whole
    if side = 0 && !f.wrapped && s.get .lode 0 F.LODE_RING_WRAPPED p = 1 && s.ringGet p 0 F.RING_LINK_WRAP = 0 && s.ringGet p 1 F.RING_LINK_WRAP = 0 then
      ((s.modPair p (fun x => { x with fold := none })).put .lode 0 F.LODE_RING_WRAPPED 0 p).newOrder p |>.startEnum p
    else if side = 1 && f.wrapped && f.dir = 1 && (s.pair p).fold.isNone then
      ((s.modPair p (fun x => { x with fold := some ((f.hops + 1) / 2) })).put .lode 0 F.LODE_RING_WRAPPED 1 p).newOrder p
    else s
  else
    let s0 := s.modPair p (fun x => { x with lastStrokeFrame := some s.now })
    if !(s.isMember p) || !s.isUpstream p side then s0
    else
      let fl := fieldB b 6 1
      let s1 := s0.modPair p (fun x => { x with headAddr := f.src, window := if fl.testBit 1 then some (BitVec.ofNat 48 (fieldB b 8 6)) else x.window
                                                present := BitVec.ofNat 64 (fieldB b 16 8), evacMap := BitVec.ofNat 64 (fieldB b 24 8) })
      let s2 := ((((s1.setAddr p).put .lode 0 F.LODE_RING_MEMBERS (fieldB b 7 1) p).put .lode 0 F.LODE_RING_WRAPPED (b2n (fl.testBit 2)) p).put .lode 0
        F.LODE_ID_ROOTED (b2n (fl.testBit 0))).setFabricId (fieldB b 40 8)
      if fieldB b 32 1 % 64 = s2.position p && (fieldB b 33 1).testBit 0 then
        { s2 with energy := { s2.energy with entryNew := some (fieldB b 36 4) } }
      else s2
/-- STROKE (R457). In LISTEN and JOINING the taps read the window from it (R463). -/
def State.cmdStroke (s : State) (pair side : Nat) (f : Frame) : State :=
  if s.pairState pair = 1 || s.pairState pair = 2 then
      let fl := fieldB f.payload 6 1
      s.modPair pair (fun x => { x with heard := s.now, headAddr := f.src
                                        window := if fl.testBit 1 then some (BitVec.ofNat 48 (fieldB f.payload 8 6)) else x.window })
    else s.onFrame pair side f (fun t => t.doStroke pair side f)

/-! ### Reports (R459, R460) -/

/-- Temperature of the hottest hub die in whole °C, two's complement. -/
def State.hotDie (s : State) : Nat :=
  let t (ch : Nat) : Int := (BitVec.ofNat 16 (s.get .ledg 0 F.LEDG_SENSOR_READING ch)).toInt
  ((max (t 10) (t 11) / 16) % 256).toNat
/-- The module's own figures of the Sitting that ends, without its position. -/
def State.closeReport (s : State) : List Byte :=
  let flags := 1 + 2 * b2n s.ring.hotDeclared + 4 * b2n (s.ring.peerAbsentSeen || !s.boot.absent.isEmpty) + 8 * s.get .lode 0 F.LODE_EVAC_EVAC +
    16 * b2n s.ring.deepLowSeen + 32 * b2n (s.get .ledg 0 F.LEDG_DEFICIT_DEFICIT ≠ 0) + 64 * b2n (!s.ring.outOfSpec)
  [0] ++ leBytes 1 flags ++ leBytes 1 (s.get .flt 0 F.FLT_SITTING_MAX_LEVEL) ++ leBytes 1 (s.get .flt 0 F.FLT_SITTING_FAULTS) ++
  leBytes 4 (s.get .ledg 0 F.LEDG_USED_INPUT_USED) ++ leBytes 4 (s.get .ledg 0 F.LEDG_DEFICIT_DEFICIT) ++ leBytes 2 (min 0xFFFF s.ring.misses) ++
  leBytes 1 s.hotDie ++ [0] ++ leBytes 4 s.poolFree ++ leBytes 4 (s.countPages .spilled) ++ leBytes 4 s.tier.lent.length ++
  leBytes 2 s.effective ++ leBytes 2 s.ratio
/-- Signed byte. -/
def sbyte (n : Nat) : Int := (BitVec.ofNat 8 n).toInt
/-- Combine a manager's own entry with those of the ring below (R460). -/
def summaryEntry (own : List Byte) (below : List (List Byte)) : List Byte :=
  let es := own :: below.filter (fun e => (fieldB e 1 1).testBit 0)
  let sum (i n : Nat) : Nat := min (256 ^ n - 1) ((es.map (fun e => fieldB e i n)).sum)
  let fl (b : Nat) : Bool := es.any (fun e => (fieldB e 1 1).testBit b)
  let flags := 1 + 2 * b2n (fl 1) + 4 * b2n (fl 2) + 8 * b2n (fl 3) + 16 * b2n (fl 4) + 32 * b2n (fl 5) +
    64 * b2n (es.all (fun e => (fieldB e 1 1).testBit 6)) + 128
  let temp := (es.map (fun e => sbyte (fieldB e 14 1))).foldl max (-128)
  [0] ++ leBytes 1 flags ++ leBytes 1 ((es.map (fun e => fieldB e 2 1 % 4)).foldl max 0) ++ leBytes 1 (sum 3 1) ++ leBytes 4 (sum 4 4) ++ leBytes 4 (sum 8 4) ++
  leBytes 2 (sum 12 2) ++ leBytes 1 (temp % 256).toNat ++ [0] ++ leBytes 4 (fieldB own 16 4) ++ leBytes 4 (min (2 ^ 30 - 1) (sum 20 4)) ++
  leBytes 4 (min (2 ^ 30 - 1) (sum 24 4)) ++ leBytes 4 (fieldB own 28 4)
/-- The entry the module writes on a pair's ring (R459, R460). -/
def State.reportEntry (s : State) (p : Nat) : List Byte :=
  let own := if s.ring.entry.isEmpty then List.replicate 32 0 else s.ring.entry
  let e := if p = 1 then summaryEntry own (((s.pair 0).reports.filter (fun x => x.1 ≠ 0)).map (fun x => x.2)) else own
  leBytes 1 (s.position p) ++ leBytes 1 (fieldB e 1 1 ||| 1) ++ e.drop 2
/-- Put an entry into its place of a part. -/
def putEntry (payload : List Byte) (k : Nat) (e : List Byte) : List Byte :=
  let b := payload ++ List.replicate (512 - payload.length) 0
  b.take (32 * k) ++ e ++ b.drop (32 * k + 32)
/-- In strokes 2,048 m + 1 to + 4 the head sends the report parts (R459). -/
def State.headReport (s : State) : State :=
  let k := s.now.toNat % 2048
  if s.isHead 0 && 1 ≤ k && k ≤ 4 then
    let q := k - 1
    let blank := List.replicate 512 (0 : Byte)
    let body := if q = 0 then putEntry blank 0 (s.reportEntry 0) else blank
    s.sendOn 0 1 { ty := 2, vc := 0, dst := s.addr, bcast := true, src := s.addr, arg := q + 4 * (sittingOf s.now % 2 ^ 30), payload := body }
  else s
/-- REPORT (R459): a member writes its entry on the part's first pass; a part that is back at the head is complete. -/
def State.cmdReport (s : State) (pair side : Nat) (f : Frame) : State :=
  if !s.sideUp pair side then s
  else if s.isHead pair && f.src = s.addr then
    let q := f.arg % 4
    let rep (m : SMap (List Byte)) : SMap (List Byte) := (List.range 16).foldl (fun m k => sput m (16 * q + k) (sliceB f.payload (32 * k) 32)) m
    (s.freeSlots pair side f).modPair pair (fun x => { x with reports := rep x.reports })
  else
    let pos := s.position pair
    let k := pos % 16
    let mine := s.isMember pair && pos / 16 = f.arg % 4 && !(fieldB f.payload (32 * k + 1) 1).testBit 0
    let g := if mine then { f with payload := putEntry f.payload k (s.reportEntry pair) } else f
    (s.freeSlots pair side f).forward pair side g

/-! ### ORDER (R116, R443, R477) -/

/-- ORDER (R443 to R445): after a wrap, pages lent by a donor now beyond four hops are recalled (R116). -/
def State.cmdOrder (s : State) (pair side : Nat) (f : Frame) : State :=
  s.onFrame pair side f (fun t =>
    let u := t.doOrder pair f
    let x := u.pair pair
    let far (d : Nat) : Bool := u.pairFor d = pair && decide (4 < x.hops (u.position pair) (u.posOn pair d))
    (u.tier.pmap.filter (fun y => y.2.st = .spilled && far y.2.donor)).foldl (fun v y => v.startRecallDeep y.1) u)

/-! ### The pod manager's Spill plan (R477) -/

/-- The plan of a Sitting boundary: for each member short of room, the donor with the most free pool granules among those at most four hops
away; ties to the nearer, then to the lower position. -/
def State.spillPlan (s : State) : State :=
  if s.role ≠ 1 || !s.isHead 0 then s
  else
    let x := s.pair 0
    let pos := 0 :: x.held.map (fun y => y.1)
    let entry (p : Nat) : List Byte := if p = 0 then s.ring.entry else (sfind x.reports p).getD []
    let valid (p : Nat) : Bool := (fieldB (entry p) 1 1).testBit 0
    let pool (p : Nat) : Nat := fieldB (entry p) 16 4
    pos.foldl (fun t p =>
      if !valid p then t
      else if !(fieldB (entry p) 1 1).testBit 4 then t
      else
        let cand := pos.filter (fun d => d ≠ p && valid d && pool d ≠ 0 && !(fieldB (entry d) 1 1).testBit 3 && x.hops p d ≤ 4)
        let better (a b : Nat) : Bool := pool b < pool a || (pool a = pool b && (x.hops p a < x.hops p b || (x.hops p a = x.hops p b && a < b)))
        let best := cand.foldl (fun (b : Option Nat) d => match b with
          | none => some d
          | some y => if better d y then some d else b) none
        match best with
        | none => (t.modPair 0 (fun y => { y with targets := sdel y.targets p })).writeTarget p 0 0 0 0
        | some d =>
          let allow := pool d * 512 * fieldB (entry p) 30 2 / 256 / 2 ^ 28
          (t.modPair 0 (fun y => { y with targets := sput y.targets p (d, x.hops p d) })).writeTarget p (t.addrUnder 0 t.addr d) (x.hops p d) 1
            (min 0xFFFF allow)) s

/-! ### Budgets (R490, R491) -/

/-- The largest x with the sum of min(r, x) within S. -/
def fairShare (r : List Nat) (S : Nat) : Nat :=
  (List.range 33).foldl (fun x i =>
    let y := x + 2 ^ (32 - i)
    if (r.map (fun v => min v y)).sum ≤ S then y else x) 0
/-- The grants of a division (R491). -/
def divide (S : Nat) (r : List Nat) : List Nat :=
  if S = 0xFFFFFFFF then r.map (fun _ => 0xFFFFFFFF)
  else if r.sum ≤ S then r.map (fun v => min (v + (S - r.sum) / r.length) 0xFFFFFFFE)
  else r.map (fun v => min v (fairShare r S))
/-- µJ in a Sitting at a power in W (R489): W × 983.04, rounded down. -/
def sittingEnergy (w : Nat) : Nat := w * 98304 / 100
/-- Subtree budget a head divides: the root's from its system cap, an unrooted head's without limit, any other's as received. -/
def State.subtreeBudget (s : State) : Nat :=
  if s.role = 3 then (let w := s.get .ledg 0 F.LEDG_SYS_CAP_SYS_W; if w = 0 then 0xFFFFFFFF else sittingEnergy w)
  else if !s.bit .lode 0 F.LODE_ID_ROOTED then 0xFFFFFFFF
  else (s.energy.entryNew).getD s.energy.entry
/-- Depth of a head in the fabric for its division's stroke (R491). -/
def State.divideDepth (s : State) : Nat :=
  if s.role = 3 || !s.bit .lode 0 F.LODE_ID_ROOTED then 0 else if s.role = 2 then 1 else 2
/-- BUDGET_DIVIDE (R491): at its staggered stroke a manager divides its subtree budget among the positions held on its ring. -/
def State.cmdBudgetDivide (s : State) : State :=
  if !s.isHead 0 || s.now.toNat % 2048 ≠ 16 + 96 * s.divideDepth || s.ring.divided then s
  else
    let x := s.pair 0
    let pos := 0 :: x.held.map (fun y => y.1)
    let req (p : Nat) : Nat :=
      if p = 0 then min 0xFFFFFFFE (s.get .ledg 0 F.LEDG_USED_INPUT_USED + s.get .ledg 0 F.LEDG_DEFICIT_DEFICIT)
      else match sfind x.reports p with
        | some e => if (fieldB e 1 1).testBit 0 then min 0xFFFFFFFE (fieldB e 4 4 + fieldB e 8 4) else s.get .ledg 0 F.LEDG_NEW_REQ_REQ
        | none => s.get .ledg 0 F.LEDG_NEW_REQ_REQ
    let g := pos.zip (divide s.subtreeBudget (pos.map req))
    let t := s.forN 64 (fun t p => t.put .ledg 0 F.LEDG_GRANT_OUT_GRANT (((g.find? (fun y => y.1 = p)).map (fun y => y.2)).getD 0) p)
    { t with ring := { t.ring with divided := true } }

/-! ### Keys and commands (R471 to R475) -/

/-- Is `a` an ancestor manager of this module? -/
def State.isAncestor (s : State) (a : Nat) : Bool := a ≠ s.addr && (a = s.addr / 64 * 64 || a = s.addr / 4096 * 4096 || a = 0)
/-- Header bytes 0 to 13 of a frame as its source sent it: what travel changes (HOPS, DIR, WRAPPED) reads zero. -/
def headerBytes (f : Frame) : List Byte :=
  leBytes 1 f.ty ++ leBytes 1 ((f.payload.length + 15) / 16 % 64 + 64 * f.vc) ++ leBytes 3 (f.dst + 2 ^ 18 * b2n f.bcast) ++ leBytes 3 f.src ++
  leBytes 2 f.tag ++ leBytes 4 f.arg
/-- Does a MAC under the fabric command key verify (R471, R472)? With no key installed none does. -/
def State.fabricMac (s : State) (msg : List Byte) (mac : Nat) : Bool := match s.secure.fabricKey with
  | none => false
  | some k => mac = (aesCmac k (msg ++ leBytes 8 s.fabricId)).toNat % 2 ^ 64

/-- Load a key context from an accepted KEY_XFER, as the unwrap command does (R235, R272); the result is KEYS_STATUS.ERR. -/
def State.xferLoad (s : State) (b : List Byte) : Nat × State :=
  let c := fieldB b 0 2 % 16384
  let sl := s.primary
  let fin (t : State) (e : Nat) : Nat × State := (e, t.keysDone sl e)
  if c = 0 then fin s 1
  else if s.ctxBusy c then fin s 2
  else match (sget none s.secure.keks (fieldB b 6 2)).bind (fun k => unwrapKeys k (sliceB b 16 104)) with
    | none => fin s 3
    | some m => fin (s.setCtx c { valid := true, release := (fieldB b 2 1).testBit 0, prot := (fieldB b 2 1).testBit 1, mask := fieldB b 4 2, keys := m }) 0
/-- KEY_XFER at its target (R471). -/
def State.doKeyXfer (s : State) (f : Frame) : State :=
  let b := f.payload
  let issue := fieldB b 8 6
  let seq := fieldB b 14 2
  let fresh := match sget none s.ring.keyXfer f.src with
    | none => true
    | some (i, q) => if issue = i then decide (q < seq) else strokeLe (BitVec.ofNat 48 i) (BitVec.ofNat 48 issue)
  let ok := s.isAncestor f.src && strokesSince (BitVec.ofNat 48 issue) s.now < 2048 && fresh &&
    s.fabricMac (headerBytes f ++ sliceB b 0 120) (fieldB b 120 8)
  if !ok then s.sendPlain 0x0B 2 f.src f.tag 3
  else
    let t := { s with ring := { s.ring with keyXfer := sset none s.ring.keyXfer f.src (some (issue, seq)) } }
    let x := t.xferLoad b
    x.2.sendPlain 0x0B 2 f.src f.tag x.1
/-- KEY_XFER (R471). -/
def State.cmdKeyXfer (s : State) (pair side : Nat) (f : Frame) : State := s.onFrame pair side f (fun t => t.doKeyXfer f)
/-- KEY_ACK (R471): the result of a transfer this manager sent. -/
def State.cmdKeyAck (s : State) (pair side : Nat) (f : Frame) : State := s.onFrame pair side f (fun t => (t.reqDone f.tag).emit (.ringAck f.tag (f.arg % 16)))
/-- CMD_ACK (R473): the status of a command this manager sent. -/
def State.cmdCmdAck (s : State) (pair side : Nat) (f : Frame) : State := s.onFrame pair side f (fun t => (t.reqDone f.tag).emit (.ringAck f.tag (f.arg % 256)))
/-- REG_RSP (R478): the words this manager asked for, and the drop bitmap as its status. -/
def State.cmdRegRsp (s : State) (pair side : Nat) (f : Frame) : State :=
  s.onFrame pair side f (fun t => match t.ring.reqs.find? (fun r => r.tag = f.tag) with
    | none => t
    | some r =>
      let at_ := r.frame.arg % 2 ^ 24
      let n := if r.frame.ty = 7 then bits r.frame.arg 24 4 + 1 else 0
      ((List.range n).foldl (fun u i => u.emit (.regData u.mgmtAgent (at_ + 4 * i) (fieldB f.payload (4 * i) 4))) (t.reqDone f.tag)).emit
        (.ringAck f.tag (f.arg % 65536)))

/-- The status of a command's checks, in their order (R473). -/
def State.cmdStatus (s : State) (b : List Byte) : Nat :=
  let code := fieldB b 0 1
  let issuer := fieldB b 5 3 % 2 ^ 18
  let issue := BitVec.ofNat 48 (fieldB b 8 6)
  let win := fieldB b 14 2
  let evac := s.bit .lode 0 F.LODE_EVAC_EVAC
  if !s.fabricMac (sliceB b 0 56) (fieldB b 56 8) then 1
  else if fieldB b 2 3 % 2 ^ 18 ≠ s.addr || fieldB b 20 8 ≠ Config.serial.toNat then 2
  else if !s.isAncestor issuer then 3
  else if win = 0 || 2048 < win || win ≤ strokesSince issue s.now then 4
  else if fieldB b 16 4 < sget 0 s.ring.cmdSeq issuer then 5
  else if (code = 4 && !evac) || (code = 3 && evac) then 6
  else if !(code ∈ [1, 2, 3, 4]) then 7
  else 0
/-- An accepted evacuation (R475): no further grants, lent pages are sent back, spilled ones recalled. -/
def State.evacuate (s : State) (deadline : Nat) : State :=
  let s1 := s.put .lode 0 F.LODE_EVAC_EVAC 1
  let s2 := { s1 with ring := { s1.ring with evacLeft := if deadline = 0 then none else some deadline } }
  let s3 := s2.forN 2 (fun t p => if t.pairState p = 4 then t.setPairState p 7 else t)
  let s4 := s3.tier.lent.foldl (fun t x => t.sendReturn x) s3
  (s4.tier.pmap.filter (fun x => x.2.st = .spilled)).foldl (fun t x => t.startRecallDeep x.1) s4
/-- A cancelled evacuation (R467): lending resumes. -/
def State.cancelEvac (s : State) : State :=
  let s1 := s.put .lode 0 F.LODE_EVAC_EVAC 0
  let s2 := { s1 with ring := { s1.ring with evacLeft := none } }
  s2.forN 2 (fun t p => if t.pairState p = 7 then t.setPairState p 4 else t)
/-- A CMD frame at its target (R472 to R475): checked, counted, acknowledged; a reset waits for the Layer boundary after its CMD_ACK. -/
def State.doCmd (s : State) (f : Frame) : State :=
  let b := f.payload
  let code := fieldB b 0 1
  let issuer := fieldB b 5 3 % 2 ^ 18
  let seq := fieldB b 16 4
  let st := s.cmdStatus b
  let s1 := ((s.put .lode 0 F.LODE_CMD_LAST_CODE code).put .lode 0 F.LODE_CMD_LAST_STATUS st).put .lode 0 F.LODE_CMD_ISSUER_ISSUER issuer
  if st ≠ 0 then
    (((s1.bump .lode 0 F.LODE_CMD_STAT_REFUSED).fault .lode 0 0x18 { cls := 0x18, detail := st }).raise .lode 0 20).sendPlain 0x0D 2 f.src f.tag st
  else
    let s2 := (s1.bump .lode 0 F.LODE_CMD_STAT_ACCEPTED).sendPlain 0x0D 2 f.src f.tag 0
    let s3 := { s2 with ring := { s2.ring with cmdSeq := sset 0 s2.ring.cmdSeq issuer (seq + 1) } }
    if code = 1 || code = 2 then { s3 with ring := { s3.ring with cmdResets := s3.ring.cmdResets ++ [(decide (code = 2), issuer, seq)] } }
    else if code = 3 then s3.evacuate (fieldB b 28 4)
    else s3.cancelEvac
/-- CMD_WARM_RESET (R472 to R474): a command frame with CODE 0x01. -/
def State.cmdCmdWarmReset (s : State) (pair side : Nat) (f : Frame) : State := s.onFrame pair side f (fun t => t.doCmd f)
/-- CMD_COLD_RESET (R472 to R474): a command frame with CODE 0x02. -/
def State.cmdCmdColdReset (s : State) (pair side : Nat) (f : Frame) : State := s.onFrame pair side f (fun t => t.doCmd f)
/-- CMD_EVACUATE (R472, R473, R475): a command frame with CODE 0x03. -/
def State.cmdCmdEvacuate (s : State) (pair side : Nat) (f : Frame) : State := s.onFrame pair side f (fun t => t.doCmd f)
/-- CMD_CANCEL_EVAC (R467, R472, R473): a command frame with CODE 0x04. -/
def State.cmdCmdCancelEvac (s : State) (pair side : Nat) (f : Frame) : State := s.onFrame pair side f (fun t => t.doCmd f)

/-- The pairs of an evacuating module leave their rings. -/
def State.leaveAll (s : State) : State :=
  let s1 := ({ s with ring := { s.ring with evacLeft := none } }).put .lode 0 F.LODE_EVAC_EVAC 0
  s1.forN 2 (fun t p => if t.pairState p = 7 then t.leavePair p else t)
/-- EVAC_DONE (R475): no lent and no spilled page remains. -/
def State.cmdEvacDone (s : State) : State :=
  if s.bit .lode 0 F.LODE_EVAC_EVAC && s.tier.lent.isEmpty && s.countPages .spilled = 0 && !(s.tier.moves.any (fun m => m.src = .spilled)) then
      (s.leaveAll.put .lode 0 F.LODE_EVAC_DONE 1).raise .lode 0 21
    else s
/-- EVAC_DEADLINE (R475): the Sittings allowed have passed. -/
def State.cmdEvacDeadline (s : State) : State :=
  if s.bit .lode 0 F.LODE_EVAC_EVAC && s.ring.evacLeft = some 0 then s.leaveAll.put .lode 0 F.LODE_EVAC_INCOMPLETE 1 else s

end Sys2Proof.Machine
end

