-- ==== Sys2Proof/Machine/Ledger.lean ====
section
/-! DEFINITION. The energy ledger (R482 to R494): sensor conversions, the close of a Sitting's account, the budget and the planner. -/

namespace Sys2Proof.Machine

/-- Channel the meter converts in the phase-0 slot of a stroke outside Rest (R483). -/
def meterCh (t : Stroke) : Nat :=
  let k := t.toNat % 16
  if k % 4 = 0 then 0 else 3 * (k / 4) + k % 4
/-- Rail energy in units of mV × 10 mA × 1 stroke as 1/16 nJ (R483): one unit is 4.8 pJ. -/
def railEnergy (n : Nat) : Nat := n * 768 / 10000
/-- 1/16 nJ as whole µJ. -/
def microJ (n : Nat) : Nat := n / 16000
/-- 1/16 nJ as µJ rounded up (R492). -/
def microJUp (n : Nat) : Nat := (n + 15999) / 16000

/-- Registers of the four named grants. -/
def grantFlds : List Fld := [F.LEDG_GRANT_QE_GRANT, F.LEDG_GRANT_RECOMP_GRANT, F.LEDG_GRANT_SPILL_GRANT, F.LEDG_GRANT_MIGR_GRANT]
/-- The effort granted, in the ledger and in both codecs (R169, R492). -/
def State.putEffort (s : State) (e : Nat) : State :=
  ((s.put .ledg 0 F.LEDG_GRANT_MISC_EFFORT e).put .codc 0 F.CODC_EFFORT_GRANTED e).put .codc 1 F.CODC_EFFORT_GRANTED e
/-- Every unspent grant goes to zero (R493). -/
def State.dropGrants (s : State) : State :=
  let s1 := grantFlds.foldl (fun t f => t.put .ledg 0 f 0) s
  ((s1.put .ledg 0 F.LEDG_GRANT_MISC_SCRUB_LINES_S0 0).put .ledg 0 F.LEDG_GRANT_MISC_SCRUB_LINES_S1 0).putEffort 0
/-- BUDGET_HIT (R493): the Sitting's channel-0 energy reaches its budget. -/
def State.budgetHit (s : State) : State :=
  if s.bit .ledg 0 F.LEDG_STATUS_BUDGET_HIT || railEnergy (sget 0 s.energy.rail 0) < 16000 * s.get .ledg 0 F.LEDG_BUDGET_B then s
  else ((s.put .ledg 0 F.LEDG_STATUS_BUDGET_HIT 1).raise .ledg 0 18).dropGrants

/-- A reading of the meter (R483): its energy since the channel's previous reading goes to the open Sitting; the inlet's highest is kept. -/
def State.meterReading (s : State) (ch reading : Nat) : State :=
  let e := s.energy
  let now := s.tb.elapsed.toNat
  let prev := (sget none e.last ch).getD e.opened
  let strokes := (now + 2 ^ 32 - prev) % 2 ^ 32
  let power := reading % 65536 * (reading / 65536)
  let s1 : State := { s with energy := { e with last := sput e.last ch (some now) } }
  if ch < 9 then { s1 with energy := { s1.energy with rail := addAt e.rail ch (power * strokes) } }.budgetHit
  else if ch = 9 then
    let t := tempOf reading
    { s1 with energy := { s1.energy with inletMax := some (match e.inletMax with
      | some m => max m t
      | none => t) } }
  else s1
/-- A sensor conversion: requester 2 is the meter, whose channel outside Rest is the stroke's, and 0 in Rest (R483, R495); requester 3 the management processor's request
(R484, R504). The Sketch's own conversions are within SKETCH_SAMPLE. -/
def State.conversion (s : State) (ch reading requester : Nat) : State :=
  let st := s.get .rest 0 F.REST_STATUS_STATE
  let s1 := s.put .ledg 0 F.LEDG_SENSOR_READING reading ch
  if 12 < ch || 2 ^ 32 ≤ reading then s
  else if requester = 2 then if ch ≠ (if st = 4 then 0 else meterCh s.now) then s else s1.meterReading ch reading
  else if requester = 3 && s.energy.request = some ch then
    { ((s1.put .ledg 0 F.LEDG_SENSOR_RESULT_READING reading).put .ledg 0 F.LEDG_STATUS_REQ_BUSY 0).put .ledg 0 F.LEDG_STATUS_REQ_DONE 1 with
      energy := { s1.energy with request := none } }
  else s
/-- SENSOR_CONVERSION (R483). -/
def State.cmdSensorConversion (s : State) (ch reading requester : Nat) : State := s.conversion ch reading requester

/-- A write of LEDG_SENSOR_REQ with GO (R484, R504): the slot at phase 0 is the meter's, so a request that wants it loses and takes the next;
channels above 12 have no sensor. -/
def State.sensorRequest (s : State) (ch : Nat) : State :=
  if s.bit .ledg 0 F.LEDG_STATUS_REQ_BUSY || 12 < ch then s
  else
    let s1 : State := { s.put .ledg 0 F.LEDG_STATUS_REQ_BUSY 1 with energy := { s.energy with request := some ch } }
    if s.tb.phase = 0 || 96 < s.tb.phase then (s1.put .ledg 0 F.LEDG_STATUS_MP_LOST 1).lostArb .ledg 0 else s1
/-- SENSOR_REQUEST (R484). -/
def State.cmdSensorRequest (s : State) (agent ch : Nat) : State := s.fieldWrite agent .ledg 0 F.LEDG_SENSOR_REQ_GO (fun s => s.sensorRequest ch)

/-! ### The close of a Sitting (R487, R488, R494) -/

/-- Close the open account; `sitting` is the index of the Sitting it belongs to, `cut` that an adoption closes it. -/
def State.closeAccount (s : State) (sitting : Nat) (cut : Bool) : State :=
  let e := s.energy
  let input := railEnergy (sget 0 e.rail 0)
  let sum := ((List.range 4).map (fun c => sget 0 e.charge c)).sum
  let high := decide (input < sum)
  let scale (n : Nat) : Nat := if high then n * input / sum else n
  let ovh := if high then 0 else input - sum
  let s1 := s.forN 5 (fun t c => t.put .ledg 0 F.LEDG_USED_USED (min 0xFFFFFFFF (microJ (if c = 4 then ovh else scale (sget 0 e.charge c)))) c)
  let s2 := s1.forN 5 (fun t k => t.put .ledg 0 F.LEDG_BG_USED (min 0xFFFFFFFF (microJ (scale (sget 0 e.bg k)))) k)
  let used := min 0xFFFFFFFF (microJ input)
  let part := e.partialNow || cut
  let s3 := (((s2.put .ledg 0 F.LEDG_USED_INPUT_USED used).put .ledg 0 F.LEDG_CLOSED_SITTING (sitting % 2 ^ 32)).put .ledg 0 F.LEDG_STATUS_PARTIAL
    (b2n part)).put .ledg 0 F.LEDG_STATUS_CAL_HIGH (b2n high)
  let s4 := if high then s3.raise .ledg 0 21 else s3
  let def_ := min 0xFFFFFFFF ((used - s.get .ledg 0 F.LEDG_BUDGET_B) + e.unfunded)
  let s5 := (s4.put .ledg 0 F.LEDG_DEFICIT_DEFICIT def_).put .ledg 0 F.LEDG_STATUS_DEFICIT (b2n (def_ ≠ 0))
  let s6 := if def_ ≠ 0 then s5.raise .ledg 0 16 else s5
  let s7 := if def_ ≠ 0 && !e.deficitRun then s6.fault .ledg 0 0x1A else s6
  let now := s.tb.elapsed.toNat
  let strokes := (now + 2 ^ 32 - e.opened) % 2 ^ 32
  { s7 with energy := { s7.energy with
    charge := [], bg := [], rail := [], inletPrev := e.inletMax, inletMax := none, deficitRun := decide (def_ ≠ 0)
    encKibPrev := e.encKib, encKib := 0, partialNow := cut, opened := now, strokesPrev := if part then strokes else 2048 } }

/-! ### The budget (R489, R490) -/

/-- What the Sitting that begins takes as the entry from above (R490). -/
def State.takeEntry (s : State) : State :=
  let e := s.energy
  if s.alone || s.role = 3 || (s.isHead 0 && !s.bit .lode 0 F.LODE_ID_ROOTED) then
    { s.put .ledg 0 F.LEDG_LIMIT_NO_ENTRY 0 with energy := { e with entry := 0xFFFFFFFF, entryNew := none, without := 0 } }
  else match e.entryNew with
    | some v => { s.put .ledg 0 F.LEDG_LIMIT_NO_ENTRY 0 with energy := { e with entry := v, entryNew := none, without := 0 } }
    | none =>
      let n := min 16 (e.without + 1)
      let s1 : State := { s with energy := { e with without := n, entry := if n = 16 then 0xFFFFFFFF else e.entry } }
      if n = 16 && !s.bit .ledg 0 F.LEDG_LIMIT_NO_ENTRY then (s1.put .ledg 0 F.LEDG_LIMIT_NO_ENTRY 1).raise .ledg 0 19 else s1
/-- The budget from above in force: a worker's entry, a manager's own share of its division (R490). -/
def State.budgetIn (s : State) : Nat :=
  if s.role = 0 || s.alone then s.energy.entry
  else if s.ring.divided then s.get .ledg 0 F.LEDG_GRANT_OUT_GRANT 0
  else s.get .ledg 0 F.LEDG_BUDGET_IN_IN
/-- T of R489 in °C: the highest inlet reading of the last closed Sitting, or the latest reading when it had none. -/
def State.inletC (s : State) : Int := ((s.energy.inletPrev.getD (tempOf (s.get .ledg 0 F.LEDG_SENSOR_READING 9))) + 15) / 16
/-- Derated limit in W (R489). -/
def derate (t : Int) : Nat := if t ≤ 45 then 380 else if 85 ≤ t then 220 else (380 - 4 * (t - 45)).toNat
/-- Terms of the budget with their SOURCE codes, in the order of R489. -/
def State.budgetTerms (s : State) : List (Nat × Nat) :=
  let lim := s.get .ledg 0 F.LEDG_MGR_LIMIT_LIMIT_W
  [(0, s.budgetIn), (1, sittingEnergy (s.get .ledg 0 F.LEDG_CAP_CAP_W)), (2, sittingEnergy (derate s.inletC))] ++
  (if lim = 0 then [] else [(3, sittingEnergy (max 120 lim))])
/-- The smallest term, the first of equal ones. -/
def leastTerm (l : List (Nat × Nat)) : Nat × Nat := l.foldl (fun b x => if x.2 < b.2 then x else b) (l.headD (0, 0))

/-! ### The planner (R492) -/

/-- Fixed part: overhead and ring of the last closed Sitting, scaled to 2,048 strokes when it was partial. -/
def State.fixedPart (s : State) : Nat :=
  let f := s.get .ledg 0 F.LEDG_USED_USED 4 + s.get .ledg 0 F.LEDG_USED_USED 3
  if s.bit .ledg 0 F.LEDG_STATUS_PARTIAL && 0 < s.energy.strokesPrev then min 0xFFFFFFFF (f * 2048 / s.energy.strokesPrev) else min 0xFFFFFFFF f
/-- Grant one item: what remains after it, with `share` 2,048ths of its request. -/
def State.grantItem (s : State) (rem : Nat) (g q : Fld) (on : Bool) (share : Nat) : Nat × State :=
  let x := if on then ((min (s.get .ledg 0 q) rem) * share + 2047) / 2048 else 0
  (rem - x, s.put .ledg 0 g x)
/-- The effort item: the highest effort whose surcharge fits (R492 item 2). -/
def State.grantEffort (s : State) (rem share : Nat) : Nat × State :=
  let top := max (s.get .codc 0 F.CODC_CTL_EFFORT_MAX) (s.get .codc 1 F.CODC_CTL_EFFORT_MAX)
  let need (e : Nat) : Nat := microJUp (s.energy.encKibPrev * (s.cost (5 + e) - s.cost 5) * share / 2048)
  let e := ((List.range (top + 1)).filter (fun e => need e ≤ rem)).foldl max 0
  if share = 0 then (rem, s.putEffort 0) else (rem - need e, s.putEffort e)
/-- The scrub item: lines per Vein of each Slab, and what they leave short (R492 item 4). -/
def State.grantScrub (s : State) (rem share : Nat) : Nat × State :=
  let on (d : Nat) : Bool := s.present d && s.bit .dprt d F.DPRT_SCRUB_CTL_SCRUB_EN
  let n := 8 * (b2n (on 0) + b2n (on 1))
  let c := s.cost 12
  let x := if n * c = 0 then 255 else rem * 16000 / (n * c)
  let rate (d : Nat) : Nat := s.get .dprt d F.DPRT_SCRUB_CTL_RATE
  let l (d : Nat) : Nat := if on d then (min (rate d) x * share + 2047) / 2048 else 0
  let s1 := (s.put .ledg 0 F.LEDG_GRANT_MISC_SCRUB_LINES_S0 (l 0)).put .ledg 0 F.LEDG_GRANT_MISC_SCRUB_LINES_S1 (l 1)
  let s2 := s1.forN 2 (fun t d => t.bump .dprt d F.DPRT_SCRUB_SHORT_SHORTFALL (8 * (rate d - l d)))
  (rem - microJUp (8 * (l 0 + l 1) * c), s2)
/-- The plan for a Sitting (R489, R492). `share` is 2,048 at a Sitting boundary, the strokes left at a wake, and 0 while the module rests
(R495, R503). -/
def State.planSitting (s : State) (share : Nat) : State :=
  let least := leastTerm s.budgetTerms
  let B := least.2
  let w := derate s.inletC
  let changed := decide (s.get .ledg 0 F.LEDG_LIMIT_SOURCE ≠ least.1) || decide (s.get .ledg 0 F.LEDG_LIMIT_DERATE_W ≠ w)
  let s1 := ((((s.put .ledg 0 F.LEDG_BUDGET_IN_IN s.budgetIn).put .ledg 0 F.LEDG_BUDGET_B B).put .ledg 0 F.LEDG_LIMIT_DERATE_W w).put .ledg 0
    F.LEDG_LIMIT_INLET_C (s.inletC % 256).toNat).put .ledg 0 F.LEDG_LIMIT_SOURCE least.1
  let s2 := if changed then s1.raise .ledg 0 20 else s1
  let fx := s.fixedPart
  let floor := s.get .ledg 0 F.LEDG_FLOOR_FG_FLOOR
  let fund := min floor (B - fx)
  let short := floor - fund
  let s3 := ((s2.put .ledg 0 F.LEDG_FIXED_FX fx).put .ledg 0 F.LEDG_FLOOR_FUNDED_FUNDED fund).put .ledg 0 F.LEDG_STATUS_FLOOR_SHORT (b2n (short ≠ 0))
  let s4 := if short ≠ 0 then s3.raise .ledg 0 17 else s3
  let s5 := s4.put .regu 0 F.REGU_ENERGY_ENERGY_SLOTS (min 0xFFFFFF (fund * 500 / max 1 (s.cost 0)))
  let rem := B - fx - fund
  let recomp := s.bit .codc 0 F.CODC_CTL_RECOMP_EN || s.bit .codc 1 F.CODC_CTL_RECOMP_EN
  let a := s5.grantItem rem F.LEDG_GRANT_QE_GRANT F.LEDG_REQ_QE_REQ true share
  let b := a.2.grantEffort a.1 share
  let c := b.2.grantItem b.1 F.LEDG_GRANT_RECOMP_GRANT F.LEDG_REQ_RECOMP_REQ recomp share
  let d := c.2.grantScrub c.1 share
  let e := d.2.grantItem d.1 F.LEDG_GRANT_SPILL_GRANT F.LEDG_REQ_SPILL_REQ true share
  let f := e.2.grantItem e.1 F.LEDG_GRANT_MIGR_GRANT F.LEDG_REQ_MIGR_REQ true share
  let t := f.2.put .ledg 0 F.LEDG_STATUS_BUDGET_HIT 0
  let free := decide (0 < t.get .ledg 0 F.LEDG_GRANT_QE_GRANT)
  { t with energy := { t.energy with spent := [], unfunded := short }
           query := { t.query with throttled := t.query.throttled && !free } }

/-- QE_THROTTLE (R398): the Sitting's grant is spent, so the engines and the offload engines stop until the next. -/
def State.cmdQeThrottle (s : State) : State := if s.grantLeft .query then s else { s with query := { s.query with throttled := true } }

end Sys2Proof.Machine
end

