-- ==== Sys2Proof/Machine/Deflate.lean ====
section
/-! DEFINITION. The DEFLATE formats the offload engine reads and writes (R167, R178, RFC 1951): pure functions over bytes. -/

namespace Sys2Proof.Machine

/-! ### DEFLATE (R178, RFC 1951) -/

/-- Canonical Huffman codes from code lengths: (symbol, length, code). -/
def huffCodes (lens : List Nat) : List (Nat × Nat × Nat) :=
  let count (n : Nat) : Nat := lens.countP (fun l => l = n && n ≠ 0)
  let first := (List.range 15).foldl (fun (acc : List Nat) n => acc ++ [(acc.getLastD 0 + count n) * 2]) [0]
  -- first.getD (n) is the first code of length n
  let step (acc : List (Nat × Nat × Nat)) (sym : Nat) : List (Nat × Nat × Nat) :=
    let n := lens.getD sym 0
    if n = 0 then acc
    else acc ++ [(sym, n, first.getD n 0 + (acc.countP (fun x => x.2.1 = n)))]
  (List.range lens.length).foldl step []

/-- Read one symbol: bits are taken most significant first until a code matches. -/
def readSym (codes : List (Nat × Nat × Nat)) : Nat → Nat → Nat → List Bool → Option (Nat × List Bool)
  | 0, _, _, _ => none
  | _ + 1, _, _, [] => none
  | fuel + 1, len, code, b :: r =>
    let c := 2 * code + b2n b
    match codes.find? (fun x => x.2.1 = len + 1 && x.2.2 = c) with
    | some x => some (x.1, r)
    | none => readSym codes fuel (len + 1) c r

/-- Base and extra bits of a length symbol 257 to 285. -/
def lenBase (sym : Nat) : Nat × Nat :=
  [(3, 0), (4, 0), (5, 0), (6, 0), (7, 0), (8, 0), (9, 0), (10, 0), (11, 1), (13, 1), (15, 1), (17, 1), (19, 2), (23, 2), (27, 2),
   (31, 2), (35, 3), (43, 3), (51, 3), (59, 3), (67, 4), (83, 4), (99, 4), (115, 4), (131, 5), (163, 5), (195, 5), (227, 5),
   (258, 0)].getD (sym - 257) (0, 0)
/-- Base and extra bits of a distance symbol 0 to 29. -/
def distBase (sym : Nat) : Nat × Nat :=
  if sym < 2 then (sym + 1, 0) else (2 ^ (sym / 2 - 1) * (2 + sym % 2) + 1, sym / 2 - 1)

/-- What the next symbol of a compressed block is. -/
inductive Sym
  | tok (t : Token)
  | stop
  | bad
  | short
deriving DecidableEq, Repr

/-- Read a token or the end of a compressed block. -/
def readTok (lit dist : List (Nat × Nat × Nat)) (l : List Bool) : Sym × List Bool :=
  match readSym lit 15 0 0 l with
  | none => (if l.length < 15 then .short else .bad, [])
  | some (sym, r) =>
    if sym < 256 then (.tok (.lit (BitVec.ofNat 8 sym)), r)
    else if sym = 256 then (.stop, r)
    else if 285 < sym then (.bad, [])
    else match takeBits (lenBase sym).2 r with
      | none => (.short, [])
      | some (le, r1) => match readSym dist 15 0 0 r1 with
        | none => (if r1.length < 15 then .short else .bad, [])
        | some (ds, r2) =>
          if 29 < ds then (.bad, [])
          else match takeBits (distBase ds).2 r2 with
            | none => (.short, [])
            | some (de, r3) => (.tok (.mat ((lenBase sym).1 + le) ((distBase ds).1 + de)), r3)

/-- The outcome of inflating a stream of which only a part may be at hand. -/
inductive Inf
  /-- the final block ended: output newest first, bits left -/
  | ended (out : List Byte) (rest : List Bool)
  /-- input ran out: output so far -/
  | more (out : List Byte)
  /-- not a valid stream -/
  | bad (out : List Byte)
deriving DecidableEq, Repr

/-- Symbols of a compressed block; a `more` or `bad` is passed up. -/
def infBlock (lit dist : List (Nat × Nat × Nat)) : Nat → List Bool → List Byte → Inf
  | 0, _, out => .more out
  | fuel + 1, l, out => match readTok lit dist l with
    | (.short, _) => .more out
    | (.bad, _) => .bad out
    | (.stop, r) => .ended out r
    | (.tok (.lit b), r) => infBlock lit dist fuel r (b :: out)
    | (.tok (.mat n d), r) => if out.length < d ∨ 32768 < d then .bad out else infBlock lit dist fuel r (copyBack d n out)

/-- Code lengths of the fixed block. -/
def fixedLens : List Nat :=
  List.replicate 144 8 ++ List.replicate 112 9 ++ List.replicate 24 7 ++ List.replicate 8 8
/-- Order of the code-length code. -/
def clOrder : List Nat := [16, 17, 18, 0, 8, 7, 9, 6, 10, 5, 11, 4, 12, 3, 13, 2, 14, 1, 15]

/-- Code lengths of a dynamic block: `want` of them. An error is `true` when the input ends first, `false` when they are invalid. -/
def readLens (cl : List (Nat × Nat × Nat)) (want : Nat) : Nat → List Bool → List Nat → Except Bool (List Nat × List Bool)
  | 0, _, _ => .error false
  | fuel + 1, l, acc =>
    if want ≤ acc.length then (if acc.length = want then .ok (acc, l) else .error false)
    else match readSym cl 7 0 0 l with
      | none => .error (decide (l.length < 7))
      | some (sym, r) =>
        if sym < 16 then readLens cl want fuel r (acc ++ [sym])
        else
          let spec : Nat × Nat × Nat := if sym = 16 then (2, 3, acc.getLastD 0) else if sym = 17 then (3, 3, 0) else (7, 11, 0)
          if sym = 16 ∧ acc = [] then .error false
          else match takeBits spec.1 r with
            | none => .error true
            | some (v, r1) => readLens cl want fuel r1 (acc ++ List.replicate (spec.2.1 + v) spec.2.2)

/-- The codes a dynamic block opens with, after its three type bits. An error is `true` when the input ends first, `false` when they are
invalid. -/
def dynCodes (r : List Bool) : Except Bool ((List (Nat × Nat × Nat) × List (Nat × Nat × Nat)) × List Bool) :=
  match takeBits 14 r with
  | none => .error true
  | some (h, r1) =>
    let hlit := h % 32 + 257
    let hdist := h / 32 % 32 + 1
    let hclen := h / 1024 + 4
    match takeBits (3 * hclen) r1 with
    | none => .error true
    | some (v, r2) =>
      let clens := (List.range 19).map (fun s => match clOrder.idxOf? s with
        | some k => if k < hclen then v / 8 ^ k % 8 else 0
        | none => 0)
      if 286 < hlit ∨ 30 < hdist then .error false
      else match readLens (huffCodes clens) (hlit + hdist) 400 r2 [] with
        | .error e => .error e
        | .ok (ls, r3) => .ok ((huffCodes (ls.take hlit), huffCodes (ls.drop hlit)), r3)

/-- The blocks of a raw stream; `total` is the number of bits of the input, so that stored blocks align to bytes. -/
def inflate (total : Nat) : Nat → List Bool → List Byte → Inf
  | 0, _, out => .more out
  | fuel + 1, l, out =>
    match l with
    | fin :: t0 :: t1 :: r =>
      let go (res : Inf) : Inf := match res with
        | .ended o rest => if fin then .ended o rest else inflate total fuel rest o
        | x => x
      match t0, t1 with
      | false, false =>
        let skip := r.length % 8
        let r1 := r.drop skip
        match takeBits 16 r1 with
        | none => .more out
        | some (n, r2) => match takeBits 16 r2 with
          | none => .more out
          | some (m, r3) =>
            if n + m ≠ 65535 then .bad out
            else
              let have_ := min n (r3.length / 8)
              let body := (List.range have_).map (fun k => BitVec.ofNat 8 (bitsVal ((r3.drop (8 * k)).take 8)))
              if have_ < n then .more (body.reverse ++ out)
              else go (.ended (body.reverse ++ out) (r3.drop (8 * n)))
      | true, false => go (infBlock (huffCodes fixedLens) (huffCodes (List.replicate 30 5)) total r out)
      | false, true => match dynCodes r with
        | .error e => if e then .more out else .bad out
        | .ok (c, r3) => go (infBlock c.1 c.2 total r3 out)
      | true, true => .bad out
    | _ => .more out

/-- Inflate a raw stream from bytes. -/
def inflateBytes (l : List Byte) : Inf := inflate (8 * l.length + 1) (8 * l.length + 1) (bitsOf l) []

/-- Where a wrapper's header ends: bytes it takes; `none` for an invalid one, `some none` while bytes are missing (R178). -/
def wrapHead (wrap : Nat) (l : List Byte) : Option (Option Nat) :=
  match wrap with
  | 0 => some (some 0)
  | 1 =>
    if l.length < 2 then some none
    else
      let cmf := fieldB l 0 1
      let flg := fieldB l 1 1
      if cmf % 16 ≠ 8 ∨ 7 < cmf / 16 ∨ flg.testBit 5 ∨ (256 * cmf + flg) % 31 ≠ 0 then none else some (some 2)
  | _ =>
    if l.length < 10 then some none
    else if fieldB l 0 1 ≠ 0x1F ∨ fieldB l 1 1 ≠ 0x8B ∨ fieldB l 2 1 ≠ 8 ∨ 32 ≤ fieldB l 3 1 then none
    else
      let flg := fieldB l 3 1
      let afterExtra := if flg.testBit 2 then 12 + fieldB l 10 2 else 10
      let zeroEnd (i : Nat) : Nat := match (l.drop i).idxOf? 0 with
        | some k => i + k + 1
        | none => l.length + 1
      let afterName := if flg.testBit 3 then zeroEnd afterExtra else afterExtra
      let afterComment := if flg.testBit 4 then zeroEnd afterName else afterName
      if flg.testBit 1 then
        if l.length < afterComment + 2 then some none
        else if fieldB l afterComment 2 = crcGzip (l.take afterComment) % 65536 then some (some (afterComment + 2)) else none
      else if l.length < afterComment then some none else some (some afterComment)

/-- Header bytes the engine writes (R178). -/
def writeHead (wrap effort : Nat) : List Byte :=
  match wrap with
  | 0 => []
  | 1 => [0x78, ([0x01, 0x5E, 0x9C, 0xDA] : List Byte).getD effort 0xDA]
  | _ => [0x1F, 0x8B, 8, 0, 0, 0, 0, 0, 0, 255]
/-- Check over a stream's uncompressed bytes (completion record, CHECK). -/
def streamCheck (wrap : Nat) (l : List Byte) : Nat := if wrap = 1 then adler32 l else crcGzip l
/-- Trailer bytes the engine writes (R178). -/
def writeTail (wrap : Nat) (l : List Byte) : List Byte :=
  match wrap with
  | 0 => []
  | 1 => (leBytes 4 (adler32 l)).reverse
  | _ => leBytes 4 (crcGzip l) ++ leBytes 4 (l.length % 2 ^ 32)
/-! ### Writing DEFLATE blocks (R167, R178) -/

/-- Bits of a Huffman code word: most significant first. -/
def codeBits (codes : List (Nat × Nat × Nat)) (sym : Nat) : List Bool := match codes.find? (fun x => x.1 = sym) with
  | some x => (List.range x.2.1).map (fun i => x.2.2.testBit (x.2.1 - 1 - i))
  | none => []
/-- Length symbol of a match length. -/
def lenSym (n : Nat) : Nat := if n = 258 then 285 else 257 + (((List.range 28).filter (fun k => (lenBase (257 + k)).1 ≤ n)).getLastD 0)
/-- Distance symbol of a match distance. -/
def distSym (d : Nat) : Nat := ((List.range 30).filter (fun k => (distBase k).1 ≤ d)).getLastD 0
/-- Bits of a token under a pair of codes. -/
def tokenBits (lit dist : List (Nat × Nat × Nat)) : Token → List Bool
  | .lit b => codeBits lit b.toNat
  | .mat n d =>
    codeBits lit (lenSym n) ++ valBits (lenBase (lenSym n)).2 (n - (lenBase (lenSym n)).1) ++
    codeBits dist (distSym d) ++ valBits (distBase (distSym d)).2 (d - (distBase (distSym d)).1)
/-- Tokens and the end of a block under a pair of codes. -/
def blockBits (lit dist : List (Nat × Nat × Nat)) (ts : List Token) : List Bool := ts.flatMap (tokenBits lit dist) ++ codeBits lit 256
/-- A block of fixed Huffman codes. -/
def fixedBlock (fin : Bool) (ts : List Token) : List Bool :=
  fin :: true :: false :: blockBits (huffCodes fixedLens) (huffCodes (List.replicate 30 5)) ts

/-- Tokens of a compressed block up to its end. -/
def blockTokens (lit dist : List (Nat × Nat × Nat)) : Nat → List Bool → List Token → Option (List Token × List Bool)
  | 0, _, _ => none
  | fuel + 1, l, acc => match readTok lit dist l with
    | (.tok t, r) => blockTokens lit dist fuel r (t :: acc)
    | (.stop, r) => some (acc.reverse, r)
    | _ => none
/-- Do bits spell one dynamic block of these tokens, and no more? -/
def spellsDyn (fin : Bool) (ts : List Token) (l : List Bool) : Bool := match l with
  | f :: false :: true :: r => f = fin && (match dynCodes r with
    | .ok (c, r1) => blockTokens c.1 c.2 (ts.length + 1) r1 [] = some (ts, [])
    | .error _ => false)
  | _ => false
/-- Code lengths that give the used symbols of an alphabet of `n` a complete code as flat as can be. -/
def flatLens (n : Nat) (used : List Nat) : List Nat :=
  let m := used.length
  let k := Nat.log2 m
  (List.range n).map (fun s => match used.idxOf? s with
    | some i => if m ≤ 1 then 1 else if i < 2 ^ (k + 1) - m then k else k + 1
    | none => 0)
/-- A dynamic block whose codes are as flat as can be and whose code lengths stand one by one. -/
def flatBlock (fin : Bool) (ts : List Token) : List Bool :=
  let lits := 256 :: ts.map (fun t => match t with
    | .lit b => b.toNat
    | .mat n _ => lenSym n)
  let dists := ts.filterMap (fun t => match t with
    | .lit _ => none
    | .mat _ d => some (distSym d))
  let ll := flatLens 286 ((List.range 286).filter (fun s => s ∈ lits))
  let dl := flatLens 30 (if dists.isEmpty then [0] else (List.range 30).filter (fun s => s ∈ dists))
  fin :: false :: true :: (valBits 5 29 ++ valBits 5 29 ++ valBits 4 15 ++ clOrder.flatMap (fun s => valBits 3 (if s < 16 then 4 else 0)) ++
    (ll ++ dl).flatMap (fun n => (valBits 4 n).reverse) ++ blockBits (huffCodes ll) (huffCodes dl) ts)
/-- A block of dynamic Huffman codes: RFC 1951 and R167 leave the code lengths open, so that the bits are a free value among those that spell the
tokens (log 41). -/
def dynBlock (fin : Bool) (ts : List Token) : List Bool :=
  let b := Config.dynBlock fin (ts.map (fun t => match t with
    | .lit b => (b.toNat, 0)
    | .mat n d => (n, d)))
  if spellsDyn fin ts b then b else flatBlock fin ts

/-- Bytes beyond a position that may bear on its token (R167): a match of 258 there or one or two positions on. -/
def lookAhead (effort : Nat) : Nat := 258 + (if effort ≤ 1 then 0 else effort - 1)
/-- Tokens of a stream's bytes after `history` that the input at hand decides; all of them at the end of the stream. -/
def deflateTokens (effort : Nat) (final : Bool) (history input : List Byte) : List Token :=
  let l := history ++ input
  parseFrom l 258 32768 effort (if final then l.length else l.length + 1 - lookAhead effort) input.length history.length
/-- Cut tokens into blocks that each cover 16 KiB of input; the last may cover less. -/
def cutBlocks : List Token → Nat → List Token → List (List Token)
  | acc, _, [] => if acc.isEmpty then [] else [acc.reverse]
  | acc, n, t :: r => if 16384 ≤ n + t.covers then (t :: acc).reverse :: cutBlocks [] 0 r else cutBlocks (t :: acc) (n + t.covers) r
/-- Input bytes a block covers. -/
def covered (ts : List Token) : Nat := (ts.map Token.covers).sum
/-- The blocks that a job completes (R167, R178): at effort 3 one for every 16 KiB of the stream's input, at the other efforts one for what the
job's input decides; the stream's end completes the last. -/
def deflateBlocks (effort : Nat) (final : Bool) (history input : List Byte) : List (List Token) :=
  let ts := deflateTokens effort final history input
  let bs := if effort = 3 then (cutBlocks [] 0 ts).filter (fun b => final || 16384 ≤ covered b) else if ts.isEmpty then [] else [ts]
  if final && bs.isEmpty then [[]] else bs
/-- Bits of blocks in order; the last carries the end-of-stream mark when `final`. -/
def blocksBits (effort : Nat) (final : Bool) : List (List Token) → List Bool
  | [] => []
  | b :: r =>
    let fin := final && r.isEmpty
    (if effort = 0 then fixedBlock fin b else dynBlock fin b) ++ blocksBits effort final r

end Sys2Proof.Machine
end

