-- ==== Sys2Proof/Machine/JobMem.lean ====
section
/-! DEFINITION. How a job of an internal engine reads and writes device memory and host memory: non-allocating snoop reads (R322, R323), writes
that recall every copy (R630), and CXL.io requests through an attach point (R175). The job's environment brings what hosts and donors answer. -/

namespace Sys2Proof.Machine

/-- A request of a job for a line, stamped now. -/
def State.jobReq (s : State) (who : Requester) (ctx page line : Nat) (k : ReqKind) : HReq :=
  { id := 0, kind := k, who := who, page := page, line := line, ctx := ctx, stamp := s.now, phase := s.tb.phase, el := s.tb.elapsed.toNat }

/-- Modified data a host returns to a snoop of the job. -/
def envModified (env : JobEnv) (page line : Nat) : Option Line :=
  (env.snoops.find? (fun x => x.1 = page && x.2.1 = line)).map (fun x => x.2.2)

/-- The stored value of a line, read to its verdict: data, and a poison code or 0. -/
def State.jobStored (s : State) (env : JobEnv) (r : HReq) : (Line × Nat) × State :=
  let e := s.entry r.page
  let i := r.line
  if s.tier.lostLines.contains (r.page / 8) then ((0, 1), s)
  else match (s.raSlot r.page).bind (fun x => x.lines.find? (fun h => h.line = i)) with
  | some h => ((h.data, 0), s)
  | none =>
    if r.page ∈ s.tier.badImages then ((0, 9), s)
    else match s.srcState r.page with
      | .zero => ((0, 0), s)
      | .hot =>
        if s.lineLost e.vein e.loc i then ((0, 6), s)
        else
          let o := s.oldHot r e.vein e.loc
          match o.1 with
          | .data l => ((l, 0), o.2)
          | .marker c => ((0, c), o.2)
          | .macBad m => ((0, 4), (o.2.lineAlarm (if m then 11 else 1) r i (hotName e.vein e.loc i)).askMarker r 4)
          | .lost => ((0, 1), (o.2.memFault r.page i 1).writeMarkerHot r e.vein e.loc 1)
          | .away => ((0, 2), o.2)
      | .deep | .plain =>
        let isPlain := s.srcState r.page = .plain
        let x := s.readImage r.page e [] (some r.who)
        let bads := badLines isPlain x.1 x.2.1
        let t := if bads.isEmpty then x.2.2 else x.2.2.promoteBad r.page bads
        match bads.find? (fun b => b.1 = i) with
        | some b => ((0, b.2), t)
        | none =>
          if isPlain then ((imageLine x.1 i, 0), t)
          else if !memHeadOk x.1 (e.gm1 + 1) then ((0, 9), t.badImage r.page .format)
          else match decodeSubOf x.1 (i / 16) with
            | none => ((0, 9), t.badImage r.page .grammar)
            | some sub => ((imageLine sub (i % 16), 0), t)
      | .spilled => match env.spilled.find? (fun x => x.1 = r.page) with
        | some x => ((lineOf (sliceB x.2 (64 * i) 64), 0), s)
        | none => ((0, 3), s)
      | _ => ((0, 0x0A), s)

/-- The current value of a line for a job: with a snoop (R322) a host's modified data, an internal owner's dirty data, else what is held or
stored; without one, all but what a host holds modified (R386). A refused read gives poison 0x0A (R92, R237). -/
def State.jobRead (s : State) (env : JobEnv) (who : Requester) (ctx page line : Nat) (snoop : Bool := true) : (Line × Nat) × State :=
  let r := s.jobReq who ctx page line .snoopRead
  match s.refusedBy r with
  | some 0 => ((0, 0x0A), s.fault .home (s.homeSlab page) 0x0C
      { cls := 0x0C, page := page, line := line, lineValid := true, agent := agentOf who, poison := 0x0A })
  | some why => ((0, 0x0A), s.lineAlarm why r line)
  | none =>
    let e := s.dirOf page line
    let ask := snoop && e.hst = .a
    let s1 := if ask then (hostsOf e).foldl (fun t a => t.emit (.snoop a page line .cur)) s else s
    match if ask then envModified env page line else none with
    | some d => ((d, 0), s1)
    | none => match s1.ownerData e page line with
      | some d => ((d, 0), s1)
      | none => match s1.heldLine page line with
        | some h =>
          if h.poison ≠ 0 then ((0, h.poison), s1)
          else if h.mask = fullMask then ((h.data, 0), s1)
          else
            let x := s1.jobStored env r
            if x.1.2 ≠ 0 then x else ((mergeLine x.1.1 h.data h.mask, 0), x.2)
        | none => s1.jobStored env r

/-- Recall every copy of a line, dirty data first; `keep` is an internal owner whose own copy stays. The entry is left free. -/
def State.jobRecall (s : State) (env : JobEnv) (page line : Nat) (keep : Option Nat) : State :=
  let e := s.dirOf page line
  let s1 := (hostsOf e).foldl (fun t a => t.emit (.snoop a page line .inv)) s
  let s2 := match if e.hst = .a then envModified env page line else none with
    | some d => s1.hostWriteBack ((hostsOf e).headD 0) page line d
    | none => s1
  let s3 := if keep = some e.iowner then s2 else match s2.ownerData e page line with
    | some d => s2.writeBack e.iowner page line d
    | none => s2
  let s4 := (List.range 18).foldl (fun t o => if keep = some o then t else match t.icLine o page line with
    | some c => (t.nearLeaves c true).icDrop o page line
    | none => t) s3
  if e.unused then s4 else s4.dirPut page line {}
/-- A write of a job (R630): every copy is recalled, dirty data first, then the write takes effect. False when it is refused. -/
def State.jobWrite (s : State) (env : JobEnv) (who : Requester) (ctx page line : Nat) (data : Line) (mask : BitVec 64) (poison : Bool := false) :
    Bool × State :=
  let r := { s.jobReq who ctx page line .write with data := data, mask := mask, poison := poison }
  match s.refusedBy r with
  | some 0 => (false, s.fault .home (s.homeSlab page) 0x0C
      { cls := 0x0C, page := page, line := line, lineValid := true, agent := agentOf who, poison := 0x0A })
  | some why => (false, s.lineAlarm why r line)
  | none =>
    (true, (s.jobRecall env page line none).putWrite r false)

/-- Bytes of device memory from a byte address: what was read, and the offset and code of the first poisoned byte. Poison 0x0A is a refused
buffer. -/
def State.jobBytes (s : State) (env : JobEnv) (who : Requester) (ctx addr len : Nat) (snoop : Bool := true) :
    (List Byte × Option (Nat × Nat)) × State :=
  let first := addr / 64
  let n := if len = 0 then 0 else (addr + len - 1) / 64 - first + 1
  let x := (List.range n).foldl (fun (acc : (List Byte × Option (Nat × Nat)) × State) j =>
      if acc.1.2.isSome then acc else
      let a := first + j
      let r := acc.2.jobRead env who ctx (a / 64) (a % 64) snoop
      let lo := if j = 0 then addr % 64 else 0
      let hi := min 64 (addr + len - 64 * a)
      if r.1.2 ≠ 0 then ((acc.1.1, some (acc.1.1.length, r.1.2)), r.2)
      else ((acc.1.1 ++ sliceB (lineBytes r.1.1) lo (hi - lo), none), r.2))
    (([], none), s)
  x

/-- Byte enables of bytes [lo, hi) of a line. -/
def maskOf (lo hi : Nat) : BitVec 64 := BitVec.ofNat 64 (2 ^ hi - 2 ^ lo)
/-- Write bytes to device memory from a byte address; false when a buffer refuses. -/
def State.jobStore (s : State) (env : JobEnv) (who : Requester) (ctx addr : Nat) (data : List Byte) : Bool × State :=
  let len := data.length
  let first := addr / 64
  let n := if len = 0 then 0 else (addr + len - 1) / 64 - first + 1
  (List.range n).foldl (fun (acc : Bool × State) j =>
      if !acc.1 then acc else
      let a := first + j
      let lo := if j = 0 then addr % 64 else 0
      let hi := min 64 (addr + len - 64 * a)
      let body := List.replicate lo (0 : Byte) ++ sliceB data (64 * a + lo - addr) (hi - lo)
      acc.2.jobWrite env who ctx (a / 64) (a % 64) (lineOf body) (maskOf lo hi)) (true, s)

/-- Does an attach point serve host accesses of an engine (R304)? -/
def State.hostOpen (s : State) (a : Nat) : Bool := s.linkUp a && (s.att a).bme
/-- A byte of host memory, as the environment brings it. -/
def envByte (env : JobEnv) (addr : Nat) : Option Byte :=
  (env.host.find? (fun x => x.1 ≤ addr && addr < x.1 + x.2.length)).map (fun x => x.2.getD (addr - x.1) 0)
/-- Bytes of host memory; none when the access fails. -/
def State.hostBytes (s : State) (env : JobEnv) (a addr len : Nat) : Option (List Byte) :=
  if !s.hostOpen a || env.hostFail then none else (List.range len).mapM (fun i => envByte env (addr + i))
/-- Write bytes to host memory; false when the access fails. -/
def State.hostStore (s : State) (env : JobEnv) (a addr : Nat) (data : List Byte) : Bool × State :=
  if !s.hostOpen a || env.hostFail then (false, s) else (true, if data.isEmpty then s else s.emit (.hostWrite a addr data))

end Sys2Proof.Machine
end

