-- ==== Sys2Proof/Machine/Offload.lean ====
section
/-! DEFINITION. The offload engine (R173 to R188): queues and doorbells, jobs, stream contexts, completions and aborts. A job's data path is
planned when it starts; each lane step then takes 4,096 bytes of its input or of its output (R172). -/

namespace Sys2Proof.Machine

/-! ### Queues (R174, R188) -/

/-- Entries of a ring. -/
def State.oSize (s : State) (sl q : Nat) : Nat := 2 ^ s.get .ofld sl F.OFLD_SQ_CTL_LOG2_SIZE q
/-- Key context of a queue. -/
def State.oKey (s : State) (sl q : Nat) : Nat := s.get .ofld sl F.OFLD_SQ_CTL_KEY_CTX q
/-- Is a queue enabled? -/
def State.oEnabled (s : State) (sl q : Nat) : Bool := (s.get .ofld sl F.OFLD_QUEUE_EN_ENABLE).testBit q
/-- Entries submitted and not fetched. -/
def State.oWaiting (s : State) (sl q : Nat) : Nat :=
  (s.get .ofld sl F.OFLD_SQ_TAIL_TAIL q + s.oSize sl q - s.get .ofld sl F.OFLD_SQ_HEAD_HEAD q % s.oSize sl q) % s.oSize sl q
/-- Jobs of a queue not yet completed. -/
def State.oJobs (s : State) (sl q : Nat) : List OJob := s.codec.jobs.filter (fun j => j.slab = sl && j.q = q)
/-- Replace a job. -/
def State.setOJob (s : State) (j : OJob) : State :=
  { s with codec := { s.codec with jobs := s.codec.jobs.map (fun x => if x.id = j.id then j else x) } }
/-- Who reads and writes for a Slab's offload engine. -/
def oWho (sl : Nat) : Requester := .codec sl
/-- Page and line of an entry of a submission ring. -/
def State.oEntry (s : State) (sl q i : Nat) : Nat × Nat := (s.get .ofld sl F.OFLD_SQ_BASE_PAGE q + i / 64, i % 64)

/-- OFLD_DOORBELL (R174): entries up to `tail` are submitted and stamped; a bad tail or a disabled queue sets DOORBELL_BAD. -/
def State.oDoorbell (s : State) (sl q tail : Nat) : State :=
  let size := s.oSize sl q
  let old := s.get .ofld sl F.OFLD_SQ_TAIL_TAIL q
  let new := (tail + size - old % size) % size
  if !s.oEnabled sl q || size ≤ tail || size - 1 < s.oWaiting sl q + new then s.put .ofld sl F.OFLD_Q_STATUS_DOORBELL_BAD 1 q
  else
    let bells := (List.range new).map (fun i => (8 * sl + q, (old + i) % size, s.now))
    { s.put .ofld sl F.OFLD_SQ_TAIL_TAIL tail q with codec := { s.codec with doorbells := s.codec.doorbells ++ bells } }
/-- OFLD_DOORBELL (R174). -/
def State.cmdOfldDoorbell (s : State) (agent slab q tail : Nat) : State :=
  s.fieldWrite agent .ofld slab F.OFLD_SQ_TAIL_TAIL (fun s => s.reaches .ofld slab (.ofldTail q (tail % 4096)) (fun t => t.oDoorbell slab q (tail % 4096))) q

/-! ### Descriptors (R175 to R177) -/

/-- Fields of a descriptor. -/
def oOp (d : List Byte) : Nat := fieldB d 0 1
def oFlag (d : List Byte) (i : Nat) : Bool := (fieldB d 1 1).testBit i
def oWrap (d : List Byte) : Nat := fieldB d 1 1 % 4
def oCtxNum (d : List Byte) : Nat := fieldB d 2 2 % 1024
def oUseCtx (d : List Byte) : Bool := (fieldB d 2 2).testBit 15
def oEffort (d : List Byte) : Nat := fieldB d 4 1 % 4
def oSrc (d : List Byte) : Nat := fieldB d 8 8
def oSrcLen (d : List Byte) : Nat := fieldB d 16 4
def oSrcHost (d : List Byte) : Bool := (fieldB d 20 1).testBit 0
def oDstHost (d : List Byte) : Bool := (fieldB d 20 1).testBit 1
def oDst (d : List Byte) : Nat := fieldB d 24 8
def oDstLen (d : List Byte) : Nat := fieldB d 32 4
def oFirst (d : List Byte) : Bool := oFlag d 2
def oLast (d : List Byte) : Bool := oFlag d 3
def oSave (d : List Byte) : Bool := oFlag d 4
def oList (d : List Byte) : Bool := oFlag d 7

/-- An output buffer: in host memory, address, length. -/
abbrev OBuf := Bool × Nat × Nat
/-- The output buffers of a job (R176); none when the list cannot be read, with the code of what was met. -/
def State.oBuffers (s : State) (env : JobEnv) (sl q : Nat) (d : List Byte) : (Option (List OBuf) × Nat) × State :=
  if !oList d then ((some [(oDstHost d, oDst d, oDstLen d)], 0), s)
  else
    let n := oDstLen d
    let parse (l : List Byte) : List OBuf := (List.range n).map (fun i =>
      ((fieldB l (16 * i + 12) 1).testBit 0, fieldB l (16 * i) 8, fieldB l (16 * i + 8) 4))
    if oDstHost d then
      match s.hostBytes env (s.get .ofld sl F.OFLD_SQ_CTL_ATTACH q) (oDst d) (16 * n) with
      | some l => ((some (parse l), 0), s)
      | none => ((none, 7), s)
    else
      let x := s.jobBytes env (oWho sl) (s.oKey sl q) (oDst d) (16 * n)
      match x.1.2 with
      | some (_, 0x0A) => ((none, 7), x.2)
      | some _ => ((none, 8), x.2)
      | none => ((some (parse x.1.1), 0), x.2)
/-- Room of the output buffers. -/
def oRoom (bs : List OBuf) : Nat := (bs.map (fun b => b.2.2)).sum

/-- Reserved bits of a descriptor, each with the byte it lies in. -/
def oReserved (d : List Byte) : List (Nat × Bool) :=
  [ck 2 (fieldB d 2 2 / 1024 % 32 ≠ 0), ck 4 (fieldB d 4 1 / 4 ≠ 0), ck 5 (fieldB d 5 1 ≠ 0), ck 20 (fieldB d 20 1 / 4 ≠ 0),
   ck 21 (fieldB d 21 3 ≠ 0), ck 36 (fieldB d 36 4 ≠ 0), ck 48 (fieldB d 48 16 ≠ 0)]
/-- The first faulty byte of a descriptor by its own fields (R177); a list of 0 or of more than 255 entries is faulty at DST_LEN (DESIGN CHOICE,
log 148). -/
def oBadHead (d : List Byte) : Option Nat :=
  let op := oOp d
  firstBad ([ck 0 (4 < op), ck 1 (oWrap d = 3), ck 1 ((op = 1 || op = 2) && !oLast d && !(oUseCtx d && oSave d)),
    ck 2 ((op = 3 || op = 4) && oUseCtx d)] ++ oReserved d ++
    [ck 16 (op = 3 && oSrcLen d ≠ 4096), ck 16 (op = 4 && (oSrcLen d < 17 || 4112 < oSrcLen d)), ck 32 (oList d && (oDstLen d = 0 || 255 < oDstLen d))])
/-- The first faulty byte of a descriptor by its output buffers (R177): an overlap is faulty at DST_ADDR (DESIGN CHOICE, log 148). -/
def oBadBufs (d : List Byte) (bufs : List OBuf) : Option Nat :=
  let op := oOp d
  let clash (b : OBuf) : Bool := b.1 = oSrcHost d && overlap (oSrc d) (oSrcLen d) b.2.1 b.2.2
  firstBad [ck 24 (bufs.any clash), ck 32 (op = 3 && oRoom bufs < 4112), ck 32 (op = 4 && oRoom bufs < 4096)]
/-- The first faulty byte of a descriptor with these buffers. -/
def oBad (d : List Byte) (bufs : List OBuf) : Option Nat := (oBadHead d).or (oBadBufs d bufs)

/-! ### Streams (R178, R179) -/

/-- Continue a check over more bytes: Adler-32 for zlib, else CRC-32. -/
def checkMore (wrap check : Nat) (l : List Byte) : Nat :=
  if wrap = 1 then
    let x := l.foldl (fun (p : Nat × Nat) b => let a := (p.1 + b.toNat) % 65521; (a, (p.2 + a) % 65521)) (check % 65536, check / 65536)
    x.1 + 65536 * x.2
  else (~~~(l.foldl (crcByte 0xEDB88320#32) (~~~(BitVec.ofNat 32 check)))).toNat
/-- The check of no bytes. -/
def checkInit (wrap : Nat) : Nat := if wrap = 1 then 1 else 0

/-- Whole bytes of a bit string, and the bits left over. -/
def wholeBytes (l : List Bool) : List Byte × List Bool := (packBits (l.length / 8) l, l.drop (l.length / 8 * 8))

/-- A deflate over some input: bytes made, and the stream state after it. The blocks that are complete are written; the unfinished byte and the
uncoded input stay (R178). -/
def deflateStep (effort : Nat) (last : Bool) (c : Ctx) (input : List Byte) : List Byte × Ctx :=
  let head := if c.headDone then [] else writeHead c.wrap effort
  let check := checkMore c.wrap c.check input
  let total := c.total + input.length
  let fresh := c.uncoded ++ input
  let bs := deflateBlocks effort last c.window fresh
  let n := (bs.map covered).sum
  let all := c.bits ++ blocksBits effort last bs
  let seen := c.window ++ fresh.take n
  let c1 := { c with headDone := true, check := check, total := total, window := seen.drop (seen.length - 32768), uncoded := fresh.drop n }
  if last then
    let tail : List Byte := match c.wrap with
      | 0 => []
      | 1 => (leBytes 4 check).reverse
      | _ => leBytes 4 check ++ leBytes 4 (total % 2 ^ 32)
    (head ++ packBits ((all.length + 7) / 8) all ++ tail, { c1 with bits := [], ended := true })
  else
    let w := wholeBytes all
    (head ++ w.1, { c1 with bits := w.2 })
/-- A deflate that has taken `n` bytes of a job's input and no block of it that ends later: at effort 3 the blocks so far, at the others none. -/
def deflateAt (effort : Nat) (last : Bool) (c : Ctx) (input : List Byte) (n : Nat) : List Byte × Ctx :=
  if n = input.length then deflateStep effort last c input
  else if effort = 3 then deflateStep 3 false c (input.take n)
  else (if c.headDone then [] else writeHead c.wrap effort,
    { c with headDone := true, check := checkMore c.wrap c.check (input.take n), total := c.total + n, uncoded := c.uncoded ++ input.take n })

/-- What a stream job comes to: output to write now, input consumed, status, whether the last byte of the stream is out, stream state. -/
structure Plan where
  out : List Byte
  used : Nat
  status : Nat
  final : Bool
  ctx : Ctx
deriving DecidableEq, Repr

/-- Put made bytes after the pending ones into `room` bytes; what does not fit stays pending. -/
def fit (c : Ctx) (made : List Byte) (room : Nat) : List Byte × Ctx :=
  let all := c.pending ++ made
  (all.take room, { c with pending := all.drop room })

/-- What is left of an ended stream: its pending output, and once that is out its own status (R178, R179). -/
def planEnded (keep : Bool) (c : Ctx) (room : Nat) : Plan :=
  let f := fit c [] room
  let full := f.2.pending.isEmpty
  { out := f.1, used := 0, status := if full then c.endStatus else if keep then 1 else 2, final := full && c.endStatus = 0, ctx := f.2 }

/-- A deflate job over the input at hand (R178, R179); `keep` when its context is kept. -/
def planDeflate (effort : Nat) (last keep : Bool) (c : Ctx) (input : List Byte) (room : Nat) : Plan :=
  if c.ended then planEnded keep c room
  else
    let whole := deflateStep effort last c input
    if c.pending.length + whole.1.length ≤ room + (if keep then 4096 else 0) then
      let f := fit c whole.1 room
      let full := f.2.pending.isEmpty
      { out := f.1, used := input.length, status := if full then 0 else 1, final := last && full, ctx := { whole.2 with pending := f.2.pending } }
    else
      let limit := room + (if keep then 4096 else 0)
      let n := ((List.range input.length).reverse.find? (fun n =>
        c.pending.length + (deflateStep effort false c (input.take n)).1.length ≤ limit)).getD 0
      let part := deflateStep effort false c (input.take n)
      let f := fit c (if c.pending.length + part.1.length ≤ limit then part.1 else []) room
      { out := f.1, used := n, status := if keep then 1 else 2, final := false, ctx := { part.2 with pending := f.2.pending } }

/-- What a stream's input so far gives: its output, `none` while it goes on, else the bytes the stream took and its status (0, 3 or 4). -/
def inflateAll (wrap : Nat) (l : List Byte) : List Byte × Option (Nat × Nat) :=
  match wrapHead wrap l with
  | none => ([], some (l.length, 3))
  | some none => ([], none)
  | some (some h) => match inflateBytes (l.drop h) with
    | .bad o => (o.reverse, some (l.length, 3))
    | .more o => (o.reverse, none)
    | .ended o rest =>
      let out := o.reverse
      let body := l.length - rest.length / 8
      let tail := if wrap = 0 then 0 else if wrap = 1 then 4 else 8
      if l.length < body + tail then (out, none)
      else
        let good : Bool := match wrap with
          | 0 => true
          | 1 => leNat (sliceB l body 4).reverse = adler32 out
          | _ => fieldB l body 4 = crcGzip out && fieldB l (body + 4) 4 = out.length % 2 ^ 32
        (out, some (body + tail, if good then 0 else 4))

/-- Inflate with `input` after what the stream has taken: output new to the stream, bytes of `input` taken and the status when the stream ends in
it, and the stream state. -/
def inflateStep (c : Ctx) (input : List Byte) : List Byte × Option (Nat × Nat) × Ctx :=
  let res := inflateAll c.wrap (c.seen ++ input)
  let new := res.1.drop c.made
  (new, res.2.map (fun x => (x.1 - c.seen.length, x.2)),
    { c with seen := c.seen ++ input, made := res.1.length, check := checkMore c.wrap c.check new, ended := res.2.isSome
             endStatus := (res.2.map (fun x => x.2)).getD 0 })

/-- An inflate job over the input at hand (R178, R179, R183). -/
def planInflate (last keep : Bool) (c : Ctx) (input : List Byte) (room : Nat) : Plan :=
  if c.ended then planEnded keep c room
  else
    let limit := room + (if keep then 4096 else 0)
    let fits (n : Nat) : Bool := c.pending.length + (inflateStep c (input.take n)).1.length ≤ limit
    let n := if fits input.length then input.length else ((List.range input.length).reverse.find? fits).getD 0
    let res := inflateStep c (input.take n)
    let f := fit c res.1 room
    let c1 := { res.2.2 with pending := f.2.pending }
    let full := f.2.pending.isEmpty
    match res.2.1 with
    | some (took, st) =>
      { out := f.1, used := took, status := if full then st else if keep then 1 else 2, final := st = 0 && full, ctx := c1 }
    | none =>
      if !full || n < input.length then { out := f.1, used := n, status := if keep then 1 else 2, final := false, ctx := c1 }
      else { out := f.1, used := n, status := if last then 3 else 0, final := false, ctx := c1 }

/-! ### Steps of a job (R172) -/

/-- Input and output at the end of each step of a job: 4,096 bytes of input, or of output, whichever comes first. `outAt n` is the output there is
once `n` bytes of input have been taken. -/
def stepMarks (total len : Nat) (outAt : Nat → Nat) : Nat → Nat → Nat → List (Nat × Nat)
  | 0, _, _ => []
  | fuel + 1, i, o =>
    if total ≤ i ∧ len ≤ o then []
    else
      let i1 := min total (i + 4096)
      let o1 := if i1 = total then len else min len (outAt i1)
      if o1 ≤ o + 4096 then (i1, o1) :: stepMarks total len outAt fuel i1 o1
      else
        let i2 := (((List.range (i1 - i)).map (fun k => i + k)).find? (fun n => o + 4096 ≤ outAt n)).getD i1
        (i2, o + 4096) :: stepMarks total len outAt fuel i2 (o + 4096)
/-- Output a stream job can have made once `n` bytes of its input have been taken, what was pending before it included. -/
def madeAt (op effort : Nat) (last : Bool) (c : Ctx) (input : List Byte) (n : Nat) : Nat :=
  c.pending.length + (if c.ended then 0 else if op = 1 then (deflateAt effort last c input n).1.length else (inflateStep c (input.take n)).1.length)
/-- Stream state of a job that ends once `n` bytes of its input have been taken and `w` bytes of output written (R186). -/
def ctxAt (op effort : Nat) (last : Bool) (c : Ctx) (input : List Byte) (n w : Nat) : Ctx :=
  let x : List Byte × Ctx := if c.ended then ([], c)
    else if op = 1 then deflateAt effort last c input n
    else match inflateStep c (input.take n) with
      | (o, _, d) => (o, d)
  { x.2 with pending := (c.pending ++ x.1).drop w }

/-! ### Stream contexts (R180 to R182) -/

/-- First line of a context's image: page and line. -/
def State.ctxHome (s : State) (sl n : Nat) : Nat × Nat := (s.get .ofld sl F.OFLD_CTX_BASE_PAGE + 12 * (n % 512), 0)
/-- Header of a context image (R180). Byte 3 holds WRAP in bits 0 and 1 and OP above them (DESIGN CHOICE, log 148: R180 gives the byte, not its bits). -/
def Ctx.header (c : Ctx) (n : Nat) (active : Bool) : Line :=
  lineOf (leBytes 2 n ++ leBytes 1 (b2n c.valid + 2 * b2n active) ++ leBytes 1 (c.wrap + 4 * c.op) ++ leBytes 4 c.check ++ List.replicate 56 0)
/-- Write a context's header line. -/
def State.writeHeader (s : State) (env : JobEnv) (sl n : Nat) (c : Ctx) (active : Bool) : State :=
  (s.jobWrite env (oWho sl) (s.get .ofld sl F.OFLD_CTX_KEY_KEY_CTX) (s.ctxHome sl n).1 0 (c.header n active) fullMask).2
/-- The stream state that a context image's body holds. -/
def Ctx.parts (c : Ctx) : List (List Byte) :=
  [c.window, c.uncoded, leBytes 1 c.bits.length ++ bytesOfBits c.bits, c.pending, leBytes 8 c.total, leBytes 1 (b2n c.headDone), c.seen, leBytes 8 c.made,
   leBytes 1 (b2n c.ended), leBytes 1 c.endStatus]
/-- Line `i` of a context's image: 768 lines, its header first (R180). -/
def Ctx.imageLine (c : Ctx) (n i : Nat) (active : Bool) : Line := if i = 0 then c.header n active else Config.ctxBody c.parts i
/-- Save a context's image: its body, then its header with ACTIVE clear (R181). -/
def State.saveImage (s : State) (env : JobEnv) (sl n : Nat) (c : Ctx) : State :=
  (s.forN 767 (fun t i => (t.jobWrite env (oWho sl) (t.get .ofld sl F.OFLD_CTX_KEY_KEY_CTX) ((t.ctxHome sl n).1 + (i + 1) / 64) ((i + 1) % 64)
    (c.imageLine n (i + 1) false) fullMask).2)).writeHeader env sl n c false
/-- Read the body of a context's image; none when a line of it is poison or refused. -/
def State.readBody (s : State) (env : JobEnv) (sl n : Nat) : Option (List Line) × State :=
  (List.range 767).foldl (fun (acc : Option (List Line) × State) i => match acc.1 with
    | none => acc
    | some ls =>
      let x := acc.2.jobRead env (oWho sl) (s.get .ofld sl F.OFLD_CTX_KEY_KEY_CTX) ((s.ctxHome sl n).1 + (i + 1) / 64) ((i + 1) % 64)
      (if x.1.2 = 0 then some (ls ++ [x.1.1]) else none, x.2)) (some [], s)
/-- The stream state of a loaded image: the state saved, when the body is the one the engine wrote; else whatever the engine makes of the body
(R182: unspecified output, log 148). -/
def Ctx.ofBody (c : Ctx) (body : List Line) : Ctx :=
  if body = (List.range 767).map (fun i => Config.ctxBody c.parts (i + 1)) then c
  else
    let p (i : Nat) : List Byte := Config.ctxPart body i
    { c with window := (p 0).take 32768, uncoded := p 1, bits := (bitsOf (p 2)).take 7, pending := (p 3).take 4096, total := leNat ((p 4).take 8)
             headDone := p 5 ≠ [], seen := p 6, made := leNat ((p 7).take 8), ended := p 8 ≠ [], endStatus := leNat ((p 9).take 1) }
/-- A context by its number. -/
def State.octx (s : State) (n : Nat) : Ctx := sget {} s.codec.ctxs n
/-- Put a context. -/
def State.setOctx (s : State) (n : Nat) (c : Ctx) : State := { s with codec := { s.codec with ctxs := sset {} s.codec.ctxs n c } }
/-- Contexts of a Slab that are active on chip. -/
def State.activeCtxs (s : State) (sl : Nat) : List Nat := s.codec.active.filter (fun n => n / 512 = sl)
/-- Is a context in use by a job? -/
def State.ctxInJob (s : State) (n : Nat) : Bool :=
  s.codec.jobs.any (fun j => j.ended.isNone && oUseCtx j.desc && oCtxNum j.desc = n)
/-- Is there room for one more active context: a free place, or a context that no job uses (R181)? -/
def State.ctxFits (s : State) (sl : Nat) : Bool := (s.activeCtxs sl).length < 64 || (s.activeCtxs sl).any (fun n => !s.ctxInJob n)
/-- Make room for one more active context: the least recently used one no job uses is saved (R181). -/
def State.ctxRoom (s : State) (env : JobEnv) (sl : Nat) : State :=
  let act := s.activeCtxs sl
  if act.length < 64 then s
  else match act.find? (fun n => !s.ctxInJob n) with
    | none => s
    | some n =>
      let t := s.saveImage env sl n (s.octx n)
      { t.bump .ofld sl F.OFLD_CTX_SAVES_COUNT with codec := { t.codec with active := t.codec.active.filter (· ≠ n) } }
/-- Bring a context on chip for a job, or find it unfit (status 0x06). A line of its image that is poison or refused leaves no valid image, so that
it too gives 0x06 (DESIGN CHOICE, log 148). -/
def State.loadCtx (s : State) (env : JobEnv) (sl : Nat) (d : List Byte) : Option Ctx × State :=
  let n := oCtxNum d
  if n / 512 ≠ sl || !s.bit .ofld sl F.OFLD_CTX_KEY_CTX_VALID then (none, s)
  else
    let onChip := n ∈ s.codec.active
    let use (t : State) : State := { t with codec := { t.codec with active := t.codec.active.filter (· ≠ n) ++ [n] } }
    if oFirst d then
      let c : Ctx := { valid := true, wrap := oWrap d, op := oOp d, check := checkInit (oWrap d) }
      let s1 := if onChip then s else s.ctxRoom env sl
      (some c, (use (s1.setOctx n c)).writeHeader env sl n c true)
    else if onChip then
      let c := s.octx n
      (if c.valid && c.op = oOp d then some c else none, use s)
    else
      let x := s.jobRead env (oWho sl) (s.get .ofld sl F.OFLD_CTX_KEY_KEY_CTX) (s.ctxHome sl n).1 0
      let h := lineBytes x.1.1
      if x.1.2 ≠ 0 || fieldB h 0 2 ≠ n || fieldB h 2 1 % 4 ≠ 1 || fieldB h 3 1 / 4 ≠ oOp d then (none, x.2)
      else
        let y := (x.2.ctxRoom env sl).readBody env sl n
        match y.1 with
        | none => (none, y.2)
        | some body =>
          let c : Ctx := { (y.2.octx n).ofBody body with valid := true, wrap := fieldB h 3 1 % 4, op := oOp d, check := fieldB h 4 4 }
          (some c, (use (y.2.setOctx n c)).writeHeader env sl n c true)
/-- End of a job's use of its context: its state is kept, or the context becomes invalid (R182). -/
def State.leaveCtx (s : State) (j : OJob) : State :=
  if !oUseCtx j.desc then s else match j.ctx with
  | none => s
  | some c =>
    let n := oCtxNum j.desc
    if j.saves then s.setOctx n c
    else
      let t := (s.setOctx n {}).writeHeader {} j.slab n {} false
      { t with codec := { t.codec with active := t.codec.active.filter (· ≠ n) } }

/-! ### Starting a job -/

/-- Does an entry of another queue of the Slab name the same context with an earlier doorbell (R182)? -/
def State.ctxEarlier (s : State) (sl q n : Nat) (bell : Stroke) : Bool :=
  s.codec.doorbells.any (fun b =>
    b.1 / 8 = sl && b.1 % 8 ≠ q && strokeLe b.2.2 bell && b.2.2 ≠ bell &&
    (let e := s.oEntry sl (b.1 % 8) b.2.1
     let d := lineBytes (s.jobRead {} (oWho sl) (s.oKey sl (b.1 % 8)) e.1 e.2).1.1
     oUseCtx d && oCtxNum d = n))

/-- The source bytes of a job: what came before trouble, and the status the trouble gives. -/
def State.oSource (s : State) (env : JobEnv) (sl q : Nat) (d : List Byte) : (List Byte × Nat) × State :=
  if oSrcHost d then match s.hostBytes env (s.get .ofld sl F.OFLD_SQ_CTL_ATTACH q) (oSrc d) (oSrcLen d) with
    | some l => ((l, 0), s)
    | none => (([], 7), s)
  else
    let x := s.jobBytes env (oWho sl) (s.oKey sl q) (oSrc d) (oSrcLen d)
    match x.1.2 with
    | none => ((x.1.1, 0), x.2)
    | some (_, 0x0A) => (([], 7), x.2)
    | some _ => ((x.1.1, 8), x.2)

/-- An offload Strata encode (R168): output and status. A page of zeros has no coded image a decoder accepts (R161), so it gives a raw one. -/
def offEncode (effort : Nat) (selfFail : Bool) (page : List Byte) : List Byte × Nat :=
  if selfFail then (rawExternal page, 0x0B)
  else match strataEncode effort page with
    | .coded im => (im, 0)
    | _ => (rawExternal page, 0x0A)

/-- Plan the job of a descriptor whose checks have passed. -/
def State.planJob (s : State) (env : JobEnv) (j : OJob) (bufs : List OBuf) : OJob × State :=
  let d := j.desc
  let room := oRoom bufs
  match oOp d with
  | 0 => (j, s)
  | 3 =>
    let x := s.oSource env j.slab j.q d
    if x.1.2 ≠ 0 then ({ j with status := x.1.2 }, x.2)
    else
      let r := offEncode (oEffort d) env.selfFail x.1.1
      let n := j.slab
      let arm := x.2.bit .dprt n F.DPRT_FLIP_CTL_ARM && x.2.get .dprt n F.DPRT_FLIP_CTL_STAGE = 2 && x.2.bit .dprt n F.DPRT_FLIP_CTL_OFLD
      let im := if arm then r.1.take 4 ++ leBytes 4 (fieldB r.1 4 4 ^^^ x.2.get .dprt n F.DPRT_FLIP_MASK_LO_MASK_LO) ++ r.1.drop 8 else r.1
      let t := if arm then x.2.flipFire n else x.2
      let u := if r.2 = 0x0B then
          ((t.bump .codc n F.CODC_VERIFY_FAIL_COUNT).put .codc n F.CODC_ERR_PAGE_CAUSE 4).fault .codc n 0x0E
            { cls := 0x0E, detail := 4, agent := agentOf (oWho n) }
        else t
      ({ j with out := im, inTotal := 4096, marks := stepMarks 4096 im.length (fun _ => 0) 4 0 0, status := r.2, final := true, check := crc32c x.1.1 }, if r.2 = 0x0B then u.raise .codc n 16 else u)
  | 4 =>
    let x := s.oSource env j.slab j.q d
    if x.1.2 ≠ 0 then ({ j with status := x.1.2 }, x.2)
    else match decodeExternal x.1.1 (oSrcLen d) with
      | .ok page =>
        let len := fieldB x.1.1 2 2 % 8192
        ({ j with out := page, inTotal := len, marks := stepMarks len 4096 (fun _ => 0) 4 0 0, final := true, check := crc32c page }, x.2)
      | .error _ => ({ j with status := 0x0C }, x.2)
  | op =>
    let l : Option Ctx × State := if oUseCtx d then s.loadCtx env j.slab d
      else (some { valid := true, wrap := oWrap d, op := op, check := checkInit (oWrap d) }, s)
    match l.1 with
    | none => ({ j with status := 6 }, l.2)
    | some c =>
      let x := l.2.oSource env j.slab j.q d
      if x.1.2 = 7 then ({ j with status := 7, ctx := some c, saves := oSave d, check := c.check }, x.2)
      else
        let keep := oUseCtx d && oSave d
        let whole := x.1.2 = 0
        let p := if op = 1 then planDeflate (oEffort d) (oLast d && whole) keep c x.1.1 room
          else planInflate (oLast d && whole) keep c x.1.1 room
        let input := x.1.1.take p.used
        let lastIn := oLast d && whole && p.ctx.ended
        ({ j with out := p.out, inTotal := p.used, status := if whole || p.status ≠ 0 then p.status else 8, final := p.final, check := p.ctx.check
                  ctx := some p.ctx, saves := keep, input := input, start := some c, lastIn := lastIn
                  marks := stepMarks p.used p.out.length (madeAt op (oEffort d) lastIn c input) (p.used / 4096 + p.out.length / 4096 + 2) 0 0 }, x.2)

/-- Lane steps of a job (R172). -/
def OJob.steps (j : OJob) : Nat := max 1 j.marks.length
/-- Input taken and output written once `k` steps of a job are done. -/
def OJob.upto (j : OJob) (k : Nat) : Nat × Nat :=
  if j.steps ≤ k then (j.inTotal, j.out.length) else if k = 0 then (0, 0) else j.marks.getD (k - 1) (j.inTotal, j.out.length)
/-- Buffers of a job. -/
def OJob.buffers (j : OJob) : List (Bool × Nat × Nat) := if oList j.desc then j.bufs else [(oDstHost j.desc, oDst j.desc, oDstLen j.desc)]
/-- A job that ends early, after `k` steps (R186): its counts are those of the steps, and so is the stream state its context takes. -/
def OJob.cut (j : OJob) (k : Nat) : OJob :=
  let c := match j.start with
    | some c => some (ctxAt (oOp j.desc) (oEffort j.desc) j.lastIn c j.input (j.upto k).1 j.written)
    | none => j.ctx
  { j with inTotal := (j.upto k).1, final := false, ctx := c, check := match c with
    | some x => x.check
    | none => j.check }
/-- Does a job need a lane at all? -/
def OJob.works (j : OJob) : Bool := oOp j.desc ≠ 0 && (j.inTotal ≠ 0 || !j.out.isEmpty)
/-- A job is complete from now on. -/
def State.endJob (s : State) (j : OJob) : State :=
  let j1 := { j with ended := some s.now }
  (((s.setOJob j1).leaveCtx j1).bump .ofld j.slab F.OFLD_JOB_COUNT_COUNT)

/-- What a job costs the query-engine class (R186, R486, R629): its lines in and out, and the KiB it codes or decodes. -/
def State.offSpend (s : State) (j : OJob) : State :=
  let i := if oSrcHost j.desc then 0 else (j.inTotal + 63) / 64
  let o := if oDstHost j.desc then 0 else (j.out.length + 63) / 64
  let kib (n : Nat) : Nat := (n + 1023) / 1024
  s.spend .query ([(1, i + 2 * o), (3, i + o)] ++ (match oOp j.desc with
    | 1 => [(11, kib j.inTotal)]
    | 3 => [(5 + oEffort j.desc, 4)]
    | 0 => []
    | _ => [(4, kib j.out.length)]))

/-- Fetch the entry at HEAD and start its job, when its operation is the command's (or one no queue has); a descriptor that a fence, a
context in use, a stall, an abort or a spent grant holds stays where it is. -/
def State.oStart (s : State) (sl q op : Nat) (env : JobEnv) : State :=
  let head := s.get .ofld sl F.OFLD_SQ_HEAD_HEAD q
  if s.blockClosed .ofld sl || !s.oEnabled sl q || s.oWaiting sl q = 0 || s.bit .ofld sl F.OFLD_Q_STATUS_FULL_STALL q || s.query.throttled ||
      s.boot.stopped.any (fun x => x.1 = 16 + sl) then s
  else
    let e := s.oEntry sl q head
    let x := s.jobRead env (oWho sl) (s.oKey sl q) e.1 e.2
    let d := lineBytes x.1.1
    let bad := x.1.2 ≠ 0
    let bell := ((s.codec.doorbells.find? (fun b => b.1 = 8 * sl + q && b.2.1 = head)).map (fun b => b.2.2)).getD s.now
    let busy := !bad && oUseCtx d && (s.ctxInJob (oCtxNum d) || s.ctxEarlier sl q (oCtxNum d) bell ||
      (!(oCtxNum d ∈ s.codec.active) && !s.ctxFits sl))
    if !bad && ((oOp d ≠ op && oOp d ≤ 4) || (oFlag d 6 && s.codec.jobs.any (fun j => j.slab = sl && j.q = q && j.ended.isNone)) || busy) then s
    else
      let t0 := x.2.put .ofld sl F.OFLD_SQ_HEAD_HEAD ((head + 1) % s.oSize sl q) q
      let t := { t0 with codec := { t0.codec with
        doorbells := t0.codec.doorbells.filter (fun b => !(b.1 = 8 * sl + q && b.2.1 = head)), nextId := t0.codec.nextId + 1 } }
      let j : OJob := { id := s.codec.nextId, slab := sl, q := q, desc := if bad then List.replicate 64 0 else d }
      let add (u : State) (y : OJob) : State := { u with codec := { u.codec with jobs := u.codec.jobs ++ [y] } }
      if bad then
        let y := { j with status := 8 }
        (add (t.put .ofld sl F.OFLD_Q_STATUS_FETCH_ERROR 1 q) y).endJob y
      else match oBadHead d with
      | some at_ => let y := { j with status := 5, detail := at_ }; (add t y).endJob y
      | none =>
        let b := t.oBuffers env sl q d
        match b.1.1 with
        | none => let y := { j with status := b.1.2 }; (add b.2 y).endJob y
        | some bufs => match oBadBufs d bufs with
          | some at_ => let y := { j with status := 5, detail := at_ }; (add b.2 y).endJob y
          | none =>
            let p := b.2.planJob env { j with bufs := if oList d then bufs else [] } bufs
            let p := (p.1, p.2.offSpend p.1)
            if p.1.works then (add p.2 p.1).askLane sl { level := 5, offload := true, stamp := s.now, id := j.id }
            else (add p.2 p.1).endJob p.1

/-- OFLD_NOOP (R175): a no-op completes with a record only. -/
def State.cmdOfldNoop (s : State) (slab q : Nat) (env : JobEnv) : State := (s.oStart slab q 0 env).settle
/-- OFLD_DEFLATE (R178). -/
def State.cmdOfldDeflate (s : State) (slab q : Nat) (env : JobEnv) : State := (s.oStart slab q 1 env).settle
/-- OFLD_INFLATE (R178). -/
def State.cmdOfldInflate (s : State) (slab q : Nat) (env : JobEnv) : State := (s.oStart slab q 2 env).settle
/-- OFLD_STRATA_ENCODE (R168). -/
def State.cmdOfldStrataEncode (s : State) (slab q : Nat) (env : JobEnv) : State := (s.oStart slab q 3 env).settle
/-- OFLD_STRATA_DECODE (R161). -/
def State.cmdOfldStrataDecode (s : State) (slab q : Nat) (env : JobEnv) : State := (s.oStart slab q 4 env).settle

/-! ### Steps (R172, R173) -/

/-- Write bytes of a job's output at position `at_` of its buffers, in order (R176); false when a buffer refuses. -/
def State.oWrite (s : State) (j : OJob) : List OBuf → Nat → List Byte → Bool × State
  | [], _, _ => (true, s)
  | b :: r, at_, data =>
    if b.2.2 ≤ at_ then s.oWrite j r (at_ - b.2.2) data
    else
      let now := data.take (b.2.2 - at_)
      let x := if b.1 then s.hostStore {} (s.get .ofld j.slab F.OFLD_SQ_CTL_ATTACH j.q) (b.2.1 + at_) now
        else s.jobStore {} (oWho j.slab) (s.oKey j.slab j.q) (b.2.1 + at_) now
      if !x.1 || data.length ≤ now.length then x else x.2.oWrite j r 0 (data.drop now.length)

/-- The end of a step of a job on a lane: its share of the output is written; the job ends with its last step, at a refused buffer or when it
has been aborted (R186). -/
def State.oStep (s : State) (j : OJob) (lane : Nat) : OJob × State :=
  let k := j.stepsDone + 1
  let upto := (j.upto k).2
  let data := (j.out.take upto).drop j.written
  let w := s.oWrite j j.buffers j.written data
  let j1 := { j with stepsDone := k, lane := lane }
  if !w.1 then ({ j1 with status := 7, final := false }, w.2)
  else ({ j1 with written := upto }, w.2)

/-- An offload step ends on a lane (R172): the job ends, or waits for a lane again, before the lane is granted afresh. -/
def State.offStepDone (s : State) (sl lane : Nat) (w : LaneWork) : State :=
  match s.codec.jobs.find? (fun j => j.id = w.id && j.ended.isNone) with
  | none => s.freeLane sl lane
  | some j =>
    let x := s.oStep j lane
    let k := x.1.stepsDone
    let refused := x.1.status = 7 && j.status ≠ 7
    if j.aborted then
      (x.2.endJob { x.1.cut k with status := 9 }).freeLane sl lane
    else if refused then (x.2.endJob (x.1.cut k)).freeLane sl lane
    else if k = j.steps then (x.2.endJob x.1).freeLane sl lane
    else
      let t := x.2.setOJob x.1
      ({ t with codec := { t.codec with waiting := t.codec.waiting ++ [(sl, { w with stamp := s.now })] } }).freeLane sl lane

/-- OFFLOAD_STEP_DONE (R172, R173): an offload step or an in-line operation on a lane ends, and the lane goes to the waiting work of highest
precedence. -/
def State.cmdOffloadStepDone (s : State) (slab lane : Nat) : State :=
  match sget none s.codec.lanes (16 * slab + lane) with
    | none => s
    | some w =>
      if w.offload then (s.offStepDone slab lane w).settle
      else if 2 ^ 33 ≤ w.id then s.pageDecoded slab lane w
      else if 2 ^ 32 ≤ w.id then s.encodeDone (w.id - 2 ^ 32) false
      else s.decodeDone slab lane

/-! ### Completions (R184, R185) -/

/-- Bytes of a job's record. -/
def OJob.record (j : OJob) (phase : Nat) (t : Stroke) : List Byte :=
  leBytes 2 (fieldB j.desc 6 2) ++ leBytes 1 j.status ++ leBytes 1 (phase + 2 * b2n (j.saves && j.ctx.isSome) + 4 * b2n j.final) ++
  leBytes 4 j.inTotal ++ leBytes 4 j.written ++ leBytes 4 j.check ++ leBytes 8 (fieldB j.desc 40 8) ++ leBytes 6 t.toNat ++ leBytes 1 (j.lane % 16) ++
  leBytes 1 j.detail
/-- Is a completion queue full? -/
def State.ocqFull (s : State) (sl q : Nat) : Bool :=
  (s.get .ofld sl F.OFLD_CQ_TAIL_TAIL q + 1) % s.oSize sl q = s.get .ofld sl F.OFLD_CQ_HEAD_HEAD q
/-- Write a record to its completion queue, its PHASE set, with its interrupt and message (R184, R292). -/
def State.writeORec (s : State) (r : ORec) : State :=
  let tail := s.get .ofld r.slab F.OFLD_CQ_TAIL_TAIL r.q
  let ph := 1 - sget 0 s.codec.phase (8 * r.slab + r.q)
  let bytes := r.bytes.take 3 ++ leBytes 1 (fieldB r.bytes 3 1 / 2 * 2 + ph) ++ r.bytes.drop 4
  let at_ := s.get .ofld r.slab F.OFLD_CQ_BASE_PAGE r.q * 4096 + 32 * tail
  let s1 := (s.jobStore {} (oWho r.slab) (s.oKey r.slab r.q) at_ bytes).2
  let next := (tail + 1) % s.oSize r.slab r.q
  let s2 := s1.put .ofld r.slab F.OFLD_CQ_TAIL_TAIL next r.q
  let s3 := if next = 0 then { s2 with codec := { s2.codec with phase := sset 0 s2.codec.phase (8 * r.slab + r.q) ph } } else s2
  if r.intr then (s3.raise .ofld r.slab (16 + r.q)).msix (s.get .ofld r.slab F.OFLD_SQ_CTL_ATTACH r.q) (4 + 8 * r.slab + r.q) else s3
/-- Write a queue's held records while it has room, and end its stall (R185). -/
def State.drainHeld (s : State) (sl q : Nat) : State :=
  let t := (s.codec.held.filter (fun r => r.slab = sl && r.q = q)).foldl (fun t r =>
    if t.ocqFull sl q then t
    else ({ t with codec := { t.codec with held := t.codec.held.erase r } }).writeORec r) s
  if t.ocqFull sl q || t.codec.held.any (fun r => r.slab = sl && r.q = q) then t.put .ofld sl F.OFLD_Q_STATUS_FULL_STALL 1 q
  else t.put .ofld sl F.OFLD_Q_STATUS_FULL_STALL 0 q
/-- The completed job whose record comes next: earliest STAMP, then lowest LANE. A stroke's records wait until the stroke is over, so that a job
that still ends in it takes its place among them (R184). -/
def State.nextDone (s : State) (sl q : Nat) : Option OJob :=
  (s.oJobs sl q).foldl (fun best j => match j.ended, best with
    | none, _ => best
    | some t, none => if t = s.now then none else some j
    | some t, some b =>
      if t = s.now then best else
      let u := b.ended.getD t
      if (strokeLe t u && t ≠ u) || (t = u && j.lane < b.lane) then some j else best) none
/-- OFLD_COMPLETION (R184, R185): the next finished job's record is written, or held while its queue is full. -/
def State.cmdOfldCompletion (s : State) (slab q : Nat) : State :=
  match s.nextDone slab q with
    | none => s
    | some j =>
      if 16 ≤ (s.codec.held.filter (fun r => r.slab = slab && r.q = q)).length then s
      else
        let r : ORec := { slab := slab, q := q, bytes := j.record 0 (j.ended.getD 0), intr := oFlag j.desc 5 }
        (({ s with codec := { s.codec with jobs := s.codec.jobs.filter (fun x => x.id ≠ j.id), held := s.codec.held ++ [r] } }).drainHeld slab q).settle
/-- OFLD_CQ_HEAD (R185): host software takes records, and held ones are written. -/
def State.cmdOfldCqHead (s : State) (agent slab q head : Nat) : State :=
  s.fieldWrite agent .ofld slab F.OFLD_CQ_HEAD_HEAD (fun s =>
    ((s.put .ofld slab F.OFLD_CQ_HEAD_HEAD head q).drainHeld slab q).settle) q

/-! ### Aborts (R186) -/

/-- End a queue: entries not started and jobs that wait complete with status 0x09; a job on a lane ends with its step. -/
def State.oAbort (s : State) (sl q : Nat) : State :=
  let head := s.get .ofld sl F.OFLD_SQ_HEAD_HEAD q
  let size := s.oSize sl q
  let s0 := s.put .ofld sl F.OFLD_QUEUE_EN_ENABLE (setBit (s.get .ofld sl F.OFLD_QUEUE_EN_ENABLE) q false)
  let s1 := (s.oJobs sl q).foldl (fun t j =>
    if j.ended.isSome then t
    else if (t.laneOf sl j.id true).isSome then t.setOJob { j with aborted := true }
    else
      let u := { t with codec := { t.codec with waiting := t.codec.waiting.filter (fun w => !(w.2.offload && w.2.id = j.id)) } }
      u.endJob { j.cut j.stepsDone with status := 9 }) s0
  let s2 := (List.range (s.oWaiting sl q)).foldl (fun t i =>
    let e := s.oEntry sl q ((head + i) % size)
    let x := t.jobRead {} (oWho sl) (s.oKey sl q) e.1 e.2
    let j : OJob := { id := x.2.codec.nextId, slab := sl, q := q, desc := lineBytes x.1.1, status := 9 }
    let u := { x.2 with codec := { x.2.codec with nextId := x.2.codec.nextId + 1, jobs := x.2.codec.jobs ++ [j] } }
    u.endJob j) s1
  let s3 := s2.put .ofld sl F.OFLD_SQ_HEAD_HEAD (s.get .ofld sl F.OFLD_SQ_TAIL_TAIL q) q
  { s3 with codec := { s3.codec with doorbells := s3.codec.doorbells.filter (fun b => b.1 ≠ 8 * sl + q) } }
/-- A write of OFLD_QUEUE_EN: ENABLE in bits 0 to 7, ABORT in bits 8 to 15. ENABLE rises only on a page that is not open, unless its wire has
barred it (R188, R537). -/
def State.oQueueEn (s : State) (sl value : Nat) : State :=
  let can := !s.bit .ofld sl F.HDR_STATUS_OPEN && !((2 * sl) ∈ s.codec.barred)
  s.forN 8 (fun t q =>
    let was := t.oEnabled sl q
    if value.testBit (8 + q) || (was && !value.testBit q) then t.oAbort sl q
    else if !was && value.testBit q && can then
      t.put .ofld sl F.OFLD_QUEUE_EN_ENABLE (setBit (t.get .ofld sl F.OFLD_QUEUE_EN_ENABLE) q true)
    else t)
/-- OFLD_ABORT (R186): a write of OFLD_QUEUE_EN. -/
def State.cmdOfldAbort (s : State) (agent slab value : Nat) : State :=
  s.fieldWrite agent .ofld slab F.OFLD_QUEUE_EN_ENABLE (fun s => (s.oQueueEn slab value).settle)
/-- Is a Slab's offload block idle: no job of any queue outstanding (R186)? -/
def State.ofldIdle (s : State) (sl : Nat) : Bool :=
  !s.codec.jobs.any (fun j => j.slab = sl) && !s.codec.held.any (fun r => r.slab = sl) && (List.range 8).all (fun q => s.oWaiting sl q = 0)
/-- Discard a Slab's active contexts without saving them (R524, R599). -/
def State.dropCtxs (s : State) (sl : Nat) : State :=
  (s.activeCtxs sl).foldl (fun t n => t.setOctx n {}) { s with codec := { s.codec with active := s.codec.active.filter (fun n => n / 512 ≠ sl) } }

end Sys2Proof.Machine
end

