-- ==== Sys2Proof/Machine/Query.lean ====
section
/-! DEFINITION. The query engines and the result gatherers (R362 to R403): queues, the row loop of a job, near and far updates, completion
records, the arrival slots, aborts and cache flushes. A job runs in one command to its end, or to the row at which the command's environment
stops it; a later command of its operation goes on from there. -/

namespace Sys2Proof.Machine

/-! ### Queues (R384, R402) -/

/-- Job of an engine. -/
def State.qjob (s : State) (q : Nat) : Option QJob := sget none s.query.jobs q
/-- Set an engine's job. -/
def State.setQjob (s : State) (q : Nat) (j : Option QJob) : State :=
  { s with query := { s.query with jobs := sset none s.query.jobs q j } }
/-- Entries of a submission ring. -/
def State.qSize (s : State) (q : Nat) : Nat := 2 ^ s.get .qeng q F.QENG_SQ_CTL_LOG2_SIZE
/-- Entries submitted and not fetched. -/
def State.qWaiting (s : State) (q : Nat) : Nat :=
  (s.get .qeng q F.QENG_SQ_TAIL_TAIL + s.qSize q - s.get .qeng q F.QENG_SQ_HEAD_HEAD % s.qSize q) % s.qSize q
/-- Key context of an engine's accesses (R386). -/
def State.qKey (s : State) (q : Nat) : Nat := s.get .qeng q F.QENG_SQ_CTL_KEY_CTX
/-- Attach point of an engine's host output. -/
def State.qAttach (s : State) (q : Nat) : Nat := s.get .qeng q F.QENG_SQ_CTL_ATTACH
/-- QENG_DOORBELL (R384). -/
def State.qDoorbell (s : State) (q tail : Nat) : State :=
  let size := s.qSize q
  let new := (tail + size - s.get .qeng q F.QENG_SQ_TAIL_TAIL % size) % size
  if !s.bit .qeng q F.QENG_CTL_ENABLE || size ≤ tail || size - 1 < s.qWaiting q + new then s.put .qeng q F.QENG_STATUS_DOORBELL_BAD 1
  else s.put .qeng q F.QENG_SQ_TAIL_TAIL tail
/-- QENG_DOORBELL (R384): a doorbell of a disabled queue, or one past the ring, is ignored and sets DOORBELL_BAD. -/
def State.cmdQengDoorbell (s : State) (agent q tail : Nat) : State := s.fieldWrite agent .qeng q F.QENG_SQ_TAIL_TAIL 
  (fun s => s.reaches .qeng q (.qengTail (tail % 4096)) (fun t => t.qDoorbell q (tail % 4096)))

/-! ### Descriptors -/

def qOp (d : List Byte) : Nat := fieldB d 0 1
def qFlag (d : List Byte) (i : Nat) : Bool := (fieldB d 1 1).testBit i
def qAtomic (d : List Byte) : Nat := fieldB d 2 1 % 4
def qSkip (d : List Byte) : Bool := (fieldB d 2 1).testBit 2
def qStart (d : List Byte) : Nat := fieldB d 16 5
def qRows (d : List Byte) : Nat := fieldB d 24 5
def qSel (d : List Byte) : Nat := fieldB d 32 8
def qOut (d : List Byte) : Nat := fieldB d 40 8
def qOutLen (d : List Byte) : Nat := fieldB d 48 4
def qOvfLen (d : List Byte) : Nat := fieldB d 52 4
def qOvf (d : List Byte) : Nat := fieldB d 56 8

/-! ### Reading input (R386 to R388) -/

/-- What reading a value gives: the value (none for null), or the poison code met; 0x0A is a refusal. -/
abbrev Read := Except Nat (Option Nat)

/-- Read `n` bytes of input that lie in one line. -/
def State.qBytes (s : State) (env : JobEnv) (q : Nat) (d : List Byte) (addr n : Nat) : Except Nat Nat × State :=
  let x := s.jobRead env (.engine q) (s.qKey q) (addr / 4096) (addr % 4096 / 64) (qFlag d 0)
  if x.1.2 ≠ 0 then (.error x.1.2, x.2) else (.ok (fieldB (lineBytes x.1.1) (addr % 64) n), x.2)
/-- Value of column `c` at row `r` (R362, R363). -/
def State.qCell (s : State) (env : JobEnv) (q : Nat) (d k : List Byte) (c r : Nat) : Read × State :=
  let v := s.qBytes env q d (colBase k c + r * colWidth k c) (colWidth k c)
  match v.1 with
  | .error e => (.error e, v.2)
  | .ok x =>
    if !colHasNulls k c then (.ok (some x), v.2)
    else
      let b := v.2.qBytes env q d (colNull k c + r / 8) 1
      match b.1 with
      | .error e => (.error e, b.2)
      | .ok y => (.ok (if y.testBit (r % 8) then some x else none), b.2)
/-- Values of some columns of a row; `rid` is the row of every column but column 0 of a GATHER. -/
def State.qCells (s : State) (env : JobEnv) (q : Nat) (d k : List Byte) (cols : List Nat) (row rid : Nat) :
    Except Nat (List (Nat × Option Nat)) × State :=
  cols.foldl (fun acc c => match acc.1 with
    | .error _ => acc
    | .ok l =>
      let x := acc.2.qCell env q d k c (if qOp d = 3 && c ≠ 0 then rid else row)
      match x.1 with
      | .error e => (.error e, x.2)
      | .ok v => (.ok (l ++ [(c, v)]), x.2)) (.ok [], s)
/-- A row's value of a column among those read. -/
def valOf (l : List (Nat × Option Nat)) (c : Nat) : Option Nat := match l.find? (fun x => x.1 = c) with
  | some x => x.2
  | none => none
/-- Columns the predicate needs. -/
def termCols (k : List Byte) : List Nat := ((List.range (kTerms k)).map (termCol k)).dedup
/-- Columns the output of a passing row needs. -/
def outCols (d k : List Byte) : List Nat :=
  ((if qOp d = 2 || qOp d = 3 || qOp d = 4 then (List.range (kProj k)).map (kProjCol k) else []) ++
   (if qOp d = 4 || qOp d = 5 then (List.range (kKeys k)).map (kKeyCol k) else []) ++
   (if qOp d = 5 then (List.range (kAgg k)).map (kFnCol k) else [])).dedup

/-- Count an access of the engine cache to a line read through it. -/
def State.qCount (s : State) (q : Nat) (hit : Bool) : State := s.bump .qeng q (if hit then F.QENG_CACHE_HIT_COUNT else F.QENG_CACHE_MISS_COUNT)
/-- Read a line through the engine cache (RdS): a host that holds it in A gives it up to S (R319). -/
def State.qShared (s : State) (env : JobEnv) (q page line : Nat) (j : QJob) : (Line × Nat) × QJob × State :=
  let n := page * 64 + line
  let hit := n ∈ j.lines || (s.icLine q page line).isSome
  let s0 := s.qCount q hit
  let e := s0.dirOf page line
  let s1 := if e.hst = .a then
      let t := (hostsOf e).foldl (fun u a => u.emit (.snoop a page line .data)) s0
      let u := match envModified env page line with
        | some x => t.hostWriteBack ((hostsOf e).headD 0) page line x
        | none => t
      u.dirPut page line { e with hst := .s }
    else s0
  let x := s1.jobRead env (.engine q) (s.qKey q) page line
  (x.1, { j with lines := addOnce j.lines n }, x.2)

/-! ### Output (R371, R372, R390) -/

/-- Write output bytes to a device or host address; false when refused. -/
def State.qWrite (s : State) (env : JobEnv) (q : Nat) (host : Bool) (addr : Nat) (data : List Byte) : Bool × State :=
  if host then s.hostStore env (s.qAttach q) addr data else s.jobStore env (.engine q) (s.qKey q) addr data
/-- Append bytes to a job's output. -/
def State.qAppend (s : State) (env : JobEnv) (q : Nat) (j : QJob) (data : List Byte) : QJob × State :=
  let host := qFlag j.desc 6
  let x := s.qWrite env q host (qOut j.desc + j.outBytes) data
  if !x.1 then ({ j with result := some 4 }, x.2)
  else ({ j with outBytes := j.outBytes + data.length
                 lastHost := if host && !data.isEmpty then some (qOut j.desc + j.outBytes) else j.lastHost }, x.2)

/-! ### Aggregation (R376 to R381, R325 to R327) -/

/-- Is the update of a table line far (R326, R378)? -/
def State.qFar (s : State) (q : Nat) (d : List Byte) (page line : Nat) : Bool :=
  let h := s.homeSlab page
  match qAtomic d with
  | 1 => false
  | 2 => true
  | _ =>
    let m := s.get .home h F.HOME_CTL_ATOMIC_MODE
    m = 2 || (m = 0 && s.get .home h F.HOME_CTL_PRED_THRESH ≤ s.predAt (q / 8) page line)
/-- Write back and drop a line an engine holds (R319). -/
def State.qEvict (s : State) (c : ICLine) : State :=
  let t := ((s.nearLeaves c false).icDrop c.owner c.page c.line)
  let u := if c.dirty then t.writeBack c.owner c.page c.line c.data else t
  u.dirPut c.page c.line { u.dirOf c.page c.line with ist := .i, iowner := 31, ishare := 0 }
/-- Room for one more line in an engine's cache of 8,192 lines: the oldest leaves. -/
def State.qRoom (s : State) (q : Nat) : State :=
  let mine := s.home.icache.filter (fun c => c.owner = q)
  if mine.length < 8192 then s else match mine.head? with
    | some c => s.qEvict c
    | none => s
/-- Take a line in M (RdO): its data, or a poison code. -/
def State.qOwn (s : State) (env : JobEnv) (q page line : Nat) : (Line × Nat) × State :=
  let r := s.jobReq (.engine q) (s.qKey q) page line .intX
  match s.refusedBy r with
  | some why => ((0, 0x0A), if why = 0 then s.fault .home (s.homeSlab page) 0x0C
      { cls := 0x0C, page := page, line := line, lineValid := true, agent := agentOf (.engine q), poison := 0x0A } else s.lineAlarm why r line)
  | none =>
    let e := s.dirOf page line
    match s.icLine q page line with
    | some c => if e.ist = .m && e.iowner = q then ((c.data, 0), s.qCount q true) else
      let t := s.jobRecall env page line (some q)
      ((c.data, 0), (t.dirPut page line { ist := .m, iowner := q }).qCount q true)
    | none =>
      let t := (s.qRoom q).jobRecall env page line none
      let x := t.jobRead env (.engine q) (s.qKey q) page line
      if x.1.2 ≠ 0 then x
      else ((x.1.1, 0), (((x.2.dirPut page line { ist := .m, iowner := q }).icPut { owner := q, page := page, line := line, data := x.1.1, ctx := s.qKey q }).bump .home (s.homeSlab page)
        F.HOME_NEAR_GRANTS_COUNT).qCount q false)
/-- One near examination of an entry (R377, R378): the entry before, and the entry after a claim or merge. -/
def State.qNear (s : State) (env : JobEnv) (q page line : Nat) (k : List Byte) (key : Nat) (vals : Nat → Option Nat) :
    Except Nat (AggEnt × Bool) × State :=
  let x := s.qOwn env q page line
  if x.1.2 ≠ 0 then (.error x.1.2, x.2)
  else
    let r : HReq := { s.jobReq (.engine q) 0 page line .atomic with kernel := k, arg := key, vals := (List.range 8).map vals }
    let e := AggEnt.ofLine (lineBytes x.1.1)
    let a := farApply r x.1.1
    if !a.2 then (.ok (e, false), x.2)
    else
      let c := (x.2.icLine q page line).getD { owner := q, page := page, line := line }
      (.ok (e, true), (x.2.icPut { c with dirty := true, data := a.1, updates := c.updates + 1 }).bump .qeng q F.QENG_NEAR_UPD_COUNT)
/-- One far examination of an entry (R325). -/
def State.qFarOp (s : State) (env : JobEnv) (q page line : Nat) (k : List Byte) (key : Nat) (vals : Nat → Option Nat) :
    Except Nat (AggEnt × Bool) × State :=
  let r : HReq := { s.jobReq (.engine q) (s.qKey q) page line .atomic with kernel := k, arg := key, vals := (List.range 8).map vals, mask := fullMask }
  match s.refusedBy r with
  | some why => (.error 0x0A, if why = 0 then s.fault .home (s.homeSlab page) 0x0C
      { cls := 0x0C, page := page, line := line, lineValid := true, agent := agentOf (.engine q), poison := 0x0A } else s.lineAlarm why r line)
  | none =>
    let h := s.homeSlab page
    let contended := s.home.queue.any (fun x => x.page = page && x.line = line && x.who ≠ r.who &&
      (x.kind = .atomic || x.kind = .intX || x.kind = .intUpg))
    let s0 := if contended then s.predAdd (q / 8) page line 1 0 else s.predAdd (q / 8) page line 0 1
    let s1 := (s0.jobRecall env page line none).bump .qeng q F.QENG_FAR_UPD_COUNT
    let x := s1.jobRead env (.engine q) (s.qKey q) page line
    if x.1.2 ≠ 0 then (.error x.1.2, x.2)
    else
      let t := x.2.bump .home h F.HOME_FAR_OPS_COUNT
      let a := farApply r x.1.1
      (.ok (AggEnt.ofLine (lineBytes x.1.1), a.2), if a.2 then t.putWrite { r with kind := .intWb, data := a.1 } false else t)
/-- Flags one merge raises. -/
def mergeFlags (k : List Byte) (vals : Nat → Option Nat) (e : AggEnt) : AggEnt :=
  AggEnt.merge k vals { e with nan := false, fltOvf := false, intOvf := false }
/-- Place a row in the aggregate table, examining at most `n` entries from entry `b` (R377). -/
def State.qPlace (env : JobEnv) (q key : Nat) (vals : Nat → Option Nat) : Nat → Nat → State → QJob → QJob × State × Bool
  | 0, _, s, j => (j, s, false)
  | n + 1, b, s, j =>
    let k := j.kernel
    let at_ := kTable k + 64 * (b % 2 ^ kLog k)
    let page := at_ / 4096
    let line := at_ % 4096 / 64
    let x := if s.qFar q j.desc page line then s.qFarOp env q page line k key vals else s.qNear env q page line k key vals
    match x.1 with
    | .error c => ({ j with result := some (if c = 0x0A then 4 else 3) }, x.2, true)
    | .ok (e, done) =>
      if done then
        let base := if e.used then e else AggEnt.claim k key
        let f := mergeFlags k vals base
        ({ j with aux := j.aux + b2n (!e.used), nan := j.nan || nanInput k vals, fltOvf := j.fltOvf || f.fltOvf, intOvf := j.intOvf || f.intOvf }, x.2, true)
      else State.qPlace env q key vals n (b + 1) x.2 j
/-- Aggregate one passing row, or put it into the overflow area (R377). -/
def State.qAggregate (s : State) (env : JobEnv) (q : Nat) (j : QJob) (key : Nat) (vals : Nat → Option Nat) : QJob × State :=
  let k := j.kernel
  let x := State.qPlace env q key vals (kProbeMax k) (hashSlot key (kLog k)) s j
  if x.2.2 then (x.1, x.2.1)
  else if qOvfLen j.desc < j.ovfBytes + 64 then ({ j with result := some 2 }, x.2.1)
  else
    let e := (AggEnt.claim k key).merge k vals
    let host := qFlag j.desc 7
    let w := x.2.1.qWrite env q host (qOvf j.desc + j.ovfBytes) e.bytes
    if !w.1 then ({ j with result := some 4 }, w.2)
    else ({ j with ovfBytes := j.ovfBytes + 64, nan := j.nan || nanInput k vals, fltOvf := j.fltOvf || e.fltOvf, intOvf := j.intOvf || e.intOvf
                   lastHost := if host then some (qOvf j.desc + j.ovfBytes) else j.lastHost }, w.2)

/-! ### Hash probe (R383) -/

/-- Probe a table: payloads of the matches in probe order, and whether PROBE_MAX was reached; an error is a poison code. -/
def State.qProbe (env : JobEnv) (q key : Nat) : Nat → Nat → State → QJob → Except Nat (List Nat × Bool) × QJob × State
  | 0, _, s, j => (.ok ([], true), j, s)
  | n + 1, b, s, j =>
    let k := j.kernel
    let at_ := kTable k + 16 * (b % 2 ^ kLog k)
    let x := s.qShared env q (at_ / 4096) (at_ % 4096 / 64) j
    if x.1.2 ≠ 0 then (.error x.1.2, x.2.1, x.2.2)
    else
      let l := lineBytes x.1.1
      let ek := fieldB l (at_ % 64) 8
      if ek = kEmpty k then (.ok ([], false), x.2.1, x.2.2)
      else
        let r := State.qProbe env q key n (b + 1) x.2.2 x.2.1
        match r.1 with
        | .error c => (.error c, r.2)
        | .ok (ps, lim) => (.ok (if ek = key then (fieldB l (at_ % 64 + 8) 8 :: ps, lim) else (ps, lim)), r.2)

/-! ### The row loop (R368 to R373, R388, R389) -/

/-- A poisoned line ends the job, or the row is skipped (R388); a refusal ends the job. -/
def QJob.poison (j : QJob) (c : Nat) : QJob :=
  if c = 0x0A then { j with result := some 4 }
  else if qSkip j.desc then { j with rowsDone := j.rowsDone + 1, poisoned := j.poisoned + 1, skipped := true, sel := j.sel ++ [false] }
  else { j with result := some 3 }
/-- A row that retires without passing. -/
def QJob.miss (j : QJob) : QJob := { j with rowsDone := j.rowsDone + 1, sel := j.sel ++ [false] }
/-- A row that retires having passed. -/
def QJob.hit (j : QJob) : QJob := { j with rowsDone := j.rowsDone + 1, passed := j.passed + 1, sel := j.sel ++ [true] }

/-- Output of a passing row whose values are read. -/
def State.qPass (s : State) (env : JobEnv) (q : Nat) (j : QJob) (row : Nat) (vals : Nat → Option Nat) : QJob × State :=
  let d := j.desc
  let k := j.kernel
  let rowid := if qFlag d 2 then some row else none
  let emit (t : State) (y : QJob) (bs : List Byte) (n : Nat) : QJob × State :=
    if qOutLen d < y.outBytes + bs.length then ({ y with result := some 1, probeLimit := j.probeLimit }, t)
    else
      let w := t.qAppend env q y bs
      if w.1.result.isSome then w else ({ w.1 with aux := w.1.aux + n }.hit, w.2)
  match qOp d with
  | 1 => (j.hit, s)
  | 4 => match rowKey k vals with
    | none => (j.miss, s)
    | some key =>
      let p := State.qProbe env q key (kProbeMax k) (hashSlot key (kLog k)) s j
      match p.1 with
      | .error c => ({ p.2.1 with result := some (if c = 0x0A then 4 else 3) }, p.2.2)
      | .ok (ps0, lim) =>
        let ps := if key = kEmpty k then [] else ps0
        let y := { p.2.1 with probeLimit := p.2.1.probeLimit || lim }
        let recs : List (List Byte) := match kMode k with
          | 0 => ps.map (fun v => projRecord k vals rowid (qFlag d 3) (some v))
          | 1 => if ps.isEmpty then [] else [projRecord k vals rowid (qFlag d 3) none]
          | _ => if ps.isEmpty then [projRecord k vals rowid (qFlag d 3) none] else []
        emit p.2.2 y recs.flatten recs.length
  | 5 => match rowKey k vals with
    | none => (j.miss, s)
    | some key =>
      let x := s.qAggregate env q j key vals
      if x.1.result.isSome then x else (x.1.hit, x.2)
  | _ => emit s j (projRecord k vals rowid (qFlag d 3) none) 0

/-- One row. -/
def State.qRow (s : State) (env : JobEnv) (q : Nat) (j : QJob) : QJob × State :=
  let d := j.desc
  let k := j.kernel
  let i := j.rowsDone
  let row := qStart d + i
  let selByte : Except Nat Nat × State := if qFlag d 4 then s.qBytes env q d (qSel d + i / 8) 1 else (.ok 0xFF, s)
  match selByte.1 with
  | .error c => (j.poison c, selByte.2)
  | .ok b =>
    if qFlag d 4 && !b.testBit (i % 8) then (j.miss, selByte.2)
    else
      let ridRead : Read × State := if qOp d = 3 then selByte.2.qCell env q d k 0 row else (.ok (some row), selByte.2)
      match ridRead.1 with
      | .error c => (j.poison c, ridRead.2)
      | .ok none => (j.miss, ridRead.2)
      | .ok (some rid) =>
        if qOp d = 3 && kLimit k ≤ rid then ({ j with aux := j.aux + 1 }.miss, ridRead.2)
        else
          let c1 := ridRead.2.qCells env q d k (termCols k) row rid
          match c1.1 with
          | .error c => (j.poison c, c1.2)
          | .ok vs =>
            if stops k (valOf vs) then ({ j with result := some 0, stopped := true }, c1.2)
            else if !passes k (valOf vs) then (j.miss, c1.2)
            else
              let c2 := c1.2.qCells env q d k ((outCols d k).filter (fun c => !(c ∈ termCols k))) row rid
              match c2.1 with
              | .error c => (j.poison c, c2.2)
              | .ok us => c2.2.qPass env q j (if qOp d = 3 then rid else row) (valOf (vs ++ us))

/-- Rows until the job ends or `n` rows have been taken. -/
def State.qLoop (env : JobEnv) (q : Nat) : Nat → State → QJob → QJob × State
  | 0, s, j => (j, s)
  | n + 1, s, j =>
    if j.result.isSome then (j, s)
    else if qRows j.desc ≤ j.rowsDone then ({ j with result := some 0 }, s)
    else
      let x := s.qRow env q j
      State.qLoop env q n x.2 x.1

/-- Lines of a job's table that its engine holds dirty. -/
def State.qDirty (s : State) (q : Nat) (k : List Byte) : List ICLine :=
  s.home.icache.filter (fun c => c.owner = q && c.dirty && kTable k ≤ c.page * 4096 + 64 * c.line &&
    c.page * 4096 + 64 * c.line < kTable k + 64 * 2 ^ kLog k)
/-- The bits a FILTER has produced, as bytes. -/
def selBytes (l : List Bool) : List Byte := packBits ((l.length + 7) / 8) l
/-- What ends a run of rows: the bitmap of a FILTER is written, and a job that has ended writes back near lines or notes them (R371, R379,
R390). -/
def State.qFinish (s : State) (env : JobEnv) (q : Nat) (j : QJob) : QJob × State :=
  let x : QJob × State :=
    if qOp j.desc = 1 && !j.sel.isEmpty && j.result ≠ some 4 then
      let w := s.qWrite env q (qFlag j.desc 6) (qOut j.desc) (selBytes j.sel)
      if !w.1 then ({ j with result := some 4, outBytes := 0 }, w.2)
      else ({ j with outBytes := (selBytes j.sel).length, lastHost := if qFlag j.desc 6 then some (qOut j.desc) else j.lastHost }, w.2)
    else (j, s)
  if x.1.result.isNone then x
  else
    let dirty := if qOp j.desc = 5 then x.2.qDirty q j.kernel else []
    let y : QJob × State := if qFlag j.desc 5 then (x.1, dirty.foldl (fun t c => t.qEvict c) x.2) else ({ x.1 with nearHeld := !dirty.isEmpty }, x.2)
    match y.1.lastHost with
    | some a =>
      if !y.2.hostOpen (y.2.qAttach q) || env.hostFail then ({ y.1 with result := some 4 }, y.2)
      else (y.1, y.2.emit (.hostRead (y.2.qAttach q) a))
    | none => y

/-- Add to the 64-bit count of rows retired, which saturates (R402). -/
def State.addRows (s : State) (q n : Nat) : State :=
  let v := min (2 ^ 64 - 1) (s.get .qeng q F.QENG_ROWS_LO_ROWS_LO + 2 ^ 32 * s.get .qeng q F.QENG_ROWS_HI_ROWS_HI + n)
  (s.put .qeng q F.QENG_ROWS_LO_ROWS_LO (v % 2 ^ 32)).put .qeng q F.QENG_ROWS_HI_ROWS_HI (v / 2 ^ 32)
/-- Run an engine's job on. -/
def State.qRun (s : State) (q : Nat) (env : JobEnv) (j : QJob) : State :=
  let n := match env.rows with
    | some n => n
    | none => qRows j.desc + 1
  let x := State.qLoop env q n s j
  let y := x.2.qFinish env q x.1
  let rows := y.1.rowsDone - j.rowsDone
  let width (cs : List Nat) : Nat := (cs.map (colWidth j.kernel)).sum
  let input := rows * width (termCols j.kernel) + (y.1.passed - j.passed) * width (outCols j.desc j.kernel)
  let lines := (input + 63) / 64
  let made := (y.1.outBytes - j.outBytes + 63) / 64
  ((y.2.addRows q rows).setQjob q (some y.1)).spend .query [(9, input / 1024), (1, lines + 2 * made), (3, lines + made)]

/-! ### Fetching (R385, R394, R396) -/

/-- Read the kernel through the engine cache: its header, then the two extents it names and nothing between them (R364); none when poisoned, with
the code. -/
def State.qKernel (s : State) (env : JobEnv) (q : Nat) (d : List Byte) : (Except Nat (List Byte)) × State :=
  let at_ := fieldB d 8 8
  let h := s.jobBytes env (.engine q) (s.qKey q) at_ 128
  match h.1.2 with
  | some x => (.error x.2, h.2)
  | none =>
    let ok : Bool := kCols h.1.1 ≤ 8 && kTerms h.1.1 ≤ 16
    let r := h.2.jobBytes env (.engine q) (s.qKey q) (at_ + 128) (if ok then 32 * kCols h.1.1 else 0)
    match r.1.2 with
    | some x => (.error x.2, r.2)
    | none =>
      let w := r.2.jobBytes env (.engine q) (s.qKey q) (at_ + 384) (if ok then 48 * kTerms h.1.1 else 0)
      match w.1.2 with
      | some x => (.error x.2, w.2)
      | none => (.ok (h.1.1 ++ r.1.1 ++ List.replicate (256 - r.1.1.length) 0 ++ w.1.1), w.2)
/-- Records an engine holds. -/
def State.qHeld (s : State) (q : Nat) : Nat := (s.query.held.filter (fun r => r.engine = q)).length
/-- Slab of an engine's completion queue. -/
def State.qCqSlab (s : State) (q : Nat) : Nat := s.get .qeng q F.QENG_SQ_CTL_CQ_SLAB
/-- May an engine fetch (R394, R396, R398, R400)? -/
def State.qMayFetch (s : State) (q : Nat) : Bool :=
  !s.blockClosed .qeng q && s.bit .qeng q F.QENG_CTL_ENABLE && s.bit .mod 0 F.MOD_READY_READY && (s.qjob q).isNone && s.qWaiting q ≠ 0 && s.qHeld q < 4 &&
  !s.query.throttled && !(q ∈ s.query.flushing) && s.present (s.qCqSlab q) && s.present (q / 8) && !s.boot.stopped.any (fun x => x.1 = q) &&
  !(s.get .clkc 0 F.CLKC_GATE_STATUS_GATED).testBit (8 + q / 8)
/-- A command of an operation on an engine: an entry that its home refuses ends with status 4 (R386), one that reads as poison with status 3 (R396); a job of it that runs goes on; else the entry at HEAD is fetched when it holds that operation (or
one no command has). -/
def State.qStart (s : State) (q op : Nat) (env : JobEnv) : State :=
  match s.qjob q with
  | some j => if qOp j.desc = op && j.result.isNone && !s.query.throttled then s.qRun q env j else s
  | none =>
    if !s.qMayFetch q then s
    else
      let head := s.get .qeng q F.QENG_SQ_HEAD_HEAD
      let x := s.jobBytes env (.engine q) (s.qKey q) (s.get .qeng q F.QENG_SQ_BASE_PAGE * 4096 + 128 * head) 128
      let d := x.1.1
      let bad := x.1.2.isSome
      if !bad && qOp d ≠ op && qOp d ≤ 5 then s
      else
        let t := x.2.put .qeng q F.QENG_SQ_HEAD_HEAD ((head + 1) % s.qSize q)
        let stop (u : State) (y : QJob) : State := u.setQjob q (some y)
        if x.1.2.any (fun p => p.2 = 0x0A) then stop t { desc := List.replicate 128 0, result := some 4 }
        else if bad then stop ((t.put .qeng q F.QENG_STATUS_FETCH_ERROR 1).raise .qeng q 18) { desc := List.replicate 128 0, result := some 3 }
        else match descBad d with
          | some at_ => stop t { desc := d, result := some 5, detail := at_ }
          | none =>
            if op = 0 then stop t { desc := d, result := some 0 }
            else
              let kr := t.qKernel env q d
              match kr.1 with
              | .error c => stop kr.2 { desc := d, result := some (if c = 0x0A then 4 else 3) }
              | .ok k => match kernelBad k op (s.get .tier 0 F.TIER_CAP_LOGICAL_CAP * 2 ^ 28) with
                | some at_ => stop kr.2 { desc := d, kernel := k, result := some 6, detail := at_ / 8 }
                | none => match descBad2 d k with
                  | some at_ => stop kr.2 { desc := d, kernel := k, result := some 5, detail := at_ }
                  | none => kr.2.qRun q env { desc := d, kernel := k }

/-- QE_NOOP (R369): a no-op completes with a record only. -/
def State.cmdQeNoop (s : State) (q : Nat) (env : JobEnv) : State := (s.qStart q 0 env).settle
/-- QE_FILTER (R371). -/
def State.cmdQeFilter (s : State) (q : Nat) (env : JobEnv) : State := (s.qStart q 1 env).settle
/-- QE_PROJECT (R372). -/
def State.cmdQeProject (s : State) (q : Nat) (env : JobEnv) : State := (s.qStart q 2 env).settle
/-- QE_GATHER (R373). -/
def State.cmdQeGather (s : State) (q : Nat) (env : JobEnv) : State := (s.qStart q 3 env).settle
/-- QE_HASH_PROBE (R383). -/
def State.cmdQeHashProbe (s : State) (q : Nat) (env : JobEnv) : State := (s.qStart q 4 env).settle
/-- QE_AGGREGATE (R377). -/
def State.cmdQeAggregate (s : State) (q : Nat) (env : JobEnv) : State := (s.qStart q 5 env).settle

/-! ### Completion (R391 to R395, R399, R400) -/

/-- Bytes of a job's record; PHASE and STAMP are set when it is written. -/
def QJob.record (j : QJob) (q st : Nat) : List Byte :=
  leBytes 2 (fieldB j.desc 6 2) ++ leBytes 1 st ++
  leBytes 1 (2 * b2n j.nan + 4 * b2n j.fltOvf + 8 * b2n j.intOvf + 16 * b2n j.stopped + 32 * b2n j.skipped + 64 * b2n j.nearHeld +
    128 * b2n j.probeLimit) ++
  leBytes 1 q ++ leBytes 1 j.detail ++ leBytes 2 0 ++ leBytes 8 j.rowsDone ++ leBytes 8 j.passed ++ leBytes 4 j.outBytes ++ leBytes 4 j.ovfBytes ++
  leBytes 8 j.aux ++ leBytes 8 (fieldB j.desc 64 8) ++ leBytes 8 0 ++ leBytes 8 j.poisoned
/-- QE_JOB_DONE (R391): the ended job's record waits for its slot. -/
def State.cmdQeJobDone (s : State) (q : Nat) : State :=
  match s.qjob q with
    | none => s
    | some j => match j.result with
      | none => s
      | some st =>
        let r : QRec := { engine := q, bytes := j.record q st, intr := qFlag j.desc 1, secure := s.world .qeng q = 1 }
        let t := ({ s with query := { s.query with held := s.query.held ++ [r] } }.setQjob q none).bump .qeng q F.QENG_JOBS_COUNT
        if t.qHeld q = 4 then (t.put .qeng q F.QENG_STATUS_FULL_STALL 1).raise .qeng q 17 else t

/-- Has a completion queue room? -/
def State.cqRoom (s : State) (g c : Nat) : Bool :=
  let size := 2 ^ s.get .qgth g F.QGTH_CQ_CTL_LOG2_SIZE c
  s.bit .qgth g F.QGTH_CQ_CTL_VALID c && (s.get .qgth g F.QGTH_CQ_TAIL_TAIL c + 1) % size ≠ s.get .qgth g F.QGTH_CQ_HEAD_HEAD c
/-- Write a slot's record to its completion queue (R393, R395). -/
def State.writeQRec (s : State) (g : Nat) (r : QRec) : State :=
  let size := 2 ^ s.get .qgth g F.QGTH_CQ_CTL_LOG2_SIZE r.cq
  let tail := s.get .qgth g F.QGTH_CQ_TAIL_TAIL r.cq
  let ph := 1 - sget 0 s.query.phase (4 * g + r.cq)
  let bytes := r.bytes.take 3 ++ leBytes 1 (fieldB r.bytes 3 1 / 2 * 2 + ph) ++ sliceB r.bytes 4 44 ++ leBytes 6 r.stamp.toNat ++ sliceB r.bytes 54 10
  let s1 := (s.jobStore {} (.engine r.engine) (s.get .qgth g F.QGTH_CQ_CTL_KEY_CTX r.cq)
    (s.get .qgth g F.QGTH_CQ_BASE_PAGE r.cq * 4096 + 64 * tail) bytes).2
  let next := (tail + 1) % size
  let s2 := (s1.put .qgth g F.QGTH_CQ_TAIL_TAIL next r.cq).bump .qgth g F.QGTH_RECORDS_COUNT
  let s3 := if next = 0 then { s2 with query := { s2.query with phase := sset 0 s2.query.phase (4 * g + r.cq) ph } } else s2
  if r.intr then (s3.raise .qgth g (16 + r.cq)).msix (s.get .qgth g F.QGTH_CQ_CTL_ATTACH r.cq) (20 + 4 * g + r.cq) else s3
/-- Insertion of a slot record by STAMP, then engine. -/
def insRec (r : QRec) : List QRec → List QRec
  | [] => [r]
  | x :: l => if (strokeLe r.stamp x.stamp && r.stamp ≠ x.stamp) || (r.stamp = x.stamp && r.engine < x.engine) then r :: x :: l else x :: insRec r l
/-- Records in the slots of a gatherer, in order. -/
def State.slotRecs (s : State) (g : Nat) : List QRec :=
  ((List.range 16).filterMap (fun q => sget none s.query.slots (16 * g + q))).foldl (fun l r => insRec r l) []
/-- A gatherer writes what its queues have room for, in order (R392 to R394). -/
def State.gather (s : State) (g : Nat) : State :=
  let x := (s.slotRecs g).foldl (fun (acc : State × List Nat × Nat) r =>
    let stuck := r.cq ∈ acc.2.1
    if !stuck && acc.1.cqRoom g r.cq then
      let t := acc.1.writeQRec g r
      ({ t with query := { t.query with slots := sset none t.query.slots (16 * g + r.engine) none } }, acc.2.1, acc.2.2 + 1)
    else
      let t := if acc.1.bit .qgth g F.QGTH_CQ_STATUS_FULL r.cq then acc.1
        else (acc.1.put .qgth g F.QGTH_CQ_STATUS_FULL 1 r.cq).raise .qgth g (20 + r.cq)
      (t, addOnce acc.2.1 r.cq, acc.2.2)) (s, [], 0)
  let t := x.1.forN 4 (fun u c => if c ∈ x.2.1 then u else u.put .qgth g F.QGTH_CQ_STATUS_FULL 0 c)
  t.put .qgth g F.QGTH_PEAK_PEAK (max (t.get .qgth g F.QGTH_PEAK_PEAK) x.2.2)
/-- Does an engine's record find a completion queue of its world on a present Slab (R399, R400)? -/
def State.fillSlot (s : State) (q : Nat) : State :=
  match s.query.held.find? (fun r => r.engine = q) with
  | none => (s.put .qeng q F.QENG_STATUS_CQ_ABSENT 0).put .qeng q F.QENG_STATUS_CQ_WORLD 0
  | some r =>
    let g := s.qCqSlab q
    let c := s.get .qeng q F.QENG_SQ_CTL_CQ
    let gone := !s.present g
    let wrong := !gone && s.bit .qgth g F.QGTH_CQ_CTL_SECURE c ≠ r.secure
    let s0 := if gone && !s.bit .qeng q F.QENG_STATUS_CQ_ABSENT then s.raise .qeng q 20 else s
    let s1 := (s0.put .qeng q F.QENG_STATUS_CQ_ABSENT (b2n gone)).put .qeng q F.QENG_STATUS_CQ_WORLD (b2n wrong)
    if gone || wrong || s1.blockClosed .qgth g || (sget none s.query.slots (16 * g + q)).isSome then s1
    else
      let t := { s1 with query := { s1.query with
        held := s1.query.held.erase r, slots := sset none s1.query.slots (16 * g + q) (some { r with cq := c, stamp := s1.now - 1 }) } }
      if t.qHeld q < 4 then t.put .qeng q F.QENG_STATUS_FULL_STALL 0 else t
/-- Stroke edge: every engine presents its oldest record, then the gatherers write (R392). -/
def State.gatherEdge (s : State) : State :=
  let t := s.forN 16 (fun u q => u.fillSlot q)
  if t.query.slots.isEmpty then t else t.forN 2 (fun u g => if u.present g && !u.blockClosed .qgth g then u.gather g else u)
/-- QGTH_CQ_HEAD (R394): host software takes records, and the slots that waited are written. -/
def State.cmdQgthCqHead (s : State) (agent slab c head : Nat) : State :=
  s.fieldWrite agent .qgth slab F.QGTH_CQ_HEAD_HEAD (fun s =>
    ((s.put .qgth slab F.QGTH_CQ_HEAD_HEAD head c).gather slab).settle) c

/-! ### Control (R397, R398, R402) -/

/-- Start a cache flush; it has no effect while a job runs. -/
def State.qFlush (s : State) (q : Nat) : State :=
  if (s.qjob q).isSome then s else { s with query := { s.query with flushing := addOnce s.query.flushing q } }
/-- End an engine's job as an abort ends it. -/
def State.qAbort (s : State) (q : Nat) : State :=
  let s1 := (s.put .qeng q F.QENG_CTL_ENABLE 0).raise .qeng q 16
  match s1.qjob q with
  | some j => if j.result.isSome then s1 else
      let y := s1.qFinish {} q { j with result := some 7 }
      y.2.setQjob q (some y.1)
  | none => s1
/-- A write of QENG_CTL: ENABLE in bit 0, ABORT in bit 1, CACHE_FLUSH in bit 2 (R397, R402, R537). -/
def State.qCtl (s : State) (q value : Nat) : State :=
  let on := s.bit .qeng q F.QENG_CTL_ENABLE
  let s1 := if value.testBit 1 then s.qAbort q
    else if !value.testBit 0 then (if (s.qjob q).isSome then s.qAbort q else s.put .qeng q F.QENG_CTL_ENABLE 0)
    else if !on && !s.bit .qeng q F.HDR_STATUS_OPEN && !((16 + q) ∈ s.codec.barred) then s.put .qeng q F.QENG_CTL_ENABLE 1 else s
  if value.testBit 2 then s1.qFlush q else s1
/-- QENG_ABORT (R397): a write of QENG_CTL. -/
def State.cmdQengAbort (s : State) (agent q value : Nat) : State := s.fieldWrite agent .qeng q F.QENG_CTL_ENABLE (fun s => (s.qCtl q value).settle)
/-- QENG_CACHE_FLUSH (R402): CACHE_FLUSH written, the other bits as they stand. -/
def State.cmdQengCacheFlush (s : State) (agent q : Nat) : State := s.fieldWrite agent .qeng q F.QENG_CTL_ENABLE (fun s => s.qFlush q)
/-- Write back and invalidate an engine's cache. -/
def State.flushEngine (s : State) (q : Nat) : State := (s.home.icache.filter (fun c => c.owner = q)).foldl (fun t c => t.qEvict c) s
/-- QENG_FLUSH_DONE (R402): every line has been written back; FLUSH_DONE is raised. -/
def State.cmdQengFlushDone (s : State) (q : Nat) : State :=
  if q ∈ s.query.flushing then
      let t := s.flushEngine q
      ({ t with query := { t.query with flushing := t.query.flushing.filter (· ≠ q) } }.raise .qeng q 19).settle
    else s
/-- Is an engine idle (R397)? -/
def State.qengIdle (s : State) (q : Nat) : Bool :=
  (s.qjob q).isNone && s.qHeld q = 0 && !(q ∈ s.query.flushing) &&
  (sget none s.query.slots q).isNone && (sget none s.query.slots (16 + q)).isNone

end Sys2Proof.Machine
end

