-- ==== Sys2Proof/Machine/Sha.lean ====
section
/-! DEFINITION. SHA-384 and ECDSA P-384 (R512, R514, R521, R593), as FIPS 180-4 and FIPS 186-4 define them (PRESUMED: the spec names them and
does not restate them). -/

namespace Sys2Proof.Machine

/-! ### SHA-384 -/

/-- Round constants, first half. -/
def shaKLow : List (BitVec 64) := [
  0x428A2F98D728AE22, 0x7137449123EF65CD, 0xB5C0FBCFEC4D3B2F, 0xE9B5DBA58189DBBC, 0x3956C25BF348B538, 0x59F111F1B605D019,
  0x923F82A4AF194F9B, 0xAB1C5ED5DA6D8118, 0xD807AA98A3030242, 0x12835B0145706FBE, 0x243185BE4EE4B28C, 0x550C7DC3D5FFB4E2,
  0x72BE5D74F27B896F, 0x80DEB1FE3B1696B1, 0x9BDC06A725C71235, 0xC19BF174CF692694, 0xE49B69C19EF14AD2, 0xEFBE4786384F25E3,
  0x0FC19DC68B8CD5B5, 0x240CA1CC77AC9C65, 0x2DE92C6F592B0275, 0x4A7484AA6EA6E483, 0x5CB0A9DCBD41FBD4, 0x76F988DA831153B5,
  0x983E5152EE66DFAB, 0xA831C66D2DB43210, 0xB00327C898FB213F, 0xBF597FC7BEEF0EE4, 0xC6E00BF33DA88FC2, 0xD5A79147930AA725,
  0x06CA6351E003826F, 0x142929670A0E6E70, 0x27B70A8546D22FFC, 0x2E1B21385C26C926, 0x4D2C6DFC5AC42AED, 0x53380D139D95B3DF,
  0x650A73548BAF63DE, 0x766A0ABB3C77B2A8, 0x81C2C92E47EDAEE6, 0x92722C851482353B]
/-- Round constants, second half. -/
def shaKHigh : List (BitVec 64) := [
  0xA2BFE8A14CF10364, 0xA81A664BBC423001, 0xC24B8B70D0F89791, 0xC76C51A30654BE30, 0xD192E819D6EF5218, 0xD69906245565A910,
  0xF40E35855771202A, 0x106AA07032BBD1B8, 0x19A4C116B8D2D0C8, 0x1E376C085141AB53, 0x2748774CDF8EEB99, 0x34B0BCB5E19B48A8,
  0x391C0CB3C5C95A63, 0x4ED8AA4AE3418ACB, 0x5B9CCA4F7763E373, 0x682E6FF3D6B2B8A3, 0x748F82EE5DEFB2FC, 0x78A5636F43172F60,
  0x84C87814A1F0AB72, 0x8CC702081A6439EC, 0x90BEFFFA23631E28, 0xA4506CEBDE82BDE9, 0xBEF9A3F7B2C67915, 0xC67178F2E372532B,
  0xCA273ECEEA26619C, 0xD186B8C721C0C207, 0xEADA7DD6CDE0EB1E, 0xF57D4F7FEE6ED178, 0x06F067AA72176FBA, 0x0A637DC5A2C898A6,
  0x113F9804BEF90DAE, 0x1B710B35131C471B, 0x28DB77F523047D84, 0x32CAAB7B40C72493, 0x3C9EBE0A15C9BEBC, 0x431D67C49C100D4C,
  0x4CC5D4BECB3E42B6, 0x597F299CFC657E2A, 0x5FCB6FAB3AD6FAEC, 0x6C44198C4A475817]
/-- The eight working words. -/
structure ShaSt where
  a : BitVec 64
  b : BitVec 64
  c : BitVec 64
  d : BitVec 64
  e : BitVec 64
  f : BitVec 64
  g : BitVec 64
  h : BitVec 64
/-- Initial hash value of SHA-384. -/
def shaInit : ShaSt :=
  ⟨0xCBBB9D5DC1059ED8, 0x629A292A367CD507, 0x9159015A3070DD17, 0x152FECD8F70E5939,
   0x67332667FFC00B31, 0x8EB44A8768581511, 0xDB0C2E0D64F98FA7, 0x47B5481DBEFA4FA4⟩
/-- Rotate right. -/
def rotR (x : BitVec 64) (n : Nat) : BitVec 64 := (x >>> n) ||| (x <<< (64 - n))
/-- One round with its constant and its schedule word. -/
def shaRound (v : ShaSt) (x : BitVec 64 × BitVec 64) : ShaSt :=
  let t1 := v.h + (rotR v.e 14 ^^^ rotR v.e 18 ^^^ rotR v.e 41) + ((v.e &&& v.f) ^^^ (~~~v.e &&& v.g)) + x.1 + x.2
  let t2 := (rotR v.a 28 ^^^ rotR v.a 34 ^^^ rotR v.a 39) + ((v.a &&& v.b) ^^^ (v.a &&& v.c) ^^^ (v.b &&& v.c))
  ⟨t1 + t2, v.a, v.b, v.c, v.d + t1, v.e, v.f, v.g⟩
/-- The message schedule, latest word first: 64 words follow the sixteen of the block. -/
def shaSchedule (w : List (BitVec 64)) : List (BitVec 64) :=
  (List.range 64).foldl (fun l _ =>
    let x := l.getD 1 0
    let y := l.getD 14 0
    ((rotR x 19 ^^^ rotR x 61 ^^^ (x >>> 6)) + l.getD 6 0 + (rotR y 1 ^^^ rotR y 8 ^^^ (y >>> 7)) + l.getD 15 0) :: l) w.reverse
/-- Big-endian number of a byte string. -/
def beNat (l : List Byte) : Nat := l.foldl (fun n b => 256 * n + b.toNat) 0
/-- Take one 128-byte block into the hash value. -/
def shaBlock (v : ShaSt) (blk : List Byte) : ShaSt :=
  let w := (List.range 16).map (fun i => BitVec.ofNat 64 (beNat (sliceB blk (8 * i) 8)))
  let r := ((shaKLow ++ shaKHigh).zip (shaSchedule w).reverse).foldl shaRound v
  ⟨v.a + r.a, v.b + r.b, v.c + r.c, v.d + r.d, v.e + r.e, v.f + r.f, v.g + r.g, v.h + r.h⟩
/-- The message with its padding: a one bit, zeros, and its length in bits, to whole blocks. -/
def shaPad (m : List Byte) : List Byte :=
  m ++ (0x80#8 :: List.replicate ((239 - m.length % 128) % 128) 0) ++ (leBytes 16 (8 * m.length)).reverse
/-- SHA-384 of a byte string as a number. -/
def shaNat (m : List Byte) : Nat :=
  let b := shaPad m
  let v := (List.range (b.length / 128)).foldl (fun v i => shaBlock v (sliceB b (128 * i) 128)) shaInit
  [v.a, v.b, v.c, v.d, v.e, v.f].foldl (fun n x => 2 ^ 64 * n + x.toNat) 0
/-- SHA-384 of a byte string, its first byte least significant. -/
def sha384 (m : List Byte) : BitVec 384 := BitVec.ofNat 384 (leNat (leBytes 48 (shaNat m)).reverse)

/-! ### ECDSA P-384 -/

/-- The field prime. -/
def p384 : Nat := 2 ^ 384 - 2 ^ 128 - 2 ^ 96 + 2 ^ 32 - 1
/-- The order of the base point. -/
def n384 : Nat := 0xFFFFFFFFFFFFFFFFFFFFFFFFFFFFFFFFFFFFFFFFFFFFFFFFC7634D81F4372DDF581A0DB248B0A77AECEC196ACCC52973
/-- A point in Jacobian coordinates; z = 0 is the neutral one. -/
structure EcPt where
  x : Nat
  y : Nat
  z : Nat
/-- The base point. -/
def base384 : EcPt := ⟨0xAA87CA22BE8B05378EB1C71EF320AD746E1D3B628BA79B9859F741E082542A385502F25DBF55296C3A545E3872760AB7,
  0x3617DE4A96262C6F5D9E98BF9292DC29F8F41DBD289A147CE9DA3113B5F0B8C00A60B1CE1D7E819D7A431D7C90EA0E5F, 1⟩
/-- Difference in the field. -/
def subF (a b : Nat) : Nat := (a + (p384 - b % p384)) % p384
/-- Twice a point. -/
def EcPt.double (p : EcPt) : EcPt :=
  let d := p.z * p.z % p384
  let g := p.y * p.y % p384
  let b := p.x * g % p384
  let a := 3 * subF p.x d * (p.x + d) % p384
  let x := subF (a * a) (8 * b)
  ⟨x, subF (a * subF (4 * b) x) (8 * g * g), 2 * p.y * p.z % p384⟩
/-- Sum of two points. -/
def EcPt.add (p q : EcPt) : EcPt :=
  if p.z = 0 then q
  else if q.z = 0 then p
  else
    let a := p.z * p.z % p384
    let c := q.z * q.z % p384
    let u := p.x * c % p384
    let h := subF (q.x * a) u
    let s := p.y * q.z * c % p384
    let r := subF (q.y * p.z * a) s
    if h = 0 then (if r = 0 then p.double else ⟨1, 1, 0⟩)
    else
      let h2 := h * h % p384
      let h3 := h * h2 % p384
      let v := u * h2 % p384
      let x := subF (r * r) (h3 + 2 * v)
      ⟨x, subF (r * subF v x) (s * h3), p.z * q.z * h % p384⟩
/-- A multiple of a point. -/
def EcPt.times (k : Nat) (p : EcPt) : EcPt :=
  (List.range 384).foldl (fun r i => if k.testBit (383 - i) then r.double.add p else r.double) ⟨1, 1, 0⟩
/-- Power modulo `m`, for exponents of 384 bits. -/
def powMod (m b e : Nat) : Nat := (List.range 384).foldl (fun r i => if e.testBit (383 - i) then r * r % m * b % m else r * r % m) 1
/-- Does a signature, r then s, verify over a message under a public key, x then y, each most significant byte first? -/
def ecdsaVerify (key : List Byte) (m sig : List Byte) : Bool :=
  let r := beNat (sliceB sig 0 48)
  let s := beNat (sliceB sig 48 48)
  if r = 0 || n384 ≤ r || s = 0 || n384 ≤ s then false
  else
    let w := powMod n384 s (n384 - 2)
    let q := (EcPt.times (shaNat m * w % n384) base384).add (EcPt.times (r * w % n384) ⟨beNat (sliceB key 0 48), beNat (sliceB key 48 48), 1⟩)
    let zi := powMod p384 q.z (p384 - 2)
    decide (q.z ≠ 0) && q.x * (zi * zi % p384) % p384 % n384 = r
/-- Does a signature over a message verify under one of the module's public keys? -/
def verifySig (key : Nat) (m sig : List Byte) : Bool := ecdsaVerify (leBytes 96 (Config.publicKey key).toNat) m sig

end Sys2Proof.Machine
end

