-- ==== Sys2Proof/Machine/Secure.lean ====
section
/-! DEFINITION. The secure processor (R506 to R534): the mailbox, measurements, keys it holds, debug access, hand-overs of blocks between
worlds, power and clock requests on secure-owned blocks, the watchdog. -/

namespace Sys2Proof.Machine

/-! ### The mailbox and its notices (R517 to R520) -/

/-- Do the processors run: released, and neither resting nor in the first steps of waking (R495, R503)? -/
def State.procUp (s : State) : Bool :=
  s.boot.released && (s.get .rest 0 F.REST_STATUS_STATE < 4 ||
    (s.get .rest 0 F.REST_STATUS_STATE = 5 && 44 ≤ strokesSince s.rest.wakeStroke s.now))
/-- A 64-byte message (R518). -/
def mbxMsg (op flags seq status : Nat) (payload : List Byte) : Msg64 :=
  BitVec.ofNat 512 (leNat (leBytes 1 op ++ leBytes 1 flags ++ leBytes 2 seq ++ leBytes 2 status ++ leBytes 2 payload.length ++ payload))
/-- A message goes into the next slot of a ring of `n`, and its receiver reads it as it comes. -/
def MRing.push (r : MRing) (n : Nat) (m : Msg64) : MRing :=
  { slots := sset 0 r.slots r.tail m, tail := (r.tail + 1) % n, head := (r.tail + 1) % n }
/-- A request of the management processor. -/
def State.mbxAsk (s : State) (op seq : Nat) (payload : List Byte) : State :=
  { s with secure := { s.secure with toSec := s.secure.toSec.push 16 (mbxMsg op 0 seq 0 payload) } }
/-- The response to it. -/
def State.mbxReply (s : State) (op seq status : Nat) (payload : List Byte := []) : State :=
  { s with secure := { s.secure with toMgmt := s.secure.toMgmt.push 16 (mbxMsg op 1 seq status payload) } }
/-- A reply that succeeds for result 0; the spec states no STATUS for other results of the hardware, which then is a free value. -/
def State.mbxResult (s : State) (op seq err : Nat) (payload : List Byte := []) : State :=
  if err = 0 then s.mbxReply op seq 0 payload else
    let d := s.draw 16
    d.2.mbxReply op seq d.1.toNat payload
/-- A hardware notice. -/
def State.notice (s : State) (op : Nat) (payload : List Byte) : State :=
  { s with secure := { s.secure with notices := s.secure.notices.push 32 (mbxMsg op 2 0 0 payload) } }
/-- A message of the management processor that the secure processor serves while both run. -/
def State.mailbox (s : State) (op seq : Nat) (payload : List Byte) (f : State → State) : State :=
  if s.procUp then f (s.mbxAsk op seq payload) else s

/-! ### Measurements (R512 to R514, R533) -/

/-- Set a field of both Slabs' SECP pages, which show the same values. -/
def State.putSecp (s : State) (f : Fld) (v : Nat) (i : Nat := 0) : State := (s.put .secp 0 f v i).put .secp 1 f v i
/-- A measurement slot. -/
def State.measSlot (s : State) (n : Nat) : BitVec 384 := sget 0 s.secure.slots n
/-- Extend a slot: SHA-384 of the slot with the digest (R512). -/
def State.extend (s : State) (n : Nat) (digest : BitVec 384) : State :=
  let v := sha384 (leBytes 48 (s.measSlot n).toNat ++ leBytes 48 digest.toNat)
  { s with secure := { s.secure with slots := sset 0 s.secure.slots n v, counts := sset 0 s.secure.counts n (min 0xFFFF (sget 0 s.secure.counts n + 1)) } }
/-- A security event (R514). -/
def State.secEvent (s : State) (code : Nat) : State :=
  s.extend 4 (sha384 (leBytes 1 code ++ leBytes 6 s.now.toNat ++ leBytes 1 s.secpAgent ++ List.replicate 8 0))
/-- GET_MEAS (R519). -/
def State.cmdGetMeas (s : State) (seq slot : Nat) : State :=
  s.mailbox 1 seq (leBytes 1 slot) (fun s =>
    if slot < 8 then s.mbxReply 1 seq 0 (leBytes 48 (s.measSlot slot).toNat) else s.mbxReply 1 seq 2)
/-- MEAS_EXTEND (R519): slots 5 to 7. -/
def State.cmdMeasExtend (s : State) (seq slot : Nat) (digest : BitVec 384) : State :=
  s.mailbox 2 seq (leBytes 1 slot ++ leBytes 48 digest.toNat) (fun s =>
    if 5 ≤ slot && slot < 8 then (s.extend slot digest).mbxReply 2 seq 0 else s.mbxReply 2 seq 2)
/-- EXTEND of SECP_MEAS_SEL (R533): the selected slot is extended with SECP_MEAS_IN, which is cleared. -/
def State.measSel (s : State) (slab slot : Nat) (extend : Bool) : State :=
  let s1 := s.putSecp F.SECP_MEAS_SEL_SLOT slot
  if extend then
    let d := leNat ((List.range 12).flatMap (fun w => leBytes 4 (s.get .secp slab F.SECP_MEAS_IN_DIGEST w)))
    (s1.extend (slot % 8) (BitVec.ofNat 384 d)).forN 12 (fun t w => t.putSecp F.SECP_MEAS_IN_DIGEST 0 w)
  else s1
/-- SECP_MEAS_EXTEND (R533). -/
def State.cmdSecpMeasExtend (s : State) (agent slab slot : Nat) : State := s.fieldWrite agent .secp slab F.SECP_MEAS_SEL_EXTEND (fun s => s.measSel slab slot true)
/-- SPDM_GET_MEASUREMENTS (R514): index n + 1 reports slot n, index 0xFF every slot; the response is signed with the device identity key over
the values and the requester's nonce. -/
def State.cmdSpdmGetMeasurements (s : State) (index nonce : Nat) : State :=
  if !s.procUp then s
  else
    let vs := if index = 0xFF then (List.range 8).map s.measSlot else if 1 ≤ index && index ≤ 8 then [s.measSlot (index - 1)] else []
    s.emit (.spdm index vs (Config.sign (leBytes 1 index ++ vs.flatMap (fun v => leBytes 48 v.toNat) ++ leBytes 32 nonce)))

/-! ### Keys (R515, R516, R519) -/

/-- KEK_INSTALL (R515, R516): the key takes effect as the response is sent. -/
def State.cmdKekInstall (s : State) (id : Nat) (key : BitVec 256) : State :=
  if !s.procUp || 15 < id then s
  else { s with secure := { s.secure with keks := sput s.secure.keks id (some key) } }.secEvent 3
/-- FABRIC_KEY_INSTALL (R516): the key takes effect at the next Sitting boundary. -/
def State.cmdFabricKeyInstall (s : State) (key : BitVec 256) : State :=
  if !s.procUp then s else { s with secure := { s.secure with fabricNext := some key } }.secEvent 4
/-- At a Sitting boundary an installed fabric command key takes effect (R516). -/
def State.fabricKeySitting (s : State) : State := match s.secure.fabricNext with
  | some k => { s with secure := { s.secure with fabricKey := some k, fabricNext := none } }
  | none => s
/-- KEY_CREATE (R519): the secure processor selects the context, sets its attributes and generates keys in the store of its Slab. -/
def State.cmdKeyCreate (s : State) (seq ctx attrs mask : Nat) (policy : Bool) : State :=
  s.mailbox 5 seq (leBytes 2 ctx ++ leBytes 1 attrs ++ leBytes 2 mask) (fun s =>
    let d := s.primary
    if !policy then s.mbxReply 5 seq 1
    else if s.bit .keys d F.KEYS_STATUS_BUSY then s.mbxReply 5 seq 3
    else
      let t := ((((s.put .keys d F.KEYS_SEL_CTX ctx).put .keys d F.KEYS_ATTR_RELEASE (attrs % 2)).put .keys d F.KEYS_ATTR_PROTECTED (attrs / 2 % 2)).put .keys d
        F.KEYS_ATTR_ATTACH_MASK mask).keysGenerate d
      let err := t.get .keys d F.KEYS_STATUS_ERR
      t.mbxResult 5 seq err (leBytes 1 err))
/-- KEY_ERASE (R519): the secure processor selects the context and starts its erase. -/
def State.cmdKeyErase (s : State) (seq ctx : Nat) (policy : Bool) : State :=
  s.mailbox 6 seq (leBytes 2 ctx) (fun s =>
    let d := s.primary
    if !policy then s.mbxReply 6 seq 1
    else if s.bit .keys d F.KEYS_STATUS_BUSY then s.mbxReply 6 seq 3
    else
      let t := (s.put .keys d F.KEYS_SEL_CTX ctx).keysErase d
      t.mbxResult 6 seq (if t.bit .keys d F.KEYS_STATUS_BUSY then 0 else t.get .keys d F.KEYS_STATUS_ERR))

/-! ### Debug access (R521) -/

/-- DEBUG_NONCE (R519): a fresh nonce; a half that was held no longer counts. -/
def State.cmdDebugNonce (s : State) (seq : Nat) : State :=
  s.mailbox 7 seq [] (fun s =>
    let d := s.draw 64
    ({ d.2 with secure := { d.2.secure with nonce := some d.1, part0 := none } }).mbxReply 7 seq 0 (leBytes 8 d.1.toNat))
/-- DEBUG_OPEN (R519, R521): part 0 is held; part 1 completes the signature over the serial and the nonce, which is accepted once. -/
def State.cmdDebugOpen (s : State) (seq part : Nat) (half : BitVec 384) : State :=
  s.mailbox 8 seq (leBytes 1 part ++ leBytes 48 half.toNat) (fun s =>
    let clear : State := { s with secure := { s.secure with part0 := none } }
    if part = 0 then { s with secure := { s.secure with part0 := some half } }.mbxReply 8 seq 0
    else if part = 1 then match s.secure.nonce, s.secure.part0 with
      | some n, some h =>
        if verifySig 1 (leBytes 8 Config.serial.toNat ++ leBytes 8 n.toNat) (leBytes 48 h.toNat ++ leBytes 48 half.toNat) then
          (({ clear with secure := { clear.secure with nonce := none, debugAuth := true } }).secEvent 1).mbxReply 8 seq 0
        else clear.mbxReply 8 seq 1
      | _, _ => clear.mbxReply 8 seq 2
    else s.mbxReply 8 seq 2)
/-- SECP_DEBUG_OPEN (R521): the secure processor writes OPEN only once an authorisation has verified; debug access opens at the next edge. -/
def State.cmdSecpDebugOpen (s : State) (agent slab : Nat) : State :=
  s.fieldWrite agent .secp slab F.SECP_DEBUG_OPEN (fun s =>
    if s.secure.debugAuth then { s.put .secp slab F.SECP_DEBUG_OPEN 1 with crypto := { s.crypto with debugNext := true } } else s)

/-! ### Hand-overs (R522 to R525) -/

/-- Block and instance of a block index: n for Qn, 16 and 17 for the OFLD blocks. -/
def ownBlock (b : Nat) : Block × Nat := if b < 16 then (.qeng, b) else (.ofld, b - 16)
/-- Slab of a block index. -/
def ownSlab (b : Nat) : Nat := if b < 16 then b / 8 else b - 16
/-- World of a block. -/
def State.ownWorld (s : State) (b : Nat) : Nat := s.world (ownBlock b).1 (ownBlock b).2
/-- Set the world of a block; OWN_BLOCK shows the copy. -/
def State.setOwn (s : State) (b w : Nat) : State := s.put (ownBlock b).1 (ownBlock b).2 F.HDR_OWNER_WORLD w
/-- Is a block idle (R186, R397)? -/
def State.ownIdle (s : State) (b : Nat) : Bool := if b < 16 then s.qengIdle b else s.ofldIdle (b - 16)
/-- Stop every queue of a block as an abort stops it; ENABLE is cleared. -/
def State.stopBlock (s : State) (b : Nat) : State :=
  if b < 16 then s.qAbort b else s.forN 8 (fun t q => t.oAbort (b - 16) q)
/-- Replace the hand-over in progress. -/
def State.setHand (s : State) (h : Option Handover) : State := { s with secure := { s.secure with handover := h } }
/-- A hand-over fails with a cause. -/
def State.handFail (s : State) (cause : Nat) : State :=
  (((s.put .own 0 F.OWN_CMD_STATUS_BUSY 0).put .own 0 F.OWN_CMD_STATUS_FAILED 1).put .own 0 F.OWN_CMD_STATUS_CAUSE cause).raise .own 0 17
/-- Answer the mailbox message that asked for a hand-over: its SEQ and opcode. -/
def State.handAnswer (s : State) (h : Handover) (err : Nat) : State := match h.answer with
  | some (seq, op) => s.mbxResult op seq err
  | none => s
/-- OWN_CMD with GO (R522, R523): no effect while a hand-over runs; otherwise it starts at the next stroke edge, or fails at once. -/
def State.ownGo (s : State) (b : Nat) (toSecure : Bool) (ans : Option (Nat × Nat)) : State :=
  let h : Handover := { block := b, toSecure := toSecure, answer := ans }
  if s.bit .own 0 F.OWN_CMD_STATUS_BUSY then s
  else if 17 < b then (s.handFail 5).handAnswer h 5
  else if !s.present (ownSlab b) then (s.handFail 2).handAnswer h 2
  else if s.ownWorld b = b2n toSecure then (s.handFail 4).handAnswer h 4
  else (s.put .own 0 F.OWN_CMD_STATUS_BUSY 1).setHand (some h)
/-- OWN_HANDOVER (R523). -/
def State.cmdOwnHandover (s : State) (agent block : Nat) (toSecure : Bool) : State := s.fieldWrite agent .own 0 F.OWN_CMD_GO (fun s => s.ownGo block toSecure none)
/-- MBX_ASSIGN (R519, R522): the secure processor asks for the hand-over, or refuses; the response follows its end. -/
def State.cmdMbxAssign (s : State) (seq block : Nat) (policy : Bool) : State :=
  s.mailbox 3 seq (leBytes 1 block) (fun s =>
    if !policy then s.mbxReply 3 seq 1
    else if s.bit .own 0 F.OWN_CMD_STATUS_BUSY then s.mbxReply 3 seq 3
    else s.ownGo block true (some (seq, 3)))
/-- MBX_RELEASE (R519, R522). -/
def State.cmdMbxRelease (s : State) (seq block : Nat) (policy : Bool) : State :=
  s.mailbox 4 seq (leBytes 1 block) (fun s =>
    if !policy then s.mbxReply 4 seq 1
    else if s.bit .own 0 F.OWN_CMD_STATUS_BUSY then s.mbxReply 4 seq 3
    else s.ownGo block false (some (seq, 4)))
/-- Strokes a block has to become idle. -/
def State.handMax (s : State) : Nat := max 1 (s.get .own 0 F.OWN_CFG_HANDOVER_MAX)
/-- HANDOVER_IDLE (R523): the block is idle in time; its flush starts. -/
def State.cmdHandoverIdle (s : State) : State :=
  match s.secure.handover with
    | some h =>
      if h.stage = .handing && s.ownIdle h.block && strokesSince h.edge s.now ≤ s.handMax then s.setHand (some { h with stage := .flushing }) else s
    | none => s
/-- HANDOVER_TIMEOUT (R523): the block is still busy after HANDOVER_MAX strokes; its world is restored at the next edge. -/
def State.cmdHandoverTimeout (s : State) : State :=
  match s.secure.handover with
    | some h =>
      if h.stage = .handing && !s.ownIdle h.block && s.handMax ≤ strokesSince h.edge s.now then
        s.setHand (some { h with stage := .done, failing := some (h.failing.getD 1) })
      else s
    | none => s
/-- HANDOVER_FLUSH_DONE (R523, R524): an engine's cache is written back and invalidated, a codec block's active contexts are discarded; the
block-level reset is requested. -/
def State.cmdHandoverFlushDone (s : State) : State :=
  match s.secure.handover with
    | some h =>
      if h.stage = .flushing then
        let t := if h.block < 16 then (s.flushEngine h.block).settle else s.dropCtxs (h.block - 16)
        let p := pg (ownBlock h.block).1 (ownBlock h.block).2
        ({ t with blockResets := addOnce t.blockResets p }).setHand (some { h with stage := .resetting })
      else s
    | none => s
/-- HANDOVER_RESET_DONE (R523): the block's reset is done; the world changes at the next stroke edge. -/
def State.cmdHandoverResetDone (s : State) : State :=
  match s.secure.handover with
    | some h =>
      if h.stage = .resetting && !(pg (ownBlock h.block).1 (ownBlock h.block).2 ∈ s.blockResets) then s.setHand (some { h with stage := .done }) else s
    | none => s

/-! ### Power and clock requests (R526 to R528) -/

/-- The notice of a deferred request. -/
def State.powerNotice (s : State) (p : PwrReq) : State :=
  s.notice 0xC1 (leBytes 1 p.block ++ leBytes 1 p.action ++ leBytes 1 p.agent ++ leBytes 6 p.stamp.toNat)
/-- Show which requests are deferred. -/
def State.showPending (s : State) (b : Nat) (on : Bool) : State :=
  if b = 31 then s.put .own 0 F.OWN_PWR_PENDING_REST (b2n on)
  else (s.put .own 0 F.OWN_PWR_PENDING_BLOCKS (setBit (s.get .own 0 F.OWN_PWR_PENDING_BLOCKS) b on)).put .own 0 F.OWN_BLOCK_PWR_PENDING (b2n on) b
/-- The request pending for a block, 31 for Rest. -/
def State.pwrOf (s : State) (b : Nat) : Option PwrReq := s.secure.pwr.find? (fun p => p.block = b)
/-- Defer a request, or refuse it at once when the block has one pending (R526, R528). -/
def State.defer (s : State) (b action agent : Nat) : State :=
  if (s.pwrOf b).isSome then s.bump .own 0 F.OWN_PWR_STAT_REFUSED
  else
    let p : PwrReq := { block := b, action := action, agent := agent, stamp := s.now }
    (({ s with secure := { s.secure with pwr := s.secure.pwr ++ [p] } }.showPending b true).bump .own 0 F.OWN_PWR_STAT_DEFERRED |>.powerNotice p).raise .own 0 18
/-- A request is no longer pending. -/
def State.dropPwr (s : State) (b : Nat) : State :=
  { s with secure := { s.secure with pwr := s.secure.pwr.filter (fun p => p.block ≠ b) } }.showPending b false
/-- Is the request of a clock gate waiting on a block? -/
def State.gateOn (s : State) (b : Nat) : Option GateReq := s.boot.gates.find? (fun g => b ∈ g.waits)
/-- CLKC_GATE_STATUS shows a refusal (R604). -/
def State.gateRefused (s : State) (cause : Nat) : State :=
  (s.put .clkc 0 F.CLKC_GATE_STATUS_REFUSED 1).put .clkc 0 F.CLKC_GATE_STATUS_CAUSE cause
/-- A refusal or abort of a Rest entry (R499): counted, counted for its refuser, logged. KIND 1 is a refusal, 2 an abort. -/
def State.restStops (s : State) (kind reason agent unit : Nat) : State :=
  let r := s.rest
  let rec_ : RestRec := { seq := r.nextSeq, kind := kind, reason := reason, agent := agent, unit := unit, stamp := s.now }
  let up (m : SMap Nat) : SMap Nat := sset 0 m agent (min 0xFFFF (sget 0 m agent + 1))
  let r1 : RestSt := { r with log := sput r.log (r.nextSeq % 16) (some rec_), nextSeq := (r.nextSeq + 1) % 65536, entering := false }
  let r2 := if kind = 1 then { r1 with refusedBy := up r.refusedBy } else { r1 with abortedBy := up r.abortedBy }
  (({ s with rest := r2 }.bump .rest 0 (if kind = 1 then F.REST_REFUSED_REFUSED else F.REST_REFUSED_ABORTED)).put .rest 0 F.REST_STATUS_STATE 0).raise .rest 0
    (if kind = 1 then 16 else 17)
/-- A deferred request is refused, by the secure processor or by timeout (R527). A refused gate leaves the other engines' requests without
purpose, so they are withdrawn. -/
def State.refusePwr (s : State) (b : Nat) (timeout : Bool) : State :=
  let s1 := (s.dropPwr b).bump .own 0 F.OWN_PWR_STAT_REFUSED
  let s2 := if timeout then s1.raise .own 0 19 else s1
  if b = 31 then s2.restStops 1 (if timeout then 7 else 6) s.secpAgent 0
  else match s2.gateOn b with
    | none => s2
    | some g =>
      let t := (g.waits.filter (fun x => x ≠ b)).foldl (fun t x => t.dropPwr x) s2
      ({ t with boot := { t.boot with gates := t.boot.gates.filter (· ≠ g) } }.put .clkc 0 F.CLKC_GATE_STATUS_BUSY 0).gateRefused (if timeout then 3 else 2)
/-- Sitting boundaries a deferred request may pass. -/
def State.deferMax (s : State) : Nat := max 1 (s.get .own 0 F.OWN_CFG_DEFER_SITTINGS)
/-- Sitting boundaries a request has passed, the one of the present edge included. -/
def State.pwrAge (s : State) (p : PwrReq) : Nat := p.sittings + b2n (s.tb.sittingDue && p.stamp ≠ s.now)
/-- POWER_REQ (R526): a request of a normal-world agent to stop the clock (1) or gate the power (2) of a block that the secure world owns or that
is in hand-over is deferred. -/
def State.cmdPowerReq (s : State) (agent block action : Nat) : State :=
  if 17 < block || isSecp agent || !(action ∈ [1, 2]) || s.ownWorld block = 0 || !s.present (ownSlab block) then s
  else s.defer block action agent
/-- OWN_PWR_ANSWER with GO (R527, R528): nothing pending or too late, no effect. -/
def State.powerAnswer (s : State) (b : Nat) (consent : Bool) : State := match s.pwrOf b with
  | none => s
  | some p =>
    if p.granted || s.deferMax ≤ s.pwrAge p then s
    else if consent then
      let pwr := s.secure.pwr.map (fun x => if x.block = b then { x with granted := true } else x)
      { s with secure := { s.secure with pwr := pwr } }
    else s.refusePwr b false
/-- POWER_ANSWER (R527). -/
def State.cmdPowerAnswer (s : State) (agent block : Nat) (consent : Bool) : State := s.fieldWrite agent .own 0 F.OWN_PWR_ANSWER_GO (fun s => s.powerAnswer block consent)
/-- POWER_REQ_TIMEOUT (R527): the last Sitting boundary allowed has come without an answer. -/
def State.cmdPowerReqTimeout (s : State) (block : Nat) : State :=
  match s.pwrOf block with
    | some p => if !p.granted && s.deferMax ≤ s.pwrAge p then s.refusePwr block true else s
    | none => s
/-- A Sitting boundary ages the deferred requests (R527). -/
def State.pwrSitting (s : State) : State :=
  let pwr := s.secure.pwr.map (fun p => if p.stamp ≠ s.now then { p with sittings := p.sittings + 1 } else p)
  { s with secure := { s.secure with pwr := pwr } }

/-- A gate takes effect (R604): GATED, DONE, interrupt. -/
def State.gateDone (s : State) (target : Nat) (gate : Bool) : State :=
  let t := ((s.put .clkc 0 F.CLKC_GATE_STATUS_GATED (setBit (s.get .clkc 0 F.CLKC_GATE_STATUS_GATED) target gate)).put .clkc 0 F.CLKC_GATE_STATUS_DONE 1).put .clkc 0
    F.CLKC_GATE_STATUS_BUSY 0
  t.raise .clkc 0 18
/-- A hand-over restores the clock and power of its block (R523, R604): its engines' domain is ungated. -/
def State.wakeBlock (s : State) (b : Nat) : State :=
  let s1 : State := { s with boot := { s.boot with stopped := s.boot.stopped.filter (fun x => x.1 ≠ b) } }
  if b < 16 && (s1.get .clkc 0 F.CLKC_GATE_STATUS_GATED).testBit (8 + b / 8) then
    s1.put .clkc 0 F.CLKC_GATE_STATUS_GATED (setBit (s1.get .clkc 0 F.CLKC_GATE_STATUS_GATED) (8 + b / 8) false)
  else s1
/-- What a stroke edge does to a consented request on a block (R527, R604): a plain request stops the block; a gate proceeds once every engine of
its domain has consented. -/
def State.pwrBlockEdge (s : State) (b : Nat) : State := match s.pwrOf b with
  | none => s
  | some p =>
    if !p.granted || b = 31 then s
    else
      let s1 := s.dropPwr b
      match s1.gateOn b with
      | none => { s1 with boot := { s1.boot with stopped := addOnce s1.boot.stopped (b, p.action) } }
      | some g =>
        let g1 := { g with waits := g.waits.filter (· ≠ b) }
        let rest := s1.boot.gates.filter (· ≠ g)
        if g1.waits.isEmpty then { s1 with boot := { s1.boot with gates := rest } }.gateDone g.target true
        else { s1 with boot := { s1.boot with gates := g1 :: rest } }
/-- What a stroke edge does to the hand-over (R523): it starts, or its block takes its world. -/
def State.handEdge (s : State) : State := match s.secure.handover with
  | none => s
  | some h =>
    if h.stage = .requested then
      (((s.wakeBlock h.block).setOwn h.block 2).stopBlock h.block).settle.setHand (some { h with stage := .handing, edge := s.now })
    else if h.stage = .done then
      match h.failing with
      | some c => (((s.setOwn h.block (b2n (!h.toSecure))).setHand none).handFail c).handAnswer h c
      | none =>
        let s1 := ((s.setOwn h.block (b2n h.toSecure)).bump .own 0 F.OWN_BLOCK_HANDOVERS 1 h.block).setHand none
        let s2 := ((s1.put .own 0 F.OWN_CMD_STATUS_BUSY 0).put .own 0 F.OWN_CMD_STATUS_DONE 1).raise .own 0 16
        let pwr := s2.secure.pwr.map (fun p => if p.block = h.block && !h.toSecure then { p with granted := true } else p)
        ({ s2 with secure := { s2.secure with pwr := pwr } }).handAnswer h 0
    else s

/-! ### The watchdog (R529) -/

/-- A write of SECP_WDOG_CTL: PERIOD is frozen once ENABLE is set, and ENABLE is only ever set. -/
def State.wdogCtl (s : State) (slab period : Nat) (enable : Bool) : State :=
  let s1 := if s.bit .secp slab F.SECP_WDOG_CTL_ENABLE then s else s.putSecp F.SECP_WDOG_CTL_PERIOD period
  if enable then s1.putSecp F.SECP_WDOG_CTL_ENABLE 1 else s1
/-- WDOG_ENABLE (R529). -/
def State.cmdWdogEnable (s : State) (agent slab period : Nat) : State := s.fieldWrite agent .secp slab F.SECP_WDOG_CTL_ENABLE (fun s => s.wdogCtl slab period true)
/-- WDOG_KICK (R529). -/
def State.cmdWdogKick (s : State) (agent slab : Nat) : State :=
  s.fieldWrite agent .secp slab F.SECP_WDOG_KICK_KICK (fun s => s.putSecp F.SECP_WDOG_STATUS_ELAPSED 0)
/-- A Sitting boundary outside Rest is counted; WDOG_NEAR comes one before the last, and at the last the watchdog has expired. -/
def State.wdogSitting (s : State) : State :=
  if !s.bit .secp s.primary F.SECP_WDOG_CTL_ENABLE || s.get .rest 0 F.REST_STATUS_STATE = 4 then s
  else
    let n := min 255 (s.get .secp s.primary F.SECP_WDOG_STATUS_ELAPSED + 1)
    let period := max 1 (s.get .secp s.primary F.SECP_WDOG_CTL_PERIOD)
    let s1 := s.putSecp F.SECP_WDOG_STATUS_ELAPSED n
    let s2 := if n + 1 = period then (s1.raise .secp 0 18).raise .secp 1 18 else s1
    if period ≤ n then { s2 with secure := { s2.secure with wdogDue := true } } else s2
/-- WDOG_EXPIRE (R529, R549): the L3 fault whose reset is cold with cause 0x09; a kick in the new stroke does not undo it. -/
def State.cmdWdogExpire (s : State) : State :=
  if s.secure.wdogDue then { s with secure := { s.secure with wdogDue := false } }.fault .secp s.primary 0x1B else s

/-! ### Mirroring (R508) -/

/-- MIRROR_COPY_DONE (R508, R532): the returning Slab holds the persistent regions and the measurement slots; its processors are standby. -/
def State.cmdMirrorCopyDone (s : State) : State :=
  if !s.secure.mirroring || !s.boot.absent.isEmpty then s
  else
    let mems := copyPersistent s.secure.mems s.primary (1 - s.primary)
    { s with secure := { s.secure with mirroring := false, mems := mems } }.putSecp F.SECP_STATUS_MIRROR_OK 1

end Sys2Proof.Machine
end

