-- ==== Sys2Proof/Machine/Rest.lean ====
section
/-! DEFINITION. Rest, Sketch and waking (R495 to R503), which blocks are idle (R60), and what READY's rise and fall do (R277, R416). -/

namespace Sys2Proof.Machine

/-! ### Idle blocks (R60) -/

/-- Requests at a home that have not completed. -/
def State.homeWork (s : State) (d : Nat) : Bool :=
  let mine (r : HReq) : Bool := s.homeSlab r.page = d
  let h := s.home
  h.waiting.any (fun w => mine w.req) || (h.queue ++ h.senders ++ h.regionWait ++ h.owed ++ h.treeHeld).any mine || h.reads.any (fun r => mine r.req)
/-- Requests an attach point has sent and that have not completed. -/
def State.attachWork (s : State) (a : Nat) : Bool :=
  let mine (r : HReq) : Bool := r.who = .host a
  let h := s.home
  h.waiting.any (fun w => mine w.req || Holder.host a ∈ w.awaiting) || (h.queue ++ h.senders ++ h.regionWait ++ h.owed ++ h.treeHeld ++ s.regu.held).any mine ||
  h.reads.any (fun r => mine r.req)
/-- HDR_STATUS.IDLE of an instance: no work accepted and not completed. Blocks that only hold registers are always idle. -/
def State.blockIdle (s : State) (b : Block) (n : Nat) : Bool := match b with
  | .home => !s.homeWork n
  | .hcac => !s.hub.cmds.any (fun c => c.1 = n) && !s.hub.prefetch.any (fun p => p.1 = n) && !s.hub.repart.any (fun x => x.1 = n) && !(n ∈ s.hub.sweeping) &&
      !s.hub.slots.any (fun x => x.slab = n && !x.runahead)
  | .keys => !s.bit .keys n F.KEYS_STATUS_BUSY
  | .codc => !s.codec.lanes.any (fun x => x.1 / 16 = n && x.2.isSome) && !s.codec.waiting.any (fun w => w.1 = n)
  | .ofld => s.ofldIdle n
  | .ring => !s.ring.egress.any (fun e => slabOfSide e.2.1 = n)
  | .qgth => !s.query.slots.any (fun x => x.1 / 16 = n && x.2.isSome)
  | .port => !s.attachWork (2 * n) && !s.attachWork (2 * n + 1)
  | .vein => !s.vq.any (fun a => a.vein = n) && !s.hub.accHeld.any (fun a => a.vein = n) && !s.hub.vlb.any (fun x => x.vein = n) && !s.hub.wrHeld.any (fun w => w.accs.any (fun a => a.vein = n))
  | .qeng => s.qengIdle n
  | .rstc => s.boot.requests.isEmpty && s.boot.inReset.isNone
  | .clkc => s.boot.gates.isEmpty
  | .ledg => s.energy.request.isNone
  | .regu => s.regu.held.isEmpty
  | .lode => s.ring.reqs.isEmpty && s.ring.spills.isEmpty && s.ring.fetches.isEmpty && s.ring.granted.isEmpty
  | .tier => s.tier.moves.isEmpty && s.tier.exhausted.isEmpty && s.tier.deferredPins.isEmpty && s.tier.rebalanceTo.isNone && s.tier.rowBufs.isEmpty
  | .dipt => (s.dipt n).st ≠ .resync && !(s.dipt n).reloc
  | .own => s.secure.handover.isNone && s.secure.pwr.isEmpty
  | .pmap => !s.bit .pmap n F.PMAP_CMD_STATUS_BUSY
  | .cryp => !s.crypto.losses.any (fun l => l.dipt / 4 = n) && !s.home.reads.any (fun r => r.early && s.homeSlab r.req.page = n)
  | .chan => !s.vq.any (fun a => 8 * a.vein + a.ofs = n)
  | .rest => s.get .rest 0 F.REST_STATUS_STATE = 0
  | .slab | .seam | .mgmt | .secp | .dprt | .mod | .tmb | .psup | .flt => true
/-- Instances of a block over the module. -/
def allInsts (b : Block) : Nat := if b.perSlab then 2 * b.insts else b.insts
/-- A busy block of lowest BLOCK_ID, with its lowest busy instance. The drain of an entry does not wait for REST, whose work is the entry itself. -/
def State.busyBlock (s : State) : Option (Block × Nat) :=
  let busy := (Block.all.flatMap (fun b => (List.range (allInsts b)).filterMap (fun n =>
    if b = .rest || s.blockIdle b n || (b.perSlab && !s.present (n / b.insts)) then none else some (b, n))))
  busy.foldl (fun (m : Option (Block × Nat)) x => match m with
    | some y => if Block.id x.1 < Block.id y.1 then some x else m
    | none => some x) none

/-! ### READY (R53, R277, R416) -/

/-- READY rises. -/
def State.readyRise (s : State) : State :=
  { s.put .mod 0 F.MOD_READY_READY 1 with boot := { s.boot with readyAt := s.now } }
/-- READY falls: no read is admitted until it rises again. -/
def State.readyFall (s : State) : State :=
  { s.put .mod 0 F.MOD_READY_READY 0 with regu := { s.regu with running := false } }

/-! ### Entry (R496 to R499) -/

/-- State of the module in REST_STATUS. -/
def State.restState (s : State) : Nat := s.get .rest 0 F.REST_STATUS_STATE
/-- The first check of R496 that fails: reason, refuser, unit. -/
def State.restCheck (s : State) : Option (Nat × Nat × Nat) :=
  let bad (p : Nat) : Bool := s.pairState p ∈ [0x9, 0xA, 0x2, 0x3, 0x7]
  if bad 0 || bad 1 then some (1, 0x4A, 0)
  else match (List.range 8).find? (fun k => (s.dipt k).st ≠ .paired) with
    | some k => some (2, 0x4C, k)
    | none =>
      if !s.tier.lent.isEmpty then some (3, 0x4B, 0)
      else match (List.range 16).find? (fun a => s.linkUp a && !(s.att a).d3) with
        | some a => some (4, 0x10 + a, 0)
        | none => if s.l2Pending then some (5, 0x46, 0) else none
/-- A write of ENTER (R496, R497): the checks, then the request for the secure processor's consent. -/
def State.restEnter (s : State) (agent : Nat) : State :=
  if s.restState ≠ 0 then s
  else match s.restCheck with
    | some x => s.restStops 1 x.1 x.2.1 x.2.2
    | none => ({ s with rest := { s.rest with request := s.now } }.put .rest 0 F.REST_STATUS_STATE 2).defer 31 3 agent
/-- REST_ENTER (R496). -/
def State.cmdRestEnter (s : State) (agent : Nat) : State := s.fieldWrite agent .rest 0 F.REST_CTL_ENTER (fun s => s.restEnter agent)
/-- Strokes allowed for the drain. -/
def State.drainMax (s : State) : Nat := s.get .rest 0 F.REST_CFG_DRAIN_MAX
/-- REST_ENTRY_EDGE (R497): every block is idle in time; the module rests from the next stroke edge. -/
def State.cmdRestEntryEdge (s : State) : State :=
  if s.restState = 3 && s.busyBlock.isNone && strokesSince s.rest.drainFrom s.now ≤ s.drainMax then
      { s with rest := { s.rest with entering := true } }
    else s
/-- REST_DRAIN_TIMEOUT (R497, R499): a block is still busy. -/
def State.cmdRestDrainTimeout (s : State) : State :=
  match s.busyBlock with
    | some (b, n) =>
      if s.restState = 3 && !s.rest.entering && s.drainMax ≤ strokesSince s.rest.drainFrom s.now then s.restStops 2 8 (0x40 + Block.id b) n else s
    | none => s
/-- What a stroke edge does to an entry (R497): a consented one takes READY down and drains; one whose blocks were idle rests. -/
def State.restEdge (s : State) : State :=
  let ok := (s.pwrOf 31).any (fun p => p.granted)
  if s.restState = 2 && ok then
    let t := ((s.dropPwr 31).put .rest 0 F.REST_STATUS_STATE 3).readyFall
    { t with rest := { t.rest with drainFrom := t.now } }
  else if s.restState = 3 && s.rest.entering then
    { (s.put .rest 0 F.REST_STATUS_STATE 4).bump .rest 0 F.REST_ENTRIES_COUNT with rest := { s.rest with entering := false } }
  else s

/-! ### Sketch and wakes (R498, R500, R501) -/

/-- The module wakes: waker and, for a threshold, the channel. A wake a sample finds sends PM_PME. -/
def State.wake (s : State) (agent channel : Nat) (pme : Bool) : State :=
  let s1 := (((s.put .rest 0 F.REST_STATUS_STATE 5).put .rest 0 F.REST_WAKE_AGENT agent).put .rest 0 F.REST_WAKE_CHANNEL channel).bump .rest 0 F.REST_WAKE_WAKES
  let s2 := (s1.put .rest 0 F.REST_WAKE_STAMP_STAMP (s.now.toNat % 2 ^ 32)).raise .rest 0 18
  { s2 with rest := { s2.rest with wakeStroke := s.now, pme := pme }, ring := { s2.ring with wakeLatch := false } }
/-- Sensor channel of each Sketch channel (R500). -/
def sketchChans : List Nat := [0, 5, 6, 7, 9, 10, 11, 12]
/-- Does a reading of a Sketch channel cross its threshold? -/
def State.crosses (s : State) (n reading : Nat) : Bool :=
  let a := s.get .rest 0 F.REST_THR_LIMIT_A n
  if n < 4 then reading % 65536 < a || s.get .rest 0 F.REST_THR_LIMIT_B n < reading / 65536
  else tempOf a ≤ tempOf reading
/-- SKETCH_SAMPLE (R484, R500): at the last stroke of a sample every reading is compared, then the wake latch. A meter conversion due within the
sample has lost its slot. -/
def State.cmdSketchSample (s : State) (readings : List Nat) : State :=
  let period := s.get .rest 0 F.REST_CFG_SKETCH_PERIOD
  if s.restState ≠ 4 || !s.bit .rest 0 F.REST_CFG_SKETCH_EN || s.now.toNat % max 1 period ≠ 3 || readings.length ≠ 8 then s
  else
    let s1 := s.forN 8 (fun t n => t.put .ledg 0 F.LEDG_SENSOR_READING (readings.getD n 0) (sketchChans.getD n 0))
    let meter := max 1 (s.get .rest 0 F.REST_CFG_METER_PERIOD)
    let due := (List.range 4).any (fun i => (s.now.toNat - i) % meter = 0)
    let s2 := if due then (s1.put .ledg 0 F.LEDG_STATUS_METER_LOST 1).lostArb .ledg 0 else s1
    match (List.range 8).find? (fun n => s.crosses n (readings.getD n 0)) with
    | some n => s2.wake 0x48 n true
    | none => if s.ring.wakeLatch then s2.wake 0x09 0 true else s2
/-- A wake event (R498, R501): it wakes a resting module, and aborts an entry in progress. -/
def State.wakeEvent (s : State) (waker : Nat) : State :=
  if s.restState = 4 then s.wake waker 0 false
  else if 1 ≤ s.restState && s.restState ≤ 3 then
    (if (s.pwrOf 31).isSome then s.dropPwr 31 else s).restStops 2 9 waker 0
  else s
/-- WAKE_EVENT (R501): an attach point, an I3C address match, a supervisor fault, or an L2 or L3 fault. -/
def State.cmdWakeEvent (s : State) (waker : Nat) : State := if isHost waker || waker ∈ [0x08, 0x43, 0x46] then s.wakeEvent waker else s

end Sys2Proof.Machine
end

