-- ==== Sys2Proof/Machine/Power.lean ====
section
/-! DEFINITION. Power entry (chapter 17): the supervisor, its fault counting and thermal memory, the rail sequence. The
supervisor works while the hub is unpowered, so its events are not held back by the hub's state. -/

namespace Sys2Proof.Machine

/-- The switch closes under R563; every downstream converter is held disabled. -/
def Sup.closeSwitch (u : Sup) : Sup :=
  { u with st := .ramp, switchOn := true, pg := false, timerRun := false, pgOnce := false, step := 0, rails := 0, released := false }

/-- A fault of R565: the switch opens, FAULT_COUNT and TRIPS go up, the sixth fault latches the front end off (R569), and the
thermal memory is written (R574). -/
def Sup.trip (u : Sup) (cause rail vin : Nat) : Sup :=
  let n := u.count + 1
  let sixth := decide (6 ≤ n)
  let v := u.openSwitch
  { v with
    st := if sixth then .latched else .cool
    count := min 6 n
    trips := min 0xFFFF (u.trips + 1)
    failed := if cause = 8 then 2 ^ rail else u.failed
    tripDue := true
    mem := { u.mem with valid := true, count := min 6 n, latched := sixth, coolLeft := 500
                        cause := if sixth then 6 else cause, countAt := min 6 n, vin := vin
                        rail := if cause = 8 && !sixth then rail else 0 } }

/-- A fault while the switch is closed. -/
def State.supTrip (s : State) (cause rail vin : Nat) : State :=
  if s.sup.st.closed then (s.modSup (fun u => u.trip cause rail vin)).unpower else s

/-- With the enable asserted and the input in range, a waiting supervisor closes the switch (R581). -/
def Sup.tryRamp (u : Sup) : Sup := if u.en && u.inputOk then u.closeSwitch else { u with st := .waitEn }

/-- READ (R575, R581): a valid store resumes its state, an invalid one starts fresh. -/
def Sup.readStore (u : Sup) : Sup :=
  let m : Thermal := if u.mem.valid then u.mem else { valid := false }
  let v := { u with atOn := m, mem := { m with valid := true }, count := m.count, tripDue := u.tripDue && m.valid }
  if m.fetBad then { v with st := .fetFault }
  else if m.latched then { v with st := .latched }
  else if 0 < m.coolLeft then { v with st := .cool }
  else v.tryRamp

/-- The auxiliary rail comes up (R575): the store is valid when its check code passes above the hold threshold. -/
def execAuxRailUp (inputOk memValid : Bool) (s : State) : Host.Outcome State Fault Refusal :=
  .next (if s.sup.auxUp then s else s.modSup (fun u =>
    let v := { u with auxUp := true, inputOk := inputOk, mem := { u.mem with valid := memValid } }
    if inputOk then v.readStore else v))

/-- The auxiliary rail fails (R581): OFF, the thermal memory keeps its state; what lives on the auxiliary rail is lost
(R549, R582, R605). -/
def execAuxRailDown (s : State) : Host.Outcome State Fault Refusal :=
  let s1 := s.modSup (fun u => { u.openSwitch with st := .off, auxUp := false, inputOk := false, limitEvents := 0, trips := 0 })
  .next { s1.unpower with faults := { s1.faults with lastFatal := none }, boot := { s1.unpower.boot with coldCount := 0 } }

/-- PWR_EN_L asserted after `lowMs` ms deasserted (R571, R581). -/
def execPwrEnAssert (lowMs : Nat) (s : State) : Host.Outcome State Fault Refusal :=
  .next (s.modSup (fun u =>
    let v := { u with en := true }
    match u.st with
    | .waitEn => v.tryRamp
    | .held => if u.en then v else v.tryRamp
    | .latched =>
      if 10 ≤ lowMs then
        let w := { v with count := 0, mem := { v.mem with count := 0, latched := false } }
        if 0 < w.mem.coolLeft then { w with st := .cool } else w.tryRamp
      else v
    | _ => v))

/-- PWR_EN_L deasserted (R581): the rails go down in order and the switch opens; not a fault. -/
def execPwrEnDeassert (s : State) : Host.Outcome State Fault Refusal :=
  let s1 := s.modSup (fun u => { u with en := false })
  .next (if s.sup.st.closed then (s1.modSup (fun u => { u.openSwitch with st := .waitEn })).unpower else s1)

/-- The input leaves its window (R572): the switch opens without a fault; LAST_CAUSE is written. -/
def execInputOutOfRange (high : Bool) (vin : Nat) (s : State) : Host.Outcome State Fault Refusal :=
  let s1 := s.modSup (fun u => { u with inputOk := false })
  .next (if s.sup.st.closed then
    (s1.modSup (fun u => 
      let m := { u.mem with valid := true, cause := if high then 4 else 3, countAt := u.count, vin := vin, rail := 0 }
      { u.openSwitch with st := .off, tripDue := true, mem := m })).unpower
  else s1)

/-- The input returns between UV_ON and OV_ON (R572). -/
def execInputInRange (s : State) : Host.Outcome State Fault Refusal :=
  .next (s.modSup (fun u =>
    let v := { u with inputOk := true }
    if !u.auxUp then u
    else if u.st = .off then v.readStore
    else if u.st = .waitEn then v.tryRamp
    else v))

/-- The current is held at the limit (R563, R567). -/
def execCurrentLimit (s : State) : Host.Outcome State Fault Refusal :=
  .next (if s.sup.st = .ramp ∨ s.sup.st = .on then s.modSup (fun u => { u with st := .limit, timerRun := true, pg := false }) else s)

/-- The current falls below the limit (R567): timer to 0, a new deglitch time, LIMIT_EVENTS + 1. -/
def execLimitClear (s : State) : Host.Outcome State Fault Refusal :=
  .next (if s.sup.st = .limit then
    let s1 := s.modSup (fun u => { u with st := .ramp, timerRun := false, limitEvents := min 0xFFFF (u.limitEvents + 1) })
    if s1.boot.powered then (s1.raise .psup 0 16).within s1 else s1
  else s)

/-- The fault timer reaches 2 ms (R563, R565). -/
def execFaultTimerExpire (vin : Nat) (s : State) : Host.Outcome State Fault Refusal :=
  .next (if s.sup.st = .limit then s.supTrip 1 0 vin else s)

/-- Fast trip (R564, R565). -/
def execFastTrip (vin : Nat) (s : State) : Host.Outcome State Fault Refusal := .next (s.supTrip 2 0 vin)

/-- A rail-sequence step exceeds its limit, or a rail fails later (R578). -/
def execRailSequenceFault (rail vin : Nat) (s : State) : Host.Outcome State Fault Refusal :=
  .next (if 0 < s.sup.step then s.supTrip 8 rail vin else s)

/-- Power-good rises (R566, R568): the first rise after the switch closes starts the rail sequence. -/
def execPowerGoodRise (s : State) : Host.Outcome State Fault Refusal :=
  .next (if s.sup.st = .ramp && s.sup.switchOn && s.sup.inputOk && !s.sup.timerRun then
    let s1 := s.modSup (fun u => { u with st := .on, pg := true, pgOnce := true, step := if u.pgOnce then u.step else 1 })
    if s.sup.pgOnce && s.boot.powered then (s1.raise .psup 0 17).within s1 else s1
  else s)

/-- Rails of a step of R577, as a mask. -/
def stepRails (k : Nat) : Nat :=
  match k with
  | 1 => 0x01
  | 2 => 0x02
  | 3 => 0x0C
  | 4 => 0x10
  | 5 => 0x20
  | 6 => 0xC0
  | _ => 0

/-- A rail-sequence step's rails report good (R577): after step 6 the power-on reset may be released. -/
def execRailStepDone (s : State) : Host.Outcome State Fault Refusal :=
  .next (if s.sup.st.closed && 1 ≤ s.sup.step && s.sup.step ≤ 6 then
    s.modSup (fun u => { u with rails := u.rails ||| stepRails u.step, step := u.step + 1 })
  else s)

/-- The cool-down ends (R569): a retry, or the wait for enable; a latched front end stays open with none left to serve (R571). -/
def execCoolDownEnd (s : State) : Host.Outcome State Fault Refusal :=
  .next (if s.sup.st = .cool then
    s.modSup (fun u => { u with mem := { u.mem with coolLeft := 0 } }.tryRamp)
  else if s.sup.st = .latched then s.modSup (fun u => { u with mem := { u.mem with coolLeft := 0 } })
  else s)

/-- Power-good has stayed high for the clean time (R570). -/
def execCleanTimeExpire (s : State) : Host.Outcome State Fault Refusal :=
  .next (if s.sup.st = .on && s.sup.pg && !s.sup.timerRun then
    s.modSup (fun u => { u with count := 0, mem := { u.mem with count := 0 } })
  else s)

/-- 10 ms pass: the store's COOL_LEFT goes down, on its capacitor (R574) and, as the supervisor writes the store at every
change, during a cool-down, the one that a latched front end still serves among them (R569, R571). -/
def execThermalMemoryTick (s : State) : Host.Outcome State Fault Refusal :=
  .next (if !s.sup.auxUp || s.sup.st = .cool || s.sup.st = .latched then
    s.modSup (fun u => { u with mem := { u.mem with coolLeft := u.mem.coolLeft - 1 } })
  else s)

/-- The output stays present while the switch is commanded off (R576). -/
def execFetBad (vin : Nat) (s : State) : Host.Outcome State Fault Refusal :=
  .next (if s.sup.auxUp && !s.sup.switchOn && s.sup.st ≠ .fetFault then
    (s.modSup (fun u => 
      let m := { u.mem with valid := true, fetBad := true, cause := 5, countAt := u.count, vin := vin, rail := 0 }
      { u.openSwitch with st := .fetFault, tripDue := true, mem := m })).unpower
  else s)

/-- PSUP_CTL.POWER_OFF is written: the rails go down when the command that writes it ends (R579). -/
def State.askOff (s : State) : State := { s with boot := { s.boot with offAsk := true } }
/-- PSUP_CTL.POWER_OFF (R579): the rails go down in order, the switch opens and is held open; not a fault. -/
def State.cmdPowerOff (s : State) (agent : Nat) : State := s.fieldWrite agent .psup 0 F.PSUP_CTL_POWER_OFF (fun s => s.askOff)

/-- Code of a supervisor state (PSUP_STATUS.STATE). -/
def SupSt.code : SupSt → Nat
  | .off => 0
  | .read => 1
  | .waitEn => 2
  | .ramp => 3
  | .limit => 4
  | .on => 5
  | .cool => 6
  | .latched => 7
  | .fetFault => 8
  | .held => 9

/-- PSUP_STATUS as a word (R582). -/
def State.psupStatus (s : State) : Nat :=
  s.sup.st.code + 0x10 * b2n s.sup.switchOn + 0x20 * b2n s.sup.pg + 0x40 * b2n s.sup.timerRun + 0x80 * b2n s.sup.en +
  0x100 * s.sup.count
/-- PSUP_LAST_TRIP as a word. -/
def State.psupLastTrip (s : State) : Nat :=
  let m := s.sup.atOn
  m.cause + 0x100 * m.countAt + 0x800 * b2n (m.valid && m.cause ≠ 0) + 0x10000 * (m.vin % 256)
/-- PSUP_MEMORY as a word. -/
def State.psupMemory (s : State) : Nat :=
  let m := s.sup.atOn
  b2n m.valid + 2 * b2n m.latched + 4 * m.count + 32 * m.coolLeft

end Sys2Proof.Machine
end

