-- ==== Sys2Proof/Machine/FaultCmd.lean ====
section
/-! DEFINITION. Reports on error wires and broken wires (R535 to R541), with the reactions of their classes (R537, R547). -/

namespace Sys2Proof.Machine

/-- The timebase has reached a phase of the stroke that an event names. -/
def State.phaseTo (s : State) (p : Nat) : State := { s with tb := { s.tb with phase := max s.tb.phase (min p (s.tb.len - 1)) } }
/-- The ring side of a record's UNIT is on the RING page it names: the pair, on the side of that Slab. -/
def sideOfRing (slab : Nat) : Nat := 1 - slab
/-- The reaction of a class that a block's report calls for (R547), where the report names the unit; the poisoning of a class is done by the rule
that raised it. -/
def State.classReact (s : State) (r : Rep) : State :=
  if r.checker then s
  else if (r.cls = 0x02 || r.cls = 0x03) && r.unit < 128 then s.retireChannel (r.unit / 8) (r.unit % 8)
  else if r.cls = 0x07 && r.unit < 8 then s.setDState r.unit .failed
  else if r.cls = 0x19 && r.block = Block.id .ring && r.unit < 2 then
    let sd := sideOfRing r.inst
    (((s.ringPut r.unit sd F.RING_LINK_PERM_DOWN 1).ringPut r.unit sd F.RING_BUCKET_PERMANENT 1).raise .ring r.inst 18).sideDown r.unit sd
  else if r.cls = 0x14 && 0x10 ≤ r.agent && r.agent < 0x20 then s.enterViral (r.agent - 0x10) 0x02 (s.nextSeq + 65535)
  else s
/-- ERROR_REPORT (R535, R540, R541): the reports waiting on the wires are taken in order, and their classes' reactions carried out. The reporting
source shows by its phases that the timebase has reached them. -/
def State.cmdErrorReport (s : State) (reps : List Rep) : State :=
  ((reps.filter s.wireOk).foldl (fun t r => t.classReact r) (s.takeReports reps)).settle

/-- Does a broken wire of this block give L2, else L3 (R537)? -/
def wireLevel (b : Block) : Nat := if b ∈ [.chan, .port, .ring, .qeng, .ofld] then 2 else 3
/-- The reaction to a broken wire, by its source (R537). -/
def State.wireReact (s : State) (b : Block) (n : Nat) : State := match b with
  | .chan => s.retireChannel (n / 8) (n % 8)
  | .port =>
    let s1 := ((s.modAtt (2 * n) (fun a => { a with linkBarred := true })).modAtt (2 * n + 1) (fun a => { a with linkBarred := true }))
    (s1.linkFalls (2 * n)).linkFalls (2 * n + 1)
  | .ring => s.forN 2 (fun t p =>
    let u := t.modSide p (sideOfRing n) (fun x => { x with barred := true })
    if u.pairState p = 0xF then u else u.permDown p (sideOfRing n))
  | .qeng =>
    let s1 : State := { s with codec := { s.codec with barred := addOnce s.codec.barred (16 + n) } }
    s1.stopBlock n
  | .ofld =>
    let s1 : State := { s with codec := { s.codec with barred := addOnce s.codec.barred (2 * n) } }
    s1.stopBlock (16 + n)
  | _ => s
/-- WIRE_BROKEN (R536, R537): from now on the source cannot report; the record carries the phase of the first change. -/
def State.cmdWireBroken (s : State) (block inst loc phase : Nat) : State := match blockOfId block with
    | none => s
    | some b =>
      if (block, inst, loc) ∈ s.faults.broken then s
      else
        let r : Rep := { cls := 0x1E, base := wireLevel b, block := block, inst := inst, loc := loc, phase := phase, unit := inst }
        let s1 := s.record r
        let s2 : State := { s1 with faults := { s1.faults with broken := s1.faults.broken ++ [(block, inst, loc)] } }
        let s3 := (((s2.bump .flt 0 F.FLT_WIRE_BROKEN).put .flt 0 F.FLT_WIRE_LAST_BLOCK block).put .flt 0 F.FLT_WIRE_LAST_INSTANCE inst).put .flt 0
          F.FLT_WIRE_LAST_LOCATION loc
        ((s3.raise .flt 0 20).wireReact b inst).settle

end Sys2Proof.Machine
end

