-- ==== Sys2Proof/Machine/SlabLoss.lean ====
section
/-! DEFINITION. The loss of a Slab (R219 to R222, R229, R334, R531): what the survivor does at the declaring edge, in the order of R220. -/

namespace Sys2Proof.Machine

/-! ### Who is lost -/

/-- Does a directory owner (engines 0 to 15, management processors 16 and 17) stand on a Slab? -/
def ownerOn (d o : Nat) : Bool := if o < 16 then o / 8 = d else o = 16 + d
/-- Does an internal sharing group stand on a Slab? -/
def groupOn (d g : Nat) : Bool := if g < 4 then g / 2 = d else g = 4 + d
/-- Does a requester stand on a Slab, so that its requests are lost with it? The mover, the copier and the scrubber work on. -/
def requesterOn (d : Nat) : Requester → Bool
  | .host a => a / 8 = d
  | .engine q => q / 8 = d
  | .mgmt s => s = d
  | .codec s => s = d
  | .secp s => s = d
  | .mover _ => false
  | .resync _ => false
  | .scrub _ => false
/-- Is a holder on a Slab? -/
def holderOn (d : Nat) : Holder → Bool
  | .host _ => false
  | .owner o => ownerOn d o
  | .group g => groupOn d g

/-! ### Processors (R531) -/

/-- The standby processors of a Slab take over: roles, notice, event, watchdog, and the requests still pending on its blocks. -/
def State.takeover (s : State) (sv : Nat) : State :=
  let mems := zeroMem (zeroMem s.secure.mems 0 sv 0 workSize) 1 sv 0 workSize
  let s1 : State := { s with secure := { s.secure with
    primary := sv, takenOver := true, toSec := {}, toMgmt := {}, notices := {}, nonce := none, part0 := none, mems := mems } }
  let s2 := ((((s1.put .secp sv F.SECP_STATUS_ROLE 2).put .slab sv F.SLAB_STATUS_MGMT_PRIMARY 1).put .slab sv F.SLAB_STATUS_SECP_PRIMARY 1).put .slab sv
    F.SLAB_STATUS_SERVES_MODULE 1).raise .slab sv 17
  let s3 := (((s2.bump .secp sv F.SECP_STATUS_TAKEOVERS).notice 0xC2 (leBytes 6 s.now.toNat)).raise .secp sv 16).secEvent 2
  let s4 := s3.putSecp F.SECP_WDOG_STATUS_ELAPSED 0
  let s5 := (s4.secure.pwr.filter (fun p => !p.granted)).foldl (fun t p => t.powerNotice p) s4
  match s5.secure.handover with
  | some h => if ownSlab h.block = sv then s5.setHand (some { h with failing := some 3, stage := .done, answer := none }) else s5
  | none => s5
/-- What the secure processor's blocks lose with a Slab: requests on its blocks, a hand-over of one of them, mirroring. -/
def State.secureLoss (s : State) (d : Nat) : State :=
  let s0 := (s.secure.pwr.filter (fun p => p.block < 18 && ownSlab p.block = d)).foldl (fun t p => t.dropPwr p.block) s
  let s1 := match s0.secure.handover with
    | some h => if ownSlab h.block = d then ((s0.setHand none).handFail 2).handAnswer h 2 else s0
    | none => s0
  let gone (g : GateReq) : Bool := g.target = 8 + d || (g.target < 8 && g.target / 4 = d)
  let left := s1.boot.gates.filter (fun g => !gone g)
  let s2 : State := { s1 with boot := { s1.boot with gates := left, stopped := s1.boot.stopped.filter (fun x => ownSlab x.1 ≠ d) } }
  let s3 := if left.isEmpty then s2.put .clkc 0 F.CLKC_GATE_STATUS_BUSY 0 else s2
  let s4 : State := { s3 with secure := { s3.secure with mirroring := false } }
  let s5 := ((s4.put .secp (1 - d) F.SECP_STATUS_MIRROR_OK 0).raise .secp (1 - d) 17)
  if s5.primary = d then s5.takeover (1 - d) else s5

/-! ### Engines, codec and ring sides -/

/-- Query engines and gatherer of a lost Slab: their jobs and records are gone; a record of a survivor that stood in a lost arrival slot goes back to
its engine. -/
def State.queryLoss (s : State) (d : Nat) : State :=
  let back := (List.range 16).filterMap (fun q => if q / 8 = d then none else sget none s.query.slots (16 * d + q))
  { s with query := { s.query with
      jobs := s.query.jobs.filter (fun x => x.1 / 8 ≠ d)
      held := back ++ s.query.held.filter (fun r => r.engine / 8 ≠ d)
      slots := s.query.slots.filter (fun x => x.1 / 16 ≠ d && x.1 % 16 / 8 ≠ d)
      flushing := s.query.flushing.filter (fun q => q / 8 ≠ d) } }
/-- Codec lanes and offload blocks of a lost Slab: decodes and encodes ask the survivor's lanes, the jobs are gone. -/
def State.codecLoss (s : State) (d : Nat) : State :=
  let running := (List.range 16).filterMap (fun n => sget none s.codec.lanes (16 * d + n))
  let works := (running ++ (s.codec.waiting.filter (fun w => w.1 = d)).map (fun w => w.2)).filter (fun w => !w.offload)
  let s1 := (s.codec.active.filter (fun n => n / 512 = d)).foldl (fun t n => t.setOctx n {}) s
  let c := s1.codec
  let c1 : Codec := { c with
    lanes := c.lanes.filter (fun x => x.1 / 16 ≠ d)
    waiting := c.waiting.filter (fun w => w.1 ≠ d)
    jobs := c.jobs.filter (fun j => j.slab ≠ d)
    held := c.held.filter (fun r => r.slab ≠ d)
    active := c.active.filter (fun n => n / 512 ≠ d)
    doorbells := c.doorbells.filter (fun b => b.1 / 8 ≠ d) }
  works.foldl (fun t w => t.askLane (1 - d) w) { s1 with codec := c1 }
/-- Ring sides of a lost Slab go down. -/
def State.ringLoss (s : State) (d : Nat) : State :=
  s.forN 2 (fun t p => if t.pairState p = 0xF then t else t.sideDown p (sideOfRing d))

/-! ### Homes, caches and media -/

/-- Regions of the lost home that may have copies (R334). -/
def State.doubtful (s : State) (d : Nat) : List Nat :=
  ((s.home.dir.filterMap (fun x => if x.1 / 4194304 = d && !(s.maskEnt x.2).unused then
      some (regionKey (pageOfHl d (wayHl (x.1 % 4194304 / 16) x.2))) else none)) ++
    s.home.victims.filterMap (fun v => if v.slab = d then some (regionKey (pageOfHl d v.hl)) else none)).dedup
/-- A directory entry of the survivor without the holders that are lost; what they held dirty is lost, and memory keeps the last value written. -/
def entWithout (d : Nat) (e : DirEnt) : DirEnt :=
  let share := (List.range 6).foldl (fun v g => if groupOn d g then setBit v g false else v) e.ishare
  if ownerOn d e.iowner && (e.ist = .e || e.ist = .m || e.ist = .o) then { e with ist := if share = 0 then .i else .s, iowner := 31, ishare := share }
  else if e.ist = .s && share = 0 then { e with ist := .i, ishare := 0 }
  else { e with ishare := share }
/-- The acting home starts with an empty directory for the lost home's pages; the survivor's own entries lose the lost holders. -/
def State.dirLoss (s : State) (d : Nat) : State :=
  let unknown := (s.home.unknown ++ s.doubtful d).dedup
  let dir := s.home.dir.filterMap (fun x =>
    if x.1 / 4194304 = d then none
    else
      let e := entWithout d x.2
      if e.unused then none else some (x.1, e))
  let h := s.home
  let h1 : Home := { h with
    dir := dir
    plru := h.plru.filter (fun x => x.1 / 262144 ≠ d)
    victims := (h.victims.filter (fun v => v.slab ≠ d)).map (fun v => { v with ent := entWithout d v.ent })
    unknown := unknown
    icache := h.icache.filter (fun c => !ownerOn d c.owner)
    pred := h.pred.filter (fun x => x.1 / 4096 ≠ d) }
  ({ s with home := h1 }.put .home (1 - d) F.HOME_STATUS_ACTING 1).put .home (1 - d) F.HOME_UNKNOWN_REGIONS_REGIONS unknown.length
/-- Requests at a home: those of lost requesters are gone; those of the lost home are taken out, to be ordered again at the survivor. -/
def State.requestsLoss (s : State) (d : Nat) : List HReq × State :=
  let h := s.home
  let gone (r : HReq) : Bool := requesterOn d r.who
  let lostHome (r : HReq) : Bool := homeOf r.page = d
  let keep (r : HReq) : Bool := !gone r && !lostHome r
  let again := ((h.waiting.filter (fun w => !w.victim && lostHome w.req && !gone w.req)).map (fun w => w.req)) ++
    ((h.queue ++ h.senders).filter (fun r => lostHome r && !gone r)) ++
    ((h.reads.filter (fun r => lostHome r.req && !gone r.req && r.st ≠ .ready)).map (fun r => r.req))
  let waiting := (h.waiting.filter (fun w => !lostHome w.req && (w.victim || !gone w.req))).map (fun (w : Waiting) =>
    { w with awaiting := w.awaiting.filter (fun x => !holderOn d x) })
  let h1 : Home := { h with
    waiting := waiting
    queue := h.queue.filter keep
    senders := h.senders.filter keep
    regionWait := h.regionWait.filter (fun r => !gone r)
    owed := h.owed.filter (fun r => !gone r)
    treeHeld := h.treeHeld.filter (fun r => !gone r)
    reads := h.reads.filter (fun r => !gone r.req && (!lostHome r.req || r.st = .ready)) }
  (again, { s with home := h1, regu := { s.regu with held := s.regu.held.filter (fun r => !gone r) } })
/-- The lost Slab's Hub Cache and line buffers: held lines are completed by the survivor from its shadows (R221). -/
def State.hubLoss (s : State) (d : Nat) : State :=
  let b := s.hub
  let slots := (b.slots.filter (fun x => x.slab ≠ d || !x.runahead)).map (fun (x : HlbSlot) => { x with slab := 1 - d })
  let b1 : Hub := { b with
    ents := b.ents.filter (fun x => x.1 / 524288 ≠ d)
    plru := b.plru.filter (fun x => x.1 / 32768 ≠ d)
    slots := slots
    vlb := b.vlb.filter (fun x => slabOfVein x.vein ≠ d)
    repart := b.repart.filter (fun x => x.1 ≠ d)
    cmds := b.cmds.filter (fun x => x.1 ≠ d)
    prefetch := b.prefetch.filter (fun x => x.1 ≠ d)
    sweeping := b.sweeping.filter (· ≠ d)
    cleaning := b.cleaning.filter (fun x => x.1 ≠ d) }
  { s with hub := b1 }
/-- Writes queued for the lost Veins no longer wait for them. -/
def State.queuesLoss (s : State) (d : Nat) : State :=
  let s1 := s.dropAccs (fun a => slabOfVein a.vein = d)
  let held := s1.hub.wrHeld.map (fun (w : HeldWrite) => { w with accs := w.accs.filter (fun a => slabOfVein a.vein ≠ d) })
  let s2 : State := { s1 with hub := { s1.hub with wrHeld := held.filter (fun w => !w.accs.isEmpty) } }
  (held.filter (fun w => w.accs.isEmpty && w.tell)).foldl (fun t w => t.doneTo w.req) s2
/-- Tier moves: an image on its way to a lost Vein is placed again, and a move whose only copy to read is on a lost Vein ends. -/
def State.movesLoss (s : State) (d : Nat) : State :=
  let s1 := s.tier.moves.foldl (fun t m =>
    if m.encoded && slabOfVein m.vein = d && m.kind ≠ .promote then
      let u := t.dropBuffered m.page
      u.setMove { m with encoded := false, rowsWritten := false }
    else t) s
  let s2 : State := { s1 with tier := { s1.tier with rowBufs := s1.tier.rowBufs.filter (fun b => slabOfVein b.vein ≠ d) } }
  s2.tier.moves.foldl (fun t m =>
    let e := t.entry m.page
    if (m.kind = .deepToDeep || m.kind = .spill) && (m.src = .deep || m.src = .plain) && slabOfVein e.vein = d then t.abandon m.page
    else if !m.encoded && !m.image.isEmpty && (m.kind = .demote || m.kind = .recallDeep || m.kind = .deepToDeep) then t.placeImage m
    else t) s2
/-- Diptychs at the loss of a Slab (R220, R229, R230). -/
def State.diptLoss (s : State) (d : Nat) : State :=
  s.forN 8 (fun t k =>
    let x := t.dipt k
    let sv := 1 - d
    if x.st = .paired || x.st = .retiring then
      ((t.modDipt k (fun y => { y with stale := [], behind := [] })).setDState k .solo).put .dipt k F.DIPT_STATUS_SIDE sv
    else if x.st = .resync || (x.st = .solo && t.get .dipt k F.DIPT_STATUS_SIDE = d) then
      let side := t.get .dipt k F.DIPT_STATUS_SIDE
      let u := (t.modDipt k (fun y => if side = d then { y with behind := y.stale.filter (fun f => !(f ∈ y.behind)) } else y)).setDState k .solo
      u.put .dipt k F.DIPT_STATUS_SIDE sv
    else t)
/-- Admitted reads outstanding are counted under the homes that stand (R409). -/
def State.recountOut (s : State) : State :=
  { s with regu := { s.regu with outst := s.admittedReads.foldl (fun m r =>
      let k := 2 * r.cls.getD 0 + s.countHome r.page
      sset 0 m k (sget 0 m k + 1)) [] } }
/-- Reads waiting for media of the lost Veins are served again under R222. -/
def State.mediaLoss (s : State) (d : Nat) : State :=
  let hit (r : Rd) : Bool := r.st = .media && r.needs.any (fun n => slabOfVein (keyVein n.key) = d)
  (s.home.reads.filter hit).foldl (fun t r => (t.dropRd r.req.id).serveR r.req none) s

/-! ### The declaring edge -/

/-- A Slab is declared absent (R220): cause 1 clocks lost, 2 heartbeat missing, 3 reset asserted. -/
def State.slabLost (s : State) (d cause : Nat) : State :=
  let sv := 1 - d
  -- the Seam comes down, the Slab's pages are no longer reached, and RSTC holds it in reset (R590)
  let s1 : State := { s with boot := { s.boot with
    absent := [d], returning := none, seamUp := false
    slabReset := s.boot.slabReset.filter (fun x => x.slab ≠ d) ++ ([{ slab := d, start := s.now, cause := cause }] : List SlabReset) } }
  let s2 := (((s1.put .slab sv F.SLAB_STATUS_PEER_PRESENT 0).put .slab sv F.SLAB_STATUS_SEAM_UP 0).bump .rstc 0 F.RSTC_SLAB_RESETS).put .rstc 0
    F.RSTC_SLAB_SLAB d
  let s3 := (s2.put .rstc 0 F.RSTC_SLAB_CAUSE cause).raise .rstc 0 16
  -- its ports go down
  let s4 := s3.forN 8 (fun t a => t.linkFalls (8 * d + a))
  -- the standby processors start
  let s5 := s4.secureLoss d
  -- acting home
  let s6 := s5.requestsLoss d
  let s60 : State := { s6.2 with tier := { s6.2.tier with mapCache := s6.2.tier.mapCache.filter (fun p => homeOf p ≠ d) } }
  let s7 := ((s60.dirLoss d).hubLoss d).queuesLoss d
  let s8 := ((s7.queryLoss d).codecLoss d).ringLoss d
  -- Diptychs, Veins
  let s9 := ((s8.diptLoss d).movesLoss d).forN 8 (fun t k => t.put .vein (8 * sv + k) F.VEIN_STATUS_SOLO 1)
  let s10 := ((((s9.put .dprt sv F.DPRT_PEER_PEER_ABSENT 1).put .dprt sv F.DPRT_PEER_SR_SAFE (b2n (cause = 3))).put .dprt sv F.DPRT_PEER_ACTING_HOME 1).bump
    .dprt sv F.DPRT_PEER_LOSSES).raise .dprt sv 22
  let s11 := s10.fault .slab sv 0x08 { cls := 8, unit := d }
  let s12 : State := { s11 with ring := { s11.ring with peerAbsentSeen := true } }
  let s13 := (s12.finishWaits.mediaLoss d)
  let s14 := s6.1.foldl (fun t r => t.enter r) s13
  (s14.recountOut.wakeEvent 0x46).settle
/-- Does a Slab's condition of R219 hold now? -/
def State.lossHolds (s : State) (d cause : Nat) : Bool := match cause with
  | 1 => d ∈ s.boot.clkLost
  | 2 => decide (2 ≤ (if d = 1 then s.boot.hbMiss.1 else s.boot.hbMiss.2))
  | _ => cause = 3
/-- SLAB_ABSENT (R219, R220): a Slab is declared absent. When both would declare each other at one edge, Slab 0 survives; with the other Slab absent
already, both are, and the module resets cold (R230, R583). -/
def State.cmdSlabAbsent (s : State) (slab cause : Nat) : State :=
  if 1 < slab || !s.lossHolds slab cause || (!s.present slab) then s
  else if !s.present (1 - slab) then
    { s with boot := { s.boot with requests := s.boot.requests ++ ([{ cold := true, cause := 0x0A }] : List ResetReq) } }
  else
    let also := [1, 2].find? (s.lossHolds 1)
    match slab, also with
    | 0, some c => s.slabLost 1 c
    | _, _ => s.slabLost slab cause

end Sys2Proof.Machine
end

