-- ==== Sys2Proof/Machine/Reset.lean ====
section
/-! DEFINITION. Module resets (R583 to R591, R597): what begins one, what a cold and a warm reset do to each part of the module, the flush,
the Seam's training, and the start that follows. -/

namespace Sys2Proof.Machine

/-! ### Boot pages and straps (R591, R592, R607) -/

/-- A boot field of both Slabs' MGMT pages. -/
def State.putBoot (s : State) (f : Fld) (v : Nat) : State := (s.put .mgmt 0 f v).put .mgmt 1 f v
/-- STAGE of the boot engines. -/
def State.stage (s : State) : Nat := s.get .mgmt s.primary F.MGMT_BOOT_STATUS_STAGE
/-- Boot source in effect. -/
def State.bootSrc (s : State) : Nat := s.get .mgmt s.primary F.MGMT_BOOT_STATUS_SRC
/-- A byte of the flash; a byte never written reads 0xFF. -/
def State.flashByte (s : State) (a : Nat) : Byte := sget 0xFF s.boot.flash a
/-- ACTIVE of the boot record. -/
def State.flashActive (s : State) : Nat := if s.flashByte 0 = 1 then 1 else 0
/-- PENDING of the boot record. -/
def State.flashPending (s : State) : Option Nat := if (s.flashByte 1).toNat < 2 then some (s.flashByte 1).toNat else none
/-- Draw the Primer key (R238). -/
def State.drawPrimer (s : State) : State :=
  let x := s.draw 768
  { x.2 with crypto := { x.2.crypto with ctxs := sput x.2.crypto.ctxs 0 { valid := true, keys := x.1 } } }
/-- Draw the metadata key (R239). -/
def State.drawMeta (s : State) : State :=
  let x := s.draw 768
  { x.2 with crypto := { x.2.crypto with metaKey := x.1 } }
/-- The boot engines start (R592 to R596): the slot to try, and the stage. Recovery and test mode boot nothing; their fill runs under fresh keys. -/
def State.bootStart (s : State) (cold : Bool) : State :=
  let src := s.get .rstc 0 F.RSTC_STRAPS_BOOT_SRC
  let s1 := (s.putBoot F.MGMT_BOOT_STATUS_SRC src).putBoot F.MGMT_BOOT_STATUS_STAGE (if s.plainPcie then 6 else 0)
  let pend := if src = 0 && cold then s.flashPending else none
  let slot := if src ≠ 0 then 0 else if cold then pend.getD s.flashActive else s.boot.slot
  let b := s1.boot
  let s2 : State := { s1 with boot := { b with
    accepted := 0, slot := slot, pendTried := pend.isSome, tried := [slot], digests := [], staging := [], stagedLen := 0, loader := false } }
  let s3 := s2.putBoot F.MGMT_BOOT_STATUS_SLOT slot
  if s.plainPcie && cold then (s3.drawMeta.drawPrimer).putBoot F.MGMT_BOOT_STATUS_CONFIG_DEFAULT 1 else s3
/-- The straps are latched (R591, R481): role, clock mode and boot source take effect. -/
def State.latchStraps (s : State) : State :=
  let p := s.boot.straps
  let s1 := ((s.put .rstc 0 F.RSTC_STRAPS_BOOT_SRC p.1).put .rstc 0 F.RSTC_STRAPS_CLK_MODE p.2.1).put .rstc 0 F.RSTC_STRAPS_ROLE p.2.2
  (s1.put .clkc 0 F.CLKC_STATUS_MODE p.2.1).put .clkc 0 F.CLKC_STATUS_REF_PRESENT (b2n s.boot.refPresent)
/-- The role in force: the strap, or ROLE_OVR as it stood enabled before the reset (R481). -/
def State.takeRole (s : State) : State :=
  let strap := s.get .rstc 0 F.RSTC_STRAPS_ROLE
  (s.put .lode 0 F.LODE_ID_STRAP_ROLE strap).put .lode 0 F.LODE_ID_ROLE (s.boot.roleOvr.getD strap)
/-- ROLE_OVR as it stands. -/
def State.ovrNow (s : State) : Option Nat := if s.bit .lode 0 F.LODE_CTL_ROLE_OVR_EN then some (s.get .lode 0 F.LODE_CTL_ROLE_OVR) else none

/-! ### Cold reset (R586, R597) -/

/-- The state of the hub at a cold reset: everything at its reset value but what the auxiliary rail, the flash, the secure processor's sealed keys
and the pins keep. -/
def State.coldBase (s : State) : State :=
  { State.reset with
    sup := s.sup, out := s.out, draws := s.draws, pending := s.pending
    faults := { State.reset.faults with lastFatal := s.faults.lastFatal }
    secure := { State.reset.secure with keks := s.secure.keks, fabricKey := s.secure.fabricNext.or s.secure.fabricKey }
    boot := { State.reset.boot with
      powered := s.boot.powered, flash := s.boot.flash, straps := s.boot.straps, refPresent := s.boot.refPresent, sysRst := s.boot.sysRst
      coldCount := s.boot.coldCount, clkLost := s.boot.clkLost, roleOvr := s.ovrNow } }
/-- The record of the cut that took power from the hub (R580): written in the first stroke, with no reset asked for. -/
def State.tripRecord (s : State) : State :=
  let m := s.sup.atOn
  if s.sup.tripDue && m.valid && m.cause ≠ 0 then
    let s1 := s.fault .psup 0 0x1F { cls := 0x1F, detail := m.cause + 2 ^ 8 * (m.countAt % 8) + 2 ^ 11 * (if m.cause = 8 then m.rail % 32 else 0) }
    let e := (sfind s1.faults.hq (s.nextSeq % 32)).map (fun r => { evOfRec r with log := 3 })
    let s2 := match e with
      | some ev => (s1.logWhere ev (fun a => !s1.linkUp a))
      | none => s1
    { s2 with boot := { s2.boot with requests := s.boot.requests }
              faults := { s2.faults with fatalPending := false, lastFatal := (sfind s1.faults.hq (s.nextSeq % 32)).or s1.faults.lastFatal } }
  else s
/-- Does something still hold a cold reset: the pin, or a reference that mode 0b00 lacks (R583, R603)? -/
def State.coldHeld (s : State) : Bool := s.boot.sysRst || (s.boot.straps.2.1 = 0 && !s.boot.refPresent)
/-- T0: the straps are latched and the cold start sequence begins, unless the hub is held. -/
def State.coldStart (s : State) : State :=
  let held := s.coldHeld
  let run := s.boot.inReset.map (fun r => { r with pinHeld := held })
  let s1 : State := { s with boot := { s.boot with inReset := run } }
  if held then s1.put .clkc 0 F.CLKC_STATUS_REF_PRESENT (b2n s.boot.refPresent)
  else (((s1.latchStraps.takeRole).bootStart true).tripRecord).pin s.tb { s.sup with tripDue := false } s.boot.powered s.pending
/-- A cold reset begins. -/
def State.beginCold (s : State) (cause : Nat) (flushCut verifyCut : Bool) : State :=
  let keep (f : Fld) (cut : Bool) : Nat := if cause = 0x0B then b2n cut else s.get .rstc 0 f
  let fc := keep F.RSTC_STATUS_FLUSH_CUT flushCut
  let vc := keep F.RSTC_STATUS_VERIFY_CUT verifyCut
  let s1 := s.coldBase
  let n := min 0xFFFF (s.boot.coldCount + 1)
  let run : ResetRun := { cold := true, cause := cause, start := 0 }
  let s2 : State := { s1 with boot := { s1.boot with coldCount := n, inReset := some run } }
  let s3 := (((s2.put .rstc 0 F.RSTC_CAUSE_LAST cause).put .rstc 0 F.RSTC_CAUSE_PREVIOUS (s.get .rstc 0 F.RSTC_CAUSE_LAST)).put .rstc 0 F.RSTC_STATUS_FLUSH_CUT
    fc).put .rstc 0 F.RSTC_STATUS_VERIFY_CUT vc
  let s4 := s3.put .rstc 0 F.RSTC_COUNTS_COLD n
  let s5 := if cause = 0x0B && flushCut then s4.raise .rstc 0 17 else s4
  (s5.within s1).coldStart

/-! ### The warm reset's flush (R587 step 2) -/

/-- A move ends with nothing changed: the entry names its source again. -/
def State.undoMove (s : State) (m : Move) : State :=
  let e := s.entry m.page
  let s1 := s.dropBuffered m.page
  let back : PEntry := if m.kind = .recallHot || m.kind = .recallDeep then { e with st := .spilled, handle := m.handle, donor := m.donor } else { e with st := m.src }
  (s1.setEntry m.page back).dropMove m.page
/-- The flush of one move: a page with held written lines becomes hot with them, every other move ends where it began. A donor is out of reach once
the cells are closed (R116). -/
def State.flushMove (s : State) (m : Move) : State :=
  let held := (List.range 64).any (fun i => (s.heldLine m.page i).isSome)
  if held && (m.kind = .promote || m.kind = .recallHot) then
    let s1 := if m.hasFrame then s else s.takeFrame m
    let s2 := if m.kind = .recallHot then s1.recallFails m.page else s1
    match s2.moveOf m.page with
    | some m2 => if m2.hasFrame then s2.promoteDone m2 [] else s2
    | none => s2
  else s.undoMove m
/-- Dirty counter-tree lines are written back level by level (R253). -/
def State.flushTree (s : State) : State :=
  let s1 := s.forN 9 (fun t level =>
    (t.crypto.cache.filter (fun x => x.level = level && x.dirty)).foldl (fun u x => u.raiseParent x.dipt x.level x.index) t)
  { s1 with crypto := { s1.crypto with cache := [] } }
/-- The flush: engine caches, held lines, line buffers, Vein queues, counter tree. -/
def State.flushAll (s : State) : State :=
  let s1 := (s.home.icache.filter (fun c => c.dirty)).foldl (fun t c => t.writeBack c.owner c.page c.line c.data) s
  let s2 : State := { s1 with home := { s1.home with icache := [] }, vq := [], hub := { s1.hub with vlb := [], wrHeld := [], accHeld := [] } }
  let s3 := s2.tier.moves.foldl (fun t m => t.flushMove m) s2
  ({ s3 with vq := [], hub := { s3.hub with vlb := [], wrHeld := [], accHeld := [] } }).flushTree
/-- Has every written line reached media? -/
def State.flushed (s : State) : Bool := !s.hub.slots.any (fun x => !x.runahead && !x.lines.isEmpty) && s.home.treeHeld.isEmpty

/-! ### What a warm reset keeps (R586) -/

/-- Pages whose active configuration, states and counters a warm reset keeps. -/
def warmKept (b : Block) : Bool := b ∈ [.tier, .dprt, .dipt, .chan]
/-- Is a bit address in the body of a kept page? -/
def keptKey (key : Nat) : Bool := match blockAt (key / 8) with
  | some (b, _, o) => warmKept b && 0x100 ≤ o
  | none => false
/-- Is a bit address an RWL field's? -/
def rwlKey (key : Nat) : Bool := match blockAt (key / 8) with
  | some (b, n, _) => (blockFields b).any (fun f => decide (f.acc = .rwl) && (List.range f.cnt).any (fun i => fkey (pg b n) f i = key))
  | none => false
/-- Single fields a warm reset keeps: counts since the last cold reset, the fault collector's numbering, SEAM_MAP, LODE_PREV, and what RSTC
records. -/
def warmFields : List (Block × Nat × Fld) :=
  (List.range 2).flatMap (fun d => [(.slab, d, F.SLAB_HEARTBEAT_MISSED), (.slab, d, F.SLAB_HEARTBEAT_LAST_MISS), (.keys, d, F.KEYS_PRIMER_DRAWS),
    (.secp, d, F.SECP_STATUS_TAKEOVERS), (.seam, d, F.SEAM_MAP_FAILED)]) ++
  [(.rest, 0, F.REST_WAKE_WAKES), (.flt, 0, F.FLT_STATUS_LAST_SEQ), (.flt, 0, F.FLT_STATUS_ANY), (.flt, 0, F.FLT_WIRE_BROKEN),
   (.flt, 0, F.FLT_WIRE_LAST_BLOCK), (.flt, 0, F.FLT_WIRE_LAST_INSTANCE), (.flt, 0, F.FLT_WIRE_LAST_LOCATION),
   (.lode, 0, F.LODE_PREV_POS_A), (.lode, 0, F.LODE_PREV_VALID_A), (.lode, 0, F.LODE_PREV_POS_B), (.lode, 0, F.LODE_PREV_VALID_B),
   (.rstc, 0, F.RSTC_CAUSE_LAST), (.rstc, 0, F.RSTC_CAUSE_PREVIOUS), (.rstc, 0, F.RSTC_STRAPS_BOOT_SRC), (.rstc, 0, F.RSTC_STRAPS_CLK_MODE),
   (.rstc, 0, F.RSTC_STRAPS_ROLE), (.rstc, 0, F.RSTC_COUNTS_WARM), (.rstc, 0, F.RSTC_COUNTS_COLD), (.rstc, 0, F.RSTC_SLAB_RESETS),
   (.rstc, 0, F.RSTC_SLAB_SLAB), (.rstc, 0, F.RSTC_SLAB_CAUSE)]
/-- The registers after a warm reset; the kept pages reopen with their staged copy equal to the active one. -/
def State.warmRegs (s : State) : State :=
  let body := s.regs.filter (fun x => keptKey x.1)
  let roles := resetRegs.foldl (fun m x => sput m x.1 x.2) body
  let t : State := { s with regs := roles, staged := body.filter (fun x => rwlKey x.1), actDue := [], blockResets := [], closedWork := [] }
  warmFields.foldl (fun u x => u.put x.1 x.2.1 x.2.2 (s.get x.1 x.2.1 x.2.2)) t
/-- The Vein page shows the grade, the retired channels and the solo rules again. -/
def State.showVein (s : State) (v : Nat) : State :=
  let ret := (List.range 8).foldl (fun m o => if s.bit .chan (chanOf v o) F.CHAN_STATUS_RETIRED then setBit m o true else m) 0
  let solo := s.mediaIn (slabOfVein v) && !s.mediaIn (1 - slabOfVein v)
  ((((s.put .vein v F.VEIN_STATUS_SPEED s.boot.grade).put .vein v F.VEIN_STATUS_CHAN_RETIRED ret).put .vein v F.VEIN_STATUS_SOLO (b2n solo))).setDeliverable v
/-- Memory as the power-on fill leaves it (R98, R210, R255). -/
def State.fillMemory (s : State) : State :=
  { s with
    media := {}
    tier := { s.tier with pmap := [], moves := [], rowBufs := [], rows := [], oldRows := [], lent := [], extents := [], lostLines := [], badImages := [], exhausted := [],
                          deferredPins := [], sweeps := [], sweeping := [], lowDipts := [] }
    crypto := { s.crypto with leaves := [], rebased := [], nodes := [], roots := [], cache := [], losses := [], ledgerSeq := [], ledgerUse := [], spillSeq := 1 }
    ports := { s.ports with poisonList := [], poisonOverflow := none } }
/-- Everything volatile returns to its reset value; what R586 keeps stays. With RETAIN 0 the keys are destroyed. -/
def State.warmClear (s : State) (retain : Bool) : State :=
  let e : State := State.reset
  let c := s.crypto
  let erased := c.erasing.map (fun x => x.1) ++ c.eraseEdge.map (fun x => x.1)
  let ctxs := if retain then c.ctxs.filter (fun x => !(x.1 ∈ erased)) else []
  let crypto : Crypto := { c with
    ctxs := ctxs, metaKey := if retain then c.metaKey else 0, erasing := [], eraseEdge := [], attrNext := [], cache := []
    alarms := [], alarmSeq := [], debugOpen := false, debugNext := false }
  let tier : Tier := { s.tier with moves := [], rowBufs := [], offers := [], rrVein := 0, sweeps := [], sweeping := [], lowDipts := [], mapCache := [], deferredPins := [], exhausted := []
                                   rebalanceTo := none, poolHeld := [], recomp := [] }
  let media : Media := { s.media with checks := [], latePass := [] }
  let gone := if 0 ∈ s.boot.absent then 1 else 0
  let tb : Timebase := { stroke := s.tb.stroke, phase := s.tb.phase, len := s.tb.len, elapsed := s.tb.elapsed
                         layerDue := s.tb.layerDue, sittingDue := s.tb.sittingDue }
  let hq := s.faults.hq.map (fun x => (x.1, { x.2 with acked := true }))
  let faults : Faults := { s.faults with hq := hq, pend := [], waiting := [], broken := [], fatalPending := false }
  let ring : Ring := { freeing := s.ring.freeing, nextTag := s.ring.nextTag, nextHandle := s.ring.nextHandle, declined := s.ring.declined, cmdSeq := s.ring.cmdSeq, keyXfer := s.ring.keyXfer }
  let top := if retain then workSize else 2 ^ 22
  let mems := zeroMem (zeroMem s.secure.mems 0 0 0 top) 0 1 0 top
  let secure : Secure := { keks := s.secure.keks, fabricKey := s.secure.fabricKey, fabricNext := s.secure.fabricNext, primary := gone, takenOver := gone = 1
                           mems := mems }
  let att := s.ports.att.map (fun x => (x.1, ({ logs := x.2.logs, overflow := x.2.overflow, nextHandle := x.2.nextHandle } : Attach)))
  let ports : Ports := { att := att.filter (fun x => x.2 ≠ {}), poisonList := s.ports.poisonList, poisonOverflow := s.ports.poisonOverflow, tstamp := s.ports.tstamp }
  let chans := s.chans.map (fun x => (x.1, ({ trained := x.2.trained } : ChanSt)))
  { s with
    tb := tb, tier := tier, media := media, veins := e.veins, chans := chans.filter (fun x => x.2 ≠ {}), vq := [], crypto := crypto, ports := ports
    home := { nextId := s.home.nextId }, hub := e.hub, regu := { layer := layerOf s.now }, faults := faults, codec := { nextId := s.codec.nextId }
    query := e.query, ring := ring, energy := { opened := s.tb.elapsed.toNat }, rest := e.rest, secure := secure }
/-- Steps 3 and 4 of R587: the channels rest in self-refresh, every hub block is held in reset. -/
def State.holdWarm (s : State) (cause : Nat) : State :=
  let retain := s.bit .keys s.primary F.KEYS_RETAIN_RETAIN
  let s1 := (s.warmRegs).warmClear retain
  let s2 := if retain then s1 else s1.fillMemory
  let run : ResetRun := { cold := false, cause := cause, start := s.now, stage := .held }
  { s2 with boot := { s2.boot with
      inReset := some run, accepted := 0, released := false, hostReady := false, gates := [], stopped := [], filled := retain, seamUp := false
      warmLeft := (List.range 16).filter (fun v => s2.mediaIn (slabOfVein v)) } }
/-- Step 1 of R587: READY falls, the links go down, the cells close, the queues stop; with RETAIN 0 there is no flush. -/
def State.beginWarm (s : State) (cause : Nat) : State :=
  let ovr := s.ovrNow
  let s1 := (((s.put .rstc 0 F.RSTC_CAUSE_PREVIOUS (s.get .rstc 0 F.RSTC_CAUSE_LAST)).put .rstc 0 F.RSTC_CAUSE_LAST cause).bump .rstc 0
    F.RSTC_COUNTS_WARM).readyFall
  let s2 := s1.forN 16 (fun t a => t.linkFalls a)
  let s3 := s2.forN 2 (fun t p => (t.closeCells p).setPairState p 0)
  let s4 := (s3.forN 18 (fun t b => t.stopBlock b)).settle
  let run : ResetRun := { cold := false, cause := cause, start := s.now, stage := .flush }
  let s5 : State := { s4 with boot := { s4.boot with inReset := some run, roleOvr := ovr } }
  if s.bit .keys s.primary F.KEYS_RETAIN_RETAIN then s5 else s5.holdWarm cause
/-- After 16 strokes of step 4 the module starts again: the Primer key is drawn fresh, the boot engines verify, the Veins run their check. -/
def State.warmRelease (s : State) (r : ResetRun) : State :=
  let s1 : State := { s with boot := { s.boot with inReset := some { r with stage := .verify, start := s.now } } }
  let mode := s1.get .rstc 0 F.RSTC_STRAPS_CLK_MODE
  let s15 := (s1.put .clkc 0 F.CLKC_STATUS_MODE mode).put .clkc 0 F.CLKC_STATUS_REF_PRESENT (b2n s1.boot.refPresent)
  let s2 := s15.takeRole.drawPrimer
  let s3 := s2.forN 2 (fun t d => t.put .keys d F.KEYS_PRIMER_DRAWS ((t.get .keys d F.KEYS_PRIMER_DRAWS + 1) % 65536))
  let s4 := if s3.boot.filled then s3 else s3.drawMeta
  let s5 := (s4.forN 16 (fun t v => t.showVein v)).bootStart false
  match s5.boot.absent with
  | [] => s5
  | d :: _ =>
    let sv := 1 - d
    let t := ((s5.put .home sv F.HOME_STATUS_ACTING 1).put .slab sv F.SLAB_STATUS_MGMT_PRIMARY 1).put .slab sv F.SLAB_STATUS_SECP_PRIMARY 1
    (t.put .slab sv F.SLAB_STATUS_SERVES_MODULE 1).put .secp sv F.SECP_STATUS_ROLE (if sv = 1 then 2 else 0)

/-! ### The Seam's training (R553) -/

/-- Groups a direction maps: 16 good ones in ascending order. -/
def goodGroups (failed : Nat) : List Nat := ((List.range 18).filter (fun g => !failed.testBit g)).take 16
/-- A trained direction: ACTIVE, SPARES_USED and its interrupt. -/
def State.seamMap (s : State) (d : Nat) : State :=
  let gs := goodGroups (s.get .seam d F.SEAM_MAP_FAILED)
  let spares := (gs.filter (fun g => 16 ≤ g)).length
  let s1 := (s.put .seam d F.SEAM_ACTIVE_ACTIVE (gs.map (fun g => 2 ^ g)).sum).put .seam d F.SEAM_STATUS_SPARES_USED spares
  if 0 < spares then s1.raise .seam d 18 else s1
/-- The Seam trains, or Slab 1 is held in reset when a direction has too few good groups. -/
def State.seamTrain (s : State) : State :=
  if (List.range 2).any (fun d => (goodGroups (s.get .seam d F.SEAM_MAP_FAILED)).length < 16) then
    let s1 := (s.put .rstc 0 F.RSTC_STATUS_S1_HELD 1).fault .seam 0 0x1D { cls := 0x1D, unit := 1 }
    s1.slabLost 1 3
  else
    let s1 := (s.seamMap 0).seamMap 1
    let s2 := s1.forN 2 (fun t d => (t.put .slab d F.SLAB_STATUS_PEER_PRESENT 1).put .slab d F.SLAB_STATUS_SEAM_UP 1)
    { s2 with boot := { s2.boot with seamUp := true } }
/-- The early steps of a start, at the first stroke edge after it: PLLs locked, the Seam trained, the ring pairs leave OFF (R467, R597). -/
def State.startEdge (s : State) : State :=
  if (s.boot.inReset.isNone || s.boot.inReset.any (fun r => r.stage = .verify)) && s.get .clkc 0 F.CLKC_STATUS_LOCKED = 0 then
    let s1 := s.put .clkc 0 F.CLKC_STATUS_LOCKED 1
    let s2 := if s1.boot.absent.isEmpty then s1.seamTrain else s1
    if s2.plainPcie then s2 else s2.ringStart
  else s

/-! ### Requests (R584, R585, R589) -/

/-- Lowest of some causes. -/
def lowest (l : List Nat) : Nat := l.foldl min 0xFF
/-- Ask for a module reset. -/
def State.askReset (s : State) (cold : Bool) (cause : Nat) : State :=
  { s with boot := { s.boot with requests := s.boot.requests ++ ([{ cold := cold, cause := cause }] : List ResetReq) } }
/-- Waker of a warm reset in Rest: a fault, a ring command, or what wrote RSTC_CMD. -/
def State.resetWaker (s : State) (cause : Nat) : Nat × State :=
  if cause = 6 then (0x09, s) else if cause = 7 then (0x46, s) else let x := s.draw 8; (x.1.toNat, x.2)
/-- A warm reset is asked for: in Rest it wakes the module first, during a wake it waits for its end. -/
def State.warmAsked (s : State) (cause : Nat) : State :=
  if s.restState = 4 then
    let x := s.resetWaker cause
    let t := x.2.wake x.1 0 false
    { t with rest := { t.rest with resetAfter := some cause } }
  else if s.restState = 5 then { s with rest := { s.rest with resetAfter := some (s.rest.resetAfter.getD cause) } }
  else s.beginWarm cause
/-- The requests pending at an edge make one reset: cold if any is; a warm request during a reset is absorbed; a warm one in Rest wakes the module
first. -/
def State.resetEdge (s : State) : State :=
  let reqs := s.boot.requests
  let s1 : State := { s with boot := { s.boot with requests := [] } }
  let colds := (reqs.filter (fun r => r.cold)).map (fun r => r.cause)
  let warms := (reqs.filter (fun r => !r.cold)).map (fun r => r.cause)
  if !colds.isEmpty then s1.beginCold (lowest colds) false false
  else if warms.isEmpty || s1.boot.inReset.isSome then s1
  else (s1.warmAsked (lowest warms)).within s1
/-- A stroke edge of a held warm reset. -/
def State.heldEdge (s : State) : State := match s.boot.inReset with
  | some r => if r.stage = .held && 16 ≤ strokesSince r.start s.now then s.warmRelease r else s
  | none => s

/-! ### Commands -/

/-- POWER_ON_RESET (R577, R597): the supervisor releases the hub's power-on reset; after a cut PSUP_LAST_TRIP shows what the store holds of it
(R580, R582). -/
def execPowerOnReset (straps : Straps) (refPresent : Bool) (s : State) : Host.Outcome State Fault Refusal :=
  .next (if s.sup.step = 7 && !s.sup.released then
    let s1 : State := { s with sup := { s.sup with released := true, atOn := if s.sup.tripDue then s.sup.mem else s.sup.atOn }, boot := { s.boot with powered := true, straps := straps, refPresent := refPresent, clkLost := [] } }
    let s2 := s1.coldBase
    let s3 : State := { s2 with boot := { s2.boot with roleOvr := none } }
    (s3.put .rstc 0 F.RSTC_COUNTS_COLD s3.boot.coldCount).coldStart
  else s)
/-- SYS_RST (R583, R617): the pin is sampled asserted in two consecutive ticks. -/
def execSysRst (s : State) : Host.Outcome State Fault Refusal :=
  let s1 : State := { s with boot := { s.boot with sysRst := true } }
  .next (if s.boot.powered && !s.boot.sysRst then s1.askReset true 2 else s1)
/-- SYS_RST_RELEASE (R583, R617): a cold reset that the pin held goes on; the straps are sampled. -/
def execSysRstRelease (straps : Straps) (refPresent : Bool) (s : State) : Host.Outcome State Fault Refusal :=
  let s1 : State := { s with boot := { s.boot with sysRst := false, straps := straps, refPresent := refPresent } }
  .next (if !s.boot.sysRst then s
    else if s1.boot.powered && s1.boot.inReset.any (fun r => r.pinHeld) then s1.coldStart else s1)
/-- RSTC_WARM (R584, R587): RSTC_CMD with OP warm. -/
def State.cmdRstcWarm (s : State) (agent : Nat) : State := s.fieldWrite agent .rstc 0 F.RSTC_CMD_OP (fun s => s.askReset false 4)
/-- RSTC_COLD (R584, R586): RSTC_CMD with OP cold. -/
def State.cmdRstcCold (s : State) (agent : Nat) : State := s.fieldWrite agent .rstc 0 F.RSTC_CMD_OP (fun s => s.askReset true 3)
/-- Strokes a flush may take. -/
def State.flushMax (s : State) : Nat := s.get .rstc 0 F.RSTC_CTL_WARM_FLUSH_MAX
/-- WARM_FLUSH_DONE (R587): every written line has reached media in time; the channels enter self-refresh. -/
def State.cmdWarmFlushDone (s : State) : State :=
  match s.boot.inReset with
    | some r =>
      let t := s.flushAll
      if r.stage = .flush && strokesSince r.start s.now ≤ s.flushMax && t.flushed then t.holdWarm r.cause else s
    | none => s
/-- WARM_FLUSH_TIMEOUT (R588): the flush has not ended in time, and the reset becomes cold. -/
def State.cmdWarmFlushTimeout (s : State) : State :=
  if s.live then match s.boot.inReset with
    | some r => if r.stage = .flush && s.flushMax ≤ strokesSince r.start s.now then s.beginCold 0x0B true false else s
    | none => s
  else s

/-! ### A Slab's reset and return (R590, R225, R224, R530, R532) -/

/-- Pages of one Slab return to their reset values, as a warm reset of that Slab alone. -/
def State.slabWipe (s : State) (d : Nat) : State :=
  let mine (key : Nat) : Bool := decide (0x400000 * d ≤ key / 8) && decide (key / 8 < 0x400000 * (d + 1))
  let t : State := { s with
    regs := s.regs.filter (fun x => !mine x.1 || keptKey x.1)
    staged := s.staged.filter (fun x => !mine x.1 || keptKey x.1)
    actDue := s.actDue.filter (fun p => !mine (8 * p))
    blockResets := s.blockResets.filter (fun p => !mine (8 * p)), closedWork := s.closedWork.filter (fun x => !mine (8 * x.1)) }
  let t1 := (t.put .slab d F.SLAB_HEARTBEAT_MISSED (s.get .slab d F.SLAB_HEARTBEAT_MISSED)).put .seam d F.SEAM_MAP_FAILED (s.get .seam d F.SEAM_MAP_FAILED)
  let t2 := ((t1.put .secp d F.SECP_STATUS_ROLE 1).put .secp d F.SECP_STATUS_TAKEOVERS (s.get .secp d F.SECP_STATUS_TAKEOVERS)).forN 18 (fun u b =>
    if ownSlab b = d then u.put .own 0 F.OWN_BLOCK_PWR_PENDING 0 b else u)
  t2.forN 8 (fun u k => u.showVein (8 * d + k))
/-- SLAB_RESET_RELEASE (R590): after 16 strokes the Slab restarts for itself alone. -/
def State.cmdSlabResetRelease (s : State) (slab : Nat) : State :=
  match s.boot.slabReset.find? (fun r => r.slab = slab) with
    | some r =>
      if 16 ≤ strokesSince r.start s.now && !(slab = 1 && s.bit .rstc 0 F.RSTC_STATUS_S1_HELD) then
        let t := s.slabWipe slab
        { t with
          secure := { t.secure with mems := zeroMem t.secure.mems 0 slab 0 workSize }
          boot := { t.boot with
            slabReset := t.boot.slabReset.filter (fun x => x.slab ≠ slab)
            clkLost := t.boot.clkLost.filter (· ≠ slab), hbMiss := (0, 0)
            warmLeft := t.boot.warmLeft ++ (List.range 8).map (· + 8 * slab) } }
      else s
    | none => s
/-- What the two Slabs' pages show alike is copied to the returned Slab (R240, R530, R532, R533). -/
def State.alikeFields : List (Block × Fld × Nat) :=
  [(.secp, F.SECP_WDOG_CTL_PERIOD, 1), (.secp, F.SECP_WDOG_CTL_ENABLE, 1), (.secp, F.SECP_WDOG_STATUS_ELAPSED, 1), (.secp, F.SECP_MEAS_SEL_SLOT, 1),
   (.secp, F.SECP_MEAS_IN_DIGEST, 12), (.secp, F.SECP_STATUS_BOOT_DONE, 1), (.keys, F.KEYS_RETAIN_RETAIN, 1), (.keys, F.KEYS_PRIMER_DRAWS, 1),
   (.mgmt, F.MGMT_BOOT_STATUS_STAGE, 1), (.mgmt, F.MGMT_BOOT_STATUS_SLOT, 1), (.mgmt, F.MGMT_BOOT_STATUS_CONFIG_DEFAULT, 1), (.mgmt, F.MGMT_BOOT_STATUS_SRC, 1)]
/-- The Slab's pages take what both show alike. -/
def State.copyAlike (s : State) (d : Nat) : State :=
  let t := State.alikeFields.foldl (fun t x => t.forN x.2.2 (fun u i => u.put x.1 d x.2.1 (s.get x.1 (1 - d) x.2.1 i) i)) s
  t.putS .keys d F.KEYS_RETAIN_RETAIN (s.getS .keys (1 - d) F.KEYS_RETAIN_RETAIN)
/-- PEER_RETURN (R225, R224): the absent Slab's reset is over, the Seam trains and its Veins have passed their check. -/
def State.cmdPeerReturn (s : State) : State :=
  match s.boot.absent with
    | [d] =>
      let sv := 1 - d
      if s.boot.returning.isSome || s.boot.slabReset.any (fun r => r.slab = d) || s.boot.warmLeft.any (fun v => slabOfVein v = d) || d ∈ s.boot.clkLost ||
          s.boot.inReset.isSome then s
      else
        let s1 : State := { s with boot := { s.boot with returning := some d, seamUp := true, hbMiss := (0, 0) }, secure := { s.secure with mirroring := true } }
        let s2 := (s1.copyAlike d).forN 2 (fun t x => (t.put .slab x F.SLAB_STATUS_PEER_PRESENT 1).put .slab x F.SLAB_STATUS_SEAM_UP 1)
        let s3 := ((s2.seamMap 0).seamMap 1).put .dprt sv F.DPRT_PEER_PEER_ABSENT 0
        let s4 := if s3.bit .dprt sv F.DPRT_PEER_SR_SAFE then s3 else
          let t := s3.forN 8 (fun t k => if (t.dipt k).st = .solo then
            (t.modDipt k (fun x => { x with stale := List.range (t.framesOf k) })).put .dipt k F.DIPT_STATUS_FULL_RESYNC 1 else t)
          let fast := (List.range 8).filterMap (fun k => if t.bit .dprt d F.DPRT_SCRUB_CTL_FAST_RETURN then some (8 * d + k) else none)
          { t with media := { t.media with fastPass := (t.media.fastPass ++ fast).dedup
                                           scrubPos := fast.foldl (fun m v => sset 0 m v 0) t.media.scrubPos
                                           scrubAge := fast.foldl (fun m v => sset 0 m v 0) t.media.scrubAge } }
        s4.vendorEvent { evOf 0 0x06 0 d with stroke := s.now }
    | _ => s

end Sys2Proof.Machine
end

