-- ==== Sys2Proof/Machine/Boot.lean ====
section
/-! DEFINITION. Boot (R592 to R598): images and their verification, the ring stream, the release of the processors, READY; the firmware commands of
the mailbox (R294, R299); the clocks (R601 to R604). -/

namespace Sys2Proof.Machine

/-! ### Images (R592, R593) -/

/-- Offset of a slot in the flash. -/
def slotBase (slot : Nat) : Nat := 0x100000 + 0x800000 * (slot % 2)
/-- Offset of a part in a slot: KIND 1 configuration, 2 secure image, 3 hub firmware image. -/
def partBase (kind : Nat) : Nat := if kind = 1 then 0 else if kind = 2 then 0x10000 else 0x400000
/-- Bytes a part may take in a slot. -/
def partLimit (kind : Nat) : Nat := if kind = 1 then 0x10000 else 0x300000
/-- Bytes read from a source. -/
def readAt (rd : Nat → Byte) (base n : Nat) : List Byte := (List.range n).map (fun i => rd (base + i))
/-- LENGTH of the part whose header stands at `base`. -/
def partLen (rd : Nat → Byte) (base : Nat) : Nat := leNat (readAt rd (base + 8) 4)
/-- The checks of R593 in order: the cause of MGMT_BOOT_FAIL, or 0 for a part that is accepted. -/
def partCheck (rd : Nat → Byte) (base kind : Nat) : Nat :=
  let head := readAt rd base 256
  let len := partLen rd base
  if sliceB head 0 4 ≠ [0x47, 0x4E, 0x49, 0x4D] || fieldB head 4 1 ≠ kind then 1
  else if partLimit kind < 256 + len then 2
  else if fieldB head 6 2 < Config.minSvn then 3
  else if !verifySig 0 (sliceB head 0 64) (sliceB head 64 96) then 4
  else if sha384 (readAt rd (base + 256) len) ≠ BitVec.ofNat 384 (fieldB head 16 48) then 5
  else 0
/-- Digest of a part's body. -/
def partDigest (rd : Nat → Byte) (base : Nat) : BitVec 384 := sha384 (readAt rd (base + 256) (partLen rd base))
/-- Where a part is read from: a flash slot; a ring stream, whose firmware image follows the secure image; or a transfer laid out as a slot. -/
def State.partAt (s : State) (kind : Nat) : (Nat → Byte) × Nat :=
  let staged (a : Nat) : Byte := sget 0 s.boot.staging a
  if kind = 1 || s.bootSrc = 0 then (s.flashByte, slotBase s.boot.slot + partBase kind)
  else if s.bootSrc = 1 then (staged, if kind = 2 then 0 else 256 + partLen staged 0)
  else (staged, partBase kind)

/-! ### Verification (R592 to R597) -/

/-- FALLBACK is set (R592, R594). -/
def State.fallback (s : State) : State := (s.putBoot F.MGMT_BOOT_STATUS_FALLBACK 1).forN 2 (fun t d => t.raise .mgmt d 17)
/-- The configuration is settled: at a cold reset the speed grade is fixed and the keys are drawn; then come the images. -/
def State.configDone (s : State) (grade : Nat) (digest : BitVec 384) (isDefault : Bool) : State :=
  let b := s.boot
  let s1 : State := { s with boot := { b with accepted := setBit b.accepted 2 true, digests := sput b.digests 1 digest } }
  let s2 := (s1.putBoot F.MGMT_BOOT_STATUS_CONFIG_DEFAULT (b2n isDefault)).putBoot F.MGMT_BOOT_STATUS_STAGE
    (if s.bootSrc = 0 then 1 else if s.bootSrc = 1 then 2 else 3)
  if s.boot.inReset.any (fun r => r.cold) && !s.boot.drawn then
    let t : State := { s2 with boot := { s2.boot with grade := if grade < 2 then grade else 2, drawn := true } }
    (t.drawMeta.drawPrimer).forN 16 (fun u v => u.showVein v)
  else s2
/-- Try a slot from its configuration on. -/
def State.trySlot (s : State) (slot : Nat) (pend : Bool) : State :=
  let b := s.boot
  let t : State := { s with boot := { b with accepted := 0, slot := slot, pendTried := pend, tried := b.tried ++ [slot], digests := [] } }
  (t.putBoot F.MGMT_BOOT_STATUS_STAGE 0).putBoot F.MGMT_BOOT_STATUS_SLOT slot
/-- Write a byte of the flash. -/
def State.putFlash (s : State) (a : Nat) (v : Byte) : State := { s with boot := { s.boot with flash := sset 0xFF s.boot.flash a v } }
/-- A flash slot has failed (R592): a failed pending slot gives way to ACTIVE, any other to the other slot; when none is left, host mailbox boot. -/
def State.slotFails (s : State) : State :=
  let b := s.boot
  let s1 := if b.pendTried then (s.putFlash 1 0xFF).fallback else s
  let next := if b.pendTried && !(s.flashActive ∈ b.tried) then s.flashActive else 1 - b.slot
  if next ∈ b.tried then
    let t : State := { s1 with boot := { s1.boot with tried := [] } }
    ((t.putBoot F.MGMT_BOOT_STATUS_SRC 2).fallback).trySlot 0 false
  else s1.trySlot next false
/-- A rejected part is recorded on its engine's page. -/
def State.partRejected (s : State) (slab kind cause : Nat) : State :=
  let s1 := ((s.put .mgmt slab F.MGMT_BOOT_FAIL_CAUSE cause).put .mgmt slab F.MGMT_BOOT_FAIL_PART kind).put .mgmt slab F.MGMT_BOOT_FAIL_SLOT s.boot.slot
  s1.raise .mgmt slab 16
/-- Does a rejected part make the reset in progress cold: in a warm reset that boots from flash? -/
def State.verifyCut (s : State) : Bool := s.bootSrc = 0 && s.boot.inReset.any (fun r => !r.cold)
/-- What the boot source asks for after a rejected part, where the reset does not become cold. -/
def State.partFails (s : State) (slab kind cause : Nat) : State :=
  let s2 := s.partRejected slab kind cause
  if s.bootSrc = 0 then s2.slotFails
  else if kind = 1 then
    if s.boot.slot = 0 && !(1 ∈ s.boot.tried) then s2.trySlot 1 false
    else s2.configDone 2 Config.defaultConfig true
  else
    let b := s2.boot
    let t : State := { s2 with boot := { b with accepted := b.accepted - b.accepted % 4, staging := [], stagedLen := 0 } }
    (t.putBoot F.MGMT_BOOT_STATUS_STAGE (if s.bootSrc = 1 then 2 else 3)).put .mgmt 0 F.MGMT_BOOT_ADDR_ADDR 0
/-- A part is accepted. -/
def State.partGood (s : State) (kind : Nat) : State :=
  let x := s.partAt kind
  let d := partDigest x.1 x.2
  if kind = 1 then s.configDone (Config.gradeOf (readAt x.1 (x.2 + 256) (partLen x.1 x.2))) d false
  else
    let b := s.boot
    let s1 : State := { s with
      secure := { s.secure with mems := loadImage s.secure.mems (kind - 2) (readAt x.1 (x.2 + 256) (partLen x.1 x.2)) }
      boot := { b with accepted := setBit b.accepted (kind - 2) true, digests := sput b.digests kind d } }
    if s1.boot.accepted % 4 = 3 then
      let s2 := s1.putBoot F.MGMT_BOOT_STATUS_STAGE 4
      if s2.bootSrc = 0 && s2.boot.pendTried then (s2.putFlash 0 (BitVec.ofNat 8 s2.boot.slot)).putFlash 1 0xFF else s2
    else s1
/-- May the boot engine of Slab `slab` have a part verified now? -/
def State.verifyDue (s : State) (slab kind : Nat) : Bool :=
  ((kind = 1 && s.stage = 0) || ((kind = 2 || kind = 3) && s.stage = 1 && !s.boot.accepted.testBit (kind - 2))) &&
    slab ≤ 1 && s.present slab && s.boot.inReset.any (fun r => r.stage = .verify)
/-- The verdict on a part: 0 accepted, else the cause (R593). -/
def State.partVerdict (s : State) (kind : Nat) (readErr : Bool) : Nat :=
  let x := s.partAt kind
  if readErr && (kind = 1 || s.bootSrc = 0) then 6 else partCheck x.1 x.2 kind
/-- BOOT_VERIFY_DONE (R593): the boot engine of a Slab has verified a part; a flash read error rejects it. -/
def State.cmdBootVerifyDone (s : State) (slab kind : Nat) (readErr : Bool) : State :=
  let cause := s.partVerdict kind readErr
  if !s.live || !s.verifyDue slab kind then s
  else if cause = 0 then (s.partGood kind).within s
  else if s.verifyCut then ((s.partRejected slab kind cause).within s).beginCold 0x0B false true
  else (s.partFails slab kind cause).within s

/-! ### The ring stream (R595) -/

/-- Words of the stream go into the staging buffer at ADDR, which advances. -/
def State.bootWords (s : State) (words : List Nat) : State :=
  let a := s.get .mgmt 0 F.MGMT_BOOT_ADDR_ADDR
  let bytes := words.flatMap (fun w => leBytes 4 w)
  let st := (bytes.zipIdx).foldl (fun m x => sset 0 m ((a + x.2) % 2 ^ 23) x.1) s.boot.staging
  { s with boot := { s.boot with staging := st, stagedLen := max s.boot.stagedLen (a + bytes.length) } }.put .mgmt 0 F.MGMT_BOOT_ADDR_ADDR
    ((a + bytes.length) % 2 ^ 23)
/-- MGMT_BOOT_DATA (R595): up to 16 words of the stream, while WAIT_RING. -/
def State.cmdMgmtBootData (s : State) (agent : Nat) (words : List Nat) : State :=
  s.fieldWrite agent .mgmt 0 F.MGMT_BOOT_DATA_DATA (fun s =>
    if s.get .mgmt 0 F.MGMT_BOOT_STATUS_STAGE = 2 && words.length ≤ 16 then s.bootWords words else s)
/-- END of a stream starts its verification. -/
def State.bootEnd (s : State) : State := if s.get .mgmt 0 F.MGMT_BOOT_STATUS_STAGE = 2 then s.putBoot F.MGMT_BOOT_STATUS_STAGE 1 else s
/-- MGMT_BOOT_END (R595). -/
def State.cmdMgmtBootEnd (s : State) (agent : Nat) : State := s.fieldWrite agent .mgmt 0 F.MGMT_BOOT_CTL_END (fun s => s.bootEnd)

/-! ### Fill, release, READY (R210, R597, R598) -/

/-- FILL_DONE (R210, R211): every channel in service is filled; a warm reset with RETAIN 0 fills once its Veins have passed their check. -/
def State.cmdFillDone (s : State) : State :=
  if s.boot.filled || !s.boot.trained || !s.boot.warmLeft.isEmpty then s
  else { s.fillMemory with boot := { s.boot with filled := true } }.put .mod 0 F.MOD_READY_FILL_DONE 1
/-- The boot measurements of slots 0 to 3 (R512). -/
def State.measureBoot (s : State) : State :=
  let g (k : Nat) : BitVec 384 := sget 0 s.boot.digests k
  let st := s.get .rstc 0 F.RSTC_STRAPS_BOOT_SRC + 4 * s.get .rstc 0 F.RSTC_STRAPS_CLK_MODE + 16 * s.get .rstc 0 F.RSTC_STRAPS_ROLE
  let id := leBytes 1 0x0B ++ leBytes 1 st ++ leBytes 6 0 ++ leBytes 8 Config.serial.toNat
  (((s.extend 0 (g 2)).extend 1 (g 3)).extend 2 (g 1)).extend 3 (sha384 id)
/-- PROCESSOR_RELEASE (R597): with the memory filled or checked and the images accepted, the processors start and are measured; in recovery only
the secure processors start, on their loader (R596). The reset is over. -/
def State.cmdProcessorRelease (s : State) : State :=
  let ready := s.boot.trained && s.boot.filled && s.boot.warmLeft.isEmpty && s.boot.inReset.any (fun r => r.stage = .verify)
  if ready && s.stage = 4 then
    let s1 : State := { s.measureBoot with boot := { s.boot with released := true, inReset := none } }
    ((s1.putBoot F.MGMT_BOOT_STATUS_STAGE 5).putSecp F.SECP_STATUS_BOOT_DONE 1).putSecp F.SECP_STATUS_MIRROR_OK (b2n s.boot.absent.isEmpty)
  else if ready && s.stage = 6 then
    let recovery := s.get .rstc 0 F.RSTC_STRAPS_BOOT_SRC = 3 && s.get .rstc 0 F.RSTC_STRAPS_CLK_MODE ≠ 3
    { s with boot := { s.boot with loader := recovery, inReset := none } }
  else s
/-- HOST_READY (R598): the management processor's write lets READY rise. -/
def State.cmdHostReady (s : State) (agent slab : Nat) : State :=
  s.fieldWrite agent .mgmt slab F.MGMT_CTL_HOST_READY (fun s =>
    if isMgmt agent then { s with boot := { s.boot with hostReady := true } } else s)
/-- Do the conditions of R598 hold? After a Rest entry that was aborted they do again (R498). -/
def State.readyDue (s : State) : Bool :=
  !s.bit .mod 0 F.MOD_READY_READY && s.boot.hostReady && s.boot.released && s.boot.inReset.isNone && s.boot.filled && (s.boot.seamUp || !s.boot.absent.isEmpty) &&
  s.restState = 0
/-- READY_RISE (R598, R277). -/
def State.cmdReadyRise (s : State) : State := if s.readyDue then s.readyRise else s

/-! ### Firmware commands (R294, R299) -/

/-- GET_FW_INFO: two slots, the active and the pending one, and the release number of each slot's hub firmware image. -/
def State.cmdGetFwInfo (s : State) (a : Nat) : State :=
  s.mbox a (fun s =>
    let rev (slot : Nat) : List Byte := readAt s.flashByte (slotBase slot + partBase 3 + 12) 4 ++ List.replicate 12 0
    let staged := (s.flashPending.map (· + 1)).getD 0
    s.answer a 0 (leBytes 1 2 ++ leBytes 1 (s.flashActive + 1 + 8 * staged) ++ List.replicate 14 0 ++ rev 0 ++ rev 1 ++ List.replicate 32 0))
/-- Bytes of a transfer go to the staging buffer, or into the slot that is not active. -/
def State.putTransfer (s : State) (ofs : Nat) (data : List Byte) (staged : Bool) : State :=
  if staged then
    let st := (data.zipIdx).foldl (fun m x => sset 0 m (ofs + x.2) x.1) s.boot.staging
    { s with boot := { s.boot with staging := st, stagedLen := max s.boot.stagedLen (ofs + data.length) } }
  else (data.zipIdx).foldl (fun t x => t.putFlash (slotBase (1 - s.flashActive) + ofs + x.2) x.1) s
/-- The recovery loader verifies each image of a finished transfer and writes them to a flash slot (R596). -/
def State.loaderEnd (s : State) : Bool × State :=
  let rd (i : Nat) : Byte := sget 0 s.boot.staging i
  if [1, 2, 3].all (fun k => partCheck rd (partBase k) k = 0) then
    let t := s.boot.staging.foldl (fun u x => u.putFlash (slotBase (1 - s.flashActive) + x.1) x.2) s
    (true, { t with boot := { t.boot with staging := [], stagedLen := 0 } })
  else (false, { s with boot := { s.boot with staging := [], stagedLen := 0 } })
/-- TRANSFER_FW: action 0 the whole package, 1 its first part, 2 a further part, 3 the last part, 4 abort. -/
def State.cmdTransferFw (s : State) (a action ofs : Nat) (data : List (BitVec 8)) : State :=
  s.mbox a (fun s =>
    let own (o : Option Nat) (t : State) : State := { t with ports := { t.ports with fwOwner := o } }
    let staged := s.stage = 3 || s.stage = 6
    if s.stage = 6 && (a ≠ 16 || !s.boot.loader) then s.answer a 3
    else if s.ports.fwOwner.any (fun o => o ≠ a) then s.answer a 6
    else if 4 < action || 0x800000 < ofs + data.length then s.answer a 2
    else if action = 4 then (own none s).answer a 0
    else if action ≤ 1 && s.ports.fwOwner.isSome then s.answer a 8
    else if 2 ≤ action && s.ports.fwOwner.isNone then s.answer a 9
    else
      let t := s.putTransfer ofs data staged
      if action = 1 || action = 2 then (own (some a) t).answer a 0
      else if s.stage = 6 then
        let x := t.loaderEnd
        (own none x.2).answer a (if x.1 then 0 else 0x0A)
      else (own none t).answer a 0)
/-- ACTIVATE_FW: PENDING takes the slot, to be tried at the next cold reset; while the module waits for a transfer, its verification starts (R594). -/
def State.cmdActivateFw (s : State) (a action slot : Nat) : State :=
  s.mbox a (fun s =>
    if s.stage = 6 then s.answer a 3
    else if s.ports.fwOwner.isSome then s.answer a 6
    else if s.stage = 3 then (s.putBoot F.MGMT_BOOT_STATUS_STAGE 1).answer a 0
    else if action ≠ 1 then s.answer a 2
    else if slot = 1 || slot = 2 then (s.putFlash 1 (BitVec.ofNat 8 (slot - 1))).answer a 0
    else s.answer a 0x0B)

/-! ### Clocks (R601 to R604) -/

/-- Clock domains: 0 to 18 and 19 to 37 of the two Slabs, 38 the supervisor's, 39 the timebase's. The gate target of a Slab's domain bit, if it has one. -/
def gateOf (slab bit : Nat) : Option Nat := if 9 ≤ bit && bit ≤ 12 then some (4 * slab + bit - 9) else if bit = 15 then some (8 + slab) else none
/-- CLOCK_LOST (R603): a gated domain is not monitored. -/
def State.cmdClockLost (s : State) (domain : Nat) : State :=
  if domain < 38 then
      let d := domain / 19
      let f := if d = 0 then F.CLKC_LOST_S0_DOMAINS else F.CLKC_LOST_S1_DOMAINS
      let gated := (gateOf d (domain % 19)).any (fun t => (s.get .clkc 0 F.CLKC_GATE_STATUS_GATED).testBit t)
      if gated then s
      else
        let t := (s.put .clkc 0 f (setBit (s.get .clkc 0 f) (domain % 19) true)).raise .clkc 0 16
        { t with boot := { t.boot with clkLost := addOnce t.boot.clkLost d } }
    else if domain = 38 then (s.put .clkc 0 F.CLKC_LOST_M_SUPERVISOR 1).raise .clkc 0 16
    else if domain = 39 then ((s.put .clkc 0 F.CLKC_LOST_M_TIMEBASE 1).raise .clkc 0 16).fault .clkc 0 0x20
    else s
/-- REFCLK_LOST (R603): in mode 0b00 the PLLs move to the oscillator and every host link goes down. -/
def State.cmdRefclkLost (s : State) : State :=
  let s1 : State := { s with boot := { s.boot with refPresent := false } }
  if s1.live then
    let t := s1.put .clkc 0 F.CLKC_STATUS_REF_PRESENT 0
    if t.get .rstc 0 F.RSTC_STRAPS_CLK_MODE = 0 then
      let u := ((t.put .clkc 0 F.CLKC_STATUS_REF_LOST 1).put .clkc 0 F.CLKC_STATUS_HOLDOVER 1).raise .clkc 0 17
      (u.forN 16 (fun v a => v.linkFalls a)).within t
    else t
  else s1
/-- REFCLK_RETURN (R603): the links may train again; a cold reset that lacked the reference goes on. -/
def State.cmdRefclkReturn (s : State) : State :=
  let s1 : State := { s with boot := { s.boot with refPresent := true } }
  if s1.boot.powered && s1.boot.inReset.any (fun r => r.pinHeld) then s1.coldStart
  else if s1.live then (s1.put .clkc 0 F.CLKC_STATUS_REF_PRESENT 1).put .clkc 0 F.CLKC_STATUS_HOLDOVER 0
  else s1
/-- Engines of a query-engine domain. -/
def domainEngines (target : Nat) : List Nat := (List.range 8).map (· + 8 * (target - 8))
/-- Are the blocks of a gatable domain idle (R601, R604)? -/
def State.domainIdle (s : State) (target : Nat) : Bool :=
  if target < 8 then !s.linkUp (2 * target) && !s.linkUp (2 * target + 1)
  else (domainEngines target).all (fun q => s.qengIdle q && !s.bit .qeng q F.QENG_CTL_ENABLE)
/-- A GO of CLKC_GATE (R604). -/
def State.clkGate (s : State) (agent target : Nat) (gate : Bool) : State :=
  if 9 < target then s
  else if s.bit .clkc 0 F.CLKC_GATE_STATUS_BUSY then s.gateRefused 4
  else if !gate then s.gateDone target false
  else if !s.domainIdle target then s.gateRefused 1
  else
    let secure := if target < 8 then [] else (domainEngines target).filter (fun q => s.ownWorld q ≠ 0)
    if secure.isEmpty then s.gateDone target true
    else if secure.any (fun q => (s.pwrOf q).isSome) then s.gateRefused 4
    else
      let t := secure.foldl (fun u q => u.defer q 1 agent) (s.put .clkc 0 F.CLKC_GATE_STATUS_BUSY 1)
      { t with boot := { t.boot with gates := t.boot.gates ++ ([{ target := target, gate := true, stamp := t.now, agent := agent, waits := secure }] : List GateReq) } }
/-- CLKC_GATE (R604). -/
def State.cmdClkcGate (s : State) (agent target : Nat) : State := s.fieldWrite agent .clkc 0 F.CLKC_GATE_GO (fun s => s.clkGate agent target true)
/-- CLKC_UNGATE (R604). -/
def State.cmdClkcUngate (s : State) (agent target : Nat) : State := s.fieldWrite agent .clkc 0 F.CLKC_GATE_GO (fun s => s.clkGate agent target false)

end Sys2Proof.Machine
end

