-- ==== Sys2Proof/Machine/RegRead.lean ====
section
/-! DEFINITION. What a register read returns (R56 to R62, R80, R82, R85): the fields held as registers, and those that show a figure of
another structure, computed here. -/

namespace Sys2Proof.Machine

/-! ### Which fields a word holds -/

/-- Instances of a field whose lowest bit lies in the word at offset `o` of its block. -/
def Fld.instAt (f : Fld) (o : Nat) : List Nat :=
  let base := 8 * f.off + f.lo
  if f.bst = 0 then (if 8 * o ≤ base && base < 8 * o + 32 then [0] else [])
  else
    let i0 := (8 * o - base + f.bst - 1) / f.bst
    ((List.range (32 / f.bst + 1)).map (· + i0)).filter (fun i => i < f.cnt && 8 * o ≤ base + f.bst * i && base + f.bst * i < 8 * o + 32)
/-- Fields of the word at offset `o` of a block, each with its instance; the header stands in the first page only (R55). -/
def wordFields (b : Block) (o : Nat) : List (Fld × Nat) :=
  ((if o < 0x100 then hdrFields else blockFields b)).flatMap (fun f => (f.instAt o).map (fun i => (f, i)))
/-- Place of an instance of a field in its word. -/
def Fld.place (f : Fld) (i o : Nat) : Nat := 8 * f.off + f.lo + f.bst * i - 8 * o

/-! ### Fields computed at the read -/

/-- Word `w` of a number. -/
def word32 (v w : Nat) : Nat := bits v (32 * w) 32
/-- The header (R60, R61). -/
def State.shownHdr (s : State) (b : Block) (n : Nat) (f : Fld) : Option Nat :=
  let p := pg b n
  if f = F.HDR_IDENT_BLOCK_ID then some b.id
  else if f = F.HDR_IDENT_INSTANCE then some n
  else if f = F.HDR_IDENT_LOCATION then some (locOf b n)
  else if f = F.HDR_CAP_RESET_OK then some (b2n (capResetOk b))
  else if f = F.HDR_CAP_ASSIGNABLE then some (b2n (capAssignable b))
  else if f = F.HDR_CAP_ALWAYS_SECURE then some (b2n (capSecure b))
  else if f = F.HDR_CAP_HAS_COMMIT then some (b2n (capHasCommit b))
  else if f = F.HDR_CAP_RING_WRITABLE then some (b2n (capRing b))
  else if f = F.HDR_CAP_PAGES then some b.pages
  else if f = F.HDR_STATUS_IDLE then some (b2n (s.blockIdle b n))
  else if f = F.HDR_STATUS_ENABLED then some (s.getP p F.HDR_CTL_ENABLE)
  else if f = F.HDR_STATUS_STICKY_LOCKED then some (s.getP p F.HDR_LOCK_STICKY)
  else if f = F.HDR_STATUS_ERROR then some (s.getP p F.HDR_ERR_PTR_VALID)
  else if f = F.HDR_OWNER_WORLD then some (s.world b n)
  else if f = F.HDR_OWNER_OWNER_FIXED then some (b2n (capSecure b))
  else none
/-- SLAB, TMB and MOD (R53, R58, R84, R85). -/
def State.shownTop (s : State) (agent : Nat) (b : Block) (n : Nat) (f : Fld) : Option Nat := match b with
  | .slab =>
    if f = F.SLAB_DIE_DIE_ID then some (Config.dieId n).toNat
    else if f = F.SLAB_TEMP_TEMP then some (s.get .ledg 0 F.LEDG_SENSOR_READING (10 + n) % 65536)
    else none
  | .tmb =>
    let l := sget (0, 0) s.tb.latches agent
    if f = F.TMB_STROKE_LO_STROKE_LO then some (s.now.toNat % 2 ^ 32)
    else if f = F.TMB_STROKE_HI_STROKE_HI then some l.1
    else if f = F.TMB_PHASE_PHASE then some l.2
    else if f = F.TMB_STATUS_SLEWING then some (b2n (s.tb.len ≠ 192))
    else if f = F.TMB_STATUS_HOT_REFRESH then some (b2n s.tb.hot)
    else if f = F.TMB_LOCAL_ELAPSED_ELAPSED then some s.tb.elapsed.toNat
    else none
  | .mod =>
    if f = F.MOD_INT_SUM_S0_PENDING then some (s.intSum 0 (isSecp agent))
    else if f = F.MOD_INT_SUM_S1_PENDING then some (s.intSum 1 (isSecp agent))
    else if f = F.MOD_INT_SUM_M_PENDING then some (s.intSum 2 (isSecp agent))
    else none
  | _ => none
/-- PORT (R277, R282, R305): the fields of the second half read zero while the port is whole. -/
def State.shownPort (s : State) (p : Nat) (f : Fld) (i : Nat) : Option Nat :=
  let a := 2 * p + i
  if i = 1 && f.cnt = 2 && !s.bit .port p F.PORT_CFG_SPLIT then some 0
  else if f = F.PORT_LINK_READY then some (s.get .mod 0 F.MOD_READY_READY)
  else if f = F.PORT_INGRESS_DEPTH then some (s.ingress a)
  else if f = F.PORT_INGRESS_LEVEL then some (min 7 (s.ingress a * 8 / s.ingressSize a))
  else if f = F.PORT_INGRESS_SIZE then some (s.ingressSize a)
  else none
/-- TIER (R119, R122). -/
def State.shownTier (s : State) (f : Fld) : Option Nat :=
  if f = F.TIER_HOT_FREE_FREE_FRAMES then some (((List.range 8).map s.freeFrames).foldl min (2 ^ 24 - 1))
  else if f = F.TIER_DEEP_FREE_FREE_ROWS then some s.freeRowsAll
  else if f = F.TIER_RATIO_RATIO then some s.ratio
  else if f = F.TIER_EFFECTIVE_EFFECTIVE then some s.effective
  else if f = F.TIER_COUNT_HOT_PAGES then some (s.countPages .hot)
  else if f = F.TIER_COUNT_DEEP_PAGES then some (s.countPages .deep)
  else if f = F.TIER_COUNT_PLAIN_PAGES then some (s.countPages .plain)
  else if f = F.TIER_COUNT_SPILLED_PAGES then some (s.countPages .spilled)
  else if f = F.TIER_COUNT_LENT_PAGES then some s.tier.lent.length
  else if f = F.TIER_STATUS_REBALANCING then some (b2n s.tier.rebalanceTo.isSome)
  else if f = F.TIER_STATUS_OVERCOMMIT then some (b2n (decide (s.effective < s.granted256)))
  else none
/-- Home of the pages that are homed at Slab `h` (R334). -/
def State.servedBy (s : State) (h : Nat) : Nat := if s.bit .home (1 - h) F.HOME_STATUS_ACTING then 1 - h else h
/-- HOME (R340). -/
def State.shownHome (s : State) (n : Nat) (f : Fld) : Option Nat :=
  let reg := s.get .home n F.HOME_CENSUS_SEL_REGION
  if f = F.HOME_DIR_VALID_ENTRIES then some ((s.home.dir.filter (fun x => s.servedBy (x.1 / 4194304 % 2) = n)).length)
  else if f = F.HOME_VICTIM_OCCUPANCY then some ((s.home.victims.filter (fun v => s.servedBy v.slab = n)).length)
  else if f = F.HOME_TRACKER_OCCUPANCY then some (s.trackers n).1
  else if f = F.HOME_TRACKER_RESERVED_USED then some (s.trackers n).2
  else if f = F.HOME_UNKNOWN_REGIONS_REGIONS then some ((s.home.unknown.filter (fun u => s.servedBy (u / 524288) = n)).length)
  else if f = F.HOME_CENSUS_COUNT then some (s.census n reg)
  else if f = F.HOME_CENSUS_UNKNOWN then some (b2n (decide ((524288 * n + reg) ∈ s.home.unknown)))
  else if f = F.HOME_CENSUS_MIRROR then some (b2n (decide (s.servedBy n ≠ n)))
  else none
/-- HCAC, CODC, OFLD and QGTH, QENG of a Slab or engine. -/
def State.shownEngines (s : State) (b : Block) (n : Nat) (f : Fld) (i : Nat) : Option Nat := match b with
  | .hcac =>
    if f = F.HCAC_STATUS_RUNAHEAD_USED then some ((s.hub.slots.filter (fun x => x.slab = n && x.runahead)).length)
    else if f = F.HCAC_STATUS_SWEEPING then some (b2n (decide (n ∈ s.hub.sweeping)))
    else if f = F.HCAC_STATUS_VLB_FULL then some (((List.range 8).filter (fun v => 256 ≤ s.vlbUsed (8 * n + v))).foldl (fun x v => x + 2 ^ v) 0)
    else none
  | .codc =>
    let lanes (off : Bool) : Nat := ((List.range 16).filter (fun l => match sget none s.codec.lanes (16 * n + l) with
      | some w => !off || w.offload
      | none => false)).foldl (fun x l => x + 2 ^ l) 0
    if f = F.CODC_LANE_BUSY_BUSY then some (lanes false)
    else if f = F.CODC_LANE_BUSY_OFFLOAD then some (lanes true)
    else none
  | .ofld =>
    if f = F.OFLD_STATUS_ACTIVE_CTX then some (s.activeCtxs n).length
    else if f = F.OFLD_STATUS_JOBS_RUNNING then
      some (((List.range 16).filter (fun l => match sget none s.codec.lanes (16 * n + l) with
        | some w => w.offload
        | none => false)).length + (s.codec.waiting.filter (fun w => w.1 = n && w.2.offload)).length)
    else none
  | .qeng =>
    if f = F.QENG_STATUS_RUNNING then some (b2n (s.qjob n).isSome)
    else if f = F.QENG_STATUS_THROTTLED then some (b2n s.query.throttled)
    else if f = F.QENG_STATUS_HELD then some (s.qHeld n)
    else if f = F.QENG_STATUS_FLUSH_BUSY then some (b2n (decide (n ∈ s.query.flushing)))
    else none
  | .qgth =>
    let inSlots := (s.query.slots.filter (fun x => x.1 / 16 = n && (x.2.map (fun r => r.cq)) = some i)).length
    let heldFor := (s.query.held.filter (fun r => s.qCqSlab r.engine = n && s.get .qeng r.engine F.QENG_SQ_CTL_CQ = i)).length
    if f = F.QGTH_CQ_STATUS_WAITING then some (inSlots + heldFor)
    else if f = F.QGTH_SLOTS_PENDING then
      some (((List.range 16).filter (fun q => (sget none s.query.slots (16 * n + q)).isSome)).foldl (fun x q => x + 2 ^ q) 0)
    else none
  | _ => none
/-- VEIN, DIPT, DPRT, CRYP, KEYS, SEAM and CLKC; in ring-recovered mode the oscillator stands in before lock, in holdover, and where there is no
timing upstream (R602). -/
def State.shownMedia (s : State) (b : Block) (n : Nat) (f : Fld) (i : Nat) : Option Nat := match b with
  | .vein =>
    let q := s.vq.filter (fun a => a.vein = n)
    let adm := s.admittedQueued n
    let wr := ((q.filter (fun a => a.write)).map (fun a => a.count)).sum
    if f = F.VEIN_QUEUE_ADMITTED_DEPTH then some adm
    else if f = F.VEIN_QUEUE_WRITE_DEPTH then some wr
    else if f = F.VEIN_QUEUE_OTHER_DEPTH then some ((q.filter (fun a => !a.write && !a.admitted)).map (fun a => a.count)).sum
    else if f = F.VEIN_CHAN_INT_SUM_PENDING then some (((List.range 8).filter (fun o => s.intOut (pg .chan (chanOf n o)))).foldl (fun x o => x + 2 ^ o) 0)
    else none
  | .dipt =>
    if f = F.DIPT_FRAMES_FRAMES then some (if s.bit .mod 0 F.MOD_READY_FILL_DONE then s.framesOf n else 0)
    else if f = F.DIPT_RESYNC_LEFT_FRAMES then some (s.dipt n).stale.length
    else if f = F.DIPT_RELOC_LEFT_ITEMS then some (s.relocLeft n)
    else none
  | .dprt => if f = F.DPRT_PEER_ACTING_HOME then some (s.get .home n F.HOME_STATUS_ACTING) else none
  | .cryp =>
    if f = F.CRYP_STATUS_DEBUG_BLOCK then some (b2n s.crypto.debugOpen)
    else if f = F.CRYP_STATUS_REBUILDING then some (b2n (s.crypto.losses.any (fun l => s.ownerOf l.dipt = n)))
    else if f = F.CRYP_STATUS_OWNED then some (((List.range 8).filter (fun k => s.ownerOf k = n)).foldl (fun x k => x + 2 ^ k) 0)
    else if f = F.CRYP_ALARM_DATA_DATA then some (match sfind s.crypto.alarms (16 * n + s.get .cryp n F.CRYP_ALARM_SEL_ENTRY) with
      | some a => word32 a.word i
      | none => 0)
    else none
  | .keys => if f = F.KEYS_COUNT_VALID_CTX then some (1 + (s.crypto.ctxs.filter (fun x => x.1 ≠ 0 && x.2.valid)).length) else none
  | .seam => if f = F.SEAM_STATUS_UP then some (b2n s.boot.seamUp) else none
  | .clkc => if f = F.CLKC_STATUS_HOLDOVER && s.get .clkc 0 F.CLKC_STATUS_MODE = 2 then
      some (b2n (s.get .lode 0 F.LODE_STATE_TIMING_PORT = 0 || s.bit .lode 0 F.LODE_STATE_HOLDOVER)) else none
  | _ => none
/-- The bytes of a Rest log record (R499), as one number. -/
def RestRec.word (r : RestRec) : Nat :=
  leNat (leBytes 2 r.seq ++ leBytes 1 r.kind ++ leBytes 1 r.reason ++ leBytes 1 r.agent ++ leBytes 1 r.unit ++ leBytes 2 0 ++ leBytes 6 r.stamp.toNat ++
    leBytes 2 0)
/-- REGU, RING, REST, SECP, OWN, FLT and PSUP. -/
def State.shownModule (s : State) (b : Block) (n : Nat) (f : Fld) (i : Nat) : Option Nat := match b with
  | .regu =>
    if f = F.REGU_MISS_DATA_DATA then some (word32 (sget 0 s.regu.missQ (s.get .regu 0 F.REGU_MISS_SEL_ENTRY)).toNat i)
    else if f = F.REGU_OUTSTANDING_HOME0 then some (s.outstanding i 0)
    else if f = F.REGU_OUTSTANDING_HOME1 then some (s.outstanding i 1)
    else none
  | .ring =>
    let bulk := s.ring.egress.filterMap (fun e => if slabOfSide e.2.1 = n && (e.2.2.ty = 0x12 || e.2.2.ty = 0x15) then some (e.2.2.dst, e.2.2.tag) else none)
    if f = F.RING_BULK_STATUS_USED then some (min 2048 (4 * bulk.dedup.length)) else none
  | .rest =>
    let a := s.get .rest 0 F.REST_AGENT_SEL_AGENT
    if f = F.REST_AGENT_COUNT_REFUSED_BY then some (sget 0 s.rest.refusedBy a)
    else if f = F.REST_AGENT_COUNT_ABORTED_BY then some (sget 0 s.rest.abortedBy a)
    else if f = F.REST_LOG_DATA_DATA then some (match sget none s.rest.log (s.get .rest 0 F.REST_LOG_SEL_ENTRY) with
      | some r => word32 r.word i
      | none => 0)
    else none
  | .secp =>
    let slot := s.get .secp n F.SECP_MEAS_SEL_SLOT
    if f = F.SECP_STATUS_DEBUG_OPEN then some (b2n s.crypto.debugOpen)
    else if f = F.SECP_MEAS_SEL_COUNT then some (sget 0 s.secure.counts slot)
    else if f = F.SECP_MEAS_VAL_VALUE then some (word32 (s.measSlot slot).toNat i)
    else none
  | .own => if f = F.OWN_BLOCK_WORLD then some (s.ownWorld i) else none
  | .flt =>
    let c := sget (0, 0) s.faults.counts (s.get .flt 0 F.FLT_CLASS_SEL_CLASS)
    if f = F.FLT_STATUS_L2_PENDING then some (b2n s.l2Pending)
    else if f = F.FLT_STATUS_FATAL_VALID then some (b2n s.faults.lastFatal.isSome)
    else if f = F.FLT_PENDING_PENDING then some (s.pendingWord i)
    else if f = F.FLT_CLASS_COUNT_RECORDS then some c.1
    else if f = F.FLT_CLASS_COUNT_ESCALATED then some c.2
    else if f = F.FLT_LAST_FATAL_DATA then some (s.fatalWord i)
    else if f = F.FLT_HQ_DATA then some (s.hqWord (i / 8) (i % 8))
    else none
  | .psup =>
    let at_ (r : Fld) (v : Nat) : Option Nat := if f.off = r.off then some (bits v f.lo f.w) else none
    (at_ F.PSUP_STATUS_STATE s.psupStatus).orElse (fun _ => (at_ F.PSUP_LAST_TRIP_CAUSE s.psupLastTrip).orElse (fun _ =>
      (at_ F.PSUP_MEMORY_COUNT s.psupMemory).orElse (fun _ => (at_ F.PSUP_COUNTS_TRIPS (s.sup.limitEvents + 0x10000 * s.sup.trips)).orElse (fun _ =>
        at_ F.PSUP_RAILS_GOOD (s.sup.rails + 0x100 * s.sup.failed)))))
  | _ => none
/-- A figure computed at the read, if the field is one. -/
def State.shown (s : State) (agent : Nat) (b : Block) (n : Nat) (f : Fld) (i : Nat) : Option Nat :=
  if f ∈ hdrFields then s.shownHdr b n f
  else match b with
    | .slab | .tmb | .mod => s.shownTop agent b n f
    | .port => s.shownPort n f i
    | .tier => s.shownTier f
    | .home => s.shownHome n f
    | .hcac | .codc | .ofld | .qeng | .qgth => s.shownEngines b n f i
    | .vein | .dipt | .dprt | .cryp | .keys | .seam | .clkc => s.shownMedia b n f i
    | .regu | .ring | .rest | .secp | .own | .flt | .psup => s.shownModule b n f i
    | .mgmt | .pmap | .chan | .rstc | .ledg | .lode => none

/-! ### Reading (R56 to R59, R76, R80, R82) -/

/-- Value a field returns: zero for WO; the staged value of an RWL field while its page is open, the active one while it is locked. -/
def State.fieldView (s : State) (agent : Nat) (b : Block) (n : Nat) (f : Fld) (i : Nat) : Nat :=
  if f.acc = .wo then 0
  else match s.shown agent b n f i with
    | some v => v % 2 ^ f.w
    | none => if f.acc = .rwl && s.bit b n F.HDR_STATUS_OPEN then s.getS b n f i else s.get b n f i
/-- The 32-bit register at offset `o` of a block; a reserved one reads zero (R57). -/
def State.wordView (s : State) (agent : Nat) (b : Block) (n o : Nat) : Nat :=
  (wordFields b o).foldl (fun x y => x + s.fieldView agent b n y.1 y.2 * 2 ^ y.1.place y.2 o) 0
/-- What a read of a register changes: TMB_STROKE_LO latches STROKE_HI and PHASE for the reader (R37, R58). -/
def State.readEffect (s : State) (agent : Nat) (b : Block) (o : Nat) : State :=
  if b = .tmb && o = 0x100 then
    { s with tb := { s.tb with latches := sset (0, 0) s.tb.latches agent (s.now.toNat / 2 ^ 32, s.tb.phase) } }
  else s
/-- A 32-bit read that no rule drops. -/
def State.readWord (s : State) (agent off : Nat) : Nat × State := match blockAt off with
  | some (b, n, o) => (s.wordView agent b n (o / 4 * 4), s.readEffect agent b (o / 4 * 4))
  | none => (0, s)
/-- A read of up to 4 bytes by an agent: its value, dropped reads answered with zero, or all ones for an absent Slab (R56, R76). -/
def State.narrowRead (s : State) (agent off width : Nat) : Nat × State := match s.dropCause agent off width false with
  | some c => (if c = 3 then 2 ^ (8 * width) - 1 else 0, s.denied agent off c false)
  | none =>
    let r := s.readWord agent off
    (r.1 / 2 ^ (8 * (off % 4)) % 2 ^ (8 * width), r.2)
/-- Is an access of 8 bytes dropped as a whole: its Slab is absent or it is misaligned? -/
def State.wideDrop (s : State) (agent off : Nat) (write : Bool) : Option Nat := (s.dropCause agent off 8 write).filter (fun c => 2 ≤ c)
/-- A read of 1, 2, 4 or 8 bytes by an agent; one of 8 bytes is two of 4, the lower first (R56). -/
def State.busRead (s : State) (agent off width : Nat) : Nat × State :=
  if width = 8 then match s.wideDrop agent off false with
    | some c => (if c = 3 then 2 ^ 64 - 1 else 0, s.denied agent off c false)
    | none =>
      let lo := s.narrowRead agent off 4
      let hi := lo.2.narrowRead agent (off + 4) 4
      (lo.1 + 2 ^ 32 * hi.1, hi.2)
  else s.narrowRead agent off width

/-- TMB_STROKE_READ (R37): a read of TMB_STROKE_LO latches STROKE_HI and PHASE for the reading agent. -/
def State.cmdTmbStrokeRead (s : State) (agent : Nat) : State :=
  let r := s.busRead agent (pg .tmb 0 + F.TMB_STROKE_LO_STROKE_LO.off) 4
  r.2.emit (.regData agent (pg .tmb 0 + F.TMB_STROKE_LO_STROKE_LO.off) r.1)

end Sys2Proof.Machine
end

