-- ==== Sys2Proof/Machine/Commit.lean ====
section
/-! DEFINITION. Commit and lock (R64 to R70): the check of each chapter, acceptance, activation with what it brings about, unlocks, sticky locks,
and block-level resets (R599). -/

namespace Sys2Proof.Machine

/-! ### What a commit is checked for (R65, R66) -/

/-- Logical pages of a ring of `2 ^ log` entries of `size` bytes. -/
def ringPages (log size : Nat) : Nat := (2 ^ log * size + 4095) / 4096
/-- Page ranges of an OFLD page's rings and context area, read by `g`. -/
def ofldRanges (g : Fld → Nat → Nat) : List (Nat × Nat) :=
  (g F.OFLD_CTX_BASE_PAGE 0, 6144) :: (List.range 8).flatMap (fun q =>
    [(g F.OFLD_SQ_BASE_PAGE q, ringPages (g F.OFLD_SQ_CTL_LOG2_SIZE q) 64), (g F.OFLD_CQ_BASE_PAGE q, ringPages (g F.OFLD_SQ_CTL_LOG2_SIZE q) 32)])
/-- Page range of an engine's submission ring. -/
def qengRange (g : Fld → Nat → Nat) : Nat × Nat := (g F.QENG_SQ_BASE_PAGE 0, ringPages (g F.QENG_SQ_CTL_LOG2_SIZE 0) 128)
/-- Page ranges of a gatherer's valid rings. -/
def qgthRanges (g : Fld → Nat → Nat) : List (Nat × Nat) :=
  ((List.range 4).filter (fun c => g F.QGTH_CQ_CTL_VALID c = 1)).map (fun c => (g F.QGTH_CQ_BASE_PAGE c, ringPages (g F.QGTH_CQ_CTL_LOG2_SIZE c) 64))
/-- Is a ring size outside 4 to 12? -/
def badLog2 (n : Nat) : Bool := n < 4 || 12 < n
/-- Logical pages there are. -/
def State.pageCount (s : State) : Nat := s.get .tier 0 F.TIER_CAP_LOGICAL_CAP * 65536
/-- Do two page ranges overlap? -/
def rangesMeet (a b : Nat × Nat) : Bool := a.1 < b.1 + b.2 && b.1 < a.1 + a.2
/-- Do two ranges of a list overlap? -/
def anyMeet : List (Nat × Nat) → Bool
  | [] => false
  | a :: r => r.any (rangesMeet a) || anyMeet r

/-- Does the staged alias table break R87 for a port? -/
def State.portBad (s : State) (p : Nat) : Bool :=
  let t := s.hdmAhead.forN 8 (fun u d => (u.put .port p F.PORT_DEC_ALIAS_WIDTH (s.getS .port p F.PORT_DEC_ALIAS_WIDTH d) d).put .port p
    F.PORT_DEC_ALIAS_ALIAS_BASE (s.getS .port p F.PORT_DEC_ALIAS_ALIAS_BASE d) d)
  s.getS .port p F.PORT_DC_CTL_OFFER_TIMEOUT = 0 ||
  (List.range 8).any (fun d => let w := s.getS .port p F.PORT_DEC_ALIAS_WIDTH d
    6 < w || 64 < s.getS .port p F.PORT_DEC_ALIAS_ALIAS_BASE d + 2 ^ w) ||
  (t.halves p).any (fun a => (t.committedDecs a).any (fun x => t.breaks87 p x.1 (t.dec p x.1).size (t.dec p x.1).ways x.2))

/-- Lowest-numbered free rows of a Vein, at most `need` (R112). -/
def State.lowRows (s : State) (v need : Nat) : List Nat :=
  let start := if s.hotH < s.hotNext then s.hotNext - s.hotH else 0
  (((List.range (2 * (need + (s.rowsTaken v).length + s.home.reads.length) + 64)).map (· + start)).filter (s.rowFree v)).take need
/-- Rows a larger pool adds in a Vein (R113). -/
def State.rowsAdded (s : State) (v gib : Nat) : Nat := if s.veinRet v then 0 else s.poolShare gib - (s.tier.pool.filter (fun k => k / 2 ^ 24 = v)).length
/-- The causes of R91, as bits 1 to 3. -/
def State.leftOut (s : State) (logical static : Nat) : Nat :=
  let exts := s.tier.extents ++ s.tier.offers.map (fun o => o.2.1)
  let b1 := exts.any (fun x => logical < x.1 + x.2 || x.1 < static)
  let t := s.hdmAhead
  let b2 := (List.range 8).any (fun p => (t.halves p).any (fun a => (t.committedDecs a).any (fun x => logical * 2 ^ 28 < x.2 + t.aliasSpan p x.1)))
  let rs := (List.range 2).flatMap (fun d => ofldRanges (fun f i => s.get .ofld d f i)) ++ (List.range 16).map (fun q => qengRange (fun f i => s.get .qeng q f i)) ++
    (List.range 2).flatMap (fun d => qgthRanges (fun f i => s.get .qgth d f i))
  let b3 := rs.any (fun r => logical * 65536 - 1 < r.1 + r.2)
  2 * b2n b1 + 4 * b2n b2 + 8 * b2n b3
/-- The check of a TIER commit (R90, R91, R113, R121): code and DETAIL. -/
def State.tierCheck (s : State) : Nat × Nat :=
  let g (f : Fld) : Nat := s.getS .tier 0 f
  let logical := g F.TIER_CAP_LOGICAL_CAP
  let static := g F.TIER_CAP_STATIC_CAP
  let share := g F.TIER_HOT_HOT_SHARE
  let high := g F.TIER_FREE_FREE_HIGH
  let out := s.leftOut logical static
  let small := (List.range 8).any (fun k =>
    let cap := if s.diptRet k then 6 * hotChunks share / 7 else hotChunks share
    cap < s.pinnedOf k + 256 * high)
  let bad := static > logical || logical = 0 || 8192 < logical || 1024 < share || small || high < g F.TIER_FREE_FREE_LOW || out ≠ 0
  if bad then (1, out)
  else
    let t : State := if share = s.get .tier 0 F.TIER_HOT_HOT_SHARE then s else { s with tier := { s.tier with rebalanceTo := some share } }
    let gib := g F.TIER_SPILL_DONATE
    let short := if s.get .tier 0 F.TIER_SPILL_DONATE < gib then
        ((List.range 16).map (fun v => t.rowsAdded v gib - (t.lowRows v (t.rowsAdded v gib)).length)).sum
      else 0
    if short ≠ 0 then (2, min 0xFFFFFF ((short + 262143) / 262144)) else (0, b2n (decide (s.effective < logical)))

/-- The check of a page's staged copy: code and DETAIL. -/
def State.commitCheck (s : State) (b : Block) (n : Nat) : Nat × Nat :=
  let g (f : Fld) (i : Nat := 0) : Nat := s.getS b n f i
  let g2 (f : Fld) (i : Nat) : Nat := s.getS b n f i
  let one (bad : Bool) : Nat × Nat := (b2n bad, 0)
  match b with
  | .port => one (s.portBad n)
  | .tier => s.tierCheck
  | .vein => one (g F.VEIN_PANIC_CTL_PANIC_ON ≤ g F.VEIN_PANIC_CTL_PANIC_OFF || g F.VEIN_FB_CTL_FB_HEAVY ≤ g F.VEIN_FB_CTL_FB_MODERATE ||
      g F.VEIN_SCHED_CTL_WQ_HIGH ≤ g F.VEIN_SCHED_CTL_WQ_LOW || g F.VEIN_SCHED_CTL_WQ_HIGH = 0)
  | .chan => one (g F.CHAN_TRAIN_CTL_EYE_MIN = 0)
  | .ofld => one (s.get .ofld n F.OFLD_QUEUE_EN_ENABLE ≠ 0 || (List.range 8).any (fun q => badLog2 (g F.OFLD_SQ_CTL_LOG2_SIZE q)) ||
      (ofldRanges g2).any (fun r => s.pageCount < r.1 + r.2))
  | .qeng => one (badLog2 (g F.QENG_SQ_CTL_LOG2_SIZE) || s.pageCount < (qengRange g2).1 + (qengRange g2).2 || s.bit .qeng n F.QENG_CTL_ENABLE)
  | .qgth => one ((List.range 4).any (fun c => badLog2 (g F.QGTH_CQ_CTL_LOG2_SIZE c)) || (qgthRanges g2).any (fun r => s.pageCount < r.1 + r.2) ||
      anyMeet (qgthRanges g2))
  | .dprt => one (g F.DPRT_BUCKET_CFG_THRESH = 0 || (g F.DPRT_SCRUB_CTL_RATE = 0 && g F.DPRT_SCRUB_CTL_SCRUB_EN = 1))
  | .home => one (g F.HOME_CTL_PRED_THRESH = 0 || g F.HOME_CTL_NEAR_MIN = 0)
  | .hcac => one (256 < g F.HCAC_CTL_RUNAHEAD_MAX)
  | .regu => let r := s.reguCheck
    (r.1, r.2.1)
  | .ring => one (g F.RING_BUCKET_CFG_THRESH = 0)
  | .seam => one (g F.SEAM_BUCKET_CFG_THRESH = 0)
  | .lode => one (g F.LODE_CTL_SPLICE_PERIOD = 0)
  | .ledg => one (g F.LEDG_CAP_CAP_W < 120 || 380 < g F.LEDG_CAP_CAP_W || g F.LEDG_FLOOR_FG_FLOOR = 0 || g F.LEDG_COST_COST 0 = 0)
  | .rest => one (g F.REST_CFG_SKETCH_PERIOD < 4 || 16 < g F.REST_CFG_SKETCH_PERIOD || g F.REST_CFG_METER_PERIOD < 16 || g F.REST_CFG_DRAIN_MAX = 0)
  | .rstc => one (g F.RSTC_CTL_WARM_FLUSH_MAX = 0)
  | .codc | .dipt | .cryp | .keys => (0, 0)
  | .slab | .mgmt | .secp | .pmap | .mod | .tmb | .psup | .clkc | .flt | .own => (1, 0)

/-! ### Activation (R65 and each chapter) -/

/-- Where a block's commits activate. -/
inductive ActPoint
  | edge | layer | sitting | training | atOnce
deriving DecidableEq, Repr
/-- Does the TIER commit that waits change HOT_SHARE, and DONATE? -/
def State.shareChanges (s : State) : Bool := s.getS .tier 0 F.TIER_HOT_HOT_SHARE ≠ s.get .tier 0 F.TIER_HOT_HOT_SHARE
def State.donateChanges (s : State) : Bool := s.getS .tier 0 F.TIER_SPILL_DONATE ≠ s.get .tier 0 F.TIER_SPILL_DONATE
/-- Activation point of a block. -/
def State.actPoint (s : State) (b : Block) : ActPoint := match b with
  | .vein | .dipt | .regu | .ring | .seam => .layer
  | .codc | .dprt | .lode | .ledg => .sitting
  | .tier => if s.donateChanges then .sitting else .edge
  | .chan => .training
  | .rstc | .keys => .atOnce
  | _ => .edge
/-- Are all chunks that change sides empty (R121)? -/
def State.shareReady (s : State) : Bool :=
  let h0 := s.hotH
  let h1 := s.hotNext
  if h1 < h0 then (List.range 8).all (fun k => (s.usedFrames k).all (fun f => f < s.framesAlloc k))
  else
    let d := h1 - h0
    (List.range 16).all (fun v =>
      !s.tier.rows.any (fun x => x.1 / 2 ^ 24 = v && x.1 % 2 ^ 24 < d) && !s.tier.rowBufs.any (fun x => x.vein = v && x.row < d) &&
      !s.home.reads.any (fun x => (x.loc.st = .deep || x.loc.st = .plain) && x.loc.vein = v && x.st ≠ .ready && x.loc.loc / 7 < d) &&
      (let lost := (s.tier.pool.filter (fun k => k / 2 ^ 24 = v && k % 2 ^ 24 < d)).length
       (s.lowRows v lost).length = lost))
/-- Non-form RWL fields of a PORT page, with their instances. -/
def portEdgeFields : List (Fld × Nat) :=
  [F.PORT_CFG_IDE_REQUIRED, F.PORT_CFG_DEVLOAD_EN, F.PORT_DC_CTL_OFFER_TIMEOUT, F.PORT_ALIAS_KEY_CTX, F.PORT_ALIAS_VALID, F.PORT_DEC_ALIAS_WIDTH,
    F.PORT_DEC_ALIAS_ALIAS_BASE].flatMap (fun f => (List.range f.cnt).map (fun i => (f, i)))
/-- Has every half of a port been reset since a change of its form was accepted (R273)? -/
def State.formReady (s : State) (p : Nat) : Bool := !s.formChanges p || (s.halves p).all (fun a => (s.att a).sawReset)
/-- Is a pending commit of a page at its activation point, at a boundary of the kind given? -/
def State.commitDue (s : State) (b : Block) (n : Nat) (at_ : ActPoint) : Bool :=
  s.bit b n F.HDR_STATUS_COMMIT_PENDING && s.actPoint b = at_ &&
  (match b with
   | .port => s.formReady n || portEdgeFields.any (fun x => s.getS .port n x.1 x.2 ≠ s.get .port n x.1 x.2)
   | .tier =>
     (!s.shareChanges || (s.donateChanges && s.shareReady)) &&
     (s.get .tier 0 F.TIER_SPILL_DONATE ≤ s.getS .tier 0 F.TIER_SPILL_DONATE || s.lentFits (s.getS .tier 0 F.TIER_SPILL_DONATE) 0)
   | _ => true)

/-- Chunks change sides at the activation of a HOT_SHARE change (R101, R121, R247, R248): deep rows are numbered from the new start of the deep
area, so that what lies in a row keeps its chunk and its bytes and takes the name of its new number; a position that changes form takes new
version fields. -/
def State.changeShare (s : State) (h0 h1 : Nat) : State :=
  let gran (g : Nat) : Nat := g + 7 * h0 - 7 * h1
  let row (r : Nat) : Nat := r + h0 - h1
  let key (k : Nat) : Nat := k / 2 ^ 24 * 2 ^ 24 + row (k % 2 ^ 24)
  let ren (x : Sealed) : Sealed := if x.name % 8 = 2 then { x with name := x.name + 896 * h0 - 896 * h1 } else x
  let again (x : Stored) : Stored := { x with sealedIn := ren x.sealedIn }
  let deepAt (e : PEntry) (st : PState) : PEntry := if st = .deep || st = .plain then { e with loc := gran e.loc } else e
  let rd (r : Rd) : Rd := { r with loc := deepAt r.loc r.loc.st, needs := r.needs.map (fun (n : Need) => { n with snap := again n.snap, want := ren n.want }) }
  let fresh := (List.range 16).flatMap (fun v =>
    let lost := (s.tier.pool.filter (fun k => k / 2 ^ 24 = v && k % 2 ^ 24 < h1 - h0)).length
    (s.lowRows v lost).map (rowId v))
  let pool := (s.tier.pool.filter (fun k => h1 - h0 ≤ k % 2 ^ 24)) ++ fresh
  let tier : Tier := { s.tier with
    pmap := s.tier.pmap.map (fun x => (x.1, deepAt x.2 (s.srcState x.1)))
    moves := s.tier.moves.map (fun (m : Move) => if m.encoded then { m with loc := gran m.loc } else m)
    rowBufs := s.tier.rowBufs.map (fun (b : RowBuf) => { b with row := row b.row })
    rows := (s.tier.rows.filter (fun x => h1 - h0 ≤ x.1 % 2 ^ 24)).map (fun x => (key x.1, x.2))
    pool := pool.map key, poolHeld := s.tier.poolHeld.map key
    oldRows := (s.tier.oldRows.filter (fun k => h1 - h0 ≤ k % 2 ^ 24)).map key
    recomp := s.tier.recomp.map (fun x => (x.1, if x.2 ≤ 1 then x.2 else gran x.2)) }
  let lo := min h0 h1
  let hi := max h0 h1
  let t : State := { s with
    tier := tier
    media := { s.media with lines := s.media.lines.map (fun x => (x.1, x.2.map again)) }
    home := { s.home with reads := s.home.reads.map rd, late := s.home.late.map rd }
    hub := { s.hub with ents := s.hub.ents.filter (fun x => match x.2 with
      | some e => e.name % 8 ≠ 2
      | none => true) }
    crypto := { s.crypto with rebased := s.crypto.rebased ++ [(lo, hi)] } }
  let changed := s.crypto.leaves.filter (fun x => lo ≤ x.1 % dataChunks && x.1 % dataChunks < hi)
  changed.foldl (fun u x =>
    let m := max x.2.major (max x.2.verLo x.2.verHi) + 1
    { u with crypto := { u.crypto with leaves := sset (u.freshLeaf (x.1 % dataChunks)) u.crypto.leaves x.1 { major := m, verLo := m, verHi := m } } }) t
/-- Lines that stand in relief places, with what they hold (R215). -/
def State.reliefLines (s : State) : List (Nat × Nat × Nat × Stored) :=
  (List.range 8).flatMap (fun k => if s.diptRet k then
      (s.usedFrames k).dedup.flatMap (fun f => [k, k + 8].flatMap (fun v => (List.range 64).filterMap (fun i =>
        if s.retOfs v = some ((f + i) % 8) && !(f ∈ (s.dipt k).relocFrames) then some (v, f, i, s.stored (s.hotKey v f i)) else none)))
    else [])
/-- The activation of a TIER commit (R90, R91, R105, R113, R121). -/
def State.tierActivate (s : State) : State :=
  let h0 := s.hotH
  let h1 := hotChunks (s.getS .tier 0 F.TIER_HOT_HOT_SHARE)
  let d0 := s.get .tier 0 F.TIER_SPILL_DONATE
  let d1 := s.getS .tier 0 F.TIER_SPILL_DONATE
  let c0 := s.get .tier 0 F.TIER_CAP_STATIC_CAP
  let c1 := s.getS .tier 0 F.TIER_CAP_STATIC_CAP
  let relief := if h0 = h1 then [] else s.reliefLines
  let s1 := if h0 = h1 then s else s.changeShare h0 h1
  let pool := if d1 < d0 then s1.poolKept d1 else s1.tier.pool ++ s1.tier.poolHeld
  let s2 : State := { s1 with tier := { s1.tier with pool := pool, poolHeld := [], rebalanceTo := none } }
  let cut (t : State) : State := t.copyStaged .tier 0
  let s3 := if c1 < c0 then s2.releasePages (c1 * 65536) ((c0 - c1) * 65536) cut else cut s2
  let s4 := relief.foldl (fun t x => t.putStored (t.hotKey x.1 x.2.1 x.2.2.1) x.2.2.2) s3
  let s5 := if h0 = h1 then s4 else s4.raise .tier 0 21
  s5.useRoom.retryPlaces.settle
/-- The activation of a PORT commit (R89, R273, R305): SPLIT and MAX_SPEED wait for the resets of the links. -/
def State.portActivate (s : State) (p : Nat) : State :=
  if s.formReady p then s.copyStaged .port p
  else
    let t := portEdgeFields.foldl (fun t x => t.put .port p x.1 (s.getS .port p x.1 x.2) x.2) s
    { t with actDue := t.actDue.filter (· ≠ pg .port p) }
/-- The activation of a QGTH commit: a queue whose base or size changes starts anew (R403). -/
def State.qgthActivate (s : State) (d : Nat) : State :=
  let moved := (List.range 4).filter (fun c => s.getS .qgth d F.QGTH_CQ_BASE_PAGE c ≠ s.get .qgth d F.QGTH_CQ_BASE_PAGE c ||
    s.getS .qgth d F.QGTH_CQ_CTL_LOG2_SIZE c ≠ s.get .qgth d F.QGTH_CQ_CTL_LOG2_SIZE c)
  moved.foldl (fun t c =>
    let u := (t.put .qgth d F.QGTH_CQ_HEAD_HEAD 0 c).put .qgth d F.QGTH_CQ_TAIL_TAIL 0 c
    { u with query := { u.query with phase := sset 0 u.query.phase (4 * d + c) 0 } }) (s.copyStaged .qgth d)
/-- The activation of a REGU commit: its scales govern (R415, R424, R425). -/
def State.reguActivate (s : State) : State :=
  let t := ((s.copyStaged .regu 0).put .regu 0 F.REGU_SCALE_COMMIT_SCALE s.regu.nextScale).put .regu 0 F.REGU_HOT_SCALE_HOT_SCALE s.regu.nextHot
  { t with regu := { t.regu with ovr := t.regu.nextOvr, avail := t.regu.nextAvail } }
/-- The activation of a page's commit. -/
def State.activate (s : State) (b : Block) (n : Nat) : State := match b with
  | .tier => s.tierActivate
  | .port => s.portActivate n
  | .qgth => s.qgthActivate n
  | .regu => s.reguActivate
  | _ => s.copyStaged b n
/-- Pages whose pending commits activate at a boundary of the kind given. -/
def State.duePages (s : State) (at_ : ActPoint) : List (Block × Nat) :=
  (Block.all.filter capHasCommit).flatMap (fun b => ((List.range (allInsts b)).filter (fun n => s.commitDue b n at_)).map (fun n => (b, n)))
/-- Activate what is due. -/
def State.activateAt (s : State) (at_ : ActPoint) : State := (s.duePages at_).foldl (fun t x => t.activate x.1 x.2) s
/-- The block and instance whose first page stands at an offset. -/
def pageAt (p : Nat) : Option (Block × Nat) := (blockAt p).bind (fun x => if x.2.2 = 0 then some (x.1, x.2.1) else none)
/-- Activate the pages that have reached a stroke edge. -/
def State.activateDue (s : State) : State :=
  s.actDue.foldl (fun t p => match pageAt p with
    | some x => t.activate x.1 x.2
    | none => t) s
/-- COMMIT_ACTIVATE (R65): a page that has reached its activation point takes its staged copy. -/
def State.cmdCommitActivate (s : State) (b : Block) (n : Nat) : State := if pg b n ∈ s.actDue then s.activate b n else s
/-- REBALANCE_DONE (R121): the mover has emptied every frame and row that changes sides, and HOT_SHARE takes effect. -/
def State.cmdRebalanceDone (s : State) : State :=
  if s.bit .tier 0 F.HDR_STATUS_COMMIT_PENDING && s.shareChanges && !s.donateChanges && s.shareReady then s.tierActivate else s

/-! ### HDR_CTL (R65 to R70) -/

/-- What the acceptance of a TIER commit starts (R113, R121). -/
def State.tierAccepted (s : State) : State :=
  let d0 := s.get .tier 0 F.TIER_SPILL_DONATE
  let d1 := s.getS .tier 0 F.TIER_SPILL_DONATE
  let s1 : State := if s.shareChanges then { s with tier := { s.tier with rebalanceTo := some (s.getS .tier 0 F.TIER_HOT_HOT_SHARE) } } else s
  if d0 < d1 then
    let held := (List.range 16).flatMap (fun v => (s1.lowRows v (s1.rowsAdded v d1)).map (rowId v))
    { s1 with tier := { s1.tier with poolHeld := held } }
  else s1.askReturns
/-- What the check of a REGU commit leaves in its registers (R423 to R425). -/
def State.reguChecked (s : State) : State :=
  let r := s.reguCheck
  let s1 := s.put .regu 0 F.REGU_SHORTFALL_SHORT (min 0xFFFFFF r.2.2.1)
  if r.1 = 0 || r.1 = 3 then
    let short := r.2.2.2.2 < 4096
    let s2 := s1.put .regu 0 F.REGU_STATUS_HOT_SHORT (b2n (decide short))
    let avail := (List.range 8).foldl (fun m k => sset 0 m k (s.availOf k false)) []
    let s3 : State := { s2 with regu := { s2.regu with nextScale := r.2.2.2.1, nextHot := r.2.2.2.2, nextOvr := decide (r.1 = 3), nextAvail := avail } }
    if short then s3.raise .regu 0 18 else s3
  else s1
/-- What acceptance brings about beyond the header. -/
def State.accepted (s : State) (b : Block) (n : Nat) : State := match b with
  | .tier => s.tierAccepted
  | .port => (s.modAtt (2 * n) (fun a => { a with sawReset := false })).modAtt (2 * n + 1) (fun a => { a with sawReset := false })
  | .rstc => s.copyStaged .rstc 0
  | .keys =>
    let v := s.getS .keys n F.KEYS_RETAIN_RETAIN
    ((s.putS .keys (1 - n) F.KEYS_RETAIN_RETAIN v).put .keys (1 - n) F.KEYS_RETAIN_RETAIN v).copyStaged .keys n
  | _ => s
/-- Post a commit's result. -/
def State.postResult (s : State) (b : Block) (n code detail : Nat) : State :=
  ((s.put b n F.HDR_COMMIT_RESULT_CODE code).put b n F.HDR_COMMIT_RESULT_DETAIL detail).raise b n 1
/-- A write to an RWL field, a commit or an unlock that has no effect. -/
def State.ignored (s : State) (b : Block) (n : Nat) : State := s.put b n F.HDR_STATUS_WRITE_IGNORED 1
/-- Does an agent own a page? A page of an assignable block belongs to the agents of its world (R510). -/
def State.ownsPage (s : State) (agent : Nat) (b : Block) (n : Nat) : Bool := !(capAssignable b && isSecp agent) || s.world b n = 1
/-- A commit request of an agent (R65, R66, R68). -/
def State.commit (s : State) (agent : Nat) (b : Block) (n : Nat) : State :=
  let reject (t : State) (code detail : Nat) : State := (t.put b n F.HDR_STATUS_COMMIT_REJECTED 1).postResult b n code detail
  if !capHasCommit b then s.ignored b n
  else if !s.ownsPage agent b n then reject s 6 0
  else if s.bit b n F.HDR_STATUS_COMMIT_PENDING then reject s 5 0
  else if !s.bit b n F.HDR_STATUS_OPEN then reject s 4 0
  else
    let c := s.commitCheck b n
    let s1 := if b = .regu then s.reguChecked else s
    if c.1 = 0 || c.1 = 3 then
      let s2 := ((s1.put b n F.HDR_STATUS_COMMIT_PENDING 1).put b n F.HDR_STATUS_OPEN 0).put b n F.HDR_COMMIT_SEQ_SEQ
        ((s.get b n F.HDR_COMMIT_SEQ_SEQ + 1) % 65536)
      (s2.accepted b n).postResult b n c.1 c.2
    else reject s1 c.1 c.2
/-- An unlock request (R67, R68). -/
def State.unlock (s : State) (b : Block) (n : Nat) : State :=
  if capHasCommit b && !s.bit b n F.HDR_STATUS_OPEN && !s.bit b n F.HDR_STATUS_COMMIT_PENDING && !s.bit b n F.HDR_LOCK_STICKY then
    s.put b n F.HDR_STATUS_OPEN 1
  else s.ignored b n
/-- A block-level reset request (R70). -/
def State.blockReset (s : State) (b : Block) (n : Nat) : State :=
  if capResetOk b && s.blockIdle b n then { s with blockResets := addOnce s.blockResets (pg b n) } else s.put b n F.HDR_STATUS_RESET_REFUSED 1
/-- A write of HDR_CTL (R65 to R70); a reset request that is refused changes nothing but RESET_REFUSED. -/
def State.hdrCtl (s : State) (agent : Nat) (b : Block) (n v : Nat) : State :=
  let s1 := s.put b n F.HDR_CTL_ENABLE (v % 2)
  if 1 < popCount 3 (v / 2) then s1.put b n F.HDR_STATUS_CTL_CONFLICT 1
  else if v.testBit 1 then s1.commit agent b n
  else if v.testBit 2 then s1.unlock b n
  else if v.testBit 3 then (if capResetOk b && s.blockIdle b n then s1.blockReset b n else s.blockReset b n)
  else s1
/-- COMMIT (R65): HDR_CTL is written with COMMIT 1 and the other bits of `ctl`. -/
def State.cmdCommit (s : State) (agent : Nat) (b : Block) (n ctl : Nat) : State := s.fieldWrite agent b n F.HDR_CTL_COMMIT (fun s => s.hdrCtl agent b n (ctl ||| 2))
/-- UNLOCK (R67): HDR_CTL is written with UNLOCK 1 and the other bits of `ctl`. -/
def State.cmdUnlock (s : State) (agent : Nat) (b : Block) (n ctl : Nat) : State := s.fieldWrite agent b n F.HDR_CTL_UNLOCK (fun s => s.hdrCtl agent b n (ctl ||| 4))
/-- BLOCK_RESET (R70): HDR_CTL is written with BLOCK_RESET 1 and the other bits of `ctl`. -/
def State.cmdBlockReset (s : State) (agent : Nat) (b : Block) (n ctl : Nat) : State := s.fieldWrite agent b n F.HDR_CTL_BLOCK_RESET (fun s => s.hdrCtl agent b n (ctl ||| 8))
/-- Set STICKY; the writer that sets it is kept (R60, R68). -/
def State.sticky (s : State) (agent : Nat) (b : Block) (n : Nat) : State :=
  if s.bit b n F.HDR_LOCK_STICKY then s else (s.put b n F.HDR_LOCK_STICKY 1).put b n F.HDR_LOCK_LOCK_AGENT agent
/-- STICKY_LOCK (R68). -/
def State.cmdStickyLock (s : State) (agent : Nat) (b : Block) (n : Nat) : State := s.fieldWrite agent b n F.HDR_LOCK_STICKY (fun s => s.sticky agent b n)
/-- INT_FORCE (R62). -/
def State.cmdIntForce (s : State) (agent : Nat) (b : Block) (n mask : Nat) : State := s.fieldWrite agent b n F.HDR_INT_FORCE_INT_SET (fun s => s.setInts (pg b n) mask)

/-! ### The end of a block-level reset (R64, R599) -/

/-- Is the page under the reset of a hand-over, which covers its whole scope (R524)? -/
def State.handReset (s : State) (b : Block) (n : Nat) : Bool :=
  s.secure.handover.any (fun h => h.stage = .resetting && ownBlock h.block = (b, n))
/-- What a block-level reset clears beyond its registers. -/
def State.blockExtras (s : State) (b : Block) (n : Nat) : State := match b with
  | .port => [2 * n, 2 * n + 1].foldl (fun t a => (t.linkFalls a).modAtt a (fun x => { x with logs := [], overflow := [] })) s
  | .qeng =>
    let t := (s.flushEngine n).settle
    { t with query := { t.query with held := t.query.held.filter (fun r => r.engine ≠ n) } }
  | .ofld =>
    let t := s.dropCtxs n
    { t with codec := { t.codec with phase := t.codec.phase.filter (fun x => x.1 / 8 ≠ n), doorbells := t.codec.doorbells.filter (fun x => x.1 / 8 ≠ n) } }
  | .qgth => { s with query := { s.query with phase := s.query.phase.filter (fun x => x.1 / 4 ≠ n) } }
  | .hcac => { s with hub := { s.hub with
      ents := s.hub.ents.filter (fun x => x.1 / 524288 ≠ n), plru := s.hub.plru.filter (fun x => x.1 / 32768 ≠ n)
      slots := s.hub.slots.filter (fun x => !(x.slab = n && x.runahead)) } }
  | .codc => { s with codec := { s.codec with lanes := s.codec.lanes.filter (fun x => x.1 / 16 ≠ n) } }
  | .ring =>
    let t := (s.closeCells 0).closeCells 1
    t.ringStart
  | _ => s
/-- Work that waited for the end of a block's reset reaches it, oldest first (R70). -/
def State.openInput (s : State) (b : Block) (n : Nat) (q : List ResetWork) : State :=
  q.foldl (fun t w => match b, w with
    | .ofld, .ofldTail i tail => t.oDoorbell n i tail
    | .qeng, .qengTail tail => t.qDoorbell n tail
    | .hcac, .hcacPage agent op => t.hcacPageCmd agent n op
    | .hcac, .hcacSetWay agent set way => t.hcacSetWay agent n set way
    | .hcac, .hcacAll agent => t.hcacAll agent n
    | _, _ => t) s
/-- BLOCK_RESET_DONE (R64, R70, R524, R599): the block's RW fields, status and counters are at their reset values; a hand-over's reset returns
both copies of the RWL fields and clears STICKY as well. -/
def State.cmdBlockResetDone (s : State) (b : Block) (n : Nat) : State :=
  if !(pg b n ∈ s.blockResets) then s
  else
    let s1 := s.blockExtras b n
    let s2 := if s.handReset b n then s1.wipePage b n else s1.blockClear b n
    let s3 := { s2 with blockResets := s2.blockResets.filter (· ≠ pg b n), closedWork := s2.closedWork.filter (fun x => x.1 ≠ pg b n) }
    let s4 := (s3.raise b n 2).openInput b n (s2.closedWork.filterMap (fun x => if x.1 = pg b n then some x.2 else none))
    if b = .codc then s4.grantLanes n else s4

end Sys2Proof.Machine
end

