-- ==== Sys2Proof/Machine/RegBus.lean ====
section
/-! DEFINITION. Register writes (R56 to R59): what a write of one word does to each field, the words whose write is an action, and the paths
that carry register accesses: a page write, the mailbox (R296) and the ring (R478). -/

namespace Sys2Proof.Machine

/-! ### Plain fields (R59, R67, R68) -/

/-- What a word's write does to one field instance. -/
def State.writeField (s : State) (b : Block) (n : Nat) (f : Fld) (i v : Nat) : State := match f.acc with
  | .rw => s.put b n f v i
  | .w1c => s.put b n f (s.get b n f i - (s.get b n f i &&& v)) i
  | .w1s => s.put b n f (s.get b n f i ||| v) i
  | .rwl => if s.bit b n F.HDR_STATUS_OPEN && !s.bit b n F.HDR_LOCK_STICKY then s.putS b n f v i else s.ignored b n
  | .ro | .wo => s
/-- A write of one word of plain fields. -/
def State.writeFields (s : State) (b : Block) (n o v : Nat) : State :=
  (wordFields b o).foldl (fun t x => t.writeField b n x.1 x.2 (v / 2 ^ x.1.place x.2 o % 2 ^ x.1.w)) s

/-! ### Words whose write is an action -/

/-- The header's words (R60, R62, R65 to R70). -/
def State.writeHdr (s : State) (agent : Nat) (b : Block) (n o v : Nat) : State :=
  if o = 0x0C then s.hdrCtl agent b n v
  else if o = 0x18 then
    let t := s.put b n F.HDR_INT_ENABLE_INT_EN (v &&& 0xFFFF000F)
    intRise s t (pg b n)
  else if o = 0x1C then s.setInts (pg b n) v
  else if o = 0x28 then (if v.testBit 0 then s.sticky agent b n else s)
  else s.writeFields b n o v
/-- KEYS_CMD; no key-encryption key is named by the register, so that an unwrap uses a free index (R235, R272). -/
def State.keysCmd (s : State) (agent n op : Nat) : State :=
  if op = 1 then s.cmdKeysGenerate agent n
  else if op = 2 then s.cmdKeysLoad agent n
  else if op = 3 then
    let x := s.draw 4
    x.2.cmdKeysUnwrap agent n x.1.toNat
  else if op = 4 then s.cmdKeysErase agent n
  else if op = 5 then s.cmdKeysWriteAttr agent n
  else if op = 6 then s.cmdKeysReadAttr agent n
  else s
/-- HCAC_CMD (R358). -/
def State.hcacCmd (s : State) (agent n v : Nat) : State :=
  let op := v % 8
  if op = 1 then s.cmdHcacInvalPage agent n
  else if op = 2 then s.cmdHcacCleanPage agent n
  else if op = 3 then s.cmdHcacCleanInvalPage agent n
  else if op = 4 then s.cmdHcacInvalSetWay agent n (bits v 8 15) (bits v 24 4)
  else if op = 5 then s.cmdHcacInvalAll agent n
  else s
/-- PMAP_CMD (R122). -/
def State.pmapWrite (s : State) (agent n op : Nat) : State :=
  if op = 1 then s.cmdPmapReadEntry agent n
  else if op = 2 then s.cmdPmapPin agent n
  else if op = 3 then s.cmdPmapUnpin agent n
  else if op = 4 then s.cmdPmapDiscard agent n
  else s
/-- Words of the Slab pages whose write is an action; none for the rest. -/
def State.slabAction (s : State) (agent : Nat) (b : Block) (n o v : Nat) : Option State :=
  let on (bit : Nat) (t : State) : Option State := some (if v.testBit bit then t else s)
  match b with
  | .mgmt =>
    if o = F.MGMT_CTL_HOST_READY.off then on 0 (s.cmdHostReady agent n)
    else if o = F.MGMT_BOOT_CTL_END.off then on 0 (if n = 0 then s.cmdMgmtBootEnd agent else s)
    else if 0x200 ≤ o && o < 0x240 then some (if n = 0 then s.cmdMgmtBootData agent [v] else s)
    else none
  | .secp =>
    if o = F.SECP_DEBUG_OPEN.off then on 0 (s.cmdSecpDebugOpen agent n)
    else if o = F.SECP_WDOG_CTL_PERIOD.off then some (s.wdogCtl n (v % 256) (v.testBit 8))
    else if o = F.SECP_WDOG_KICK_KICK.off then on 0 (s.cmdWdogKick agent n)
    else if o = F.SECP_MEAS_SEL_SLOT.off then some (s.measSel n (v % 8) (v.testBit 8))
    else if 0x140 ≤ o && o < 0x170 then some (s.putSecp F.SECP_MEAS_IN_DIGEST v ((o - 0x140) / 4))
    else none
  | .home => if o = F.HOME_DIRQ_CTL_LINE.off then
      some (if v.testBit 6 then s.cmdDirq agent n (v % 64) else s.put .home n F.HOME_DIRQ_CTL_LINE (v % 64)) else none
  | .pmap => if o = F.PMAP_CMD_OP.off then some (s.pmapWrite agent n (v % 8)) else none
  | .hcac =>
    if o = F.HCAC_PART_SECURE_WAYS.off then some (s.cmdHcacRepartition agent n (v % 16))
    else if o = F.HCAC_CMD_OP.off then some (s.hcacCmd agent n v)
    else none
  | .keys =>
    if o = F.KEYS_CMD_OP.off then some (s.keysCmd agent n (v % 8))
    else if 0x110 ≤ o && o < 0x180 then some (s.put .keys n F.KEYS_MATERIAL_DATA v ((o - 0x110) / 4))
    else none
  | .ofld =>
    let q := (o - 0x200) / 0x40
    if o = F.OFLD_QUEUE_EN_ENABLE.off then some (s.cmdOfldAbort agent n v)
    else if o = F.OFLD_SQ_TAIL_TAIL.off + 0x40 * q && q < 8 then some (s.cmdOfldDoorbell agent n q (v % 4096))
    else if o = F.OFLD_CQ_HEAD_HEAD.off + 0x40 * q && q < 8 then some (s.cmdOfldCqHead agent n q (v % 4096))
    else none
  | .dprt =>
    if o = F.DPRT_FLIP_CTL_ARM.off then some (s.cmdFlipArm agent n v)
    else if F.DPRT_FLIP_PAGE_PAGE.off ≤ o && o ≤ F.DPRT_FLIP_MASK_HI_MASK_HI.off && s.bit .dprt n F.DPRT_FLIP_CTL_ARM then some s
    else none
  | .ring => if o = F.RING_CTL_REVIVE_0.off then some (s.cmdRingRevive agent n (v % 4)) else none
  | .qgth =>
    let c := (o - 0x100) / 0x20
    if o = F.QGTH_CQ_HEAD_HEAD.off + 0x20 * c && c < 4 then some (s.cmdQgthCqHead agent n c (v % 4096))
    else if o = F.QGTH_CQ_CTL_LOG2_SIZE.off + 0x20 * c && c < 4 then
      let t := s.writeFields .qgth n o v
      some (if isSecp agent then t else t.put .qgth n F.QGTH_CQ_CTL_SECURE (s.get .qgth n F.QGTH_CQ_CTL_SECURE c) c)
    else none
  | .port => if o = F.PORT_IRQ_REARM_REARM_0.off then some (s.cmdPortIrqRearm agent n (v % 4)) else none
  | .qeng =>
    if o = F.QENG_SQ_TAIL_TAIL.off then some (s.cmdQengDoorbell agent n (v % 4096))
    else if o = F.QENG_CTL_ENABLE.off then some (s.cmdQengAbort agent n (v % 8))
    else none
  | _ => none
/-- Words of the module pages whose write is an action; none for the rest. -/
def State.moduleAction (s : State) (agent : Nat) (b : Block) (n o v : Nat) : Option State :=
  let on (bit : Nat) (t : State) : Option State := some (if v.testBit bit then t else s)
  match b with
  | .mod => if o = F.MOD_DENIED_STAT_CLEAR.off then on 24 (s.cmdDeniedClear agent) else none
  | .psup => if o = F.PSUP_CTL_POWER_OFF.off then some (if v.testBit 0 then s.fieldWrite agent .psup 0 F.PSUP_CTL_POWER_OFF (fun s => s.askOff) else s) else none
  | .rstc => if o = F.RSTC_CMD_OP.off then
      some (if v % 4 = 1 then s.cmdRstcWarm agent else if v % 4 = 2 then s.cmdRstcCold agent else s) else none
  | .clkc => if o = F.CLKC_GATE_GO.off then on 5 (if v.testBit 4 then s.cmdClkcGate agent (v % 16) else s.cmdClkcUngate agent (v % 16)) else none
  | .flt =>
    if o = F.FLT_ACK_CLASS.off then some (s.cmdFltAck agent (v % 256) (bits v 8 16) (v.testBit 24))
    else if o = F.FLT_ROUTE_IBI_LEVELS.off then
      some ((s.put .flt 0 F.FLT_ROUTE_IBI_LEVELS (v % 16 ||| 8)).put .flt 0 F.FLT_ROUTE_PIN_LEVELS (bits v 4 4 ||| 8))
    else none
  | .ledg => if o = F.LEDG_SENSOR_REQ_GO.off then on 4 (s.cmdSensorRequest agent (v % 16)) else none
  | .rest => if o = F.REST_CTL_ENTER.off then on 0 (s.cmdRestEnter agent) else none
  | .lode => if o = F.LODE_REJOIN_GO.off then on 0 (s.cmdLodeRejoin agent) else none
  | .tier => if o = F.TIER_SPILL_ALLOW_ALLOW.off then some (s.writeFields .tier 0 o v).askBack else none
  | .dipt => if o = F.DIPT_RETIRE_GO.off then
      let t := s.writeFields .dipt n o v
      some (if v.testBit 4 then t.cmdDiptRetire agent n (v % 8) (bits v 3 1) else t) else none
  | .own =>
    if o = F.OWN_CMD_GO.off then on 6 (s.cmdOwnHandover agent (v % 32) (v.testBit 5))
    else if o = F.OWN_PWR_ANSWER_GO.off then on 6 (s.cmdPowerAnswer agent (v % 32) (v.testBit 5))
    else none
  | _ => none

/-! ### One access (R56, R57, R72) -/

/-- A write of one word that no rule drops. -/
def State.writeWord (s : State) (agent : Nat) (b : Block) (n o v : Nat) : State :=
  if o < 0x100 then s.writeHdr agent b n o v
  else match (if b.perSlab then s.slabAction agent b n o v else s.moduleAction agent b n o v) with
    | some t => t
    | none => s.writeFields b n o v
/-- A 4-byte write by an agent: whether it was dropped, and the state after it. -/
def State.writeAt (s : State) (agent off v : Nat) : Bool × State := match s.dropCause agent off 4 true with
  | some c => (true, s.denied agent off c true)
  | none => (false, match blockAt off with
    | some (b, n, o) => s.writeWord agent b n o (v % 2 ^ 32)
    | none => s)
/-- A write of 1, 2, 4 or 8 bytes by an agent; one of 8 bytes is two of 4, the lower first (R56). -/
def State.busWrite (s : State) (agent off width v : Nat) : State :=
  if width = 4 then (s.writeAt agent off v).2
  else if width = 8 then match s.wideDrop agent off true with
    | some c => s.denied agent off c true
    | none => ((s.writeAt agent off v).2.writeAt agent (off + 4) (v / 2 ^ 32)).2
  else match s.dropCause agent off width true with
    | some c => s.denied agent off c true
    | none => s
/-- REGISTER_PAGE_WRITE (R56 to R59, R67, R72, R78, R82): one access of an agent over its path; a read answers its data, and one that is refused is
dropped and recorded. -/
def State.cmdRegisterPageWrite (s : State) (agent offset width : Nat) (value : Option Nat) : State := match value with
  | some v => s.busWrite agent offset width v
  | none =>
    let r := s.busRead agent offset width
    r.2.emit (.regData agent offset r.1)

/-! ### Blocks of accesses (R296, R478) -/

/-- `n` ascending 4-byte reads by one agent: the drop bitmap, the words and the state after. -/
def State.readRun (agent : Nat) : Nat → Nat → Nat → State → Nat × List Nat × State
  | 0, _, _, s => (0, [], s)
  | k + 1, off, i, s =>
    let d := (s.dropCause agent off 4 false).isSome
    let r := s.narrowRead agent off 4
    let x := State.readRun agent k (off + 4) (i + 1) r.2
    (x.1 + b2n d * 2 ^ i, r.1 :: x.2.1, x.2.2)
/-- Ascending 4-byte writes by one agent: the drop bitmap and the state after. -/
def State.writeRun (agent : Nat) : List Nat → Nat → Nat → State → Nat × State
  | [], _, _, s => (0, s)
  | w :: l, off, i, s =>
    let r := s.writeAt agent off w
    let x := State.writeRun agent l (off + 4) (i + 1) r.2
    (x.1 + b2n r.1 * 2 ^ i, x.2)
/-- REGISTER_READ (R296): the mailbox reads `n` registers from an offset. -/
def State.cmdRegisterRead (s : State) (a ofs n : Nat) : State :=
  s.mbox a (fun s =>
    if ofs % 4 ≠ 0 || n = 0 || 256 < n then s.answer a 2
    else
      let x := State.readRun (mboxAgent a) n (ofs % 2 ^ 24) 0 s
      x.2.2.answer a 0 (leBytes 32 x.1 ++ x.2.1.flatMap (fun w => leBytes 4 w)))
/-- REGISTER_WRITE (R296). -/
def State.cmdRegisterWrite (s : State) (a ofs : Nat) (words : List Nat) : State :=
  s.mbox a (fun s =>
    if ofs % 4 ≠ 0 || words.isEmpty || 256 < words.length then s.answer a 2
    else
      let x := State.writeRun (mboxAgent a) words (ofs % 2 ^ 24) 0 s
      x.2.answer a 0 (leBytes 32 x.1))
/-- Does a frame come from the module's manager (R478)? -/
def State.fromManager (s : State) (f : Frame) : Bool := s.isMember s.memberPair && f.src = (s.pair s.memberPair).headAddr
/-- REG_RD at its target (R478). -/
def State.doRegRd (s : State) (pair side : Nat) (f : Frame) : State :=
  if !s.fromManager f then s.ringDiscard pair side
  else
    let x := State.readRun 9 (bits f.arg 24 4 + 1) (f.arg % 2 ^ 24) 0 s
    x.2.2.sendPlain 0x09 2 f.src f.tag x.1 (x.2.1.flatMap (fun w => leBytes 4 w))
/-- REG_WR at its target (R478). -/
def State.doRegWr (s : State) (pair side : Nat) (f : Frame) : State :=
  if !s.fromManager f then s.ringDiscard pair side
  else
    let x := State.writeRun 9 ((List.range (bits f.arg 24 4 + 1)).map (fun i => fieldB f.payload (4 * i) 4)) (f.arg % 2 ^ 24) 0 s
    x.2.sendPlain 0x09 2 f.src f.tag x.1
/-- REG_RD (R478). -/
def State.cmdRegRd (s : State) (pair side : Nat) (f : Frame) : State := s.onFrame pair side f (fun t => t.doRegRd pair side f)
/-- REG_WR (R478). -/
def State.cmdRegWr (s : State) (pair side : Nat) (f : Frame) : State := s.onFrame pair side f (fun t => t.doRegWr pair side f)

end Sys2Proof.Machine
end

