-- ==== Sys2Proof/Machine/Time.lean ====
section
/-! DEFINITION. Time (R14, R32 to R36): the stroke edge, the Layer and Sitting boundaries, the adoption of a fabric number, the tick, and the
end of a wake from Rest. -/

namespace Sys2Proof.Machine

/-! ### The timebase (R32, R33, R453) -/

/-- Length of the stroke that begins: one tick shorter or longer while the error of the last LSTRK exceeds 64 u, never twice running. -/
def State.strokeLen (s : State) : Nat :=
  if s.ring.errFresh && s.tb.len = 192 then (if 64 < s.ring.err then 191 else if s.ring.err < -64 then 193 else 192) else 192
/-- The stroke number increments and the phase returns to 0. -/
def State.advance (s : State) : State :=
  let n := s.now + 1
  { s with
    tb := { s.tb with stroke := n, phase := 0, len := s.strokeLen, elapsed := s.tb.elapsed + 1
                      layerDue := decide (n.toNat % 64 = 0), sittingDue := decide (n.toNat % 2048 = 0) }
    ring := { s.ring with errFresh := false } }
/-! ### What one edge does -/

/-- Slab `d` has had no heartbeat from its partner in the stroke that ends (R24), or has had one (R219). -/
def State.heartbeat (s : State) (d : Nat) (missed : Bool) : State :=
  let h := s.boot.hbMiss
  let n := if missed then (if d = 0 then h.1 else h.2) + 1 else 0
  let h2 : Nat × Nat := if d = 0 then (n, h.2) else (h.1, n)
  let s1 : State := { s with boot := { s.boot with hbMiss := h2 } }
  if missed then
    ((s1.bump .slab d F.SLAB_HEARTBEAT_MISSED).put .slab d F.SLAB_HEARTBEAT_LAST_MISS ((s.now - 1).toNat % 65536)).raise .slab d 16
  else s1
/-- Do the Veins run: not from the start of Rest to the exit from self-refresh in step 4 of a wake (R495, R503)? -/
def State.veinsRun (s : State) : Bool := s.restState < 4 || (s.restState = 5 && 44 ≤ strokesSince s.rest.wakeStroke s.now)

/-- An admitted hot read goes to the partner Vein (R134): its access, and the copy it will return. -/
def State.steerHot (s : State) (a : VAcc) (rd : Rd) : State :=
  let q := (a.vein + 8) % 16
  let k := a.vein % 8
  let f := rd.loc.loc
  let o := s.hotOfs q f rd.req.line
  if !(q ∈ s.copies k f) || s.closed q o then s
  else
    let key := s.hotKey q f rd.req.line
    let move (n : Need) : Need :=
      let old := n.snap
      { n with key := key, snap := { s.stored key with sealedIn := old.sealedIn, marker := old.marker } }
    let s1 : State := ({ s with vq := s.vq.erase a } : State).enqueue { a with vein := q, ofs := o, steer := true }
    (s1.putRd { rd with vein := some q, needs := rd.needs.map move }).bump .vein a.vein F.VEIN_STEER_COUNT_COUNT
/-- An admitted deep read is rebuilt from the seven other channels of its row (R134) while they are open. -/
def State.steerDeep (s : State) (a : VAcc) : State :=
  let others := (List.range 8).filter (· ≠ a.ofs)
  if others.any (fun o => s.closed a.vein o) then s
  else
    let first := !s.vq.any (fun x => x.id = a.id && x.steer)
    let s1 : State := others.foldl (fun t o => t.enqueue { a with ofs := o, steer := true }) { s with vq := s.vq.erase a }
    if first then s1.bump .vein a.vein F.VEIN_REBUILD_COUNT_COUNT else s1
/-- Admitted host reads still queued for a channel of a Vein that has closed, and due by the end of this stroke, are refresh-bound (R134). -/
def State.steerEdge (s : State) (v : Nat) : State :=
  let due := s.vq.filter (fun a => a.vein = v && a.level = 2 && !a.write && !a.steer && strokeLe a.deadline s.now && s.closed v a.ofs)
  due.foldl (fun t a => match t.rdOf a.id with
    | none => t
    | some rd => if rd.loc.st = .hot then t.steerHot a rd else t.steerDeep a) s

/-- The timing state of the stroke that ends (R36, R456): holdover without an LSTRK, and edges out of specification. -/
def State.timingEdge (s : State) : State :=
  let fromRing := s.get .tmb 0 F.TMB_STATUS_SOURCE = 1
  let s1 := if fromRing && !s.ring.lstrkSeen then
      { s.put .lode 0 F.LODE_STATE_HOLDOVER 1 with ring := { s.ring with holdoverCount := s.ring.holdoverCount + 1 } }
    else s
  let s2 : State := { s1 with ring := { s1.ring with lstrkSeen := false } }
  if fromRing && !s2.bit .tmb 0 F.TMB_STATUS_IN_SPEC then
    { s2.put .tmb 0 F.TMB_STATUS_OUT_OF_SPEC 1 with ring := { s2.ring with outOfSpec := true } }
  else s2
/-- Every side that is up sends LSTRK (R451); TX_OFS is a free value from 0 to 119. -/
def State.sendLstrk (s : State) : State :=
  s.forN 4 (fun t i =>
    if t.sideUp (i / 2) (i % 2) then
      let x := t.draw 7
      let flags := t.get .tmb 0 F.TMB_STATUS_IN_SPEC + 2 * t.get .lode 0 F.LODE_STATE_HOLDOVER +
        4 * b2n (t.role = 3 || t.bit .lode 0 F.LODE_ID_ROOTED)
      x.2.emit (.oset (i / 2) (i % 2) 0xB4
        ((leBytes 6 t.now.toNat).map (fun b => b.toNat) ++ [x.1.toNat % 120, flags, t.get .lode 0 F.LODE_TIMING_DEPTH]))
    else t)

/-- A frame held through Rest is taken (R502): `p` is its port pair. -/
def State.takeHeld (s : State) (p : Nat) (f : Frame) : State :=
  match f.ty with
  | 0x04 => s.doJoinReq p 0 f
  | 0x05 => s.doAssign p f
  | 0x06 => s.doOrder p f
  | 0x07 => s.doRegRd p 0 f
  | 0x08 => s.doRegWr p 0 f
  | 0x0A => s.doKeyXfer f
  | 0x0C => s.doCmd f
  | 0x10 => s.doSpillReq f
  | 0x14 => s.doSpillRead p 0 f
  | 0x16 => s.doSpillFree p 0 f
  | 0x17 => s.doDecline p 0 f
  | 0x18 => s.doReturn f
  | _ => s
/-- From stroke w + 44 of a wake the processors run (R502, R589): held frames are answered, and a reset that woke the module is asked for. -/
def State.wakeEdge (s : State) : State :=
  if s.restState = 4 || strokesSince s.rest.wakeStroke s.now < 44 then s
  else
    let q := s.ring.heldFrames
    let s1 := q.foldl (fun t x => t.takeHeld x.1 x.2.1) { s with ring := { s.ring with heldFrames := [] } }
    match s1.rest.resetAfter with
    | none => s1
    | some c => { s1 with rest := { s1.rest with resetAfter := none } }.askReset false c

/-- Pages whose commits activate at a stroke edge have reached it (R65): COMMIT_ACTIVATE gives each its new values. -/
def State.edgePages (s : State) : State := { s with actDue := (s.duePages .edge).map (fun x => pg x.1 x.2) }
/-- The work of an edge on Veins, homes and ports. -/
def State.edgeData (s : State) : State :=
  let s1 := if s.veinsRun then (s.forN 16 (fun t v => t.veinEdge v)).forN 16 (fun t v => t.steerEdge v) else s
  let s2 := s1.bitmapEdge.retryWrites.retryAccs.setLoads.reportCongestion.departEdges.keysEdge
  let s3 := if s2.working && s2.boot.inReset.isNone then s2.moverWork true else s2
  let s4 := (s3.hdmAhead.handEdge.forN 18 (fun t b => t.pwrBlockEdge b)).restEdge
  s4.replayEarly.releaseHeld.gatherEdge
/-- The work of an edge on the rings. -/
def State.edgeRing (s : State) : State :=
  let s1 := s.replayEarly8.unwrapEdge.spliceEdge.spillWatch.watchRoom
  s1.headStroke.headReport.sendLstrk.sendLskp.wakeEdge
/-- Has an edge come to the point where only its own work is left? -/
def State.edgeReady (s : State) : Bool :=
  s.tb.edgeOpen && !s.tb.layerDue && !s.tb.sittingDue && !s.tb.adopt.any (fun x => x.1 = s.now) && s.actDue.isEmpty
/-- The work of an edge is done once its boundaries, adoption and activations are (R14, R41): what is stamped at the new stroke finds its Layer's
budgets, account and plan. Requests pending at the edge then make one reset. -/
def State.closeEdge (s : State) : State :=
  if s.edgeReady then
    let s1 : State := { s with tb := { s.tb with edgeOpen := false } }
    ((s1.edgeData.edgeRing.irqEdge.within s1).cutAsked s1).resetEdge
  else s
/-- Does a Slab run: present, or returned and not yet taken up at a Layer boundary (R225)? -/
def State.slabRuns (s : State) (d : Nat) : Bool := !(d ∈ s.boot.absent) || s.boot.returning = some d
/-- A Slab that runs judges its partner's heartbeat (R24) while the Seam is up or the partner is away, which then sends none. -/
def State.judgeHeartbeat (s : State) (d : Nat) (missed : Bool) : State :=
  let away := !s.slabRuns (1 - d)
  if s.restState ≠ 4 && s.slabRuns d && (s.boot.seamUp || away) then s.heartbeat d (missed || away) else s
/-- What an edge does first in a module that is not held in a reset: the stroke that ends is judged, and the pages whose commits activate here are
named. -/
def State.openEdge (s : State) (miss0 miss1 : Bool) : State :=
  let s1 := s.startEdge
  let s2 := ((s1.judgeHeartbeat 0 miss0).judgeHeartbeat 1 miss1).timingEdge.edgePages
  { s2 with tb := { s2.tb with edgeOpen := true } }

/-! ### The Layer boundary (R14) -/

/-- Hot-refresh mode is declared (R47, R49, R139): every Vein takes the hot plan. -/
def State.hotEnter (s : State) : State :=
  let s1 := s.forN 16 (fun t v => (if t.plan v = 0 then t.setPlan v 1 else t).raise .vein v 16)
  let s2 : State := { s1 with tb := { s1.tb with hot := true, hotWhole := decide (s1.now.toNat % 2048 = 0) }
                              ring := { s1.ring with hotDeclared := true } }
  s2.vendorEvent (evOf 0 0x01 0 0)
/-- A Vein enters the quarter plan (R141). -/
def State.quarterEnter (s : State) (v : Nat) : State :=
  if (s.veinSt v).quarterNext then
    let whole := decide (s.now.toNat % 2048 = 0)
    let t := s.modVein v (fun x => { x with quarterNext := false, quarterWhole := whole })
    if t.plan v = 2 then t else (t.setPlan v 2).vendorEvent (evOf 1 0x03 1 v)
  else s
/-- Refresh plans at a Layer boundary (R47, R139, R141). -/
def State.planLayer (s : State) : State :=
  let s1 := if s.tb.hotSeen && !s.tb.hot then s.hotEnter else s
  let s2 : State := { s1 with tb := { s1.tb with hotSeen := false } }
  s2.forN 16 (fun t v => t.quarterEnter v)
/-- The Slabs at a Layer boundary (R222, R225, R228): resynchronisation begins or ends, held reads go on, and the acting home begins to hand
back. -/
def State.slabLayer (s : State) : State :=
  let s1 := s.diptLayer
  let s2 := if s1.boot.absent.isEmpty && !s.boot.absent.isEmpty then s1.recountOut else s1
  let s3 := s2.serveHeld.settle
  match s3.actingHome with
  | some d =>
    if !s3.home.handback && s3.boot.absent.isEmpty && (List.range 8).all (fun k => (s3.dipt k).st = .paired) then
      { s3.raise .dprt d 23 with home := { s3.home with handback := true } }
    else s3
  | none => s3
/-- Ring resets whose CMD_ACK has left are asked for (R474). -/
def State.cmdLayer (s : State) : State :=
  let waits (c : Bool × Nat × Nat) : Bool := s.ring.egress.any (fun x => x.2.2.ty = 0x0D && x.2.2.dst = c.2.1)
  let go := s.ring.cmdResets.filter (fun c => !waits c)
  let s1 : State := { s with ring := { s.ring with cmdResets := s.ring.cmdResets.filter waits } }
  (go.foldl (fun t c => if c.1 then t.askReset true 5 else t.askReset false 6) s1)
/-- Regulation runs from the first Layer boundary after READY rose (R416), and the Layer's budgets and tally open (R412, R426, R428). -/
def State.reguLayer (s : State) : State :=
  let run := s.regu.running || (s.bit .mod 0 F.MOD_READY_READY && layerOf s.boot.readyAt ≠ layerOf s.now)
  let s1 : State := { s with regu := { s.regu with running := run } }
  s1.refill.openTally

/-! ### The Sitting boundary (R14) -/

/-- Hot-refresh mode is left at the end of a Sitting that stayed at or below the exit threshold (R48, R49). -/
def State.hotExit (s : State) : State :=
  let s1 := s.forN 16 (fun t v => (if t.plan v = 1 then t.setPlan v 0 else t).raise .vein v 17)
  let s2 : State := { s1 with tb := { s1.tb with hot := false }, ring := { s1.ring with hotDeclared := false } }
  s2.vendorEvent (evOf 0 0x02 0 0)
/-- A Vein leaves the quarter plan (R141). -/
def State.quarterExit (s : State) (v : Nat) : State :=
  let x := s.veinSt v
  let s1 := if s.plan v = 2 && x.quarterWhole && !x.quarterBad then
      (s.setPlan v (b2n s.tb.hot)).vendorEvent (evOf 0 0x04 0 v)
    else s
  let still := decide (s1.plan v = 2)
  s1.modVein v (fun x => { x with quarterBad := false, quarterWhole := still })
/-- Refresh plans at a Sitting boundary. -/
def State.planSittingEnd (s : State) : State :=
  let s1 := if s.tb.hot && s.tb.hotWhole && !s.tb.hotBad then s.hotExit else s
  let s2 := s1.forN 16 (fun t v => t.quarterExit v)
  let on := s2.tb.hot
  { s2 with tb := { s2.tb with hotBad := false, hotWhole := on } }
/-- The report entry of the Sitting that ends is taken, and the bookkeeping for the next begins (R459, R488, R555). -/
def State.reportSitting (s : State) : State :=
  let e := s.closeReport
  let s1 : State := { s with ring := { s.ring with
    entry := e, peerAbsentSeen := !s.boot.absent.isEmpty, outOfSpec := false, hotDeclared := s.tb.hot
    deepLowSeen := s.tier.deepLow, misses := 0, divided := false } }
  (s1.put .flt 0 F.FLT_SITTING_FAULTS 0).put .flt 0 F.FLT_SITTING_MAX_LEVEL 0
/-- The account and the report window of the open Sitting close, unless they have just been opened (R36, R488). -/
def State.closeOpen (s : State) (cut : Bool) : State :=
  if s.energy.opened = s.tb.elapsed.toNat then s else (s.closeAccount (sittingOf (s.now - 1)) cut).reportSitting
/-- Recompression passes start (R170). -/
def State.recompSitting (s : State) : State :=
  s.forN 16 (fun t v =>
    if t.bit .codc (slabOfVein v) F.CODC_CTL_RECOMP_EN && sget 0 t.tier.recomp v = 0 then
      { t with tier := { t.tier with recomp := sset 0 t.tier.recomp v 1 } }
    else t)
/-- The rings at a Sitting boundary: ENUM of a head that still enumerates, windows, the Spill plan, link delays, and an evacuation's deadline
(R452, R461, R467, R475, R477). -/
def State.ringSitting (s : State) : State :=
  let s1 := s.forN 2 (fun t p => if t.pairState p = 9 then t.startEnum p else t)
  let s2 := s1.headWindow.spillPlan
  let s3 := s2.forN 4 (fun t i => if t.sideUp (i / 2) (i % 2) then
    (t.modSide (i / 2) (i % 2) (fun x => { x with echo := true })).emit (.oset (i / 2) (i % 2) 0xC3 [0]) else t)
  { s3 with ring := { s3.ring with evacLeft := s3.ring.evacLeft.map (fun n => n - 1) } }
/-- A Sitting boundary: the account closes, the report entry is taken, plans and commits change, and the next Sitting is planned. -/
def State.sittingStep (s : State) : State :=
  if !s.tb.sittingDue then s
  else
    let s0 : State := { s with tb := { s.tb with sittingDue := false } }
    let s1 := (s0.closeOpen false).scrubSitting.planSittingEnd
    let s2 := (s1.activateAt .sitting).takeEntry
    let s3 := (s2.planSitting (if s2.resting then 0 else 2048)).payWaiting
    s3.recompSitting.fabricKeySitting.wdogSitting.pwrSitting.ringSitting
/-- A Layer boundary: tallies close, plans and commits change, Diptychs move, budgets refill and buckets leak. -/
def State.layerStep (s : State) : State :=
  if !s.tb.layerDue then s
  else
    let s0 := s.sittingStep
    let s1 : State := { s0 with tb := { s0.tb with layerDue := false } }
    let s2 := (s1.closeTallies.planLayer.activateAt .layer).slabLayer
    (s2.reguLayer.seamLeak.bucketLeak.ringLeak.cmdLayer.within s)

/-! ### Adoption (R36, R455) -/

/-- The fabric number `n` is taken: tallies and account close, new ones open. -/
def State.takeNumber (s : State) (n : Stroke) : State :=
  let s2 := (s.closeTalliesIf (fun _ => true)).closeOpen true
  let s3 : State := { s2 with
    tb := { s2.tb with stroke := n, adopt := none, hotWhole := false
                       layerDue := decide (n.toNat % 64 = 0), sittingDue := decide (n.toNat % 2048 = 0) }
    energy := { s2.energy with partialNow := true } }
  let s4 := s3.forN 16 (fun t v => t.modVein v (fun y => { y with quarterWhole := false }))
  let s5 := s4.put .tmb 0 F.TMB_STATUS_ADOPTED 1
  if s5.tb.layerDue then s5 else s5.refill.openTally
/-- At its local edge the module adopts the fabric number: the open Layer and Sitting windows close as partial and new ones open. -/
def State.adoptStep (s : State) : State := match s.tb.adopt with
  | none => s
  | some x =>
    if x.1 ≠ s.now then s
    else
      let s1 := s.layerStep
      if s1.tb.adopt.isNone then s1 else (s1.takeNumber x.2).pin { s1.tb with stroke := x.2 } s1.sup s1.boot.powered s1.pending

/-! ### The commands -/

/-- What an edge left undone: an adoption, boundaries and activations that no command of their own has run. -/
def State.leftover (s : State) : State :=
  let t := s.adoptStep.layerStep
  let u := t.activateDue.within t
  { u with actDue := [] }.closeEdge
/-- A stroke edge: `miss0` and `miss1` tell that Slab 0, Slab 1 has had no heartbeat from its partner in the stroke that ends. -/
def State.strokeEdge (s : State) (miss0 miss1 : Bool) : State :=
  let s1 := s.leftover.advance
  let held := s1.boot.inReset.any (fun r => r.stage = .held)
  if held then ((s1.heldEdge.within s1).cutAsked s1).resetEdge
  else (((s1.openEdge miss0 miss1).within s1).cutAsked s1).closeEdge
/-- Does the timebase run: the hub has power and no held pin stops it (R35, R583)? -/
def State.timeRuns (s : State) : Bool := s.boot.powered && !s.boot.inReset.any (fun r => r.pinHeld)
/-- STROKE_EDGE (R32). -/
def execStrokeEdge (miss0 miss1 : Bool) (s : State) : Host.Outcome State Fault Refusal :=
  .next (if s.timeRuns then s.strokeEdge miss0 miss1 else s)
/-- An event in the middle of a stroke: what the edge has left open is done first (R14, R41). -/
def State.caughtUp (s : State) : State := if s.live && s.tb.edgeOpen then s.leftover else s
/-- An event of the hub: its effect while the hub is live, nothing otherwise. -/
def hub (s : State) (f : State → State) : Host.Outcome State Fault Refusal :=
  let u := s.caughtUp
  .next (if u.live then ((f u).within u).cutAsked u else u)
/-- One tick within a stroke; the edge itself is a command. -/
def State.tick (s : State) : State :=
  let u := s.caughtUp
  if u.live && u.tb.phase + 1 < u.tb.len then { u with tb := { u.tb with phase := u.tb.phase + 1 } } else u
/-- LAYER_BOUNDARY (R14). -/
def execLayerBoundary (s : State) : Host.Outcome State Fault Refusal := .next (if s.live then s.layerStep.closeEdge else s)
/-- SITTING_BOUNDARY (R14). -/
def execSittingBoundary (s : State) : Host.Outcome State Fault Refusal :=
  .next (if s.live then ((s.sittingStep.within s).cutAsked s).closeEdge else s)
/-- STROKE_ADOPT (R36). -/
def execStrokeAdopt (s : State) : Host.Outcome State Fault Refusal := .next (if s.live then s.adoptStep.closeEdge else s)
/-- COMMIT_ACTIVATE (R65): a page whose commit activates at this edge takes its staged values. -/
def execCommitActivate (b : Block) (n : Nat) (s : State) : Host.Outcome State Fault Refusal :=
  .next (if s.live then (((s.cmdCommitActivate b n).within s).cutAsked s).closeEdge else s)

/-! ### The end of a wake (R501, R503) -/

/-- WAKE_DONE (R416, R501, R503): READY rises, PM_PME goes out where the wake calls for it, regulation debts are clear, and
the rest of the Sitting is planned. -/
def State.wakeDone (s : State) : State :=
  if s.restState ≠ 5 then s
  else
    let s1 := (s.put .rest 0 F.REST_STATUS_STATE 0).readyRise
    let s2 := if s.rest.pme then s1.forN 16 (fun t a => if t.hasAttach a && (t.att a).d3 then t.emit (.pme a) else t) else s1
    let s3 : State := { s2 with rest := { s2.rest with pme := false } }
    let s4 := s3.forN 8 (fun t c => t.put .regu 0 F.REGU_LOAD_DEBT_SLOTS 0 c)
    s4.planSitting (2048 - s4.now.toNat % 2048)
/-- WAKE_DONE (R503). -/
def State.cmdWakeDone (s : State) : State := s.wakeDone

end Sys2Proof.Machine
end

