-- ==== Sys2Proof/Machine/Commands.lean ====
section
/-! DEFINITION. The commands of the hub: each brings a new stroke's open boundaries to their end, then has its effect. -/

namespace Sys2Proof.Machine

/-! ### Denied accesses -/

/-- DENIED_CLEAR (R84): a write of MOD_DENIED_STAT with CLEAR 1. -/
def execDeniedClear (agent : Nat) (s : State) : Host.Outcome State Fault Refusal := hub s (fun s => s.cmdDeniedClear agent)
/-- FLT_ACK (R544): a write of FLT_ACK by any agent R79 allows to write module pages. -/
def execFltAck (agent cls seq : Nat) (all : Bool) (s : State) : Host.Outcome State Fault Refusal := hub s (fun s => s.cmdFltAck agent cls seq all)

/-! ### The Seam -/

/-- ERROR_REPORT (R535, R540, R541): the reporting source shows by its phases that the timebase has reached them. -/
def execErrorReport (reps : List Rep) (s : State) : Host.Outcome State Fault Refusal :=
  let u := s.caughtUp
  hub (if u.live then u.phaseTo ((reps.map (fun r => r.phase)).foldl max 0) else u) (fun t => t.cmdErrorReport reps)
/-- WIRE_BROKEN (R536, R537): the timebase has reached the phase at which a wire is first found broken. -/
def execWireBroken (block inst loc phase : Nat) (s : State) : Host.Outcome State Fault Refusal :=
  let u := s.caughtUp
  hub (if u.live && (blockOfId block).isSome && !((block, inst, loc) ∈ u.faults.broken) then u.phaseTo phase else u)
    (fun t => t.cmdWireBroken block inst loc phase)
/-- SEAM_REPLAY (R551): a flit with a bad CRC is replayed. -/
def execSeamReplay (slab group : Nat) (s : State) : Host.Outcome State Fault Refusal := hub s (fun s => s.cmdSeamReplay slab group)
/-- SEAM_REPLAY_TIMEOUT (R551): a flit goes unacknowledged and is replayed. -/
def execSeamReplayTimeout (slab group : Nat) (s : State) : Host.Outcome State Fault Refusal := hub s (fun s => s.cmdSeamReplayTimeout slab group)
/-- SEAM_LOCK_LOSS (R551): a lane group loses lock. -/
def execSeamLockLoss (slab group : Nat) (s : State) : Host.Outcome State Fault Refusal := hub s (fun s => s.cmdSeamLockLoss slab group)

/-! ### Host requests -/

/-- HOST_READ (R27): meta 0 asks for no caching, 1 for S, 2 for A. -/
def execHostRead (a hpa meta_ at10 : Nat) (s : State) : Host.Outcome State Fault Refusal := hub s (fun s => s.cmdHostRead a hpa meta_ at10)
/-- HOST_WRITE (R29): meta 1 keeps the writer in S; `err` is what lies over the old line a partial write fetches. -/
def execHostWrite (a hpa meta_ at10 : Nat) (data : Line) (mask : BitVec 64) (poison : Bool) (err : LineErr) (s : State) :
    Host.Outcome State Fault Refusal :=
  hub s (fun s => s.cmdHostWrite a hpa meta_ at10 data mask poison err)
/-- READ_EGRESS (R51). -/
def execReadEgress (id at10 : Nat) (s : State) : Host.Outcome State Fault Refusal := hub s (fun s => s.cmdReadEgress id at10)
/-- MEDIA_READ_RETURN (R193). -/
def execMediaReadReturn (id : Nat) (errs : List LineErr) (metas : List MetaLoss) (s : State) : Host.Outcome State Fault Refusal :=
  hub s (fun s => s.cmdMediaReadReturn id errs metas)
/-- LATE_VERDICT (R259). -/
def execLateVerdict (id : Nat) (s : State) : Host.Outcome State Fault Refusal := hub s (fun s => s.cmdLateVerdict id)
/-- BISNP_RESPONSE (R631). -/
def execBisnpResponse (a page line rsp : Nat) (data : Option Line) (s : State) : Host.Outcome State Fault Refusal :=
  hub s (fun s => s.cmdBisnpResponse a page line rsp data)

/-! ### Homes -/

/-- INT_RDS (R319). -/
def execIntRds (o page line ctx hint : Nat) (s : State) : Host.Outcome State Fault Refusal := hub s (fun s => s.cmdIntRds o page line ctx hint)
/-- INT_RDO (R319): the line is taken in M and the cache's store is laid over it. -/
def execIntRdo (o page line ctx : Nat) (data : Line) (mask : BitVec 64) (s : State) : Host.Outcome State Fault Refusal :=
  hub s (fun s => s.cmdIntRdo o page line ctx data mask)
/-- INT_UPG (R319). -/
def execIntUpg (o page line ctx : Nat) (data : Line) (mask : BitVec 64) (s : State) : Host.Outcome State Fault Refusal :=
  hub s (fun s => s.cmdIntUpg o page line ctx data mask)
/-- INT_WB (R319): the dirty line and its data. -/
def execIntWb (o page line ctx : Nat) (data : Line) (s : State) : Host.Outcome State Fault Refusal := hub s (fun s => s.cmdIntWb o page line ctx data)
/-- INT_EVICT (R319). -/
def execIntEvict (o page line ctx : Nat) (s : State) : Host.Outcome State Fault Refusal := hub s (fun s => s.cmdIntEvict o page line ctx)
/-- INVAL_ACK (R320): kind 0 an owner, 1 a sharing group; with the dirty data, if the cache changed the line. -/
def execInvalAck (kind n page line : Nat) (data : Option Line) (s : State) : Host.Outcome State Fault Refusal :=
  hub s (fun s => s.cmdInvalAck kind n page line data)
/-- SNOOP_READ (R322). -/
def execSnoopRead (o page line ctx : Nat) (s : State) : Host.Outcome State Fault Refusal := hub s (fun s => s.cmdSnoopRead o page line ctx)
/-- FAR_ATOMIC (R325, R377): the kernel's merge of one row under a key. -/
def execFarAtomic (q page line ctx key : Nat) (kernel : List (BitVec 8)) (vals : List (Option Nat)) (s : State) : Host.Outcome State Fault Refusal :=
  hub s (fun s => s.cmdFarAtomic q page line ctx key kernel vals)
/-- VICTIM_RECALL_DONE (R312): a victim's recall has ended; its buffer entry is freed. -/
def execVictimRecallDone (slab hl : Nat) (s : State) : Host.Outcome State Fault Refusal := hub s (fun s => s.cmdVictimRecallDone slab hl)
/-- SWEEP_DONE (R332): both sweeps of a departed attach point have ended: its bit leaves every entry, and a link that has retrained
since may enable CXL.mem. -/
def execSweepDone (a : Nat) (s : State) : Host.Outcome State Fault Refusal := hub s (fun s => s.cmdSweepDone a)
/-- REGION_RESOLVE (R335): the first request that waits on an unknown region starts its resolution. -/
def execRegionResolve (s : State) : Host.Outcome State Fault Refusal := hub s (fun s => s.cmdRegionResolve)
/-- REGION_RESOLVED (R335): the writebacks that answered come first; the region is known and its requests are ordered. -/
def execRegionResolved (wbs : List (Nat × Nat × Nat × Line)) (s : State) : Host.Outcome State Fault Refusal :=
  hub s (fun s => s.cmdRegionResolved wbs)
/-- HANDBACK (R336, R346): once every Diptych is PAIRED, the survivor sweeps its Hub Cache of the returning Slab's pages and begins the
transfer. -/
def execHandback (s : State) : Host.Outcome State Fault Refusal := hub s (fun s => s.cmdHandback)
/-- HANDBACK_DONE (R228, R336): the returning Slab is home for its pages, with the entries, census and unknown marks it was sent. -/
def execHandbackDone (s : State) : Host.Outcome State Fault Refusal := hub s (fun s => s.cmdHandbackDone)
/-- DIRQ (R340): a write of HOME_DIRQ_CTL. -/
def execDirq (agent slab line : Nat) (s : State) : Host.Outcome State Fault Refusal := hub s (fun s => s.cmdDirq agent slab line)
/-- PMAP_READ_ENTRY (R122). -/
def execPmapReadEntry (agent slab : Nat) (s : State) : Host.Outcome State Fault Refusal := hub s (fun s => s.cmdPmapReadEntry agent slab)
/-- PMAP_PIN (R111). -/
def execPmapPin (agent slab : Nat) (s : State) : Host.Outcome State Fault Refusal := hub s (fun s => s.cmdPmapPin agent slab)
/-- PMAP_UNPIN (R111). -/
def execPmapUnpin (agent slab : Nat) (s : State) : Host.Outcome State Fault Refusal := hub s (fun s => s.cmdPmapUnpin agent slab)
/-- PMAP_DISCARD (R105, R324). -/
def execPmapDiscard (agent slab : Nat) (s : State) : Host.Outcome State Fault Refusal := hub s (fun s => s.cmdPmapDiscard agent slab)
/-- PREFETCH_INSTALL (R351, R347): a prefetched line returns with the error patterns that lay over it. -/
def execPrefetchInstall (page line : Nat) (err : LineErr) (s : State) : Host.Outcome State Fault Refusal :=
  hub s (fun s => s.cmdPrefetchInstall page line err)
/-- RUNAHEAD_INSTALL (R338, R349): the next sub-block of a page's run-ahead fill installs its sixteen lines, or the fill is squashed. -/
def execRunaheadInstall (page : Nat) (s : State) : Host.Outcome State Fault Refusal := hub s (fun s => s.cmdRunaheadInstall page)
/-- CHUNK_DRAIN (R355 to R357): a chunk entry drains as one whole-chunk write; its zero lines are data in media from here on. -/
def execChunkDrain (vein ofs chunk : Nat) (s : State) : Host.Outcome State Fault Refusal := hub s (fun s => s.cmdChunkDrain vein ofs chunk)
/-- HCAC_INVAL_PAGE (R358). -/
def execHcacInvalPage (agent slab : Nat) (s : State) : Host.Outcome State Fault Refusal := hub s (fun s => s.cmdHcacInvalPage agent slab)
/-- HCAC_CLEAN_PAGE (R358). -/
def execHcacCleanPage (agent slab : Nat) (s : State) : Host.Outcome State Fault Refusal := hub s (fun s => s.cmdHcacCleanPage agent slab)
/-- HCAC_CLEAN_INVAL_PAGE (R358). -/
def execHcacCleanInvalPage (agent slab : Nat) (s : State) : Host.Outcome State Fault Refusal := hub s (fun s => s.cmdHcacCleanInvalPage agent slab)
/-- HCAC_INVAL_SET_WAY (R358, R359): a secure way only for the secure processor. -/
def execHcacInvalSetWay (agent slab set way : Nat) (s : State) : Host.Outcome State Fault Refusal :=
  hub s (fun s => s.cmdHcacInvalSetWay agent slab set way)
/-- HCAC_INVAL_ALL (R358, R359): the sweep begins. -/
def execHcacInvalAll (agent slab : Nat) (s : State) : Host.Outcome State Fault Refusal := hub s (fun s => s.cmdHcacInvalAll agent slab)
/-- HCAC_CMD_DONE (R358): a Slab's command in progress ends: a clean whose writes have reached the queues, a set/way, or a full sweep. -/
def execHcacCmdDone (slab : Nat) (s : State) : Host.Outcome State Fault Refusal := hub s (fun s => s.cmdHcacCmdDone slab)
/-- HCAC_REPARTITION (R353): only the secure processor; a change starts the sweep. -/
def execHcacRepartition (agent slab ways : Nat) (s : State) : Host.Outcome State Fault Refusal :=
  hub s (fun s => s.cmdHcacRepartition agent slab ways)
/-- REPART_DONE (R346, R353): entries in ways that change partition are gone, and the new partition governs. -/
def execRepartDone (slab : Nat) (s : State) : Host.Outcome State Fault Refusal := hub s (fun s => s.cmdRepartDone slab)

/-! ### Integrity trees -/

/-- TREE_LINE_EVICT (R253): a dirty line leaves its owner's cache for both Veins under its parent's next counter. -/
def execTreeLineEvict (dipt level index : Nat) (s : State) : Host.Outcome State Fault Refusal := hub s (fun s => s.cmdTreeLineEvict dipt level index)
/-- SUBTREE_REBUILD_DONE (R265): the subtree of a lost line is rebuilt, and the writes held for it are released. -/
def execSubtreeRebuildDone (dipt level index : Nat) (s : State) : Host.Outcome State Fault Refusal :=
  hub s (fun s => s.cmdSubtreeRebuildDone dipt level index)

/-! ### Keys -/

/-- KEYS_GENERATE (R272). -/
def execKeysGenerate (agent slab : Nat) (s : State) : Host.Outcome State Fault Refusal := hub s (fun s => s.cmdKeysGenerate agent slab)
/-- KEYS_LOAD (R272). -/
def execKeysLoad (agent slab : Nat) (s : State) : Host.Outcome State Fault Refusal := hub s (fun s => s.cmdKeysLoad agent slab)
/-- KEYS_UNWRAP (R235, R272): the key-encryption key the secure processor names unwraps the blob in KEYS_MATERIAL. -/
def execKeysUnwrap (agent slab kek : Nat) (s : State) : Host.Outcome State Fault Refusal := hub s (fun s => s.cmdKeysUnwrap agent slab kek)
/-- KEYS_ERASE (R236). -/
def execKeysErase (agent slab : Nat) (s : State) : Host.Outcome State Fault Refusal := hub s (fun s => s.cmdKeysErase agent slab)
/-- KEYS_WRITE_ATTR (R272). -/
def execKeysWriteAttr (agent slab : Nat) (s : State) : Host.Outcome State Fault Refusal := hub s (fun s => s.cmdKeysWriteAttr agent slab)
/-- KEYS_READ_ATTR (R272). -/
def execKeysReadAttr (agent slab : Nat) (s : State) : Host.Outcome State Fault Refusal := hub s (fun s => s.cmdKeysReadAttr agent slab)
/-- KEYS_ERASE_DONE (R236): the last request under an erased context has completed; its keys are destroyed. -/
def execKeysEraseDone (slab : Nat) (s : State) : Host.Outcome State Fault Refusal := hub s (fun s => s.cmdKeysEraseDone slab)

/-! ### Tiers -/

/-- ENCODE_DONE (R168, R169): the lane that encodes a page ends. -/
def execEncodeDone (page : Nat) (selfFail : Bool) (s : State) : Host.Outcome State Fault Refusal := hub s (fun s => s.cmdEncodeDone page selfFail)
/-- CODEC_DECODE_DONE (R162, R163, R165): the decode of a read's image ends on its lane, which goes to the work that waits. -/
def execCodecDecodeDone (slab lane : Nat) (s : State) : Host.Outcome State Fault Refusal := hub s (fun s => s.cmdCodecDecodeDone slab lane)
/-- ROW_BUFFER_TIMEOUT (R102): 64 strokes after its first granule, a row is padded and written. -/
def execRowBufferTimeout (vein : Nat) (s : State) : Host.Outcome State Fault Refusal := hub s (fun s => s.cmdRowBufferTimeout vein)
/-- COMPACTION (R103): with fewer than 1/16 of a Vein's deep rows free, the live pages of its emptiest row are rewritten into new rows. -/
def execCompaction (vein : Nat) (s : State) : Host.Outcome State Fault Refusal := hub s (fun s => s.cmdCompaction vein)
/-- TIER_MOVE_DONE (R97, R105, R106): a page's move ends, its image read with the error patterns given; a frame of a retiring Diptych moves
its lines to its relief frame. -/
def execTierMoveDone (page : Nat) (errs : List LineErr) (s : State) : Host.Outcome State Fault Refusal := hub s (fun s => s.cmdTierMoveDone page errs)
/-- EXHAUSTION_TIMEOUT (R117): 2,048 strokes after its stamp a write still has no room; it completes, and its held lines are poison with
code 0x07 until they are rewritten. -/
def execExhaustionTimeout (page : Nat) (s : State) : Host.Outcome State Fault Refusal := hub s (fun s => s.cmdExhaustionTimeout page)

/-! ### Veins -/

/-- TRAINING_DONE (R126 to R128): cold-reset training, which the configuration's speed grade starts, ends; `base` is what it found on every channel but those listed. -/
def execTrainingDone (base : ChanTrain) (others : List (Nat × ChanTrain)) (s : State) : Host.Outcome State Fault Refusal :=
  hub s (fun s => s.cmdTrainingDone base others)
/-- WARM_TRAINING_CHECK (R129): the read calibration of a Vein is repeated. `news` gives, for a channel, the new read centres of its four
lanes and what steps 2 to 6 find should it need them; a channel not listed finds its stored centres. -/
def execWarmTrainingCheck (vein : Nat) (news : List (Nat × List Nat × ChanTrain)) (s : State) : Host.Outcome State Fault Refusal :=
  hub s (fun s => s.cmdWarmTrainingCheck vein news)
/-- MR4_POLL (R130, R133, R137, R140, R141): the reading of a refresh slot. `centres` are the read centres the check of R130 finds. -/
def execMr4Poll (chan code : Nat) (centres : List Nat) (s : State) : Host.Outcome State Fault Refusal :=
  hub s (fun s => s.cmdMr4Poll chan code centres)
/-- FORCED_REFRESH (R140, R142): a channel's debt would reach eight. -/
def execForcedRefresh (chan : Nat) (s : State) : Host.Outcome State Fault Refusal := hub s (fun s => s.cmdForcedRefresh chan)
/-- VEIN_SLOT_GRANT (R135, R145, R147): an open channel serves its best access; what lost the slot is shown. -/
def execVeinSlotGrant (vein ofs : Nat) (hits : List Nat) (s : State) : Host.Outcome State Fault Refusal :=
  hub s (fun s => s.cmdVeinSlotGrant vein ofs hits)
/-- PANIC_LEVEL_REPORT (R146): the port reports an attach point's ingress level, in eighths of its buffer, to every Vein. -/
def execPanicLevelReport (a : Nat) (s : State) : Host.Outcome State Fault Refusal := hub s (fun s => s.cmdPanicLevelReport a)

/-! ### Protection -/

/-- SCRUB_LINE (R202 to R204): the next line of a Vein's pass, or the next whole row of its deep area, channels in turn. -/
def execScrubLine (vein : Nat) (errs : List LineErr) (s : State) : Host.Outcome State Fault Refusal := hub s (fun s => s.cmdScrubLine vein errs)
/-- FLIP_ARM (R208, R209): a write of the whole DPRT_FLIP_CTL word, ARM included. -/
def execFlipArm (agent slab value : Nat) (s : State) : Host.Outcome State Fault Refusal := hub s (fun s => s.cmdFlipArm agent slab value)
/-- DIPT_RETIRE (R231). -/
def execDiptRetire (agent k ofs side : Nat) (s : State) : Host.Outcome State Fault Refusal := hub s (fun s => s.cmdDiptRetire agent k ofs side)
/-- RELOC_DONE (R216, R230): no frame and no page remains to move, and the Diptych leaves RETIRING. -/
def execRelocDone (k : Nat) (s : State) : Host.Outcome State Fault Refusal := hub s (fun s => s.cmdRelocDone k)
/-- ABSENT_VEIN_HOLD_TIMEOUT (R222): requests to a page of an absent Vein have been held to the end of stroke s + 64: reads return poison with
code 0x02, and a written page becomes hot with its other lines as markers of that code. -/
def execAbsentVeinHoldTimeout (page : Nat) (s : State) : Host.Outcome State Fault Refusal := hub s (fun s => s.cmdAbsentVeinHoldTimeout page)
/-- RESYNC_FRAME_COPY (R226): the next frame whose bit is set, in ascending order, is copied whole to the side that lacks it, and its bit
clears. -/
def execResyncFrameCopy (k : Nat) (s : State) : Host.Outcome State Fault Refusal := hub s (fun s => s.cmdResyncFrameCopy k)

/-! ### Ports -/

/-- LINK_UP (R274, R275): a link finishes training; `memOn` is what the host asks for CXL.mem. -/
def execLinkUp (a width speed : Nat) (flit256 memOn : Bool) (s : State) : Host.Outcome State Fault Refusal :=
  hub s (fun s => s.cmdLinkUp a width speed flit256 memOn)
/-- LINK_DOWN (R304). -/
def execLinkDown (a : Nat) (s : State) : Host.Outcome State Fault Refusal := hub s (fun s => s.cmdLinkDown a)
/-- PERST (R304): a conventional reset by the attach point's pin. -/
def execPerst (a : Nat) (s : State) : Host.Outcome State Fault Refusal := hub s (fun s => s.cmdPerst a)
/-- HOT_RESET (R304): a conventional reset over a link that is up. -/
def execHotReset (a : Nat) (s : State) : Host.Outcome State Fault Refusal := hub s (fun s => s.cmdHotReset a)
/-- FLR (R304): the mailbox command is aborted, MSI-X and Bus Master Enable are cleared; the link, decoders and viral stay. -/
def execFlr (a : Nat) (s : State) : Host.Outcome State Fault Refusal := hub s (fun s => s.cmdFlr a)
/-- CONFIG_SPACE_WRITE (R304, R496): a host sets its function's power state, Bus Master Enable and MSI-X Enable. -/
def execConfigSpaceWrite (a : Nat) (d3 bme msix : Bool) (s : State) : Host.Outcome State Fault Refusal :=
  hub s (fun s => s.cmdConfigSpaceWrite a d3 bme msix)
/-- HDM_COMMIT (R281): a host commits or uncommits decoder `j` of its attach point, from the next stroke edge. A locked decoder keeps its
setting; a commit that fails sets Error Not Committed and changes nothing else. -/
def execHdmCommit (a j base size ways gran pos skip : Nat) (commit lock : Bool) (s : State) : Host.Outcome State Fault Refusal :=
  hub s (fun s => s.cmdHdmCommit a j base size ways gran pos skip commit lock)
/-- IDE_FAIL (R290): the stream becomes insecure, the failure is counted and recorded at L2, and the attach point enters viral. -/
def execIdeFail (a : Nat) (s : State) : Host.Outcome State Fault Refusal := hub s (fun s => s.cmdIdeFail a)
/-- IDE_KM (R290): the secure processor answers the key messages; once the keys are set the stream is secure. -/
def execIdeKm (a : Nat) (s : State) : Host.Outcome State Fault Refusal := hub s (fun s => s.cmdIdeKm a)
/-- PORT_IRQ_REARM (R293): REARM_h in bit h. -/
def execPortIrqRearm (agent port mask : Nat) (s : State) : Host.Outcome State Fault Refusal := hub s (fun s => s.cmdPortIrqRearm agent port mask)

/-! ### Mailbox commands -/

/-- GET_EVENT_RECORDS (R300): the log's records, with the overflow count and its first and last times. -/
def execGetEventRecords (a log : Nat) (s : State) : Host.Outcome State Fault Refusal := hub s (fun s => s.cmdGetEventRecords a log)
/-- CLEAR_EVENT_RECORDS (R300): the named records, or the whole log, leave; the overflow of the log ends with them. -/
def execClearEventRecords (a log : Nat) (all : Bool) (handles : List Nat) (s : State) : Host.Outcome State Fault Refusal :=
  hub s (fun s => s.cmdClearEventRecords a log all handles)
/-- GET_EVENT_INTERRUPT_POLICY (R294): one byte a log. -/
def execGetEventInterruptPolicy (a : Nat) (s : State) : Host.Outcome State Fault Refusal := hub s (fun s => s.cmdGetEventInterruptPolicy a)
/-- SET_EVENT_INTERRUPT_POLICY (R294): the bytes of the logs in order. -/
def execSetEventInterruptPolicy (a : Nat) (bytes : List Nat) (s : State) : Host.Outcome State Fault Refusal :=
  hub s (fun s => s.cmdSetEventInterruptPolicy a bytes)
/-- GET_TIMESTAMP (R297). -/
def execGetTimestamp (a : Nat) (s : State) : Host.Outcome State Fault Refusal := hub s (fun s => s.cmdGetTimestamp a)
/-- SET_TIMESTAMP (R297). -/
def execSetTimestamp (a value : Nat) (s : State) : Host.Outcome State Fault Refusal := hub s (fun s => s.cmdSetTimestamp a value)
/-- GET_SUPPORTED_LOGS (R294). -/
def execGetSupportedLogs (a : Nat) (s : State) : Host.Outcome State Fault Refusal := hub s (fun s => s.cmdGetSupportedLogs a)
/-- GET_LOG (R294): `n` bytes of the Command Effects Log from `ofs`. -/
def execGetLog (a ofs n : Nat) (s : State) : Host.Outcome State Fault Refusal := hub s (fun s => s.cmdGetLog a ofs n)
/-- IDENTIFY_MEMORY_DEVICE (R294): capacities in units of 256 MiB, log sizes of 64 records, a poison list of 1,024; the fields the spec does
not give are free. -/
def execIdentifyMemoryDevice (a : Nat) (s : State) : Host.Outcome State Fault Refusal := hub s (fun s => s.cmdIdentifyMemoryDevice a)
/-- GET_PARTITION_INFO (R294): volatile only. -/
def execGetPartitionInfo (a : Nat) (s : State) : Host.Outcome State Fault Refusal := hub s (fun s => s.cmdGetPartitionInfo a)
/-- GET_HEALTH_INFO (R294): life used is not implemented; the fields the spec does not give are free. -/
def execGetHealthInfo (a : Nat) (s : State) : Host.Outcome State Fault Refusal := hub s (fun s => s.cmdGetHealthInfo a)
/-- GET_ALERT_CONFIG (R294). -/
def execGetAlertConfig (a : Nat) (s : State) : Host.Outcome State Fault Refusal := hub s (fun s => s.cmdGetAlertConfig a)
/-- SET_ALERT_CONFIG (R294, R299). -/
def execSetAlertConfig (a : Nat) (cfg : BitVec 96) (s : State) : Host.Outcome State Fault Refusal := hub s (fun s => s.cmdSetAlertConfig a cfg)
/-- GNORRID_IDENTIFY (R295). -/
def execGnorridIdentify (a : Nat) (s : State) : Host.Outcome State Fault Refusal := hub s (fun s => s.cmdGnorridIdentify a)
/-- GET_TIMEBASE (R294): stroke number, phase, the low byte of TMB_STATUS and TMB_LOCAL_ELAPSED. -/
def execGetTimebase (a : Nat) (s : State) : Host.Outcome State Fault Refusal := hub s (fun s => s.cmdGetTimebase a)
/-- GET_POISON_LIST (R285): the entries in the DPA range, with the overflow flag and its time. -/
def execGetPoisonList (a dpa len : Nat) (s : State) : Host.Outcome State Fault Refusal := hub s (fun s => s.cmdGetPoisonList a dpa len)
/-- INJECT_POISON (R286). -/
def execInjectPoison (a dpa : Nat) (s : State) : Host.Outcome State Fault Refusal := hub s (fun s => s.cmdInjectPoison a dpa)
/-- CLEAR_POISON (R286). -/
def execClearPoison (a dpa : Nat) (data : Line) (s : State) : Host.Outcome State Fault Refusal := hub s (fun s => s.cmdClearPoison a dpa data)
/-- GET_SCAN_MEDIA_CAPABILITIES (R298): the estimate in strokes. -/
def execGetScanMediaCapabilities (a dpa len : Nat) (s : State) : Host.Outcome State Fault Refusal :=
  hub s (fun s => s.cmdGetScanMediaCapabilities a dpa len)
/-- SCAN_MEDIA (R298, R299): one scan in the module at a time. -/
def execScanMedia (a dpa len : Nat) (s : State) : Host.Outcome State Fault Refusal := hub s (fun s => s.cmdScanMedia a dpa len)
/-- SCAN_MEDIA_DONE (R298): every stored line of the range has been read as scrub work, at most one a Vein in a stroke; `hots` are the errors
met on hot lines by media key, `rows` those met on deep rows. -/
def execScanMediaDone (hots : List (Nat × LineErr)) (rows : List (Nat × Nat × List LineErr)) (s : State) : Host.Outcome State Fault Refusal :=
  hub s (fun s => s.cmdScanMediaDone hots rows)
/-- GET_SCAN_MEDIA_RESULTS (R298): the markers found. -/
def execGetScanMediaResults (a : Nat) (s : State) : Host.Outcome State Fault Refusal := hub s (fun s => s.cmdGetScanMediaResults a)
/-- DC_OFFER (R301): the management processor offers an extent to an attach point. -/
def execDcOffer (a first n : Nat) (s : State) : Host.Outcome State Fault Refusal := hub s (fun s => s.cmdDcOffer a first n)
/-- ADD_DYNAMIC_CAPACITY_RESPONSE (R302): accepts the extents it lists out of the offers to its attach point; listing none declines the oldest
offer. -/
def execAddDynamicCapacityResponse (a : Nat) (exts : List (Nat × Nat)) (s : State) : Host.Outcome State Fault Refusal :=
  hub s (fun s => s.cmdAddDynamicCapacityResponse a exts)
/-- RELEASE_DYNAMIC_CAPACITY (R94, R303): a host releases an accepted extent. -/
def execReleaseDynamicCapacity (a : Nat) (ext : Nat × Nat) (s : State) : Host.Outcome State Fault Refusal :=
  hub s (fun s => s.cmdReleaseDynamicCapacity a ext)
/-- DC_OFFER_TIMEOUT (R302): offers unanswered for OFFER_TIMEOUT Sittings are withdrawn. -/
def execDcOfferTimeout (s : State) : Host.Outcome State Fault Refusal := hub s (fun s => s.cmdDcOfferTimeout)

/-! ### Offload -/

/-- OFLD_DOORBELL (R174). -/
def execOfldDoorbell (agent slab q tail : Nat) (s : State) : Host.Outcome State Fault Refusal := hub s (fun s => s.cmdOfldDoorbell agent slab q tail)
/-- OFLD_NOOP (R175): a no-op completes with a record only. -/
def execOfldNoop (slab q : Nat) (env : JobEnv) (s : State) : Host.Outcome State Fault Refusal := hub s (fun s => s.cmdOfldNoop slab q env)
/-- OFLD_DEFLATE (R178). -/
def execOfldDeflate (slab q : Nat) (env : JobEnv) (s : State) : Host.Outcome State Fault Refusal := hub s (fun s => s.cmdOfldDeflate slab q env)
/-- OFLD_INFLATE (R178). -/
def execOfldInflate (slab q : Nat) (env : JobEnv) (s : State) : Host.Outcome State Fault Refusal := hub s (fun s => s.cmdOfldInflate slab q env)
/-- OFLD_STRATA_ENCODE (R168). -/
def execOfldStrataEncode (slab q : Nat) (env : JobEnv) (s : State) : Host.Outcome State Fault Refusal :=
  hub s (fun s => s.cmdOfldStrataEncode slab q env)
/-- OFLD_STRATA_DECODE (R161). -/
def execOfldStrataDecode (slab q : Nat) (env : JobEnv) (s : State) : Host.Outcome State Fault Refusal :=
  hub s (fun s => s.cmdOfldStrataDecode slab q env)
/-- OFFLOAD_STEP_DONE (R172, R173): an offload step or an in-line operation on a lane ends, and the lane goes to the waiting work of highest
precedence. -/
def execOffloadStepDone (slab lane : Nat) (s : State) : Host.Outcome State Fault Refusal := hub s (fun s => s.cmdOffloadStepDone slab lane)
/-- OFLD_COMPLETION (R184, R185): the next finished job's record is written, or held while its queue is full. -/
def execOfldCompletion (slab q : Nat) (s : State) : Host.Outcome State Fault Refusal := hub s (fun s => s.cmdOfldCompletion slab q)
/-- OFLD_CQ_HEAD (R185): host software takes records, and held ones are written. -/
def execOfldCqHead (agent slab q head : Nat) (s : State) : Host.Outcome State Fault Refusal := hub s (fun s => s.cmdOfldCqHead agent slab q head)
/-- OFLD_ABORT (R186): a write of OFLD_QUEUE_EN. -/
def execOfldAbort (agent slab value : Nat) (s : State) : Host.Outcome State Fault Refusal := hub s (fun s => s.cmdOfldAbort agent slab value)

/-! ### Query engines -/

/-- QENG_DOORBELL (R384): a doorbell of a disabled queue, or one past the ring, is ignored and sets DOORBELL_BAD. -/
def execQengDoorbell (agent q tail : Nat) (s : State) : Host.Outcome State Fault Refusal := hub s (fun s => s.cmdQengDoorbell agent q tail)
/-- QE_NOOP (R369): a no-op completes with a record only. -/
def execQeNoop (q : Nat) (env : JobEnv) (s : State) : Host.Outcome State Fault Refusal := hub s (fun s => s.cmdQeNoop q env)
/-- QE_FILTER (R371). -/
def execQeFilter (q : Nat) (env : JobEnv) (s : State) : Host.Outcome State Fault Refusal := hub s (fun s => s.cmdQeFilter q env)
/-- QE_PROJECT (R372). -/
def execQeProject (q : Nat) (env : JobEnv) (s : State) : Host.Outcome State Fault Refusal := hub s (fun s => s.cmdQeProject q env)
/-- QE_GATHER (R373). -/
def execQeGather (q : Nat) (env : JobEnv) (s : State) : Host.Outcome State Fault Refusal := hub s (fun s => s.cmdQeGather q env)
/-- QE_HASH_PROBE (R383). -/
def execQeHashProbe (q : Nat) (env : JobEnv) (s : State) : Host.Outcome State Fault Refusal := hub s (fun s => s.cmdQeHashProbe q env)
/-- QE_AGGREGATE (R377). -/
def execQeAggregate (q : Nat) (env : JobEnv) (s : State) : Host.Outcome State Fault Refusal := hub s (fun s => s.cmdQeAggregate q env)
/-- QE_JOB_DONE (R391): the ended job's record waits for its slot. -/
def execQeJobDone (q : Nat) (s : State) : Host.Outcome State Fault Refusal := hub s (fun s => s.cmdQeJobDone q)
/-- QGTH_CQ_HEAD (R394): host software takes records, and the slots that waited are written. -/
def execQgthCqHead (agent slab c head : Nat) (s : State) : Host.Outcome State Fault Refusal := hub s (fun s => s.cmdQgthCqHead agent slab c head)
/-- QENG_ABORT (R397): a write of QENG_CTL. -/
def execQengAbort (agent q value : Nat) (s : State) : Host.Outcome State Fault Refusal := hub s (fun s => s.cmdQengAbort agent q value)
/-- QENG_CACHE_FLUSH (R402): CACHE_FLUSH written, the other bits as they stand. -/
def execQengCacheFlush (agent q : Nat) (s : State) : Host.Outcome State Fault Refusal := hub s (fun s => s.cmdQengCacheFlush agent q)
/-- QENG_FLUSH_DONE (R402): every line has been written back; FLUSH_DONE is raised. -/
def execQengFlushDone (q : Nat) (s : State) : Host.Outcome State Fault Refusal := hub s (fun s => s.cmdQengFlushDone q)

/-! ### The ring -/

/-- RING_REPLAY_TIMEOUT (R439): the oldest flit has had no acknowledgement. -/
def execRingReplayTimeout (pair side : Nat) (s : State) : Host.Outcome State Fault Refusal := hub s (fun s => s.cmdRingReplayTimeout pair side)
/-- RING_LOCK_LOSS (R465, R479): a side's receiver loses lock, or the link is declared down. -/
def execRingLockLoss (pair side : Nat) (down : Bool) (s : State) : Host.Outcome State Fault Refusal :=
  hub s (fun s => s.cmdRingLockLoss pair side down)
/-- FLIT_RECEIVE (R437 to R439, R441): a flit that fails its CRC, or that leaves a gap, is dropped with every later one until the replay
arrives, and a NAK goes out. -/
def execFlitReceive (pair side fseq ackSeq : Nat) (ackValid nak crcOk : Bool) (crVc crCount : Nat) (slots : List Nat) (s : State) :
    Host.Outcome State Fault Refusal :=
  hub s (fun s => s.cmdFlitReceive pair side fseq ackSeq ackValid nak crcOk crVc crCount slots)
/-- RING_SIDE_UP (R434). -/
def execRingSideUp (pair side position _role : Nat) (_serial : BitVec 64) (_head _pairB : Bool) (s : State) : Host.Outcome State Fault Refusal :=
  hub s (fun s => s.cmdRingSideUp pair side position _role _serial _head _pairB)
/-- LSKP (R432, R433): it reseeds the scramblers and absorbs clock difference; no state above the lanes changes. -/
def execLskp (_pair _side _adjust : Nat) (s : State) : Host.Outcome State Fault Refusal := hub s (fun s => s.cmdLskp _pair _side _adjust)
/-- LSTRK (R453). -/
def execLstrk (pair side : Nat) (stroke : Stroke) (txOfs : Nat) (sourceOk holdover rooted : Bool) (depth : Nat) (tr : Int) (s : State) :
    Host.Outcome State Fault Refusal :=
  hub s (fun s => s.cmdLstrk pair side stroke txOfs sourceOk holdover rooted depth tr)
/-- LECHO (R452): a request is answered with the time it waited. -/
def execLecho (pair side ta : Nat) (s : State) : Host.Outcome State Fault Refusal := hub s (fun s => s.cmdLecho pair side ta)
/-- LECHO_REPLY (R452): LINK_DELAY is half of what the round trip took beyond the peer's wait, to the nearest u. -/
def execLechoReply (pair side ta t4 : Nat) (s : State) : Host.Outcome State Fault Refusal := hub s (fun s => s.cmdLechoReply pair side ta t4)
/-- LSPL_PROBE (R462, R463). -/
def execLsplProbe (pair side : Nat) (_stroke : Stroke) (_position : Nat) (s : State) : Host.Outcome State Fault Refusal :=
  hub s (fun s => s.cmdLsplProbe pair side _stroke _position)
/-- LSPL_UNWRAP (R464): the neighbour names its unwrap stroke. -/
def execLsplUnwrap (pair side : Nat) (stroke : Stroke) (_position : Nat) (s : State) : Host.Outcome State Fault Refusal :=
  hub s (fun s => s.cmdLsplUnwrap pair side stroke _position)
/-- SPLICE_HALF_START (R461, R462): in a half's first stroke a member stops new frames in its direction and sends its probe once all it sent
is acknowledged. -/
def execSpliceHalfStart (pair dir : Nat) (s : State) : Host.Outcome State Fault Refusal := hub s (fun s => s.cmdSpliceHalfStart pair dir)
/-- TAP_TRAFFIC (R467). -/
def execTapTraffic (pair : Nat) (s : State) : Host.Outcome State Fault Refusal := hub s (fun s => s.cmdTapTraffic pair)
/-- TAP_SILENCE_TIMEOUT (R467): both taps silent for two Sittings. -/
def execTapSilenceTimeout (pair : Nat) (s : State) : Host.Outcome State Fault Refusal := hub s (fun s => s.cmdTapSilenceTimeout pair)
/-- ENUM_TIMEOUT (R467): no ENUM for two Sittings after training. -/
def execEnumTimeout (pair : Nat) (s : State) : Host.Outcome State Fault Refusal := hub s (fun s => s.cmdEnumTimeout pair)
/-- STROKE_FRAME_TIMEOUT (R466, R467): no STROKE frame for 64 strokes. -/
def execStrokeFrameTimeout (pair : Nat) (s : State) : Host.Outcome State Fault Refusal := hub s (fun s => s.cmdStrokeFrameTimeout pair)
/-- HOLDOVER_TIMEOUT (R456): after 64 strokes of holdover the upstream is chosen afresh: the other side when it is up, else none. -/
def execHoldoverTimeout (s : State) : Host.Outcome State Fault Refusal := hub s (fun s => s.cmdHoldoverTimeout)
/-- LODE_REJOIN (R467): pairs in LEFT or ALONE listen again. -/
def execLodeRejoin (agent : Nat) (s : State) : Host.Outcome State Fault Refusal := hub s (fun s => s.cmdLodeRejoin agent)
/-- RING_REVIVE (R479, R480): PERM_DOWN and the bucket of the sides named are cleared, and they train again. -/
def execRingRevive (agent slab sides : Nat) (s : State) : Host.Outcome State Fault Refusal := hub s (fun s => s.cmdRingRevive agent slab sides)
/-- ENUM (R443): it is not a frame any member takes whole: each passes it on with its index. -/
def execEnum (pair side : Nat) (f : Frame) (serial : BitVec 64) (s : State) : Host.Outcome State Fault Refusal :=
  hub s (fun s => s.cmdEnum pair side f serial)
/-- JOIN_REQ (R443, R446). -/
def execJoinReq (pair side : Nat) (f : Frame) (s : State) : Host.Outcome State Fault Refusal := hub s (fun s => s.cmdJoinReq pair side f)
/-- ASSIGN (R443, R446, R447): the member whose JOIN_REQ bears its tag takes it, others pass it on. -/
def execAssign (pair side : Nat) (f : Frame) (s : State) : Host.Outcome State Fault Refusal := hub s (fun s => s.cmdAssign pair side f)

/-! ### Spill -/

/-- SPILL_START (R112, R266, R468): the deep or plain page of lowest HEAT whose NO_SPILL is 0 begins its way to the donor. -/
def execSpillStart (s : State) : Host.Outcome State Fault Refusal := hub s (fun s => s.cmdSpillStart)
/-- DONOR_ABSENT_TIMEOUT (R116): a read of a page on an absent donor has been held for 64 strokes. -/
def execDonorAbsentTimeout (id : Nat) (s : State) : Host.Outcome State Fault Refusal := hub s (fun s => s.cmdDonorAbsentTimeout id)
/-- RING_REQUEST_RETRY (R466): with no response within 8 strokes a request is sent once more, the other way round. -/
def execRingRequestRetry (tag : Nat) (s : State) : Host.Outcome State Fault Refusal := hub s (fun s => s.cmdRingRequestRetry tag)
/-- RING_REQUEST_FAIL (R466): no response by 64 strokes after the first send. -/
def execRingRequestFail (tag : Nat) (s : State) : Host.Outcome State Fault Refusal := hub s (fun s => s.cmdRingRequestFail tag)
/-- SPILL_REQ (R468). -/
def execSpillReq (pair side : Nat) (f : Frame) (s : State) : Host.Outcome State Fault Refusal := hub s (fun s => s.cmdSpillReq pair side f)
/-- SPILL_GRANT (R468). -/
def execSpillGrant (pair side : Nat) (f : Frame) (s : State) : Host.Outcome State Fault Refusal := hub s (fun s => s.cmdSpillGrant pair side f)
/-- SPILL_DATA (R468). -/
def execSpillData (pair side : Nat) (f : Frame) (s : State) : Host.Outcome State Fault Refusal := hub s (fun s => s.cmdSpillData pair side f)
/-- SPILL_DONE (R468). -/
def execSpillDone (pair side : Nat) (f : Frame) (s : State) : Host.Outcome State Fault Refusal := hub s (fun s => s.cmdSpillDone pair side f)
/-- SPILL_READ (R468). -/
def execSpillRead (pair side : Nat) (f : Frame) (s : State) : Host.Outcome State Fault Refusal := hub s (fun s => s.cmdSpillRead pair side f)
/-- SPILL_RDATA (R468). -/
def execSpillRdata (pair side : Nat) (f : Frame) (s : State) : Host.Outcome State Fault Refusal := hub s (fun s => s.cmdSpillRdata pair side f)
/-- SPILL_FREE (R468). -/
def execSpillFree (pair side : Nat) (f : Frame) (s : State) : Host.Outcome State Fault Refusal := hub s (fun s => s.cmdSpillFree pair side f)
/-- SPILL_DECLINE (R468). -/
def execSpillDecline (pair side : Nat) (f : Frame) (s : State) : Host.Outcome State Fault Refusal := hub s (fun s => s.cmdSpillDecline pair side f)
/-- SPILL_RETURN (R469). -/
def execSpillReturn (pair side : Nat) (f : Frame) (s : State) : Host.Outcome State Fault Refusal := hub s (fun s => s.cmdSpillReturn pair side f)

/-! ### Ring frames -/

/-- STROKE (R457). In LISTEN and JOINING the taps read the window from it (R463). -/
def execStroke (pair side : Nat) (f : Frame) (s : State) : Host.Outcome State Fault Refusal := hub s (fun s => s.cmdStroke pair side f)
/-- REPORT (R459): a member writes its entry on the part's first pass; a part that is back at the head is complete. -/
def execReport (pair side : Nat) (f : Frame) (s : State) : Host.Outcome State Fault Refusal := hub s (fun s => s.cmdReport pair side f)
/-- ORDER (R443 to R445): after a wrap, pages lent by a donor now beyond four hops are recalled (R116). -/
def execOrder (pair side : Nat) (f : Frame) (s : State) : Host.Outcome State Fault Refusal := hub s (fun s => s.cmdOrder pair side f)
/-- BUDGET_DIVIDE (R491): at its staggered stroke a manager divides its subtree budget among the positions held on its ring. -/
def execBudgetDivide (s : State) : Host.Outcome State Fault Refusal := hub s (fun s => s.cmdBudgetDivide)
/-- KEY_XFER (R471). -/
def execKeyXfer (pair side : Nat) (f : Frame) (s : State) : Host.Outcome State Fault Refusal := hub s (fun s => s.cmdKeyXfer pair side f)
/-- KEY_ACK (R471): the result of a transfer this manager sent. -/
def execKeyAck (pair side : Nat) (f : Frame) (s : State) : Host.Outcome State Fault Refusal := hub s (fun s => s.cmdKeyAck pair side f)
/-- CMD_ACK (R473): the status of a command this manager sent. -/
def execCmdAck (pair side : Nat) (f : Frame) (s : State) : Host.Outcome State Fault Refusal := hub s (fun s => s.cmdCmdAck pair side f)
/-- REG_RSP (R478): the words this manager asked for, and the drop bitmap as its status. -/
def execRegRsp (pair side : Nat) (f : Frame) (s : State) : Host.Outcome State Fault Refusal := hub s (fun s => s.cmdRegRsp pair side f)
/-- CMD_WARM_RESET (R472 to R474): a command frame with CODE 0x01. -/
def execCmdWarmReset (pair side : Nat) (f : Frame) (s : State) : Host.Outcome State Fault Refusal := hub s (fun s => s.cmdCmdWarmReset pair side f)
/-- CMD_COLD_RESET (R472 to R474): a command frame with CODE 0x02. -/
def execCmdColdReset (pair side : Nat) (f : Frame) (s : State) : Host.Outcome State Fault Refusal := hub s (fun s => s.cmdCmdColdReset pair side f)
/-- CMD_EVACUATE (R472, R473, R475): a command frame with CODE 0x03. -/
def execCmdEvacuate (pair side : Nat) (f : Frame) (s : State) : Host.Outcome State Fault Refusal := hub s (fun s => s.cmdCmdEvacuate pair side f)
/-- CMD_CANCEL_EVAC (R467, R472, R473): a command frame with CODE 0x04. -/
def execCmdCancelEvac (pair side : Nat) (f : Frame) (s : State) : Host.Outcome State Fault Refusal := hub s (fun s => s.cmdCmdCancelEvac pair side f)
/-- EVAC_DONE (R475): no lent and no spilled page remains. -/
def execEvacDone (s : State) : Host.Outcome State Fault Refusal := hub s (fun s => s.cmdEvacDone)
/-- EVAC_DEADLINE (R475): the Sittings allowed have passed. -/
def execEvacDeadline (s : State) : Host.Outcome State Fault Refusal := hub s (fun s => s.cmdEvacDeadline)

/-! ### Loss of a Slab -/

/-- SLAB_ABSENT (R219, R220): a Slab is declared absent. When both would declare each other at one edge, Slab 0 survives; with the other Slab absent
already, both are, and the module resets cold (R230, R583). -/
def execSlabAbsent (slab cause : Nat) (s : State) : Host.Outcome State Fault Refusal := hub s (fun s => s.cmdSlabAbsent slab cause)

/-! ### Ledger and power -/

/-- SENSOR_CONVERSION (R483). -/
def execSensorConversion (ch reading requester : Nat) (s : State) : Host.Outcome State Fault Refusal :=
  hub s (fun s => s.cmdSensorConversion ch reading requester)
/-- SENSOR_REQUEST (R484). -/
def execSensorRequest (agent ch : Nat) (s : State) : Host.Outcome State Fault Refusal := hub s (fun s => s.cmdSensorRequest agent ch)
/-- QE_THROTTLE (R398): the Sitting's grant is spent, so the engines and the offload engines stop until the next. -/
def execQeThrottle (s : State) : Host.Outcome State Fault Refusal := hub s (fun s => s.cmdQeThrottle)

/-! ### The secure processor -/

/-- GET_MEAS (R519). -/
def execGetMeas (seq slot : Nat) (s : State) : Host.Outcome State Fault Refusal :=
  hub s (fun s => s.cmdGetMeas seq slot)
/-- MEAS_EXTEND (R519): slots 5 to 7. -/
def execMeasExtend (seq slot : Nat) (digest : BitVec 384) (s : State) : Host.Outcome State Fault Refusal :=
  hub s (fun s => s.cmdMeasExtend seq slot digest)
/-- KEY_CREATE (R519): the secure processor selects the context, sets its attributes and generates keys in the store of its Slab. -/
def execKeyCreate (seq ctx attrs mask : Nat) (policy : Bool) (s : State) : Host.Outcome State Fault Refusal :=
  hub s (fun s => s.cmdKeyCreate seq ctx attrs mask policy)
/-- KEY_ERASE (R519): the secure processor selects the context and starts its erase. -/
def execKeyErase (seq ctx : Nat) (policy : Bool) (s : State) : Host.Outcome State Fault Refusal :=
  hub s (fun s => s.cmdKeyErase seq ctx policy)
/-- DEBUG_NONCE (R519): a fresh nonce; a half that was held no longer counts. -/
def execDebugNonce (seq : Nat) (s : State) : Host.Outcome State Fault Refusal :=
  hub s (fun s => s.cmdDebugNonce seq)
/-- DEBUG_OPEN (R519, R521): part 0 is held; part 1 completes the signature over the serial and the nonce, which is accepted once. -/
def execDebugOpen (seq part : Nat) (half : BitVec 384) (s : State) : Host.Outcome State Fault Refusal :=
  hub s (fun s => s.cmdDebugOpen seq part half)
/-- MBX_ASSIGN (R519, R522): the secure processor asks for the hand-over, or refuses; the response follows its end. -/
def execMbxAssign (seq block : Nat) (policy : Bool) (s : State) : Host.Outcome State Fault Refusal :=
  hub s (fun s => s.cmdMbxAssign seq block policy)
/-- MBX_RELEASE (R519, R522). -/
def execMbxRelease (seq block : Nat) (policy : Bool) (s : State) : Host.Outcome State Fault Refusal :=
  hub s (fun s => s.cmdMbxRelease seq block policy)
/-- SECP_MEAS_EXTEND (R533). -/
def execSecpMeasExtend (agent slab slot : Nat) (s : State) : Host.Outcome State Fault Refusal := hub s (fun s => s.cmdSecpMeasExtend agent slab slot)
/-- SPDM_GET_MEASUREMENTS (R514): index n + 1 reports slot n, index 0xFF every slot; the response is signed with the device identity key over
the values and the requester's nonce. -/
def execSpdmGetMeasurements (index nonce : Nat) (s : State) : Host.Outcome State Fault Refusal :=
  hub s (fun s => s.cmdSpdmGetMeasurements index nonce)
/-- KEK_INSTALL (R515, R516): the key takes effect as the response is sent. -/
def execKekInstall (id : Nat) (key : BitVec 256) (s : State) : Host.Outcome State Fault Refusal := hub s (fun s => s.cmdKekInstall id key)
/-- FABRIC_KEY_INSTALL (R516): the key takes effect at the next Sitting boundary. -/
def execFabricKeyInstall (key : BitVec 256) (s : State) : Host.Outcome State Fault Refusal := hub s (fun s => s.cmdFabricKeyInstall key)
/-- SECP_DEBUG_OPEN (R521): the secure processor writes OPEN only once an authorisation has verified; debug access opens at the next edge. -/
def execSecpDebugOpen (agent slab : Nat) (s : State) : Host.Outcome State Fault Refusal := hub s (fun s => s.cmdSecpDebugOpen agent slab)
/-- OWN_HANDOVER (R523). -/
def execOwnHandover (agent block : Nat) (toSecure : Bool) (s : State) : Host.Outcome State Fault Refusal :=
  hub s (fun s => s.cmdOwnHandover agent block toSecure)
/-- HANDOVER_IDLE (R523): the block is idle in time; its flush starts. -/
def execHandoverIdle (s : State) : Host.Outcome State Fault Refusal := hub s (fun s => s.cmdHandoverIdle)
/-- HANDOVER_TIMEOUT (R523): the block is still busy after HANDOVER_MAX strokes; its world is restored at the next edge. -/
def execHandoverTimeout (s : State) : Host.Outcome State Fault Refusal := hub s (fun s => s.cmdHandoverTimeout)
/-- HANDOVER_FLUSH_DONE (R523, R524): an engine's cache is written back and invalidated, a codec block's active contexts are discarded; the
block-level reset is requested. -/
def execHandoverFlushDone (s : State) : Host.Outcome State Fault Refusal := hub s (fun s => s.cmdHandoverFlushDone)
/-- HANDOVER_RESET_DONE (R523): the block's reset is done; the world changes at the next stroke edge. -/
def execHandoverResetDone (s : State) : Host.Outcome State Fault Refusal := hub s (fun s => s.cmdHandoverResetDone)
/-- POWER_REQ (R526): a request of a normal-world agent to stop the clock (1) or gate the power (2) of a block that the secure world owns or that
is in hand-over is deferred. -/
def execPowerReq (agent block action : Nat) (s : State) : Host.Outcome State Fault Refusal := hub s (fun s => s.cmdPowerReq agent block action)
/-- POWER_ANSWER (R527). -/
def execPowerAnswer (agent block : Nat) (consent : Bool) (s : State) : Host.Outcome State Fault Refusal :=
  hub s (fun s => s.cmdPowerAnswer agent block consent)
/-- POWER_REQ_TIMEOUT (R527): the last Sitting boundary allowed has come without an answer. -/
def execPowerReqTimeout (block : Nat) (s : State) : Host.Outcome State Fault Refusal := hub s (fun s => s.cmdPowerReqTimeout block)
/-- WDOG_ENABLE (R529). -/
def execWdogEnable (agent slab period : Nat) (s : State) : Host.Outcome State Fault Refusal := hub s (fun s => s.cmdWdogEnable agent slab period)
/-- WDOG_KICK (R529). -/
def execWdogKick (agent slab : Nat) (s : State) : Host.Outcome State Fault Refusal := hub s (fun s => s.cmdWdogKick agent slab)
/-- WDOG_EXPIRE (R529, R549): the L3 fault whose reset is cold with cause 0x09; a kick in the new stroke does not undo it. -/
def execWdogExpire (s : State) : Host.Outcome State Fault Refusal := hub s (fun s => s.cmdWdogExpire)
/-- MIRROR_COPY_DONE (R508, R532): the returning Slab holds the persistent regions and the measurement slots; its processors are standby. -/
def execMirrorCopyDone (s : State) : Host.Outcome State Fault Refusal := hub s (fun s => s.cmdMirrorCopyDone)

/-! ### Rest -/

/-- REST_ENTER (R496). -/
def execRestEnter (agent : Nat) (s : State) : Host.Outcome State Fault Refusal := hub s (fun s => s.cmdRestEnter agent)
/-- REST_ENTRY_EDGE (R497): every block is idle in time; the module rests from the next stroke edge. -/
def execRestEntryEdge (s : State) : Host.Outcome State Fault Refusal := hub s (fun s => s.cmdRestEntryEdge)
/-- REST_DRAIN_TIMEOUT (R497, R499): a block is still busy. -/
def execRestDrainTimeout (s : State) : Host.Outcome State Fault Refusal := hub s (fun s => s.cmdRestDrainTimeout)
/-- SKETCH_SAMPLE (R484, R500): at the last stroke of a sample every reading is compared, then the wake latch. A meter conversion due within the
sample has lost its slot. -/
def execSketchSample (readings : List Nat) (s : State) : Host.Outcome State Fault Refusal := hub s (fun s => s.cmdSketchSample readings)
/-- WAKE_EVENT (R501): an attach point, an I3C address match, a supervisor fault, or an L2 or L3 fault. -/
def execWakeEvent (waker : Nat) (s : State) : Host.Outcome State Fault Refusal := hub s (fun s => s.cmdWakeEvent waker)

/-! ### Resets -/

/-- WARM_FLUSH_TIMEOUT (R588): the flush has not ended in time, and the reset becomes cold. -/
def execWarmFlushTimeout (s : State) : Host.Outcome State Fault Refusal := .next s.caughtUp.cmdWarmFlushTimeout
/-- RSTC_WARM (R584, R587): RSTC_CMD with OP warm. -/
def execRstcWarm (agent : Nat) (s : State) : Host.Outcome State Fault Refusal := hub s (fun s => s.cmdRstcWarm agent)
/-- RSTC_COLD (R584, R586): RSTC_CMD with OP cold. -/
def execRstcCold (agent : Nat) (s : State) : Host.Outcome State Fault Refusal := hub s (fun s => s.cmdRstcCold agent)
/-- WARM_FLUSH_DONE (R587): every written line has reached media in time; the channels enter self-refresh. -/
def execWarmFlushDone (s : State) : Host.Outcome State Fault Refusal := hub s (fun s => s.cmdWarmFlushDone)
/-- SLAB_RESET_RELEASE (R590): after 16 strokes the Slab restarts for itself alone. -/
def execSlabResetRelease (slab : Nat) (s : State) : Host.Outcome State Fault Refusal := hub s (fun s => s.cmdSlabResetRelease slab)
/-- PEER_RETURN (R225, R224): the absent Slab's reset is over, the Seam trains and its Veins have passed their check. -/
def execPeerReturn (s : State) : Host.Outcome State Fault Refusal := hub s (fun s => s.cmdPeerReturn)

/-! ### Power -/

/-- PSUP_CTL.POWER_OFF (R579): the rails go down in order, the switch opens and is held open; not a fault. -/
def execPowerOff (agent : Nat) (s : State) : Host.Outcome State Fault Refusal := hub s (fun s => s.cmdPowerOff agent)

/-! ### Boot -/

/-- BOOT_VERIFY_DONE (R593): the boot engine of a Slab has verified a part; a flash read error rejects it. -/
def execBootVerifyDone (slab kind : Nat) (readErr : Bool) (s : State) : Host.Outcome State Fault Refusal :=
  .next (s.caughtUp.cmdBootVerifyDone slab kind readErr)
/-- REFCLK_LOST (R603): in mode 0b00 the PLLs move to the oscillator and every host link goes down. -/
def execRefclkLost (s : State) : Host.Outcome State Fault Refusal := .next s.caughtUp.cmdRefclkLost
/-- REFCLK_RETURN (R603): the links may train again; a cold reset that lacked the reference goes on. -/
def execRefclkReturn (s : State) : Host.Outcome State Fault Refusal := .next s.caughtUp.cmdRefclkReturn
/-- MGMT_BOOT_DATA (R595): up to 16 words of the stream, while WAIT_RING. -/
def execMgmtBootData (agent : Nat) (words : List Nat) (s : State) : Host.Outcome State Fault Refusal := hub s (fun s => s.cmdMgmtBootData agent words)
/-- MGMT_BOOT_END (R595). -/
def execMgmtBootEnd (agent : Nat) (s : State) : Host.Outcome State Fault Refusal := hub s (fun s => s.cmdMgmtBootEnd agent)
/-- FILL_DONE (R210, R211): every channel in service is filled; a warm reset with RETAIN 0 fills once its Veins have passed their check. -/
def execFillDone (s : State) : Host.Outcome State Fault Refusal := hub s (fun s => s.cmdFillDone)
/-- PROCESSOR_RELEASE (R597): with the memory filled or checked and the images accepted, the processors start and are measured; in recovery only
the secure processors start, on their loader (R596). The reset is over. -/
def execProcessorRelease (s : State) : Host.Outcome State Fault Refusal := hub s (fun s => s.cmdProcessorRelease)
/-- HOST_READY (R598): the management processor's write lets READY rise. -/
def execHostReady (agent slab : Nat) (s : State) : Host.Outcome State Fault Refusal := hub s (fun s => s.cmdHostReady agent slab)
/-- READY_RISE (R598, R277). -/
def execReadyRise (s : State) : Host.Outcome State Fault Refusal := hub s (fun s => s.cmdReadyRise)
/-- GET_FW_INFO: two slots, the active and the pending one, and the release number of each slot's hub firmware image. -/
def execGetFwInfo (a : Nat) (s : State) : Host.Outcome State Fault Refusal := hub s (fun s => s.cmdGetFwInfo a)
/-- TRANSFER_FW: action 0 the whole package, 1 its first part, 2 a further part, 3 the last part, 4 abort. -/
def execTransferFw (a action ofs : Nat) (data : List (BitVec 8)) (s : State) : Host.Outcome State Fault Refusal :=
  hub s (fun s => s.cmdTransferFw a action ofs data)
/-- ACTIVATE_FW: PENDING takes the slot, to be tried at the next cold reset; while the module waits for a transfer, its verification starts (R594). -/
def execActivateFw (a action slot : Nat) (s : State) : Host.Outcome State Fault Refusal := hub s (fun s => s.cmdActivateFw a action slot)
/-- CLOCK_LOST (R603): a gated domain is not monitored. -/
def execClockLost (domain : Nat) (s : State) : Host.Outcome State Fault Refusal := hub s (fun s => s.cmdClockLost domain)
/-- CLKC_GATE (R604). -/
def execClkcGate (agent target : Nat) (s : State) : Host.Outcome State Fault Refusal := hub s (fun s => s.cmdClkcGate agent target)
/-- CLKC_UNGATE (R604). -/
def execClkcUngate (agent target : Nat) (s : State) : Host.Outcome State Fault Refusal := hub s (fun s => s.cmdClkcUngate agent target)

/-! ### Commits -/

/-- REBALANCE_DONE (R121): the mover has emptied every frame and row that changes sides, and HOT_SHARE takes effect. -/
def execRebalanceDone (s : State) : Host.Outcome State Fault Refusal := hub s (fun s => s.cmdRebalanceDone)
/-- COMMIT (R65): HDR_CTL is written with COMMIT 1 and the other bits of `ctl`. -/
def execCommit (agent : Nat) (b : Block) (n ctl : Nat) (s : State) : Host.Outcome State Fault Refusal := hub s (fun s => s.cmdCommit agent b n ctl)
/-- UNLOCK (R67): HDR_CTL is written with UNLOCK 1 and the other bits of `ctl`. -/
def execUnlock (agent : Nat) (b : Block) (n ctl : Nat) (s : State) : Host.Outcome State Fault Refusal := hub s (fun s => s.cmdUnlock agent b n ctl)
/-- BLOCK_RESET (R70): HDR_CTL is written with BLOCK_RESET 1 and the other bits of `ctl`. -/
def execBlockReset (agent : Nat) (b : Block) (n ctl : Nat) (s : State) : Host.Outcome State Fault Refusal :=
  hub s (fun s => s.cmdBlockReset agent b n ctl)
/-- STICKY_LOCK (R68). -/
def execStickyLock (agent : Nat) (b : Block) (n : Nat) (s : State) : Host.Outcome State Fault Refusal := hub s (fun s => s.cmdStickyLock agent b n)
/-- INT_FORCE (R62). -/
def execIntForce (agent : Nat) (b : Block) (n mask : Nat) (s : State) : Host.Outcome State Fault Refusal :=
  hub s (fun s => s.cmdIntForce agent b n mask)
/-- BLOCK_RESET_DONE (R64, R70, R524, R599): the block's RW fields, status and counters are at their reset values; a hand-over's reset returns
both copies of the RWL fields and clears STICKY as well. -/
def execBlockResetDone (b : Block) (n : Nat) (s : State) : Host.Outcome State Fault Refusal := hub s (fun s => s.cmdBlockResetDone b n)

/-! ### Register accesses -/

/-- REGISTER_PAGE_WRITE (R56 to R59, R67, R72). -/
def execRegisterPageWrite (agent offset width : Nat) (value : Option Nat) (s : State) : Host.Outcome State Fault Refusal :=
  hub s (fun s => s.cmdRegisterPageWrite agent offset width value)
/-- REGISTER_READ (R296): the mailbox reads `n` registers from an offset. -/
def execRegisterRead (a ofs n : Nat) (s : State) : Host.Outcome State Fault Refusal := hub s (fun s => s.cmdRegisterRead a ofs n)
/-- REGISTER_WRITE (R296). -/
def execRegisterWrite (a ofs : Nat) (words : List Nat) (s : State) : Host.Outcome State Fault Refusal :=
  hub s (fun s => s.cmdRegisterWrite a ofs words)
/-- REG_RD (R478). -/
def execRegRd (pair side : Nat) (f : Frame) (s : State) : Host.Outcome State Fault Refusal := hub s (fun s => s.cmdRegRd pair side f)
/-- REG_WR (R478). -/
def execRegWr (pair side : Nat) (f : Frame) (s : State) : Host.Outcome State Fault Refusal := hub s (fun s => s.cmdRegWr pair side f)

/-! ### The timebase read -/

/-- TMB_STROKE_READ (R37): a read of TMB_STROKE_LO latches STROKE_HI and PHASE for the reading agent. -/
def execTmbStrokeRead (agent : Nat) (s : State) : Host.Outcome State Fault Refusal := hub s (fun s => s.cmdTmbStrokeRead agent)

/-! ### The end of a wake -/

/-- WAKE_DONE (R503). -/
def execWakeDone (s : State) : Host.Outcome State Fault Refusal := hub s (fun s => s.cmdWakeDone)

end Sys2Proof.Machine
end

