-- ==== Sys2Proof/Machine/Dispatch.lean ====
section
/-! DEFINITION. The meaning of every command, one arm per constructor of Instr. -/

namespace Sys2Proof.Machine

def exec (i : Instr) (s : State) : Host.Outcome State Fault Refusal :=
  match i with
  | .strokeEdge miss0 miss1 => Sys2Proof.Machine.execStrokeEdge miss0 miss1 s
  | .layerBoundary => Sys2Proof.Machine.execLayerBoundary s
  | .sittingBoundary => Sys2Proof.Machine.execSittingBoundary s
  | .strokeAdopt => Sys2Proof.Machine.execStrokeAdopt s
  | .tmbStrokeRead agent => Sys2Proof.Machine.execTmbStrokeRead agent s
  | .hostRead a hpa meta_ at10 => Sys2Proof.Machine.execHostRead a hpa meta_ at10 s
  | .hostWrite a hpa meta_ at10 data mask poison err => Sys2Proof.Machine.execHostWrite a hpa meta_ at10 data mask poison err s
  | .mediaReadReturn id errs metas => Sys2Proof.Machine.execMediaReadReturn id errs metas s
  | .readEgress id at10 => Sys2Proof.Machine.execReadEgress id at10 s
  | .lateVerdict id => Sys2Proof.Machine.execLateVerdict id s
  | .bisnpResponse a page line rsp data => Sys2Proof.Machine.execBisnpResponse a page line rsp data s
  | .commit agent b n ctl => Sys2Proof.Machine.execCommit agent b n ctl s
  | .commitActivate b n => Sys2Proof.Machine.execCommitActivate b n s
  | .unlock agent b n ctl => Sys2Proof.Machine.execUnlock agent b n ctl s
  | .blockReset agent b n ctl => Sys2Proof.Machine.execBlockReset agent b n ctl s
  | .blockResetDone b n => Sys2Proof.Machine.execBlockResetDone b n s
  | .stickyLock agent b n => Sys2Proof.Machine.execStickyLock agent b n s
  | .intForce agent b n mask => Sys2Proof.Machine.execIntForce agent b n mask s
  | .registerPageWrite agent offset width value => Sys2Proof.Machine.execRegisterPageWrite agent offset width value s
  | .deniedClear agent => Sys2Proof.Machine.execDeniedClear agent s
  | .pmapReadEntry agent slab => Sys2Proof.Machine.execPmapReadEntry agent slab s
  | .pmapPin agent slab => Sys2Proof.Machine.execPmapPin agent slab s
  | .pmapUnpin agent slab => Sys2Proof.Machine.execPmapUnpin agent slab s
  | .pmapDiscard agent slab => Sys2Proof.Machine.execPmapDiscard agent slab s
  | .rowBufferTimeout vein => Sys2Proof.Machine.execRowBufferTimeout vein s
  | .tierMoveDone page errs => Sys2Proof.Machine.execTierMoveDone page errs s
  | .compaction vein => Sys2Proof.Machine.execCompaction vein s
  | .spillStart => Sys2Proof.Machine.execSpillStart s
  | .exhaustionTimeout page => Sys2Proof.Machine.execExhaustionTimeout page s
  | .donorAbsentTimeout id => Sys2Proof.Machine.execDonorAbsentTimeout id s
  | .rebalanceDone => Sys2Proof.Machine.execRebalanceDone s
  | .trainingDone base others => Sys2Proof.Machine.execTrainingDone base others s
  | .warmTrainingCheck vein news => Sys2Proof.Machine.execWarmTrainingCheck vein news s
  | .mr4Poll chan code centres => Sys2Proof.Machine.execMr4Poll chan code centres s
  | .forcedRefresh chan => Sys2Proof.Machine.execForcedRefresh chan s
  | .veinSlotGrant vein ofs hits => Sys2Proof.Machine.execVeinSlotGrant vein ofs hits s
  | .panicLevelReport a => Sys2Proof.Machine.execPanicLevelReport a s
  | .codecDecodeDone slab lane => Sys2Proof.Machine.execCodecDecodeDone slab lane s
  | .encodeDone page selfFail => Sys2Proof.Machine.execEncodeDone page selfFail s
  | .offloadStepDone slab lane => Sys2Proof.Machine.execOffloadStepDone slab lane s
  | .ofldDoorbell agent slab q tail => Sys2Proof.Machine.execOfldDoorbell agent slab q tail s
  | .ofldNoop slab q env => Sys2Proof.Machine.execOfldNoop slab q env s
  | .ofldDeflate slab q env => Sys2Proof.Machine.execOfldDeflate slab q env s
  | .ofldInflate slab q env => Sys2Proof.Machine.execOfldInflate slab q env s
  | .ofldStrataEncode slab q env => Sys2Proof.Machine.execOfldStrataEncode slab q env s
  | .ofldStrataDecode slab q env => Sys2Proof.Machine.execOfldStrataDecode slab q env s
  | .ofldCompletion slab q => Sys2Proof.Machine.execOfldCompletion slab q s
  | .ofldCqHead agent slab q head => Sys2Proof.Machine.execOfldCqHead agent slab q head s
  | .ofldAbort agent slab value => Sys2Proof.Machine.execOfldAbort agent slab value s
  | .scrubLine vein errs => Sys2Proof.Machine.execScrubLine vein errs s
  | .flipArm agent slab value => Sys2Proof.Machine.execFlipArm agent slab value s
  | .fillDone => Sys2Proof.Machine.execFillDone s
  | .diptRetire agent k ofs side => Sys2Proof.Machine.execDiptRetire agent k ofs side s
  | .relocDone k => Sys2Proof.Machine.execRelocDone k s
  | .slabAbsent slab cause => Sys2Proof.Machine.execSlabAbsent slab cause s
  | .absentVeinHoldTimeout page => Sys2Proof.Machine.execAbsentVeinHoldTimeout page s
  | .peerReturn => Sys2Proof.Machine.execPeerReturn s
  | .resyncFrameCopy k => Sys2Proof.Machine.execResyncFrameCopy k s
  | .keysGenerate agent slab => Sys2Proof.Machine.execKeysGenerate agent slab s
  | .keysLoad agent slab => Sys2Proof.Machine.execKeysLoad agent slab s
  | .keysUnwrap agent slab kek => Sys2Proof.Machine.execKeysUnwrap agent slab kek s
  | .keysErase agent slab => Sys2Proof.Machine.execKeysErase agent slab s
  | .keysEraseDone slab => Sys2Proof.Machine.execKeysEraseDone slab s
  | .keysWriteAttr agent slab => Sys2Proof.Machine.execKeysWriteAttr agent slab s
  | .keysReadAttr agent slab => Sys2Proof.Machine.execKeysReadAttr agent slab s
  | .treeLineEvict dipt level index => Sys2Proof.Machine.execTreeLineEvict dipt level index s
  | .subtreeRebuildDone dipt level index => Sys2Proof.Machine.execSubtreeRebuildDone dipt level index s
  | .linkUp a width speed flit256 memOn => Sys2Proof.Machine.execLinkUp a width speed flit256 memOn s
  | .linkDown a => Sys2Proof.Machine.execLinkDown a s
  | .perst a => Sys2Proof.Machine.execPerst a s
  | .flr a => Sys2Proof.Machine.execFlr a s
  | .hotReset a => Sys2Proof.Machine.execHotReset a s
  | .hdmCommit a j base size ways gran pos skip commit lock => Sys2Proof.Machine.execHdmCommit a j base size ways gran pos skip commit lock s
  | .ideFail a => Sys2Proof.Machine.execIdeFail a s
  | .ideKm a => Sys2Proof.Machine.execIdeKm a s
  | .portIrqRearm agent port mask => Sys2Proof.Machine.execPortIrqRearm agent port mask s
  | .getEventRecords a log => Sys2Proof.Machine.execGetEventRecords a log s
  | .clearEventRecords a log all handles => Sys2Proof.Machine.execClearEventRecords a log all handles s
  | .getEventInterruptPolicy a => Sys2Proof.Machine.execGetEventInterruptPolicy a s
  | .setEventInterruptPolicy a bytes => Sys2Proof.Machine.execSetEventInterruptPolicy a bytes s
  | .getFwInfo a => Sys2Proof.Machine.execGetFwInfo a s
  | .transferFw a action ofs data => Sys2Proof.Machine.execTransferFw a action ofs data s
  | .activateFw a action slot => Sys2Proof.Machine.execActivateFw a action slot s
  | .getTimestamp a => Sys2Proof.Machine.execGetTimestamp a s
  | .setTimestamp a value => Sys2Proof.Machine.execSetTimestamp a value s
  | .getSupportedLogs a => Sys2Proof.Machine.execGetSupportedLogs a s
  | .getLog a ofs n => Sys2Proof.Machine.execGetLog a ofs n s
  | .identifyMemoryDevice a => Sys2Proof.Machine.execIdentifyMemoryDevice a s
  | .getPartitionInfo a => Sys2Proof.Machine.execGetPartitionInfo a s
  | .getHealthInfo a => Sys2Proof.Machine.execGetHealthInfo a s
  | .getAlertConfig a => Sys2Proof.Machine.execGetAlertConfig a s
  | .setAlertConfig a cfg => Sys2Proof.Machine.execSetAlertConfig a cfg s
  | .getPoisonList a dpa len => Sys2Proof.Machine.execGetPoisonList a dpa len s
  | .injectPoison a dpa => Sys2Proof.Machine.execInjectPoison a dpa s
  | .clearPoison a dpa data => Sys2Proof.Machine.execClearPoison a dpa data s
  | .getScanMediaCapabilities a dpa len => Sys2Proof.Machine.execGetScanMediaCapabilities a dpa len s
  | .scanMedia a dpa len => Sys2Proof.Machine.execScanMedia a dpa len s
  | .scanMediaDone hots rows => Sys2Proof.Machine.execScanMediaDone hots rows s
  | .getScanMediaResults a => Sys2Proof.Machine.execGetScanMediaResults a s
  | .addDynamicCapacityResponse a exts => Sys2Proof.Machine.execAddDynamicCapacityResponse a exts s
  | .releaseDynamicCapacity a ext => Sys2Proof.Machine.execReleaseDynamicCapacity a ext s
  | .dcOffer a first n => Sys2Proof.Machine.execDcOffer a first n s
  | .dcOfferTimeout => Sys2Proof.Machine.execDcOfferTimeout s
  | .gnorridIdentify a => Sys2Proof.Machine.execGnorridIdentify a s
  | .registerRead a ofs n => Sys2Proof.Machine.execRegisterRead a ofs n s
  | .registerWrite a ofs words => Sys2Proof.Machine.execRegisterWrite a ofs words s
  | .getTimebase a => Sys2Proof.Machine.execGetTimebase a s
  | .intRds o page line ctx hint => Sys2Proof.Machine.execIntRds o page line ctx hint s
  | .intRdo o page line ctx data mask => Sys2Proof.Machine.execIntRdo o page line ctx data mask s
  | .intUpg o page line ctx data mask => Sys2Proof.Machine.execIntUpg o page line ctx data mask s
  | .intWb o page line ctx data => Sys2Proof.Machine.execIntWb o page line ctx data s
  | .intEvict o page line ctx => Sys2Proof.Machine.execIntEvict o page line ctx s
  | .invalAck kind n page line data => Sys2Proof.Machine.execInvalAck kind n page line data s
  | .snoopRead o page line ctx => Sys2Proof.Machine.execSnoopRead o page line ctx s
  | .farAtomic q page line ctx key kernel vals => Sys2Proof.Machine.execFarAtomic q page line ctx key kernel vals s
  | .victimRecallDone slab hl => Sys2Proof.Machine.execVictimRecallDone slab hl s
  | .sweepDone a => Sys2Proof.Machine.execSweepDone a s
  | .regionResolve => Sys2Proof.Machine.execRegionResolve s
  | .regionResolved wbs => Sys2Proof.Machine.execRegionResolved wbs s
  | .handback => Sys2Proof.Machine.execHandback s
  | .dirq agent slab line => Sys2Proof.Machine.execDirq agent slab line s
  | .prefetchInstall page line err => Sys2Proof.Machine.execPrefetchInstall page line err s
  | .runaheadInstall page => Sys2Proof.Machine.execRunaheadInstall page s
  | .chunkDrain vein ofs chunk => Sys2Proof.Machine.execChunkDrain vein ofs chunk s
  | .hcacInvalPage agent slab => Sys2Proof.Machine.execHcacInvalPage agent slab s
  | .hcacCleanPage agent slab => Sys2Proof.Machine.execHcacCleanPage agent slab s
  | .hcacCleanInvalPage agent slab => Sys2Proof.Machine.execHcacCleanInvalPage agent slab s
  | .hcacInvalSetWay agent slab set way => Sys2Proof.Machine.execHcacInvalSetWay agent slab set way s
  | .hcacInvalAll agent slab => Sys2Proof.Machine.execHcacInvalAll agent slab s
  | .hcacCmdDone slab => Sys2Proof.Machine.execHcacCmdDone slab s
  | .hcacRepartition agent slab ways => Sys2Proof.Machine.execHcacRepartition agent slab ways s
  | .repartDone slab => Sys2Proof.Machine.execRepartDone slab s
  | .qengDoorbell agent q tail => Sys2Proof.Machine.execQengDoorbell agent q tail s
  | .qeNoop q env => Sys2Proof.Machine.execQeNoop q env s
  | .qeFilter q env => Sys2Proof.Machine.execQeFilter q env s
  | .qeProject q env => Sys2Proof.Machine.execQeProject q env s
  | .qeGather q env => Sys2Proof.Machine.execQeGather q env s
  | .qeHashProbe q env => Sys2Proof.Machine.execQeHashProbe q env s
  | .qeAggregate q env => Sys2Proof.Machine.execQeAggregate q env s
  | .qeJobDone q => Sys2Proof.Machine.execQeJobDone q s
  | .qgthCqHead agent slab c head => Sys2Proof.Machine.execQgthCqHead agent slab c head s
  | .qengAbort agent q value => Sys2Proof.Machine.execQengAbort agent q value s
  | .qengCacheFlush agent q => Sys2Proof.Machine.execQengCacheFlush agent q s
  | .qeThrottle => Sys2Proof.Machine.execQeThrottle s
  | .ringSideUp pair side position role serial head pairB => Sys2Proof.Machine.execRingSideUp pair side position role serial head pairB s
  | .lskp pair side adjust => Sys2Proof.Machine.execLskp pair side adjust s
  | .lstrk pair side stroke txOfs sourceOk holdover rooted depth tr => Sys2Proof.Machine.execLstrk pair side stroke txOfs sourceOk holdover rooted depth tr s
  | .lecho pair side ta => Sys2Proof.Machine.execLecho pair side ta s
  | .lechoReply pair side ta t4 => Sys2Proof.Machine.execLechoReply pair side ta t4 s
  | .lsplProbe pair side stroke position => Sys2Proof.Machine.execLsplProbe pair side stroke position s
  | .lsplUnwrap pair side stroke position => Sys2Proof.Machine.execLsplUnwrap pair side stroke position s
  | .flitReceive pair side fseq ackSeq ackValid nak crcOk crVc crCount slots => Sys2Proof.Machine.execFlitReceive pair side fseq ackSeq ackValid nak crcOk crVc crCount slots s
  | .ringReplayTimeout pair side => Sys2Proof.Machine.execRingReplayTimeout pair side s
  | .ringLockLoss pair side down => Sys2Proof.Machine.execRingLockLoss pair side down s
  | .stroke pair side f => Sys2Proof.Machine.execStroke pair side f s
  | .report pair side f => Sys2Proof.Machine.execReport pair side f s
  | .enum pair side f serial => Sys2Proof.Machine.execEnum pair side f serial s
  | .joinReq pair side f => Sys2Proof.Machine.execJoinReq pair side f s
  | .assign pair side f => Sys2Proof.Machine.execAssign pair side f s
  | .order pair side f => Sys2Proof.Machine.execOrder pair side f s
  | .regRd pair side f => Sys2Proof.Machine.execRegRd pair side f s
  | .regWr pair side f => Sys2Proof.Machine.execRegWr pair side f s
  | .regRsp pair side f => Sys2Proof.Machine.execRegRsp pair side f s
  | .keyXfer pair side f => Sys2Proof.Machine.execKeyXfer pair side f s
  | .keyAck pair side f => Sys2Proof.Machine.execKeyAck pair side f s
  | .cmdWarmReset pair side f => Sys2Proof.Machine.execCmdWarmReset pair side f s
  | .cmdColdReset pair side f => Sys2Proof.Machine.execCmdColdReset pair side f s
  | .cmdEvacuate pair side f => Sys2Proof.Machine.execCmdEvacuate pair side f s
  | .cmdCancelEvac pair side f => Sys2Proof.Machine.execCmdCancelEvac pair side f s
  | .cmdAck pair side f => Sys2Proof.Machine.execCmdAck pair side f s
  | .spillReq pair side f => Sys2Proof.Machine.execSpillReq pair side f s
  | .spillGrant pair side f => Sys2Proof.Machine.execSpillGrant pair side f s
  | .spillData pair side f => Sys2Proof.Machine.execSpillData pair side f s
  | .spillDone pair side f => Sys2Proof.Machine.execSpillDone pair side f s
  | .spillRead pair side f => Sys2Proof.Machine.execSpillRead pair side f s
  | .spillRdata pair side f => Sys2Proof.Machine.execSpillRdata pair side f s
  | .spillFree pair side f => Sys2Proof.Machine.execSpillFree pair side f s
  | .spillDecline pair side f => Sys2Proof.Machine.execSpillDecline pair side f s
  | .spillReturn pair side f => Sys2Proof.Machine.execSpillReturn pair side f s
  | .holdoverTimeout => Sys2Proof.Machine.execHoldoverTimeout s
  | .spliceHalfStart pair dir => Sys2Proof.Machine.execSpliceHalfStart pair dir s
  | .ringRequestRetry tag => Sys2Proof.Machine.execRingRequestRetry tag s
  | .ringRequestFail tag => Sys2Proof.Machine.execRingRequestFail tag s
  | .tapTraffic pair => Sys2Proof.Machine.execTapTraffic pair s
  | .tapSilenceTimeout pair => Sys2Proof.Machine.execTapSilenceTimeout pair s
  | .enumTimeout pair => Sys2Proof.Machine.execEnumTimeout pair s
  | .strokeFrameTimeout pair => Sys2Proof.Machine.execStrokeFrameTimeout pair s
  | .evacDone => Sys2Proof.Machine.execEvacDone s
  | .evacDeadline => Sys2Proof.Machine.execEvacDeadline s
  | .lodeRejoin agent => Sys2Proof.Machine.execLodeRejoin agent s
  | .ringRevive agent slab sides => Sys2Proof.Machine.execRingRevive agent slab sides s
  | .budgetDivide => Sys2Proof.Machine.execBudgetDivide s
  | .sensorConversion ch reading requester => Sys2Proof.Machine.execSensorConversion ch reading requester s
  | .sensorRequest agent ch => Sys2Proof.Machine.execSensorRequest agent ch s
  | .restEnter agent => Sys2Proof.Machine.execRestEnter agent s
  | .restEntryEdge => Sys2Proof.Machine.execRestEntryEdge s
  | .restDrainTimeout => Sys2Proof.Machine.execRestDrainTimeout s
  | .sketchSample readings => Sys2Proof.Machine.execSketchSample readings s
  | .wakeEvent waker => Sys2Proof.Machine.execWakeEvent waker s
  | .wakeDone => Sys2Proof.Machine.execWakeDone s
  | .getMeas seq slot => Sys2Proof.Machine.execGetMeas seq slot s
  | .measExtend seq slot digest => Sys2Proof.Machine.execMeasExtend seq slot digest s
  | .mbxAssign seq block policy => Sys2Proof.Machine.execMbxAssign seq block policy s
  | .mbxRelease seq block policy => Sys2Proof.Machine.execMbxRelease seq block policy s
  | .keyCreate seq ctx attrs mask policy => Sys2Proof.Machine.execKeyCreate seq ctx attrs mask policy s
  | .keyErase seq ctx policy => Sys2Proof.Machine.execKeyErase seq ctx policy s
  | .debugNonce seq => Sys2Proof.Machine.execDebugNonce seq s
  | .debugOpen seq part half => Sys2Proof.Machine.execDebugOpen seq part half s
  | .secpDebugOpen agent slab => Sys2Proof.Machine.execSecpDebugOpen agent slab s
  | .secpMeasExtend agent slab slot => Sys2Proof.Machine.execSecpMeasExtend agent slab slot s
  | .spdmGetMeasurements index nonce => Sys2Proof.Machine.execSpdmGetMeasurements index nonce s
  | .kekInstall id key => Sys2Proof.Machine.execKekInstall id key s
  | .fabricKeyInstall key => Sys2Proof.Machine.execFabricKeyInstall key s
  | .ownHandover agent block toSecure => Sys2Proof.Machine.execOwnHandover agent block toSecure s
  | .handoverIdle => Sys2Proof.Machine.execHandoverIdle s
  | .handoverTimeout => Sys2Proof.Machine.execHandoverTimeout s
  | .handoverFlushDone => Sys2Proof.Machine.execHandoverFlushDone s
  | .handoverResetDone => Sys2Proof.Machine.execHandoverResetDone s
  | .powerReq agent block action => Sys2Proof.Machine.execPowerReq agent block action s
  | .powerAnswer agent block consent => Sys2Proof.Machine.execPowerAnswer agent block consent s
  | .powerReqTimeout block => Sys2Proof.Machine.execPowerReqTimeout block s
  | .wdogEnable agent slab period => Sys2Proof.Machine.execWdogEnable agent slab period s
  | .wdogKick agent slab => Sys2Proof.Machine.execWdogKick agent slab s
  | .wdogExpire => Sys2Proof.Machine.execWdogExpire s
  | .mirrorCopyDone => Sys2Proof.Machine.execMirrorCopyDone s
  | .errorReport reps => Sys2Proof.Machine.execErrorReport reps s
  | .wireBroken block inst loc phase => Sys2Proof.Machine.execWireBroken block inst loc phase s
  | .fltAck agent cls seq all => Sys2Proof.Machine.execFltAck agent cls seq all s
  | .seamReplay slab group => Sys2Proof.Machine.execSeamReplay slab group s
  | .auxRailUp inputOk memValid => Sys2Proof.Machine.execAuxRailUp inputOk memValid s
  | .auxRailDown => Sys2Proof.Machine.execAuxRailDown s
  | .pwrEnAssert lowMs => Sys2Proof.Machine.execPwrEnAssert lowMs s
  | .pwrEnDeassert => Sys2Proof.Machine.execPwrEnDeassert s
  | .inputOutOfRange high vin => Sys2Proof.Machine.execInputOutOfRange high vin s
  | .inputInRange => Sys2Proof.Machine.execInputInRange s
  | .currentLimit => Sys2Proof.Machine.execCurrentLimit s
  | .limitClear => Sys2Proof.Machine.execLimitClear s
  | .faultTimerExpire vin => Sys2Proof.Machine.execFaultTimerExpire vin s
  | .fastTrip vin => Sys2Proof.Machine.execFastTrip vin s
  | .powerGoodRise => Sys2Proof.Machine.execPowerGoodRise s
  | .railStepDone => Sys2Proof.Machine.execRailStepDone s
  | .railSequenceFault rail vin => Sys2Proof.Machine.execRailSequenceFault rail vin s
  | .coolDownEnd => Sys2Proof.Machine.execCoolDownEnd s
  | .cleanTimeExpire => Sys2Proof.Machine.execCleanTimeExpire s
  | .thermalMemoryTick => Sys2Proof.Machine.execThermalMemoryTick s
  | .fetBad vin => Sys2Proof.Machine.execFetBad vin s
  | .powerOff agent => Sys2Proof.Machine.execPowerOff agent s
  | .powerOnReset straps refPresent => Sys2Proof.Machine.execPowerOnReset straps refPresent s
  | .sysRst => Sys2Proof.Machine.execSysRst s
  | .rstcWarm agent => Sys2Proof.Machine.execRstcWarm agent s
  | .rstcCold agent => Sys2Proof.Machine.execRstcCold agent s
  | .warmFlushDone => Sys2Proof.Machine.execWarmFlushDone s
  | .warmFlushTimeout => Sys2Proof.Machine.execWarmFlushTimeout s
  | .slabResetRelease slab => Sys2Proof.Machine.execSlabResetRelease slab s
  | .bootVerifyDone slab kind readErr => Sys2Proof.Machine.execBootVerifyDone slab kind readErr s
  | .mgmtBootData agent words => Sys2Proof.Machine.execMgmtBootData agent words s
  | .mgmtBootEnd agent => Sys2Proof.Machine.execMgmtBootEnd agent s
  | .processorRelease => Sys2Proof.Machine.execProcessorRelease s
  | .hostReady agent slab => Sys2Proof.Machine.execHostReady agent slab s
  | .readyRise => Sys2Proof.Machine.execReadyRise s
  | .clockLost domain => Sys2Proof.Machine.execClockLost domain s
  | .refclkLost => Sys2Proof.Machine.execRefclkLost s
  | .refclkReturn => Sys2Proof.Machine.execRefclkReturn s
  | .clkcGate agent target => Sys2Proof.Machine.execClkcGate agent target s
  | .clkcUngate agent target => Sys2Proof.Machine.execClkcUngate agent target s
  | .seamLockLoss slab group => Sys2Proof.Machine.execSeamLockLoss slab group s
  | .seamReplayTimeout slab group => Sys2Proof.Machine.execSeamReplayTimeout slab group s
  | .sysRstRelease straps refPresent => Sys2Proof.Machine.execSysRstRelease straps refPresent s
  | .configSpaceWrite a d3 bme msix => Sys2Proof.Machine.execConfigSpaceWrite a d3 bme msix s
  | .qengFlushDone q => Sys2Proof.Machine.execQengFlushDone q s
  | .handbackDone => Sys2Proof.Machine.execHandbackDone s

end Sys2Proof.Machine
end

