-- ==== Sys2Proof/Machine/Step.lean ====
section
/-! DEFINITION. One step: the command at the front of the queue takes effect; with none waiting a tick of the
timebase passes. -/

namespace Sys2Proof.Machine

/-- Take the command at the front of the queue and answer its outcome; on an empty queue the block idles for one tick. -/
def step (s : State) : Host.Outcome State Fault Refusal := match s.pending with
  | [] => .next s.tick
  | i :: r => exec i { s with pending := r }

/-- The state with the command a word spells put at the front of its queue. -/
def State.withFetchWord (s : State) (nbits w : Nat) : State := match decodeTableWord nbits w with
  | some i => { s with pending := i :: s.pending }
  | none => s

end Sys2Proof.Machine
end

