-- ==== Sys2Proof/Machine/Reservation.lean ====
section
/-! DEFINITION. The bytes that stand in a channel: the ciphertext of a stored line (R196, R241), its check line (R191, R205) and its MAC line (R244,
R245), as functions of what the model holds. -/

namespace Sys2Proof.Machine

/-- Ciphertext of a stored data line as written (R241). -/
def Stored.cipher (x : Stored) : Line := encryptLine x.sealedIn.keys x.sealedIn.name x.sealedIn.page x.sealedIn.plain
/-- MAC of a stored data line as written (R243). -/
def Stored.mac (x : Stored) : BitVec 56 :=
  lineMac x.sealedIn.keys x.sealedIn.name x.sealedIn.page x.sealedIn.ctx x.sealedIn.minor x.sealedIn.ver x.cipher
/-- Data positions whose lines a row's parity takes in (R196). -/
def State.rowData (s : State) (v r : Nat) : List Nat := (List.range 7).filter (s.rowHolds v r)
/-- A line as written: that of a parity granule is the exclusive-or of the line over its row's data positions (R196). -/
def State.written (s : State) (key : Nat) : Line :=
  let x := s.stored key
  if x.parity then
    let v := keyVein key
    let r := keyChunk key - s.hotH
    (s.rowData v r).foldl (fun a p => a ^^^ (s.stored (s.deepKey v (7 * r + p) (key % 8))).cipher) 0
  else x.cipher
/-- Check word of a line as written: that of a marker is inverted (R205). -/
def State.checkWordOf (s : State) (key : Nat) : BitVec 64 :=
  let c : BitVec 64 := BitVec.ofNat 64 (rsCheck (s.written key).toNat)
  if (s.stored key).marker then ~~~c else c
/-- The codeword of a line as it stands in its channel, line and check word, with the error that lies over it (R189). -/
def State.codeword (s : State) (key : Nat) : Codeword := (s.checkWordOf key ++ s.written key) ^^^ (s.stored key).err
/-- The check line of a chunk: check word j belongs to line j (R191). -/
def State.checkLine (s : State) (v ofs chunk : Nat) : Line :=
  (List.range 8).foldl (fun a j => a ||| (((s.codeword (mediaKey v ofs chunk j)).extractLsb' 512 64).setWidth 512 <<< (64 * j))) 0
/-- Seven-byte MACs of eight lines as a MAC line: bytes 56 to 63 are zero (R244). -/
def macBytes (m : Nat → BitVec 56) : Line := (List.range 8).foldl (fun a j => a ||| ((m j).setWidth 512 <<< (56 * j))) 0
/-- The MAC line of a chunk as written: for a parity granule the exclusive-or of its row's data MAC lines (R245). -/
def State.macLine (s : State) (v ofs chunk : Nat) : Line :=
  let of_ (f : Nat → Nat) : Line := macBytes (fun j => (s.stored (f j)).mac)
  let r := chunk - s.hotH
  if s.hotH ≤ chunk && r % 8 = ofs then (s.rowData v r).foldl (fun a p => a ^^^ of_ (s.deepKey v (7 * r + p))) 0
  else of_ (mediaKey v ofs chunk)
/-- The codeword of a MAC line as it stands in its channel (R189, R244). -/
def State.macCodeword (s : State) (v ofs chunk : Nat) : Codeword :=
  ((BitVec.ofNat 64 (rsCheck (s.macLine v ofs chunk).toNat)) ++ s.macLine v ofs chunk) ^^^ sget 0 s.media.resv (macKey v ofs chunk)

/-! ### Counter-class lines (R246) -/

/-- Counter that a line's parent, or its root slot, holds for it (R250). -/
def State.treeCounter (s : State) (k level index : Nat) : Nat :=
  if level < 6 then sget 0 s.crypto.nodes (nodeKey k (level + 1) (index / 8) (index % 8))
  else sget 0 s.crypto.roots (64 * (k % 8) + (if k = 8 then 32 else 0) + index)
/-- Payload of a line, bytes 0 to 55, as a number, and its FLAGS byte: a leaf in the form of its position, a ledger line, or a node (R246). -/
def State.treePayload (s : State) (k level index : Nat) : Nat × Nat :=
  let fields (w n : Nat) (f : Nat → Nat) : Nat := ((List.range n).map (fun j => f j % 2 ^ w * 2 ^ (w * j))).sum
  if 0 < level then (fields 56 8 (fun c => sget 0 s.crypto.nodes (nodeKey k level index c)), 0)
  else if k = 8 then (fields 56 8 (fun e => sget 0 s.crypto.ledgerSeq (8 * index + e)),
    fields 1 8 (fun e => b2n (sget false s.crypto.ledgerUse (8 * index + e))))
  else
    let l := s.leaf k index
    if index < s.hotH then (l.major % 2 ^ 64 + 2 ^ 64 * fields 6 64 (fun m => sget 0 l.minors m), 0)
    else (l.verLo % 2 ^ 64 + 2 ^ 64 * (l.verHi % 2 ^ 64), 1 + 2 * b2n l.lostLo + 4 * b2n l.lostHi)
/-- A counter-class line: payload, MAC under the metadata key with its parent's counter as VERSION, FLAGS (R246). -/
def State.treeLine (s : State) (k level index : Nat) : Line :=
  let p := s.treePayload k level index
  let mac := lineMac s.crypto.metaKey (treeName (k % 8) (treeLineNo k level index)) noPage 0 0 (s.treeCounter k level index)
    (BitVec.ofNat 512 (p.1 + 2 ^ 448 * p.2))
  BitVec.ofNat 512 (p.1 + 2 ^ 448 * mac.toNat + 2 ^ 504 * p.2)

end Sys2Proof.Machine
end

