-- ==== Sys2Proof/Safety.lean ====
section
/-! DEFINITION. What the claims speak of: how a command ends, and the invariant of the timebase and of the power supervisor that every step keeps. -/

namespace Sys2Proof.Machine

/-- Command `i` at `s` answers a next state, and `P` holds of it. -/
def Ends (i : Instr) (s : State) (P : State → Prop) : Prop := ∃ t, exec i s = .next t ∧ P t

/-- Command `i` at `s` answers the state `u` in all but the clock, the supervisor, the hub's power and the queue, which stay as in `s`. -/
def Acts (i : Instr) (s u : State) : Prop := exec i s = .next ((u.within s).cutAsked s)

/-- The hub runs: it is live, and the edge just passed has no work left (R14, R41). -/
abbrev State.runs (s : State) : Bool := s.live && !s.tb.edgeOpen

/-- May the agent write the register that holds a field: no rule of R83 drops the access? -/
abbrev State.mayWrite (s : State) (agent : Nat) (b : Block) (n : Nat) (f : Fld) (i : Nat := 0) : Prop :=
  s.dropCause agent (pg b n + f.off + (f.lo + f.bst * i) / 32 * 4) 4 true = none

/-- Bit address of a register field. -/
def bitAddr (b : Block) (n : Nat) (f : Fld) (i : Nat := 0) : Nat := fkey (pg b n) f i
/-- Bit addresses of HDR_INT_STATUS of a page. -/
def intAddrs (b : Block) (n : Nat) : List Nat :=
  [F.HDR_INT_STATUS_INT_ERROR, F.HDR_INT_STATUS_INT_COMMIT_DONE, F.HDR_INT_STATUS_INT_RESET_DONE, F.HDR_INT_STATUS_INT_LOST_ARB,
   F.HDR_INT_STATUS_INT_BLOCK].map (fun f => bitAddr b n f)
/-- From `s` to `t` nothing changes but the register fields at the bit addresses `l`. -/
def State.OnlyRegs (s t : State) (l : List Nat) : Prop :=
  { t with regs := s.regs } = s ∧ ∀ k, k ∉ l → sget 0 t.regs k = sget 0 s.regs k
/-- From `s` to `t` nothing changes but the register fields at the bit addresses `l`, and messages may have gone out. -/
def State.OnlyRegsOut (s t : State) (l : List Nat) : Prop :=
  { t with regs := s.regs, out := s.out } = s ∧ s.out <+: t.out ∧ ∀ k, k ∉ l → sget 0 t.regs k = sget 0 s.regs k
/-- From `s` to `t` nothing changes but the supervisor. -/
def State.OnlySup (s t : State) : Prop := { t with sup := s.sup } = s
/-- From `s` to `t` nothing changes but the supervisor and what a loss of power ends: the hub is unpowered. -/
def State.OnlyCut (s t : State) : Prop :=
  t.boot.powered = false ∧ t.boot.inReset = none ∧ t.boot.requests = [] ∧
  { t with sup := s.sup
           boot := { t.boot with powered := s.boot.powered, inReset := s.boot.inReset, requests := s.boot.requests } } = s
/-- The switch is open, every converter disabled and PWR_GOOD low. -/
abbrev Sup.down (u : Sup) : Prop := u.switchOn = false ∧ u.rails = 0 ∧ u.step = 0 ∧ u.pg = false ∧ u.timerRun = false ∧ u.released = false
/-- No request is under way at a home, and no region is unknown. -/
abbrev State.quiet (s : State) : Prop :=
  s.home.queue = [] ∧ s.home.senders = [] ∧ s.home.waiting = [] ∧ s.home.reads = [] ∧ s.home.unknown = [] ∧ s.home.victims = [] ∧ s.ring.freeing = []

/-- The timebase (R32, R33): the phase counts the ticks of a stroke of 191, 192 or 193 ticks. -/
def Timebase.ok (t : Timebase) : Bool := decide (t.phase < t.len) && decide (191 ≤ t.len) && decide (t.len ≤ 193)

/-- Rails that are up when step `n` of R577 is in progress. -/
def railsBefore : Nat → Nat
  | 0 => 0
  | n + 1 => railsBefore n ||| stepRails n

/-- The supervisor (R563 to R581): the switch is closed in RAMP, LIMIT and ON alone; PWR_GOOD is high in ON alone; the fault timer runs in LIMIT
alone; FAULT_COUNT stays at 6 or below; rails are up in the order of R577, after a first rise of power-good, and the hub's reset is released after
step 6 alone; the switch closes only with the enable asserted, the input in range and the auxiliary rail up. -/
def Sup.ok (u : Sup) : Bool :=
  (u.switchOn == u.st.closed) && (u.pg == decide (u.st = .on)) && (u.timerRun == decide (u.st = .limit)) &&
  decide (u.count ≤ 6) && decide (u.mem.count ≤ 6) && decide (u.step ≤ 7) &&
  (!u.released || decide (u.step = 7)) && (decide (u.step = 0) || u.pgOnce) && (decide (u.st ≠ .on) || u.pgOnce) &&
  decide (u.rails = railsBefore u.step) &&
  (u.st.closed || (decide (u.step = 0) && !u.released && !u.pgOnce)) &&
  (!u.st.closed || (u.en && u.inputOk)) && (decide (u.st = .off) || u.auxUp)

/-- The invariant: timebase and supervisor in order, and the hub has power only once its power-on reset has been released. -/
abbrev State.Inv (s : State) : Prop := s.tb.ok = true ∧ s.sup.ok = true ∧ (s.boot.powered = true → s.sup.released = true)

end Sys2Proof.Machine
end

