-- ==== Sys2Proof/WellFormed.lean ====
section
/-! DEFINITION. Which commands name parts the module has: every operand within the width and the number of units the spec gives it. The
meanings are total, so nothing depends on it; the statements may. -/

namespace Sys2Proof

open Machine

/-- Pages (instances) of a block in the whole module. -/
def Machine.Block.count (b : Block) : Nat := if b.perSlab then 2 * b.insts else b.insts

/-- The header fields of a ring frame fit their widths (R440). -/
def Frame.wellFormed (f : Frame) : Bool :=
  decide (f.ty < 256) && decide (f.vc < 4) && decide (f.dst < 2 ^ 18) && decide (f.dir < 2) && decide (f.src < 2 ^ 18) && decide (f.hops < 64) && decide (f.tag < 2 ^ 16) &&
    decide (f.arg < 2 ^ 32) && decide (f.payload.length ≤ 1008)

/-- The fields of a report fit their widths (R535, R539). -/
def Rep.wellFormed (r : Rep) : Bool :=
  decide (r.cls < 256) && decide (r.base < 4) && decide (r.block < 256) && decide (r.inst < 256) && decide (r.agent < 256) && decide (r.poison < 256) &&
    decide (r.page < 2 ^ 29) && decide (r.line < 64) && decide (r.phase < 193)

/-- An error pattern names a line of a page or of a row. -/
def LineErr.wellFormed (e : LineErr) : Bool := decide (e.idx < 1024)

/-- Every operand of a command lies in its range. -/
def Instr.wellFormed (i : Instr) : Bool := match i with
  | .strokeEdge _ _ => true
  | .layerBoundary => true
  | .sittingBoundary => true
  | .strokeAdopt => true
  | .tmbStrokeRead agent => decide (agent < 256)
  | .hostRead a hpa meta_ at10 => decide (a < 16) && decide (hpa < 2 ^ 52) && decide (meta_ < 3) && decide (at10 < 4825)
  | .hostWrite a hpa meta_ at10 _ _ _ err => decide (a < 16) && decide (hpa < 2 ^ 52) && decide (meta_ < 3) && decide (at10 < 4825) && err.wellFormed
  | .mediaReadReturn _ errs _ => errs.all LineErr.wellFormed
  | .readEgress _ at10 => decide (at10 < 4825)
  | .lateVerdict _ => true
  | .bisnpResponse a page line rsp _ => decide (a < 16) && decide (page < 2 ^ 29) && decide (line < 64) && decide (rsp < 8)
  | .commit agent b n ctl => decide (agent < 256) && decide (n < b.count) && decide (ctl < 16)
  | .commitActivate b n => decide (n < b.count)
  | .unlock agent b n ctl => decide (agent < 256) && decide (n < b.count) && decide (ctl < 16)
  | .blockReset agent b n ctl => decide (agent < 256) && decide (n < b.count) && decide (ctl < 16)
  | .blockResetDone b n => decide (n < b.count)
  | .stickyLock agent b n => decide (agent < 256) && decide (n < b.count)
  | .intForce agent b n mask => decide (agent < 256) && decide (n < b.count) && decide (mask < 2 ^ 32)
  | .registerPageWrite agent offset width value => decide (agent < 256) && decide (offset < 2 ^ 24) && (width = 1 || width = 2 || width = 4 || width = 8) && value.all (fun v => decide (v < 2 ^ (8 * width)))
  | .deniedClear agent => decide (agent < 256)
  | .pmapReadEntry agent slab => decide (agent < 256) && decide (slab < 2)
  | .pmapPin agent slab => decide (agent < 256) && decide (slab < 2)
  | .pmapUnpin agent slab => decide (agent < 256) && decide (slab < 2)
  | .pmapDiscard agent slab => decide (agent < 256) && decide (slab < 2)
  | .rowBufferTimeout vein => decide (vein < 16)
  | .tierMoveDone page errs => decide (page < 2 ^ 29) && errs.all LineErr.wellFormed
  | .compaction vein => decide (vein < 16)
  | .spillStart => true
  | .exhaustionTimeout page => decide (page < 2 ^ 29)
  | .donorAbsentTimeout _ => true
  | .rebalanceDone => true
  | .trainingDone _ _ => true
  | .warmTrainingCheck vein _ => decide (vein < 16)
  | .mr4Poll chan code _ => decide (chan < 128) && decide (code < 8)
  | .forcedRefresh chan => decide (chan < 128)
  | .veinSlotGrant vein ofs _ => decide (vein < 16) && decide (ofs < 8)
  | .panicLevelReport a => decide (a < 16)
  | .codecDecodeDone slab lane => decide (slab < 2) && decide (lane < 8)
  | .encodeDone page _ => decide (page < 2 ^ 29)
  | .offloadStepDone slab lane => decide (slab < 2) && decide (lane < 8)
  | .ofldDoorbell agent slab q tail => decide (agent < 256) && decide (slab < 2) && decide (q < 8) && decide (tail < 4096)
  | .ofldNoop slab q _ => decide (slab < 2) && decide (q < 8)
  | .ofldDeflate slab q _ => decide (slab < 2) && decide (q < 8)
  | .ofldInflate slab q _ => decide (slab < 2) && decide (q < 8)
  | .ofldStrataEncode slab q _ => decide (slab < 2) && decide (q < 8)
  | .ofldStrataDecode slab q _ => decide (slab < 2) && decide (q < 8)
  | .ofldCompletion slab q => decide (slab < 2) && decide (q < 8)
  | .ofldCqHead agent slab q head => decide (agent < 256) && decide (slab < 2) && decide (q < 8) && decide (head < 4096)
  | .ofldAbort agent slab _ => decide (agent < 256) && decide (slab < 2)
  | .scrubLine vein errs => decide (vein < 16) && errs.all LineErr.wellFormed
  | .flipArm agent slab _ => decide (agent < 256) && decide (slab < 2)
  | .fillDone => true
  | .diptRetire agent k ofs side => decide (agent < 256) && decide (k < 8) && decide (ofs < 8) && decide (side < 2)
  | .relocDone k => decide (k < 8)
  | .slabAbsent slab cause => decide (slab < 2) && decide (cause < 8)
  | .absentVeinHoldTimeout page => decide (page < 2 ^ 29)
  | .peerReturn => true
  | .resyncFrameCopy k => decide (k < 8)
  | .keysGenerate agent slab => decide (agent < 256) && decide (slab < 2)
  | .keysLoad agent slab => decide (agent < 256) && decide (slab < 2)
  | .keysUnwrap agent slab kek => decide (agent < 256) && decide (slab < 2) && decide (kek < 16)
  | .keysErase agent slab => decide (agent < 256) && decide (slab < 2)
  | .keysEraseDone slab => decide (slab < 2)
  | .keysWriteAttr agent slab => decide (agent < 256) && decide (slab < 2)
  | .keysReadAttr agent slab => decide (agent < 256) && decide (slab < 2)
  | .treeLineEvict dipt level _ => decide (dipt ≤ 8) && decide (level ≤ 8)
  | .subtreeRebuildDone dipt level _ => decide (dipt ≤ 8) && decide (level ≤ 8)
  | .linkUp a width speed _ _ => decide (a < 16) && decide (width ≤ 16) && decide (speed < 8)
  | .linkDown a => decide (a < 16)
  | .perst a => decide (a < 16)
  | .flr a => decide (a < 16)
  | .hotReset a => decide (a < 16)
  | .hdmCommit a _ _ _ ways gran pos _ _ _ => decide (a < 16) && decide (ways < 16) && decide (gran < 16) && decide (pos < 16)
  | .ideFail a => decide (a < 16)
  | .ideKm a => decide (a < 16)
  | .portIrqRearm agent port mask => decide (agent < 256) && decide (port < 8) && decide (mask < 4)
  | .getEventRecords a log => decide (a < 16) && decide (log < 8)
  | .clearEventRecords a log _ _ => decide (a < 16) && decide (log < 8)
  | .getEventInterruptPolicy a => decide (a < 16)
  | .setEventInterruptPolicy a _ => decide (a < 16)
  | .getFwInfo a => decide (a < 16)
  | .transferFw a action _ _ => decide (a < 16) && decide (action < 256)
  | .activateFw a action slot => decide (a < 16) && decide (action < 256) && decide (slot < 256)
  | .getTimestamp a => decide (a < 16)
  | .setTimestamp a _ => decide (a < 16)
  | .getSupportedLogs a => decide (a < 16)
  | .getLog a _ _ => decide (a < 16)
  | .identifyMemoryDevice a => decide (a < 16)
  | .getPartitionInfo a => decide (a < 16)
  | .getHealthInfo a => decide (a < 16)
  | .getAlertConfig a => decide (a < 16)
  | .setAlertConfig a _ => decide (a < 16)
  | .getPoisonList a _ _ => decide (a < 16)
  | .injectPoison a _ => decide (a < 16)
  | .clearPoison a _ _ => decide (a < 16)
  | .getScanMediaCapabilities a _ _ => decide (a < 16)
  | .scanMedia a _ _ => decide (a < 16)
  | .scanMediaDone _ _ => true
  | .getScanMediaResults a => decide (a < 16)
  | .addDynamicCapacityResponse a _ => decide (a < 16)
  | .releaseDynamicCapacity a _ => decide (a < 16)
  | .dcOffer a _ _ => decide (a < 16)
  | .dcOfferTimeout => true
  | .gnorridIdentify a => decide (a < 16)
  | .registerRead a ofs _ => decide (a < 16) && decide (ofs < 2 ^ 32)
  | .registerWrite a _ _ => decide (a < 16)
  | .getTimebase a => decide (a < 16)
  | .intRds o page line ctx hint => decide (o < 18) && decide (page < 2 ^ 29) && decide (line < 64) && decide (ctx < 16384) && decide (hint < 4)
  | .intRdo o page line ctx _ _ => decide (o < 18) && decide (page < 2 ^ 29) && decide (line < 64) && decide (ctx < 16384)
  | .intUpg o page line ctx _ _ => decide (o < 18) && decide (page < 2 ^ 29) && decide (line < 64) && decide (ctx < 16384)
  | .intWb o page line ctx _ => decide (o < 18) && decide (page < 2 ^ 29) && decide (line < 64) && decide (ctx < 16384)
  | .intEvict o page line ctx => decide (o < 18) && decide (page < 2 ^ 29) && decide (line < 64) && decide (ctx < 16384)
  | .invalAck kind _ page line _ => decide (kind < 2) && decide (page < 2 ^ 29) && decide (line < 64)
  | .snoopRead o page line ctx => decide (o < 18) && decide (page < 2 ^ 29) && decide (line < 64) && decide (ctx < 16384)
  | .farAtomic q page line ctx _ kernel _ => decide (q < 16) && decide (page < 2 ^ 29) && decide (line < 64) && decide (ctx < 16384) && decide (kernel.length ≤ 4096)
  | .victimRecallDone slab hl => decide (slab < 2) && decide (hl < 2 ^ 35)
  | .sweepDone a => decide (a < 16)
  | .regionResolve => true
  | .regionResolved _ => true
  | .handback => true
  | .dirq agent slab line => decide (agent < 256) && decide (slab < 2) && decide (line < 64)
  | .prefetchInstall page line err => decide (page < 2 ^ 29) && decide (line < 64) && err.wellFormed
  | .runaheadInstall page => decide (page < 2 ^ 29)
  | .chunkDrain vein ofs chunk => decide (vein < 16) && decide (ofs < 8) && decide (chunk < 2 ^ 29)
  | .hcacInvalPage agent slab => decide (agent < 256) && decide (slab < 2)
  | .hcacCleanPage agent slab => decide (agent < 256) && decide (slab < 2)
  | .hcacCleanInvalPage agent slab => decide (agent < 256) && decide (slab < 2)
  | .hcacInvalSetWay agent slab set way => decide (agent < 256) && decide (slab < 2) && decide (set < 2 ^ 15) && decide (way < 16)
  | .hcacInvalAll agent slab => decide (agent < 256) && decide (slab < 2)
  | .hcacCmdDone slab => decide (slab < 2)
  | .hcacRepartition agent slab ways => decide (agent < 256) && decide (slab < 2) && decide (ways < 16)
  | .repartDone slab => decide (slab < 2)
  | .qengDoorbell agent q tail => decide (agent < 256) && decide (q < 16) && decide (tail < 4096)
  | .qeNoop q _ => decide (q < 16)
  | .qeFilter q _ => decide (q < 16)
  | .qeProject q _ => decide (q < 16)
  | .qeGather q _ => decide (q < 16)
  | .qeHashProbe q _ => decide (q < 16)
  | .qeAggregate q _ => decide (q < 16)
  | .qeJobDone q => decide (q < 16)
  | .qgthCqHead agent slab c head => decide (agent < 256) && decide (slab < 2) && decide (c < 4) && decide (head < 4096)
  | .qengAbort agent q _ => decide (agent < 256) && decide (q < 16)
  | .qengCacheFlush agent q => decide (agent < 256) && decide (q < 16)
  | .qeThrottle => true
  | .ringSideUp pair side position role _ _ _ => decide (pair < 2) && decide (side < 2) && decide (position < 256) && decide (role < 4)
  | .lskp pair side adjust => decide (pair < 2) && decide (side < 2) && decide (adjust < 3)
  | .lstrk pair side _ txOfs _ _ _ depth _ => decide (pair < 2) && decide (side < 2) && decide (txOfs < 120) && decide (depth < 256)
  | .lecho pair side ta => decide (pair < 2) && decide (side < 2) && decide (ta < 2 ^ 16)
  | .lechoReply pair side ta t4 => decide (pair < 2) && decide (side < 2) && decide (ta < 2 ^ 16) && decide (t4 < 2 ^ 48)
  | .lsplProbe pair side _ position => decide (pair < 2) && decide (side < 2) && decide (position < 256)
  | .lsplUnwrap pair side _ position => decide (pair < 2) && decide (side < 2) && decide (position < 256)
  | .flitReceive pair side fseq ackSeq _ _ _ crVc crCount _ => decide (pair < 2) && decide (side < 2) && decide (fseq < 4096) && decide (ackSeq < 4096) && decide (crVc < 4) && decide (crCount < 64)
  | .ringReplayTimeout pair side => decide (pair < 2) && decide (side < 2)
  | .ringLockLoss pair side _ => decide (pair < 2) && decide (side < 2)
  | .stroke pair side f => decide (pair < 2) && decide (side < 2) && f.wellFormed
  | .report pair side f => decide (pair < 2) && decide (side < 2) && f.wellFormed
  | .enum pair side f _ => decide (pair < 2) && decide (side < 2) && f.wellFormed
  | .joinReq pair side f => decide (pair < 2) && decide (side < 2) && f.wellFormed
  | .assign pair side f => decide (pair < 2) && decide (side < 2) && f.wellFormed
  | .order pair side f => decide (pair < 2) && decide (side < 2) && f.wellFormed
  | .regRd pair side f => decide (pair < 2) && decide (side < 2) && f.wellFormed
  | .regWr pair side f => decide (pair < 2) && decide (side < 2) && f.wellFormed
  | .regRsp pair side f => decide (pair < 2) && decide (side < 2) && f.wellFormed
  | .keyXfer pair side f => decide (pair < 2) && decide (side < 2) && f.wellFormed
  | .keyAck pair side f => decide (pair < 2) && decide (side < 2) && f.wellFormed
  | .cmdWarmReset pair side f => decide (pair < 2) && decide (side < 2) && f.wellFormed
  | .cmdColdReset pair side f => decide (pair < 2) && decide (side < 2) && f.wellFormed
  | .cmdEvacuate pair side f => decide (pair < 2) && decide (side < 2) && f.wellFormed
  | .cmdCancelEvac pair side f => decide (pair < 2) && decide (side < 2) && f.wellFormed
  | .cmdAck pair side f => decide (pair < 2) && decide (side < 2) && f.wellFormed
  | .spillReq pair side f => decide (pair < 2) && decide (side < 2) && f.wellFormed
  | .spillGrant pair side f => decide (pair < 2) && decide (side < 2) && f.wellFormed
  | .spillData pair side f => decide (pair < 2) && decide (side < 2) && f.wellFormed
  | .spillDone pair side f => decide (pair < 2) && decide (side < 2) && f.wellFormed
  | .spillRead pair side f => decide (pair < 2) && decide (side < 2) && f.wellFormed
  | .spillRdata pair side f => decide (pair < 2) && decide (side < 2) && f.wellFormed
  | .spillFree pair side f => decide (pair < 2) && decide (side < 2) && f.wellFormed
  | .spillDecline pair side f => decide (pair < 2) && decide (side < 2) && f.wellFormed
  | .spillReturn pair side f => decide (pair < 2) && decide (side < 2) && f.wellFormed
  | .holdoverTimeout => true
  | .spliceHalfStart pair dir => decide (pair < 2) && decide (dir < 2)
  | .ringRequestRetry tag => decide (tag < 2 ^ 16)
  | .ringRequestFail tag => decide (tag < 2 ^ 16)
  | .tapTraffic pair => decide (pair < 2)
  | .tapSilenceTimeout pair => decide (pair < 2)
  | .enumTimeout pair => decide (pair < 2)
  | .strokeFrameTimeout pair => decide (pair < 2)
  | .evacDone => true
  | .evacDeadline => true
  | .lodeRejoin agent => decide (agent < 256)
  | .ringRevive agent slab sides => decide (agent < 256) && decide (slab < 2) && decide (sides < 4)
  | .budgetDivide => true
  | .sensorConversion ch reading requester => decide (ch < 12) && decide (reading < 2 ^ 16) && decide (requester < 4)
  | .sensorRequest agent ch => decide (agent < 256) && decide (ch < 12)
  | .restEnter agent => decide (agent < 256)
  | .restEntryEdge => true
  | .restDrainTimeout => true
  | .sketchSample _ => true
  | .wakeEvent waker => decide (waker < 256)
  | .wakeDone => true
  | .getMeas seq slot => decide (seq < 256) && decide (slot < 256)
  | .measExtend seq slot _ => decide (seq < 256) && decide (slot < 256)
  | .mbxAssign seq block _ => decide (seq < 256) && decide (block < 18)
  | .mbxRelease seq block _ => decide (seq < 256) && decide (block < 18)
  | .keyCreate seq ctx attrs mask _ => decide (seq < 256) && decide (ctx < 16384) && decide (attrs < 256) && decide (mask < 2 ^ 16)
  | .keyErase seq ctx _ => decide (seq < 256) && decide (ctx < 16384)
  | .debugNonce seq => decide (seq < 256)
  | .debugOpen seq part _ => decide (seq < 256) && decide (part < 256)
  | .secpDebugOpen agent slab => decide (agent < 256) && decide (slab < 2)
  | .secpMeasExtend agent slab slot => decide (agent < 256) && decide (slab < 2) && decide (slot < 256)
  | .spdmGetMeasurements index nonce => decide (index < 256) && decide (nonce < 2 ^ 256)
  | .kekInstall _ _ => true
  | .fabricKeyInstall _ => true
  | .ownHandover agent block _ => decide (agent < 256) && decide (block < 18)
  | .handoverIdle => true
  | .handoverTimeout => true
  | .handoverFlushDone => true
  | .handoverResetDone => true
  | .powerReq agent block action => decide (agent < 256) && decide (block < 18) && decide (action < 4)
  | .powerAnswer agent block _ => decide (agent < 256) && decide (block < 18)
  | .powerReqTimeout block => decide (block < 18)
  | .wdogEnable agent slab period => decide (agent < 256) && decide (slab < 2) && decide (period < 2 ^ 16)
  | .wdogKick agent slab => decide (agent < 256) && decide (slab < 2)
  | .wdogExpire => true
  | .mirrorCopyDone => true
  | .errorReport reps => reps.all Rep.wellFormed
  | .wireBroken block inst loc phase => decide (block < 256) && decide (inst < 256) && decide (loc < 256) && decide (phase < 193)
  | .fltAck agent cls seq _ => decide (agent < 256) && decide (cls < 256) && decide (seq < 2 ^ 16)
  | .seamReplay slab group => decide (slab < 2) && decide (group < 18)
  | .auxRailUp _ _ => true
  | .auxRailDown => true
  | .pwrEnAssert _ => true
  | .pwrEnDeassert => true
  | .inputOutOfRange _ vin => decide (vin < 256)
  | .inputInRange => true
  | .currentLimit => true
  | .limitClear => true
  | .faultTimerExpire vin => decide (vin < 256)
  | .fastTrip vin => decide (vin < 256)
  | .powerGoodRise => true
  | .railStepDone => true
  | .railSequenceFault rail vin => decide (rail < 8) && decide (vin < 256)
  | .coolDownEnd => true
  | .cleanTimeExpire => true
  | .thermalMemoryTick => true
  | .fetBad vin => decide (vin < 256)
  | .powerOff agent => decide (agent < 256)
  | .powerOnReset straps _ => straps.1 < 4 && straps.2.1 < 4 && straps.2.2 < 4
  | .sysRst => true
  | .rstcWarm agent => decide (agent < 256)
  | .rstcCold agent => decide (agent < 256)
  | .warmFlushDone => true
  | .warmFlushTimeout => true
  | .slabResetRelease slab => decide (slab < 2)
  | .bootVerifyDone slab kind _ => decide (slab < 2) && (kind = 1 || kind = 2 || kind = 3)
  | .mgmtBootData agent _ => decide (agent < 256)
  | .mgmtBootEnd agent => decide (agent < 256)
  | .processorRelease => true
  | .hostReady agent slab => decide (agent < 256) && decide (slab < 2)
  | .readyRise => true
  | .clockLost domain => decide (domain < 40)
  | .refclkLost => true
  | .refclkReturn => true
  | .clkcGate agent target => decide (agent < 256) && decide (target < 10)
  | .clkcUngate agent target => decide (agent < 256) && decide (target < 10)
  | .seamLockLoss slab group => decide (slab < 2) && decide (group < 18)
  | .seamReplayTimeout slab group => decide (slab < 2) && decide (group < 18)
  | .sysRstRelease straps _ => straps.1 < 4 && straps.2.1 < 4 && straps.2.2 < 4
  | .configSpaceWrite a _ _ _ => decide (a < 16)
  | .qengFlushDone q => decide (q < 16)
  | .handbackDone => true

end Sys2Proof
end

