-- ==== Sys2Proof/Certificates/Slice0/Obligations.lean ====
section
/-! DEFINITION. The statements for the provers: what the spec's rules say of the commands and of the machine. -/

open Sys2Proof Sys2Proof.Machine

/-- Every step keeps the order of the timebase and of the supervisor (R32, R33, R563, R566, R567, R568, R569, R577). From every state that meets the invariant (the phase below a stroke length of 191 to 193 ticks; the switch closed in RAMP, LIMIT and ON alone; PWR_GOOD high in ON alone; the fault timer in LIMIT alone; FAULT_COUNT at 6 or below; the rails of the finished steps up; the hub released after step 6 alone and powered only when released) a step leads to a state that meets it. -/
def Obligations.InvariantKept : Prop :=
  ∀ (s t : State), s.Inv → step s = .next t → t.Inv

/-- The invariant holds at reset (R32, R577). The state at the release of the power-on reset meets the invariant. -/
def Obligations.InvariantAtReset : Prop :=
  State.reset.Inv

/-- Every command answers a next state (R82). No command of the table ends in a fault or in a refusal. -/
def Obligations.ExecAnswers : Prop :=
  ∀ (i : Instr) (s : State), ∃ t, exec i s = .next t

/-- No command touches the queue (00_scope.md). Whatever a command does, the commands that wait behind it stay as they were (the queue is the model's own, log entry 1). -/
def Obligations.QueueKept : Prop :=
  ∀ (i : Instr) (s t : State), exec i s = .next t → t.pending = s.pending

/-- A register field reads back what was written and leaves every other field alone (R56, R60). A write of a field is cut to the field's width, every other bit address keeps its value, and the store keeps its canonical form. -/
def Obligations.RegisterStore : Prop :=
  ∀ (s : State) (b : Block) (n v i : Nat) (f : Fld), (s.put b n f v i).get b n f i = v % 2 ^ f.w ∧ (∀ c m g j, fkey (pg c m) g j ≠ fkey (pg b n) f i →
    (s.put b n f v i).get c m g j = s.get c m g j) ∧ (swf 0 s.regs = true → swf 0 (s.put b n f v i).regs = true)

/-- One write of HDR_CTL requests one action at most (R69). A write of HDR_CTL that requests more than one of COMMIT, UNLOCK and BLOCK_RESET performs none of them: it sets CTL_CONFLICT, its ENABLE bit takes effect, and nothing else changes. -/
def Obligations.ControlConflict : Prop :=
  (∀ (s : State) (agent n ctl : Nat) (b : Block), s.runs = true → s.mayWrite agent b n F.HDR_CTL_COMMIT → ctl.testBit 2 = true ∨ ctl.testBit 3 = true →
     Ends (.commit agent b n ctl) s (fun t => t.get b n F.HDR_STATUS_CTL_CONFLICT = 1 ∧ t.get b n F.HDR_CTL_ENABLE = ctl % 2 ∧ s.OnlyRegs t [bitAddr b n
     F.HDR_CTL_ENABLE, bitAddr b n F.HDR_STATUS_CTL_CONFLICT])) ∧
  (∀ (s : State) (agent n ctl : Nat) (b : Block), s.runs = true → s.mayWrite agent b n F.HDR_CTL_UNLOCK → ctl.testBit 1 = true ∨ ctl.testBit 3 = true →
     Ends (.unlock agent b n ctl) s (fun t => t.get b n F.HDR_STATUS_CTL_CONFLICT = 1 ∧ t.get b n F.HDR_CTL_ENABLE = ctl % 2 ∧ s.OnlyRegs t [bitAddr b n
     F.HDR_CTL_ENABLE, bitAddr b n F.HDR_STATUS_CTL_CONFLICT])) ∧
  (∀ (s : State) (agent n ctl : Nat) (b : Block), s.runs = true → s.mayWrite agent b n F.HDR_CTL_BLOCK_RESET → ctl.testBit 1 = true ∨ ctl.testBit 2 =
     true → Ends (.blockReset agent b n ctl) s (fun t => t.get b n F.HDR_STATUS_CTL_CONFLICT = 1 ∧ t.get b n F.HDR_CTL_ENABLE = ctl % 2 ∧ s.OnlyRegs t
     [bitAddr b n F.HDR_CTL_ENABLE, bitAddr b n F.HDR_STATUS_CTL_CONFLICT]))

/-- The home of a logical page (R306). The home of page P is P[0] XOR P[9] XOR P[18] XOR P[27], and inverting any one of these four bits moves the page to the other Slab, so that strides of 2, 512 and their multiples fall on both. -/
def Obligations.HomeOfAPage : Prop :=
  ∀ (p : Nat), homeOf p = (if (((p.testBit 0).xor (p.testBit 9)).xor (p.testBit 18)).xor (p.testBit 27) then 1 else 0) ∧ (∀ k ∈ [0, 9, 18, 27], homeOf
    (p ^^^ 2 ^ k) = 1 - homeOf p) ∧ homeOf p < 2

/-- A step takes the command at the front of the queue (00_scope.md, R32). With a command at the front of the queue a step is that command at the rest of the queue; with an empty queue a step is one tick of the timebase, which touches the phase alone once the edge just passed has no work left (the tick on an empty queue is the model's choice, log entry 1). -/
def Obligations.QueueFront : Prop :=
  (∀ (s : State) (i : Instr) (r : List Instr), s.pending = i :: r → step s = exec i { s with pending := r }) ∧
  (∀ (s : State), s.pending = [] → s.tb.edgeOpen = false → ∃ t, step s = .next t ∧ { t with tb := { t.tb with phase := s.tb.phase } } = s ∧ t.tb.phase =
     (if s.live = true ∧ s.tb.phase + 1 < s.tb.len then s.tb.phase + 1 else s.tb.phase))

/-- A stroke edge returns the phase to 0 and increments the stroke number (R14, R32, R33). STROKE_EDGE completes: the phase is 0, the next stroke lasts 191, 192 or 193 ticks, and 192 after a slewed one; the stroke number and the local elapsed count go up by 1 unless a cold reset begins in the edge. Where a Layer begins, nothing but the judgement of the stroke that ends happens before LAYER_BOUNDARY: the number and the count have gone up, the boundary is due, and a Sitting's with it at a multiple of 2,048, and the edge's own work waits for it (the order is the model's choice, log entry 1). -/
def Obligations.StrokeEdges : Prop :=
  (∀ (s : State) (miss0 miss1 : Bool), s.timeRuns = true → s.tb.edgeOpen = false → s.tb.adopt = none → s.tb.layerDue = false → Ends (.strokeEdge miss0
     miss1) s (fun t => t.tb.phase = 0 ∧ (191 ≤ t.tb.len ∧ t.tb.len ≤ 193) ∧ (s.tb.len ≠ 192 → t.tb.len = 192) ∧ ((t.tb.stroke = s.tb.stroke + 1 ∧
     t.tb.elapsed = s.tb.elapsed + 1) ∨ (t.tb.stroke = 0 ∧ t.tb.elapsed = 0 ∧ t.boot.inReset.any (fun r => r.cold) = true)))) ∧
  (∀ (s : State) (miss0 miss1 : Bool), s.live = true → s.tb.edgeOpen = false → s.tb.adopt = none → s.tb.layerDue = false → s.actDue = [] → (s.tb.stroke +
     1).toNat % 64 = 0 → Ends (.strokeEdge miss0 miss1) s (fun t => t.tb.stroke = s.tb.stroke + 1 ∧ t.tb.elapsed = s.tb.elapsed + 1 ∧ t.tb.phase = 0 ∧
     t.tb.len = s.strokeLen ∧ t.tb.layerDue = true ∧ t.tb.sittingDue = decide ((s.tb.stroke + 1).toNat % 2048 = 0) ∧ t.tb.edgeOpen = true ∧ t.home = s.home
     ∧ t.media = s.media ∧ t.regu = s.regu ∧ t.out = s.out)) ∧
  (∀ (s : State) (miss0 miss1 : Bool), s.live = true → s.tb.edgeOpen = false → s.tb.adopt = none → s.tb.layerDue = false → s.actDue = [] → (s.tb.stroke +
     1).toNat % 64 = 0 → s.boot.seamUp = true → s.boot.absent = [] → s.restState ≠ 4 → s.get .clkc 0 F.CLKC_STATUS_LOCKED = 1 → Ends (.strokeEdge miss0
     miss1) s (fun t => t.boot.hbMiss = ((if miss0 = true then s.boot.hbMiss.1 + 1 else 0), (if miss1 = true then s.boot.hbMiss.2 + 1 else 0)) ∧ (miss0 =
     true → t.get .slab 0 F.SLAB_HEARTBEAT_MISSED = min 65535 (s.get .slab 0 F.SLAB_HEARTBEAT_MISSED + 1) ∧ t.get .slab 0 F.SLAB_HEARTBEAT_LAST_MISS =
     s.tb.stroke.toNat % 65536 ∧ (t.intStatus (pg .slab 0)).testBit 16 = true) ∧ (miss0 = false → t.get .slab 0 F.SLAB_HEARTBEAT_MISSED = s.get .slab 0
     F.SLAB_HEARTBEAT_MISSED)))

/-- Layer and Sitting boundaries run once each (R14, R47, R414, R488). LAYER_BOUNDARY completes: it clears its mark and the Sitting's, and, unless a module reset is in progress after it, opens the budgets of the new Layer and declares hot-refresh mode where a reading crossed the threshold; before an adoption due at the same edge it does so with the number, the phase and the edge's own work left as they are. SITTING_BOUNDARY completes: it closes the account, begins the next one at the elapsed stroke and clears BUDGET_HIT. -/
def Obligations.Boundaries : Prop :=
  (∀ (s : State), s.live = true → s.tb.layerDue = true → Ends .layerBoundary s (fun t => t.tb.layerDue = false ∧ t.tb.sittingDue = false ∧
     (t.boot.inReset.isSome = true ∨ (t.regu.layer = layerOf s.tb.stroke ∧ (s.tb.hotSeen = true → t.tb.hot = true))) ∧ t.tb.hotSeen = false)) ∧
  (∀ (s : State) (n : Stroke), s.live = true → s.tb.layerDue = true → s.tb.adopt = some (s.now, n) → Ends .layerBoundary s (fun t => t.tb.layerDue =
     false ∧ t.tb.sittingDue = false ∧ t.regu.layer = layerOf s.tb.stroke ∧ (s.tb.hotSeen = true → t.tb.hot = true) ∧ t.tb.hotSeen = false ∧ t.tb.stroke =
     s.tb.stroke ∧ t.tb.phase = s.tb.phase ∧ t.tb.elapsed = s.tb.elapsed ∧ t.tb.edgeOpen = s.tb.edgeOpen ∧ t.tb.adopt = s.tb.adopt)) ∧
  (∀ (s : State), s.live = true → s.tb.layerDue = true → s.tb.sittingDue = true → Ends .sittingBoundary s (fun t => t.tb.sittingDue = false ∧
     t.tb.layerDue = true ∧ t.tb.hotBad = false ∧ t.energy.opened = s.tb.elapsed.toNat ∧ t.get .ledg 0 F.LEDG_STATUS_BUDGET_HIT = 0 ∧ t.tb.stroke =
     s.tb.stroke ∧ t.tb.phase = s.tb.phase))

/-- A read of TMB_STROKE_LO latches its agent's number and phase, and an adoption takes the fabric number at its edge (R36, R58, R455). TMB_STROKE_READ completes: the low half of the stroke number goes out, the high half and the phase of the same tick are latched for that agent alone, and nothing else changes. STROKE_ADOPT completes at the edge its adoption waits for: the fabric number is taken, ADOPTED set, the phase, the stroke's length and the elapsed count stay, and the boundaries that the new number opens are due. -/
def Obligations.TimebaseReads : Prop :=
  (∀ (s : State) (agent : Nat), s.runs = true → s.dropCause agent (pg .tmb 0 + F.TMB_STROKE_LO_STROKE_LO.off) 4 false = none → Ends (.tmbStrokeRead
     agent) s (fun t => sget (0, 0) t.tb.latches agent = (s.tb.stroke.toNat / 2 ^ 32, s.tb.phase) ∧ t.out = s.out ++ [Msg.regData agent (pg .tmb 0 +
     F.TMB_STROKE_LO_STROKE_LO.off) (s.tb.stroke.toNat % 2 ^ 32)] ∧ (∀ k, k ≠ agent → sget (0, 0) t.tb.latches k = sget (0, 0) s.tb.latches k) ∧ { t with out := s.out, tb := { t.tb with latches := s.tb.latches } }
     = s)) ∧
  (∀ (s : State) (n : Stroke), s.live = true → s.tb.adopt = some (s.now, n) → s.tb.layerDue = false → n.toNat % 64 = 0 → Ends .strokeAdopt s (fun t =>
     t.tb.stroke = n ∧ t.tb.phase = s.tb.phase ∧ t.tb.elapsed = s.tb.elapsed ∧ t.tb.len = s.tb.len ∧ t.tb.adopt = none ∧ t.get .tmb 0 F.TMB_STATUS_ADOPTED
     = 1 ∧ t.tb.layerDue = true ∧ t.tb.sittingDue = decide (n.toNat % 2048 = 0) ∧ t.tb.edgeOpen = s.tb.edgeOpen)) ∧
  (∀ (s : State) (n : Stroke), s.live = true → s.tb.adopt = some (s.now, n) → s.tb.layerDue = false → s.tb.edgeOpen = false → Ends .strokeAdopt s (fun t
     => t.tb.stroke = n ∧ t.tb.phase = s.tb.phase ∧ t.tb.elapsed = s.tb.elapsed ∧ t.tb.len = s.tb.len ∧ t.tb.adopt = none ∧ t.get .tmb 0
     F.TMB_STATUS_ADOPTED = 1 ∧ t.tb.layerDue = decide (n.toNat % 64 = 0) ∧ t.tb.sittingDue = decide (n.toNat % 2048 = 0)))

/-- What a write of HDR_CTL and of HDR_LOCK does (R65, R67, R68, R70). On a live hub, by an agent whose access no rule drops: a commit whose check passes sets COMMIT_PENDING, clears OPEN, increments HDR_COMMIT_SEQ, posts the result and raises INT_COMMIT_DONE; an unlock of a committed page sets OPEN; a block-level reset of an idle block is accepted; a sticky lock sets STICKY and records the agent; a reset request of a block that accepts none sets RESET_REFUSED and changes nothing else; a commit of a normal-world OFLD or QENG page by the secure processor is rejected with code 0x06 (the model reads R66 and R510 so: log entry 132). In the accepted forms ENABLE takes the written value. Nothing but the named registers changes. -/
def Obligations.HeaderCommands : Prop :=
  (∀ (s : State) (agent n ctl : Nat) (b : Block), s.runs = true → s.mayWrite agent b n F.HDR_CTL_COMMIT → ctl < 2 → b ∈ [Block.vein, .chan, .dprt, .home, .hcac, .ring, .seam, .lode, .ledg, .rest, .codc, .dipt, .cryp]
     → s.bit b n F.HDR_STATUS_OPEN = true → s.bit b n F.HDR_STATUS_COMMIT_PENDING = false → (s.commitCheck b n).1 = 0 → Ends (.commit agent b n ctl) s (fun
     t => t.get b n F.HDR_STATUS_COMMIT_PENDING = 1 ∧ t.get b n F.HDR_STATUS_OPEN = 0 ∧ t.get b n F.HDR_COMMIT_SEQ_SEQ = (s.get b n F.HDR_COMMIT_SEQ_SEQ +
     1) % 65536 ∧ t.get b n F.HDR_COMMIT_RESULT_CODE = 0 ∧ t.get b n F.HDR_INT_STATUS_INT_COMMIT_DONE = 1 ∧ t.get b n F.HDR_CTL_ENABLE = ctl ∧
     s.OnlyRegsOut t (intAddrs b n ++ [bitAddr b n F.HDR_CTL_ENABLE, bitAddr b n F.HDR_STATUS_COMMIT_PENDING, bitAddr b n F.HDR_STATUS_OPEN, bitAddr b n
     F.HDR_COMMIT_SEQ_SEQ, bitAddr b n F.HDR_COMMIT_RESULT_CODE, bitAddr b n F.HDR_COMMIT_RESULT_DETAIL]))) ∧
  (∀ (s : State) (agent n ctl : Nat) (b : Block), s.runs = true → s.mayWrite agent b n F.HDR_CTL_UNLOCK → ctl < 2 → capHasCommit b = true → s.bit b n
     F.HDR_STATUS_OPEN = false → s.bit b n F.HDR_STATUS_COMMIT_PENDING = false → s.bit b n F.HDR_LOCK_STICKY = false → Ends (.unlock agent b n ctl) s (fun
     t => t.get b n F.HDR_STATUS_OPEN = 1 ∧ t.get b n F.HDR_CTL_ENABLE = ctl ∧ s.OnlyRegs t [bitAddr b n F.HDR_CTL_ENABLE, bitAddr b n F.HDR_STATUS_OPEN])) ∧
  (∀ (s : State) (agent n ctl : Nat) (b : Block), s.runs = true → s.mayWrite agent b n F.HDR_CTL_BLOCK_RESET → ctl < 2 → capResetOk b = true → (s.put b n
     F.HDR_CTL_ENABLE ctl).blockIdle b n = true → Ends (.blockReset agent b n ctl) s (fun t => pg b n ∈ t.blockResets ∧ t.get b n F.HDR_CTL_ENABLE = ctl ∧
     { s with blockResets := t.blockResets }.OnlyRegs t [bitAddr b n F.HDR_CTL_ENABLE])) ∧
  (∀ (s : State) (agent n : Nat) (b : Block), s.runs = true → s.mayWrite agent b n F.HDR_LOCK_STICKY → s.bit b n F.HDR_LOCK_STICKY = false → Ends
     (.stickyLock agent b n) s (fun t => t.get b n F.HDR_LOCK_STICKY = 1 ∧ t.get b n F.HDR_LOCK_LOCK_AGENT = agent % 256 ∧ s.OnlyRegs t [bitAddr b n
     F.HDR_LOCK_STICKY, bitAddr b n F.HDR_LOCK_LOCK_AGENT])) ∧
  (∀ (s : State) (agent n ctl : Nat) (b : Block), s.runs = true → s.mayWrite agent b n F.HDR_CTL_BLOCK_RESET → ctl < 2 → capResetOk b = false → Ends
     (.blockReset agent b n ctl) s (fun t => t.get b n F.HDR_STATUS_RESET_REFUSED = 1 ∧ s.OnlyRegs t [bitAddr b n F.HDR_STATUS_RESET_REFUSED])) ∧
  (∀ (s : State) (agent n ctl : Nat) (b : Block), s.runs = true → s.mayWrite agent b n F.HDR_CTL_COMMIT → ctl < 2 → b ∈ [Block.ofld, .qeng] → isSecp
     agent = true → s.world b n = 0 → Ends (.commit agent b n ctl) s (fun t => t.get b n F.HDR_STATUS_COMMIT_REJECTED = 1 ∧ t.get b n
     F.HDR_COMMIT_RESULT_CODE = 6 ∧ t.get b n F.HDR_INT_STATUS_INT_COMMIT_DONE = 1 ∧ t.get b n F.HDR_STATUS_OPEN = s.get b n F.HDR_STATUS_OPEN ∧ t.staged =
     s.staged ∧ s.OnlyRegsOut t (intAddrs b n ++ [bitAddr b n F.HDR_CTL_ENABLE, bitAddr b n F.HDR_STATUS_COMMIT_REJECTED, bitAddr b n
     F.HDR_COMMIT_RESULT_CODE, bitAddr b n F.HDR_COMMIT_RESULT_DETAIL])))

/-- A write to HDR_INT_FORCE sets the named HDR_INT_STATUS bits (R62). Each named bit of HDR_INT_STATUS reads 1 and the others keep their values; no other register changes, and nothing else but a message that an interrupt sends. -/
def Obligations.InterruptForce : Prop :=
  ∀ (s : State) (agent n mask : Nat) (b : Block), s.runs = true → s.mayWrite agent b n F.HDR_INT_FORCE_INT_SET → Ends (.intForce agent b n mask) s (fun
    t => t.get b n F.HDR_INT_STATUS_INT_ERROR = (if mask.testBit 0 then 1 else s.get b n F.HDR_INT_STATUS_INT_ERROR) ∧ t.get b n
    F.HDR_INT_STATUS_INT_COMMIT_DONE = (if mask.testBit 1 then 1 else s.get b n F.HDR_INT_STATUS_INT_COMMIT_DONE) ∧ t.get b n
    F.HDR_INT_STATUS_INT_RESET_DONE = (if mask.testBit 2 then 1 else s.get b n F.HDR_INT_STATUS_INT_RESET_DONE) ∧ t.get b n F.HDR_INT_STATUS_INT_LOST_ARB
    = (if mask.testBit 3 then 1 else s.get b n F.HDR_INT_STATUS_INT_LOST_ARB) ∧ (∀ k < 16, (t.get b n F.HDR_INT_STATUS_INT_BLOCK).testBit k = ((s.get b n
    F.HDR_INT_STATUS_INT_BLOCK).testBit k || mask.testBit (16 + k))) ∧ s.OnlyRegsOut t (intAddrs b n))

/-- At its activation the staged copy becomes active (R65, R54). A page of a block without a procedure of its own takes every staged RWL value, COMMIT_PENDING clears and no other page changes. A QGTH, PORT, REGU or TIER page has further effects of its chapter. -/
def Obligations.CommitActivation : Prop :=
  ∀ (s : State) (b : Block) (n : Nat), s.runs = true → pg b n ∈ s.actDue → swf 0 s.staged = true → b ∈ [Block.vein, .chan, .dprt, .home, .hcac, .ring, .seam, .lode, .ledg, .rest, .codc, .dipt, .cryp]
    → Ends (.commitActivate b n) s (fun t => (∀ f ∈ blockFields b, f.acc = .rwl → ∀ i < f.cnt, t.get b n f i = s.getS b n f i) ∧ t.get b n
    F.HDR_STATUS_COMMIT_PENDING = 0 ∧ pg b n ∉ t.actDue ∧ t.staged = s.staged ∧ (∀ k, inPages b n k = false → sget 0 t.regs k = sget 0 s.regs k))

/-- A block-level reset returns RW fields, status and counters to their reset values and keeps both copies of every RWL field (R64, R70, R599). On QGTH, HCAC and CODC pages without a pending commit and not sticky, with no work waiting for the end of the reset, every field that is not RWL, not HDR_OWNER and not HDR_LOCK reads its reset value, RWL fields keep both copies, and INT_RESET_DONE is raised. A doorbell that reaches an OFLD block under such a reset waits at its sender and changes nothing else until then (R70). -/
def Obligations.BlockResetDone : Prop :=
  (∀ (s : State) (b : Block) (n : Nat), s.runs = true → pg b n ∈ s.blockResets → b ∈ [Block.qgth, .hcac, .codc] → s.handReset b n = false → s.get b n
     F.HDR_STATUS_COMMIT_PENDING = 0 → s.bit b n F.HDR_LOCK_STICKY = false → s.closedWork = [] → s.codec.waiting = [] → Ends (.blockResetDone b n) s (fun t
     => (∀ f ∈ hdrFields ++ blockFields b, f.acc ≠ .rwl → f ∉ hdrKept → f ∉ [F.HDR_INT_STATUS_INT_ERROR, F.HDR_INT_STATUS_INT_COMMIT_DONE, F.HDR_INT_STATUS_INT_RESET_DONE, F.HDR_INT_STATUS_INT_LOST_ARB, F.HDR_INT_STATUS_INT_BLOCK]
     → ∀ i < f.cnt, t.get b n f i = f.rstI i) ∧ (∀ f ∈ blockFields b, f.acc = .rwl → ∀ i < f.cnt, t.get b n f i = s.get b n f i ∧ t.getS b n f i = s.getS b
     n f i) ∧ t.get b n F.HDR_INT_STATUS_INT_RESET_DONE = 1 ∧ pg b n ∉ t.blockResets)) ∧
  (∀ (s : State) (agent slab q tail : Nat), s.runs = true → s.mayWrite agent .ofld slab F.OFLD_SQ_TAIL_TAIL q → s.blockClosed .ofld slab = true → tail <
     4096 → Ends (.ofldDoorbell agent slab q tail) s (fun t => t.closedWork = s.closedWork ++ [(pg .ofld slab, ResetWork.ofldTail q tail)] ∧ { t with closedWork := s.closedWork }
     = s))

/-- A 4-byte write of a register without an action of its own applies each field by its access code (R59, R65). RW fields take the written bits, W1C fields clear the bits written as 1, RO fields keep their values, and RWL fields of an open page take the bits into the staged copy. -/
def Obligations.PlainRegisterWrite : Prop :=
  ∀ (s : State) (agent offset value n o : Nat) (b : Block), s.runs = true → s.dropCause agent offset 4 true = none → blockAt offset = some (b, n, o) →
    0x100 ≤ o → (if b.perSlab then s.slabAction agent b n o (value % 2 ^ 32) else s.moduleAction agent b n o (value % 2 ^ 32)) = none → Ends
    (.registerPageWrite agent offset 4 (some value)) s (fun t => ∀ x ∈ wordFields b o, (x.1.acc = .rw → t.get b n x.1 x.2 = value % 2 ^ 32 / 2 ^ x.1.place
    x.2 o % 2 ^ x.1.w) ∧ (x.1.acc = .ro → t.get b n x.1 x.2 = s.get b n x.1 x.2) ∧ (x.1.acc = .w1c → t.get b n x.1 x.2 = (s.get b n x.1 x.2 - (s.get b n
    x.1 x.2 &&& (value % 2 ^ 32 / 2 ^ x.1.place x.2 o % 2 ^ x.1.w))) % 2 ^ x.1.w) ∧ (x.1.acc = .rwl → s.bit b n F.HDR_STATUS_OPEN = true → s.bit b n
    F.HDR_LOCK_STICKY = false → t.getS b n x.1 x.2 = value % 2 ^ 32 / 2 ^ x.1.place x.2 o % 2 ^ x.1.w))

/-- A dropped write changes nothing but the record of refused accesses (R82, R83, R84). MOD_DENIED_STAT counts it and holds the agent, MOD_DENIED_ADDR holds offset, direction and cause, and no other register and no other state changes. -/
def Obligations.DroppedAccess : Prop :=
  (∀ (s : State) (agent offset value c : Nat), s.runs = true → s.dropCause agent offset 4 true = some c → Ends (.registerPageWrite agent offset 4 (some
     value)) s (fun t => t.get .mod 0 F.MOD_DENIED_STAT_COUNT = min (2 ^ F.MOD_DENIED_STAT_COUNT.w - 1) (s.get .mod 0 F.MOD_DENIED_STAT_COUNT + 1) ∧ t.get
     .mod 0 F.MOD_DENIED_STAT_LAST_AGENT = agent % 2 ^ F.MOD_DENIED_STAT_LAST_AGENT.w ∧ t.get .mod 0 F.MOD_DENIED_ADDR_OFFSET = offset % 2 ^
     F.MOD_DENIED_ADDR_OFFSET.w ∧ t.get .mod 0 F.MOD_DENIED_ADDR_WRITE = 1 ∧ t.get .mod 0 F.MOD_DENIED_ADDR_CAUSE = c % 2 ^ F.MOD_DENIED_ADDR_CAUSE.w ∧
     s.OnlyRegs t [bitAddr .mod 0 F.MOD_DENIED_STAT_COUNT, bitAddr .mod 0 F.MOD_DENIED_STAT_LAST_AGENT, bitAddr .mod 0 F.MOD_DENIED_ADDR_OFFSET, bitAddr
     .mod 0 F.MOD_DENIED_ADDR_WRITE, bitAddr .mod 0 F.MOD_DENIED_ADDR_CAUSE])) ∧
  (∀ (s : State) (agent : Nat), s.runs = true → s.mayWrite agent .mod 0 F.MOD_DENIED_STAT_CLEAR → Ends (.deniedClear agent) s (fun t => t.get .mod 0
     F.MOD_DENIED_STAT_COUNT = 0 ∧ t.get .mod 0 F.MOD_DENIED_STAT_LAST_AGENT = 0 ∧ t.get .mod 0 F.MOD_DENIED_ADDR_OFFSET = 0 ∧ t.get .mod 0
     F.MOD_DENIED_ADDR_WRITE = 0 ∧ t.get .mod 0 F.MOD_DENIED_ADDR_CAUSE = 0 ∧ s.OnlyRegs t [bitAddr .mod 0 F.MOD_DENIED_STAT_COUNT, bitAddr .mod 0
     F.MOD_DENIED_STAT_LAST_AGENT, bitAddr .mod 0 F.MOD_DENIED_ADDR_OFFSET, bitAddr .mod 0 F.MOD_DENIED_ADDR_WRITE, bitAddr .mod 0
     F.MOD_DENIED_ADDR_CAUSE]))

/-- PMAP commands at a quiet home (R95, R96, R105, R111, R122). For a page that exists and is homed on the Slab: read entry gives the entry word, pin sets PINNED where the Diptych has room, unpin clears it, discard returns the page to zero; each ends with DONE 1 and BUSY 0, and no other page's entry changes under pin and unpin. -/
def Obligations.PageMapCommands : Prop :=
  (∀ (s : State) (agent slab page : Nat), s.runs = true → s.mayWrite agent .pmap slab F.PMAP_CMD_OP → s.bit .pmap slab F.PMAP_CMD_STATUS_BUSY = false →
     s.get .pmap slab F.PMAP_PAGE_PAGE = page → s.pageExists page = true → s.homeSlab page = slab → s.quiet → (s.entry page).st ≠ .spilled → Ends
     (.pmapReadEntry agent slab) s (fun t => t.get .pmap slab F.PMAP_ENTRY_LO_ENTRY_LO = (s.entry page).word (s.srcState page) % 2 ^ 32 ∧ t.get .pmap slab
     F.PMAP_ENTRY_HI_ENTRY_HI = (s.entry page).word (s.srcState page) / 2 ^ 32 % 2 ^ 32 ∧ t.get .pmap slab F.PMAP_CMD_STATUS_DONE = 1 ∧ t.get .pmap slab
     F.PMAP_CMD_STATUS_BUSY = 0 ∧ t.tier.pmap = s.tier.pmap)) ∧
  (∀ (s : State) (agent slab page : Nat), s.runs = true → s.mayWrite agent .pmap slab F.PMAP_CMD_OP → s.bit .pmap slab F.PMAP_CMD_STATUS_BUSY = false →
     s.get .pmap slab F.PMAP_PAGE_PAGE = page → s.pageExists page = true → s.homeSlab page = slab → s.quiet → (s.entry page).st = .hot ∨ (s.entry page).st
     = .zero → (s.entry page).pinned = false → s.pinnedOf (if (s.entry page).st = .hot then (s.entry page).vein else page % 8) + 1 ≤ s.framesOf (if
     (s.entry page).st = .hot then (s.entry page).vein else page % 8) - 256 * s.get .tier 0 F.TIER_FREE_FREE_HIGH → Ends (.pmapPin agent slab) s (fun t =>
     t.entry page = { s.entry page with pinned := true } ∧ (∀ p, p ≠ page → t.entry p = s.entry p) ∧ t.get .pmap slab F.PMAP_CMD_STATUS_DONE = 1 ∧ t.get
     .pmap slab F.PMAP_CMD_STATUS_BUSY = 0)) ∧
  (∀ (s : State) (agent slab page : Nat), s.runs = true → s.mayWrite agent .pmap slab F.PMAP_CMD_OP → s.bit .pmap slab F.PMAP_CMD_STATUS_BUSY = false →
     s.get .pmap slab F.PMAP_PAGE_PAGE = page → s.pageExists page = true → s.homeSlab page = slab → s.quiet → (s.entry page).st ≠ .unmapped → Ends
     (.pmapUnpin agent slab) s (fun t => t.entry page = { s.entry page with pinned := false } ∧ (∀ p, p ≠ page → t.entry p = s.entry p) ∧ t.get .pmap slab
     F.PMAP_CMD_STATUS_DONE = 1 ∧ t.get .pmap slab F.PMAP_CMD_STATUS_BUSY = 0)) ∧
  (∀ (s : State) (agent slab page : Nat), s.runs = true → s.mayWrite agent .pmap slab F.PMAP_CMD_OP → s.bit .pmap slab F.PMAP_CMD_STATUS_BUSY = false →
     s.get .pmap slab F.PMAP_PAGE_PAGE = page → s.pageExists page = true → s.homeSlab page = slab → s.quiet → (s.entry page).st ≠ .unmapped → ∀ i < 64, (s.dirOf
     page i).unused = true → Ends (.pmapDiscard agent slab) s (fun t => (t.entry page).st = .zero ∧ (t.entry page).pinned = (s.entry page).pinned ∧
     t.moveOf page = none ∧ t.get .pmap slab F.PMAP_CMD_STATUS_DONE = 1 ∧ t.get .pmap slab F.PMAP_CMD_STATUS_BUSY = 0))

/-- Row buffers, moves and rewriting of rows (R97, R102, R103, R121). A row buffer 64 strokes old is written with its parity granule; a demotion whose rows are written flips the entry to its new location in one step; a Vein short of free rows starts rewriting its emptiest row; an accepted HOT_SHARE change takes effect once its chunks are empty, with REBALANCE_DONE raised. -/
def Obligations.TierMovement : Prop :=
  (∀ (s : State) (vein : Nat) (b : RowBuf), s.runs = true → s.rowBuf vein = some b → 64 ≤ strokesSince b.first s.now → b.ret = s.retOfs vein →
     s.tier.moves = [] → Ends (.rowBufferTimeout vein) s (fun t => t.rowBuf vein = none ∧ (∀ l < 8, (t.stored (s.parityKey vein b.row l)).parity = true) ∧
     t.tier.pmap = s.tier.pmap)) ∧
  (∀ (s : State) (page : Nat) (errs : List LineErr) (m : Move), s.runs = true → s.tier.moves = [m] → m.page = page → m.kind = .demote → m.src = .hot →
     m.rowsWritten = true → s.tier.deferredPins = [] → s.hub.slots = [] → s.quiet → s.blockResets = [] → Ends (.tierMoveDone page errs) s (fun t =>
     (t.entry page).st = (if m.plain then .plain else .deep) ∧ (t.entry page).vein = m.vein ∧ (t.entry page).loc = m.loc ∧ (t.entry page).gm1 =
     (m.image.length + 511) / 512 - 1 ∧ (t.entry page).ctx = (s.entry page).ctx ∧ t.moveOf page = none ∧ (∀ p, p ≠ page → t.entry p = s.entry p))) ∧
  (∀ (s : State) (vein row page : Nat) (use : RowUse), s.runs = true → s.veinOk vein = true → 16 * s.freeRows vein < s.ownRows vein → s.tier.rows =
     [(vein * 2 ^ 24 + row, use)] → row < 2 ^ 24 → livePages use = [page] → s.tier.moves = [] → (s.entry page).st = .deep ∨ (s.entry page).st = .plain →
     s.grantLeft .migr = true → ((s.spend .migr [(1, 8 * ((s.entry page).gm1 + 1)), (3, 8 * ((s.entry page).gm1 + 1))]).readImage page (s.entry page)
     []).2.1 = [] → s.blockResets = [] → Ends (.compaction vein) s (fun t => (t.entry page).st = .moving ∧ (t.moveOf page).any (fun m => decide (m.kind =
     .deepToDeep) && decide (m.src = (s.entry page).st)) = true ∧ (∀ p, p ≠ page → t.entry p = s.entry p))) ∧
  (∀ (s : State), s.runs = true → s.bit .tier 0 F.HDR_STATUS_COMMIT_PENDING = true → s.shareChanges = true → s.donateChanges = false → s.shareReady =
     true → swf 0 s.staged = true → Ends .rebalanceDone s (fun t => t.get .tier 0 F.TIER_HOT_HOT_SHARE = s.getS .tier 0 F.TIER_HOT_HOT_SHARE ∧ t.get .tier
     0 F.HDR_STATUS_COMMIT_PENDING = 0 ∧ t.tier.rebalanceTo = none ∧ t.tier.poolHeld = [] ∧ (t.get .tier 0 F.HDR_INT_STATUS_INT_BLOCK).testBit 5 = true))

/-- What is held for want of room or of a donor ends with poison (R112, R116, R117). A write held for 2,048 strokes without room completes with its lines poisoned, code 0x07, and stays held; a forwarded read whose donor has been away for 64 strokes is given up with DONOR_ABSENT raised; a module short of deep rows starts to spill a page to its donor. -/
def Obligations.HeldWritesAndReads : Prop :=
  (∀ (s : State) (page : Nat) (t0 : Stroke), s.runs = true → s.tier.exhausted = [(page, t0, false)] → 2048 ≤ strokesSince t0 s.now → Ends
     (.exhaustionTimeout page) s (fun t => t.tier.exhausted = [(page, t0, true)] ∧ t.get .tier 0 F.TIER_STATUS_EXHAUSTED = s.get .tier 0
     F.TIER_STATUS_EXHAUSTED ∧ (∀ x ∈ t.hub.slots, x.page = page → x.runahead = false → ∀ h ∈ x.lines, h.poison = 7 ∧ h.mask = fullMask) ∧ t.tier.pmap =
     s.tier.pmap)) ∧
  (∀ (s : State) (id : Nat) (x : SpillFetch), s.runs = true → s.ring.fetches = [x] → x.id = id → x.isRecall = false → s.donorAbsent x.donor = true → 64 ≤
     strokesSince x.stamp s.now → s.quiet → Ends (.donorAbsentTimeout id) s (fun t => t.ring.fetches = [] ∧ (t.get .tier 0
     F.HDR_INT_STATUS_INT_BLOCK).testBit 4 = true ∧ t.tier.pmap = s.tier.pmap)) ∧
  (∀ (s : State) (page : Nat) (e : PEntry), s.runs = true → s.mayBorrow = true → s.tier.pmap = [(page, e)] → e.st = .deep ∨ e.st = .plain → e.noSpill =
     false → s.tier.moves = [] → (s.admitMove { page := page, kind := .spill, src := e.st }).1.paid = true → ((s.admitMove { page := page, kind := .spill, src := e.st }).2.readImage
     page e []).2.1 = [] → Ends .spillStart s (fun t => (t.entry page).st = .moving ∧ (t.moveOf page).any (fun m => decide (m.kind = .spill)) = true ∧
     (t.ring.spills.any (fun j => j.page = page && j.donor = s.get .tier 0 F.TIER_SPILL_TGT_DONOR && j.granules = e.gm1 + 1)) = true ∧ (t.ring.reqs.any
     (fun r => r.frame.ty = 0x10 && r.frame.arg = e.gm1)) = true))

/-- What a training run leaves (R126, R127, R128, R129). Cold training whose eyes all reach EYE_MIN on every channel leaves each channel of a present Slab trained, with the centre of each eye stored, and ends the training; the warm check of a Vein whose channels all find their stored centres changes only DELIVERABLE and takes the Vein off the list. -/
def Obligations.ChannelTraining : Prop :=
  (∀ (s : State) (base : ChanTrain), s.runs = true → s.boot.trained = false → s.get .mgmt s.primary F.MGMT_BOOT_STATUS_STAGE ≠ 0 → ∀ c < 128, s.bit .chan
     c F.HDR_STATUS_COMMIT_PENDING = false → ∀ c < 128, s.trainFails c (trainEyes base.first) = false → Ends (.trainingDone base []) s (fun t =>
     t.boot.trained = true ∧ (∀ c < 128, s.present (c / 64) = true → t.get .chan c F.CHAN_STATUS_TRAINED = 1 ∧ t.get .chan c F.CHAN_CFG_BYTE_MODE = b2n
     base.byteMode ∧ (∀ e < 4, t.get .chan c F.CHAN_REYE_CENTRE e = eyeCentre ((trainEyes base.first).rd.getD e (0, 0, 0)) % 2 ^ F.CHAN_REYE_CENTRE.w ∧
     t.get .chan c F.CHAN_WEYE_CENTRE e = eyeCentre ((trainEyes base.first).wr.getD e (0, 0, 0)) % 2 ^ F.CHAN_WEYE_CENTRE.w)) ∧ t.tier = s.tier ∧ t.out =
     s.out)) ∧
  (∀ (s : State) (vein : Nat), s.runs = true → vein < 16 → vein ∈ s.boot.warmLeft → ∀ o < 8, s.bit .chan (chanOf vein o) F.HDR_STATUS_COMMIT_PENDING =
     false → Ends (.warmTrainingCheck vein []) s (fun t => t.boot.warmLeft = s.boot.warmLeft.filter (· ≠ vein) ∧ t.get .vein vein F.VEIN_DELIVERABLE_SLOTS
     = s.deliverable vein 0 % 2 ^ F.VEIN_DELIVERABLE_SLOTS.w ∧ { s with boot := { s.boot with warmLeft := t.boot.warmLeft } }.OnlyRegs t [bitAddr .vein
     vein F.VEIN_DELIVERABLE_SLOTS, bitAddr .vein vein F.VEIN_DELIVERABLE_SLOTS_HOT]))

/-- Temperature polls and refreshes outside the plan (R133, R137, R139, R140). A poll of a closed channel at phase 161 or later, the first of its slot, that reads a code of 3 or below shows the code, tells a change and leaves the channel off CHAN_HOT; a code of 4 marks the channel hot and asks for the hot plan; a channel whose debt would reach eight is refreshed in the next stroke and the Vein tells it. -/
def Obligations.RefreshAndPolls : Prop :=
  (∀ (s : State) (chan code : Nat), s.runs = true → chan < 128 → code ≤ 3 → s.closed (chan / 8) (chan % 8) = true → s.veinOk (chan / 8) = true → s.bit
     .chan chan F.CHAN_STATUS_RETIRED = false → s.get .rest 0 F.REST_STATUS_STATE ≠ 4 → 161 ≤ s.tb.phase → (s.chanSt chan).polled ≠ some s.now → Ends
     (.mr4Poll chan code []) s (fun t => t.get .chan chan F.CHAN_STATUS_MR4_CODE = code ∧ (code ≠ s.get .chan chan F.CHAN_STATUS_MR4_CODE → (t.get .chan
     chan F.HDR_INT_STATUS_INT_BLOCK).testBit 1 = true) ∧ (t.chanSt chan).owed = (s.chanSt chan).owed ∧ (t.chanSt chan).polled = some s.now ∧ (t.get .vein
     (chan / 8) F.VEIN_STATUS_CHAN_HOT).testBit (chan % 8) = false ∧ { s with chans := t.chans }.OnlyRegsOut t (intAddrs .chan chan ++ [bitAddr .chan chan
     F.CHAN_STATUS_MR4_CODE, bitAddr .vein (chan / 8) F.VEIN_STATUS_CHAN_HOT]))) ∧
  (∀ (s : State) (chan : Nat), s.runs = true → chan < 128 → s.closed (chan / 8) (chan % 8) = true → s.veinOk (chan / 8) = true → s.bit .chan chan
     F.CHAN_STATUS_RETIRED = false → s.get .rest 0 F.REST_STATUS_STATE ≠ 4 → 161 ≤ s.tb.phase → (s.chanSt chan).polled ≠ some s.now → Ends (.mr4Poll chan 4
     []) s (fun t => t.get .chan chan F.CHAN_STATUS_MR4_CODE = 4 ∧ t.tb.hotSeen = true ∧ t.tb.hotBad = true ∧ (t.get .vein (chan / 8)
     F.VEIN_STATUS_CHAN_HOT).testBit (chan % 8) = true ∧ t.tier = s.tier ∧ t.vq = s.vq)) ∧
  (∀ (s : State) (chan : Nat), s.runs = true → chan < 128 → s.veinOk (chan / 8) = true → s.debtFull chan = true → chan % 8 ∉ (s.veinSt (chan /
     8)).forcedNext → Ends (.forcedRefresh chan) s (fun t => chan % 8 ∈ (t.veinSt (chan / 8)).forcedNext ∧ t.get .vein (chan / 8) F.VEIN_FORCED_REF_COUNT =
     min (2 ^ F.VEIN_FORCED_REF_COUNT.w - 1) (s.get .vein (chan / 8) F.VEIN_FORCED_REF_COUNT + 1) ∧ (t.get .vein (chan / 8)
     F.HDR_INT_STATUS_INT_BLOCK).testBit 4 = true ∧ { s with veins := t.veins }.OnlyRegsOut t (intAddrs .vein (chan / 8) ++ [bitAddr .vein (chan / 8)
     F.VEIN_FORCED_REF_COUNT])))

/-- A slot of a channel and the panic level of an attach point (R143, R145, R146). An open channel with a data slot left whose queue holds one access serves it and gives that slot; a report of an attach point's ingress level sets its panic at every Vein whose mask names it once the level reaches PANIC_ON and ends it at PANIC_OFF or below, and VEIN_STATUS.PANIC tells whether any attach point is in panic. -/
def Obligations.SlotsAndPanic : Prop :=
  (∀ (s : State) (vein ofs : Nat) (hits : List Nat) (a : VAcc), s.runs = true → s.vq = [a] → a.vein = vein → a.ofs = ofs → a.steer = false → a.count = 1
     → s.chanOpen vein ofs = true → s.slotsOf vein ofs < s.dataSlots vein → s.hub.wrHeld = [] → s.hub.accHeld = [] → Ends (.veinSlotGrant vein ofs hits) s
     (fun t => t.vq = [] ∧ t.slotsOf vein ofs = s.slotsOf vein ofs + 1 ∧ { s with vq := t.vq, veins := t.veins } = t)) ∧
  (∀ (s : State) (a lvl : Nat), s.runs = true → s.hasAttach a = true → lvl = min 7 (s.ingress a * 8 / s.ingressSize a) → Ends (.panicLevelReport a) s
     (fun t => (∀ v < 16, (a ∈ (t.veinSt v).panic ↔ (a ∈ (s.veinSt v).panic ∧ s.get .vein v F.VEIN_PANIC_CTL_PANIC_OFF < lvl) ∨ (a ∉ (s.veinSt v).panic ∧
     (s.get .vein v F.VEIN_PANIC_CTL_PANIC_MASK).testBit a = true ∧ s.get .vein v F.VEIN_PANIC_CTL_PANIC_ON ≤ lvl)) ∧ (∀ x, x ≠ a → (x ∈ (t.veinSt v).panic
     ↔ x ∈ (s.veinSt v).panic)) ∧ t.get .vein v F.VEIN_STATUS_PANIC = b2n (!(t.veinSt v).panic.isEmpty)) ∧ t.tier = s.tier ∧ t.vq = s.vq ∧ t.chans =
     s.chans))

/-- What ends on a codec lane (R105, R162, R165, R172, R173). The end of a decode gives a read the requested line of its page and frees the lane; the end of an encode of a page of zeros turns the page to zero with its heat and its pin; the last step of an offload job writes what is left of its output to the host buffer, in one write, and completes the job. With no work waiting the lane is free. -/
def Obligations.CodecLanes : Prop :=
  (∀ (s : State) (slab lane a : Nat) (w : LaneWork) (rd : Rd) (sub : List Byte), s.runs = true → sget none s.codec.lanes (16 * slab + lane) = some w →
     w.offload = false → w.id < 2 ^ 32 → s.codec.waiting = [] → s.home.reads = [rd] → s.home.queue = [] → s.home.senders = [] → s.home.waiting = [] →
     rd.req.id = w.id → rd.req.who = .host a → rd.st = .decode → rd.merge = none → rd.poison = 0 → memHeadOk rd.image (rd.loc.gm1 + 1) = true → decodeSubOf
     rd.image (rd.req.line / 16) = some sub → s.blockResets = [] → s.ring.freeing = [] → Ends (.codecDecodeDone slab lane) s (fun t => (∃ x, t.home.reads =
     [x] ∧ x.req = rd.req ∧ x.st = .ready ∧ x.data = imageLine sub (rd.req.line % 16) ∧ x.poison = 0) ∧ sget none t.codec.lanes (16 * slab + lane) = none ∧
     t.tier = s.tier ∧ t.regs = s.regs ∧ t.out = s.out)) ∧
  (∀ (s : State) (page sl n : Nat) (m : Move) (bytes : List Byte), s.runs = true → (List.range 2).findSome? (fun x => (s.laneOf x (encodeId page)
     false).map (fun y => (x, y))) = some (sl, n) → s.home.queue = [] → s.home.senders = [] → s.home.waiting = [] → s.home.reads = [] → s.codec.waiting =
     [] → s.tier.moves = [m] → m.page = page → m.kind = .demote → m.src = .hot → m.image = [] → s.hub.slots = [] → s.tier.deferredPins = [] → s.freeLane sl
     n = { s with codec := (s.freeLane sl n).codec } → (s.freeLane sl n).readHotPage page = (some bytes, s.freeLane sl n) → bytes.all (fun b => b = 0) =
     true → s.blockResets = [] → s.ring.freeing = [] → Ends (.encodeDone page false) s (fun t => (t.entry page).st = .zero ∧ (t.entry page).heat = (s.entry
     page).heat ∧ (t.entry page).pinned = (s.entry page).pinned ∧ t.moveOf page = none ∧ (∀ p, p ≠ page → t.entry p = s.entry p) ∧ sget none t.codec.lanes
     (16 * sl + n) = none)) ∧
  (∀ (s : State) (slab lane : Nat) (w : LaneWork) (j : OJob), s.runs = true → sget none s.codec.lanes (16 * slab + lane) = some w → w.offload = true →
     s.codec.waiting = [] → s.codec.jobs = [j] → j.id = w.id → j.slab = slab → j.ended = none → j.aborted = false → j.stepsDone + 1 = j.steps → oList
     j.desc = false → oDstHost j.desc = true → oUseCtx j.desc = false → s.hostOpen (s.get .ofld slab F.OFLD_SQ_CTL_ATTACH j.q) = true → j.written <
     j.out.length → j.out.length ≤ oDstLen j.desc → s.home.queue = [] → s.home.senders = [] → s.home.waiting = [] → s.blockResets = [] → s.ring.freeing =
     [] → Ends (.offloadStepDone slab lane) s (fun t => t.codec.jobs = [{ j with stepsDone := j.steps, lane := lane, written := j.out.length, ended := some s.now }]
     ∧ t.out = s.out ++ [.hostWrite (s.get .ofld slab F.OFLD_SQ_CTL_ATTACH j.q) (oDst j.desc + j.written) (j.out.drop j.written)] ∧ sget none t.codec.lanes
     (16 * slab + lane) = none ∧ t.get .ofld slab F.OFLD_JOB_COUNT_COUNT = min (2 ^ F.OFLD_JOB_COUNT_COUNT.w - 1) (s.get .ofld slab F.OFLD_JOB_COUNT_COUNT
     + 1) ∧ t.tier = s.tier))

/-- What the five offload operations start (R161, R168, R173, R175, R178, R183). On an enabled queue whose next descriptor is valid and asks for no stream context: HEAD moves on by one; a no-op completes at once and is counted; the other four take their source from host memory and plan the output, the bytes consumed, the status and the check that the format rules give. -/
def Obligations.OffloadJobs : Prop :=
  (∀ (s : State) (slab q page line : Nat) (x : HeldLine) (d : List Byte) (env : JobEnv), s.runs = true → s.oEnabled slab q = true → s.oWaiting slab q ≠ 0
     → s.bit .ofld slab F.OFLD_Q_STATUS_FULL_STALL q = false → s.query.throttled = false → s.boot.stopped = [] → s.codec.jobs = [] → s.oEntry slab q (s.get
     .ofld slab F.OFLD_SQ_HEAD_HEAD q) = (page, line) → s.refusedBy (s.jobReq (.codec slab) (s.oKey slab q) page line .snoopRead) = none → (s.dirOf page
     line).unused = true → s.heldLine page line = some x → x.poison = 0 → x.mask = fullMask → d = lineBytes x.data → oUseCtx d = false → oFlag d 6 = false
     → oList d = false → oBad d [(oDstHost d, oDst d, oDstLen d)] = none → s.home.queue = [] → s.home.senders = [] → s.home.waiting = [] → oOp d = 0 →
     s.blockResets = [] → s.ring.freeing = [] → Ends (.ofldNoop slab q env) s (fun t => t.get .ofld slab F.OFLD_SQ_HEAD_HEAD q = (s.get .ofld slab
     F.OFLD_SQ_HEAD_HEAD q + 1) % s.oSize slab q ∧ t.codec.jobs = [{ id := s.codec.nextId, slab := slab, q := q, desc := d, ended := some s.now }] ∧ t.get
     .ofld slab F.OFLD_JOB_COUNT_COUNT = min (2 ^ F.OFLD_JOB_COUNT_COUNT.w - 1) (s.get .ofld slab F.OFLD_JOB_COUNT_COUNT + 1) ∧ t.tier = s.tier ∧ t.out =
     s.out)) ∧
  (∀ (s : State) (slab q page line : Nat) (x : HeldLine) (d : List Byte) (env : JobEnv) (l : List Byte) (p : Plan), s.runs = true → s.oEnabled slab q =
     true → s.oWaiting slab q ≠ 0 → s.bit .ofld slab F.OFLD_Q_STATUS_FULL_STALL q = false → s.query.throttled = false → s.boot.stopped = [] → s.codec.jobs
     = [] → s.oEntry slab q (s.get .ofld slab F.OFLD_SQ_HEAD_HEAD q) = (page, line) → s.refusedBy (s.jobReq (.codec slab) (s.oKey slab q) page line
     .snoopRead) = none → (s.dirOf page line).unused = true → s.heldLine page line = some x → x.poison = 0 → x.mask = fullMask → d = lineBytes x.data →
     oUseCtx d = false → oFlag d 6 = false → oList d = false → oBad d [(oDstHost d, oDst d, oDstLen d)] = none → s.home.queue = [] → s.home.senders = [] →
     s.home.waiting = [] → oOp d = 1 → oSrcHost d = true → s.hostBytes env (s.get .ofld slab F.OFLD_SQ_CTL_ATTACH q) (oSrc d) (oSrcLen d) = some l → p =
     planDeflate (oEffort d) (oLast d) false { valid := true, wrap := oWrap d, op := 1, check := checkInit (oWrap d) } l (oDstLen d) → s.blockResets = [] →
     s.ring.freeing = [] → Ends (.ofldDeflate slab q env) s (fun t => t.get .ofld slab F.OFLD_SQ_HEAD_HEAD q = (s.get .ofld slab F.OFLD_SQ_HEAD_HEAD q + 1)
     % s.oSize slab q ∧ ∃ j, t.codec.jobs = [j] ∧ j.id = s.codec.nextId ∧ j.slab = slab ∧ j.q = q ∧ j.desc = d ∧ j.out = p.out ∧ j.inTotal = p.used ∧
     j.status = p.status ∧ j.final = p.final ∧ j.check = p.ctx.check)) ∧
  (∀ (s : State) (slab q page line : Nat) (x : HeldLine) (d : List Byte) (env : JobEnv) (l : List Byte) (p : Plan), s.runs = true → s.oEnabled slab q =
     true → s.oWaiting slab q ≠ 0 → s.bit .ofld slab F.OFLD_Q_STATUS_FULL_STALL q = false → s.query.throttled = false → s.boot.stopped = [] → s.codec.jobs
     = [] → s.oEntry slab q (s.get .ofld slab F.OFLD_SQ_HEAD_HEAD q) = (page, line) → s.refusedBy (s.jobReq (.codec slab) (s.oKey slab q) page line
     .snoopRead) = none → (s.dirOf page line).unused = true → s.heldLine page line = some x → x.poison = 0 → x.mask = fullMask → d = lineBytes x.data →
     oUseCtx d = false → oFlag d 6 = false → oList d = false → oBad d [(oDstHost d, oDst d, oDstLen d)] = none → s.home.queue = [] → s.home.senders = [] →
     s.home.waiting = [] → oOp d = 2 → oSrcHost d = true → s.hostBytes env (s.get .ofld slab F.OFLD_SQ_CTL_ATTACH q) (oSrc d) (oSrcLen d) = some l → p =
     planInflate (oLast d) false { valid := true, wrap := oWrap d, op := 2, check := checkInit (oWrap d) } l (oDstLen d) → s.blockResets = [] →
     s.ring.freeing = [] → Ends (.ofldInflate slab q env) s (fun t => t.get .ofld slab F.OFLD_SQ_HEAD_HEAD q = (s.get .ofld slab F.OFLD_SQ_HEAD_HEAD q + 1)
     % s.oSize slab q ∧ ∃ j, t.codec.jobs = [j] ∧ j.id = s.codec.nextId ∧ j.slab = slab ∧ j.q = q ∧ j.desc = d ∧ j.out = p.out ∧ j.inTotal = p.used ∧
     j.status = p.status ∧ j.final = p.final ∧ j.check = p.ctx.check)) ∧
  (∀ (s : State) (slab q page line : Nat) (x : HeldLine) (d : List Byte) (env : JobEnv) (l : List Byte), s.runs = true → s.oEnabled slab q = true →
     s.oWaiting slab q ≠ 0 → s.bit .ofld slab F.OFLD_Q_STATUS_FULL_STALL q = false → s.query.throttled = false → s.boot.stopped = [] → s.codec.jobs = [] →
     s.oEntry slab q (s.get .ofld slab F.OFLD_SQ_HEAD_HEAD q) = (page, line) → s.refusedBy (s.jobReq (.codec slab) (s.oKey slab q) page line .snoopRead) =
     none → (s.dirOf page line).unused = true → s.heldLine page line = some x → x.poison = 0 → x.mask = fullMask → d = lineBytes x.data → oUseCtx d = false
     → oFlag d 6 = false → oList d = false → oBad d [(oDstHost d, oDst d, oDstLen d)] = none → s.home.queue = [] → s.home.senders = [] → s.home.waiting =
     [] → oOp d = 3 → oSrcHost d = true → s.hostBytes env (s.get .ofld slab F.OFLD_SQ_CTL_ATTACH q) (oSrc d) (oSrcLen d) = some l → env.selfFail = false →
     s.bit .dprt slab F.DPRT_FLIP_CTL_ARM = false → s.blockResets = [] → s.ring.freeing = [] → Ends (.ofldStrataEncode slab q env) s (fun t => t.get .ofld
     slab F.OFLD_SQ_HEAD_HEAD q = (s.get .ofld slab F.OFLD_SQ_HEAD_HEAD q + 1) % s.oSize slab q ∧ ∃ j, t.codec.jobs = [j] ∧ j.id = s.codec.nextId ∧ j.slab
     = slab ∧ j.q = q ∧ j.desc = d ∧ (j.out, j.status) = offEncode (oEffort d) false l ∧ j.inTotal = 4096 ∧ j.final = true ∧ j.check = crc32c l)) ∧
  (∀ (s : State) (slab q page line : Nat) (x : HeldLine) (d : List Byte) (env : JobEnv) (l pg0 : List Byte), s.runs = true → s.oEnabled slab q = true →
     s.oWaiting slab q ≠ 0 → s.bit .ofld slab F.OFLD_Q_STATUS_FULL_STALL q = false → s.query.throttled = false → s.boot.stopped = [] → s.codec.jobs = [] →
     s.oEntry slab q (s.get .ofld slab F.OFLD_SQ_HEAD_HEAD q) = (page, line) → s.refusedBy (s.jobReq (.codec slab) (s.oKey slab q) page line .snoopRead) =
     none → (s.dirOf page line).unused = true → s.heldLine page line = some x → x.poison = 0 → x.mask = fullMask → d = lineBytes x.data → oUseCtx d = false
     → oFlag d 6 = false → oList d = false → oBad d [(oDstHost d, oDst d, oDstLen d)] = none → s.home.queue = [] → s.home.senders = [] → s.home.waiting =
     [] → oOp d = 4 → oSrcHost d = true → s.hostBytes env (s.get .ofld slab F.OFLD_SQ_CTL_ATTACH q) (oSrc d) (oSrcLen d) = some l → decodeExternal l
     (oSrcLen d) = .ok pg0 → s.blockResets = [] → s.ring.freeing = [] → Ends (.ofldStrataDecode slab q env) s (fun t => t.get .ofld slab
     F.OFLD_SQ_HEAD_HEAD q = (s.get .ofld slab F.OFLD_SQ_HEAD_HEAD q + 1) % s.oSize slab q ∧ ∃ j, t.codec.jobs = [j] ∧ j.id = s.codec.nextId ∧ j.slab =
     slab ∧ j.q = q ∧ j.desc = d ∧ j.out = pg0 ∧ j.final = true ∧ j.status = 0 ∧ j.inTotal = fieldB l 2 2 % 8192 ∧ j.check = crc32c pg0))

/-- Doorbells, completions, consumed records and aborts of an offload queue (R174, R184, R185, R186). A valid tail submits the entries up to it, stamped with the stroke; a job that finished in an earlier stroke leaves with its record written at CQ_TAIL; a write of CQ_HEAD takes the value and ends the stall of a queue that has room; a write of QUEUE_EN with no work outstanding leaves enabled the queues it enables and does not abort, where they were enabled or the page lets them be. -/
def Obligations.OffloadQueues : Prop :=
  (∀ (s : State) (agent slab q tail : Nat), s.runs = true → s.mayWrite agent .ofld slab F.OFLD_SQ_TAIL_TAIL q → s.oEnabled slab q = true → tail < s.oSize
     slab q → tail < 4096 → s.oWaiting slab q + (tail + s.oSize slab q - s.get .ofld slab F.OFLD_SQ_TAIL_TAIL q % s.oSize slab q) % s.oSize slab q ≤
     s.oSize slab q - 1 → s.blockClosed .ofld slab = false → Ends (.ofldDoorbell agent slab q tail) s (fun t => t.get .ofld slab F.OFLD_SQ_TAIL_TAIL q =
     tail ∧ t.codec.doorbells.length = s.codec.doorbells.length + (tail + s.oSize slab q - s.get .ofld slab F.OFLD_SQ_TAIL_TAIL q % s.oSize slab q) %
     s.oSize slab q ∧ s.codec.doorbells <+: t.codec.doorbells ∧ { s with codec := { s.codec with doorbells := t.codec.doorbells } }.OnlyRegs t [bitAddr
     .ofld slab F.OFLD_SQ_TAIL_TAIL q])) ∧
  (∀ (s : State) (slab q cqp cql : Nat) (j : OJob) (t0 : Stroke), s.runs = true → s.codec.jobs = [j] → j.slab = slab → j.q = q → j.ended = some t0 → t0 ≠
     s.now → s.codec.held = [] → s.ocqFull slab q = false → s.home.queue = [] → s.home.senders = [] → s.home.waiting = [] → s.refusedBy { s.jobReq (.codec slab) (s.oKey slab q) cqp cql .write with mask := fullMask }
     = none → s.get .ofld slab F.OFLD_CQ_BASE_PAGE q = cqp → cql = s.get .ofld slab F.OFLD_CQ_TAIL_TAIL q / 2 → cql < 64 → (s.entry cqp).st = .zero →
     (s.slotOf cqp).isSome = true → s.noRoom = false → s.tier.lostLines = [] → s.ring.freeing = [] → Ends (.ofldCompletion slab q) s (fun t => t.codec.jobs
     = [] ∧ t.codec.held = [] ∧ t.get .ofld slab F.OFLD_CQ_TAIL_TAIL q = (s.get .ofld slab F.OFLD_CQ_TAIL_TAIL q + 1) % s.oSize slab q ∧ (t.heldLine cqp
     cql).isSome = true)) ∧
  (∀ (s : State) (agent slab q head : Nat), s.runs = true → s.mayWrite agent .ofld slab F.OFLD_CQ_HEAD_HEAD q → head < 4096 → s.codec.held = [] →
     s.home.queue = [] → s.home.senders = [] → s.home.waiting = [] → s.ring.freeing = [] → Ends (.ofldCqHead agent slab q head) s (fun t => t.get .ofld
     slab F.OFLD_CQ_HEAD_HEAD q = head ∧ t.get .ofld slab F.OFLD_Q_STATUS_FULL_STALL q = b2n (t.ocqFull slab q) ∧ s.OnlyRegs t [bitAddr .ofld slab
     F.OFLD_CQ_HEAD_HEAD q, bitAddr .ofld slab F.OFLD_Q_STATUS_FULL_STALL q])) ∧
  (∀ (s : State) (agent slab value : Nat), s.runs = true → s.mayWrite agent .ofld slab F.OFLD_QUEUE_EN_ENABLE → s.codec.jobs = [] → ∀ q < 8, s.oWaiting
     slab q = 0 → s.home.queue = [] → s.home.senders = [] → s.home.waiting = [] → s.blockResets = [] → s.ring.freeing = [] → Ends (.ofldAbort agent slab
     value) s (fun t => (∀ q < 8, t.oEnabled slab q = (value.testBit q && !value.testBit (8 + q) && (s.oEnabled slab q || (!s.bit .ofld slab
     F.HDR_STATUS_OPEN && !((2 * slab) ∈ s.codec.barred))))) ∧ t.codec.jobs = [] ∧ t.tier = s.tier ∧ t.out = s.out))

/-- Scrubbing, the flip mask and retirement of a channel (R202, R203, R209, R215, R216, R230, R231). A scrub of a clean line that no page holds moves its Vein's pass on by one line and changes no register; arming a valid flip setting stores it and sets ARM; retiring the first channel of a paired Diptych's Vein marks it, records its offset and puts the Diptych into RETIRING; once nothing is left to move the Diptych is PAIRED again and tells it. -/
def Obligations.ScrubAndRetirement : Prop :=
  (∀ (s : State) (vein n : Nat), s.runs = true → s.bit .dprt (slabOfVein vein) F.DPRT_SCRUB_CTL_SCRUB_EN = true → sget 0 s.media.scrubUsed vein <
     s.scrubRate vein → s.veinOk vein = true → s.working = true → n = sget 0 s.media.scrubPos vein → n / 64 < s.hotH → s.hotH ≤ dataChunks → n + 1 <
     passLines → s.retOfs vein = none → s.pageInFrame (vein % 8) (n / 64) = none → (s.stored (mediaKey vein (n % 8) (n / 64) (n / 8 % 8))).err = 0 →
     (s.stored (mediaKey vein (n % 8) (n / 64) (n / 8 % 8))).marker = false → Ends (.scrubLine vein []) s (fun t => sget 0 t.media.scrubPos vein = n + 1 ∧
     sget 0 t.media.scrubUsed vein = sget 0 s.media.scrubUsed vein + 1 ∧ t.media.lines = s.media.lines ∧ { s with media := t.media, veins := t.veins, energy := t.energy, vq := t.vq, hub := { s.hub with accHeld := t.hub.accHeld } }
     = t)) ∧
  (∀ (s : State) (agent slab value : Nat), s.runs = true → s.mayWrite agent .dprt slab F.DPRT_FLIP_CTL_ARM → s.bit .dprt slab F.DPRT_FLIP_CTL_ARM = false
     → value.testBit 0 = true → bits value 2 2 = 0 ∨ bits value 2 2 = 1 ∨ bits value 2 2 = 2 → bits value 2 2 = 0 → bits value 4 4 ≤ 8 ∧ bits value 8 2 ≠ 0
     → bits value 2 2 = 1 → bits value 4 4 ≤ 7 → Ends (.flipArm agent slab value) s (fun t => t.get .dprt slab F.DPRT_FLIP_CTL_ARM = 1 ∧ t.get .dprt slab
     F.DPRT_FLIP_CTL_STAGE = bits value 2 2 ∧ t.get .dprt slab F.DPRT_FLIP_CTL_SEL = bits value 4 4 ∧ t.get .dprt slab F.DPRT_FLIP_CTL_COPY = bits value 8
     2 ∧ t.get .dprt slab F.DPRT_FLIP_CTL_LINE = bits value 16 6 ∧ (value.testBit 1 = true → t.get .dprt slab F.DPRT_FLIP_CTL_FIRED = 0) ∧ s.OnlyRegs t
     ([F.DPRT_FLIP_CTL_ARM, F.DPRT_FLIP_CTL_FIRED, F.DPRT_FLIP_CTL_STAGE, F.DPRT_FLIP_CTL_SEL, F.DPRT_FLIP_CTL_COPY, F.DPRT_FLIP_CTL_OFLD, F.DPRT_FLIP_CTL_LINE].map
     (fun f => bitAddr .dprt slab f)))) ∧
  (∀ (s : State) (agent k ofs side : Nat), s.runs = true → s.mayWrite agent .dipt k F.DIPT_RETIRE_GO → k < 8 → ofs < 8 → side < 2 → (s.dipt k).st =
     .paired → s.retOfs (k + 8 * side) = none → ∀ j < 8, j ≠ k → (s.dipt j).st ≠ .resync ∧ (s.dipt j).st ≠ .retiring → Ends (.diptRetire agent k ofs side)
     s (fun t => t.get .chan (chanOf (k + 8 * side) ofs) F.CHAN_STATUS_RETIRED = 1 ∧ (t.get .vein (k + 8 * side) F.VEIN_STATUS_CHAN_RETIRED).testBit ofs =
     true ∧ t.retOfs (k + 8 * side) = some ofs ∧ (t.dipt k).st = .retiring ∧ t.get .dipt k F.DIPT_STATUS_SIDE = side ∧ (∀ j < 8, j ≠ k → t.dipt j = s.dipt
     j) ∧ t.tier.pmap = s.tier.pmap)) ∧
  (∀ (s : State) (k : Nat), s.runs = true → (s.dipt k).reloc = true → s.relocLeft k = 0 → Ends (.relocDone k) s (fun t => (t.dipt k).reloc = false ∧
     (t.dipt k).st = (if (s.dipt k).st = .retiring then .paired else (s.dipt k).st) ∧ (t.get .dipt k F.HDR_INT_STATUS_INT_BLOCK).testBit 2 = true ∧ { s with dipts := t.dipts }.OnlyRegsOut
     t (intAddrs .dipt k ++ [bitAddr .dipt k F.DIPT_STATUS_STATE])))

/-- The check line and the MAC line of a chunk (R191, R205, R244, R245). Word j of a chunk's check line is the check word of line j as written, with what has come over it; bytes 7j to 7j + 6 of its MAC line are the MAC of line j, the bytes above are zero, and the MAC line of a parity granule is the exclusive-or of the MAC lines of its row's data positions. -/
def Obligations.ReservationBytes : Prop :=
  (∀ (s : State) (v ofs chunk j : Nat), j < 8 → (s.checkLine v ofs chunk).extractLsb' (64 * j) 64 = s.checkWordOf (mediaKey v ofs chunk j) ^^^ (s.stored
     (mediaKey v ofs chunk j)).err.extractLsb' 512 64) ∧
  (∀ (s : State) (v ofs chunk j : Nat), j < 8 → ¬ (s.hotH ≤ chunk ∧ (chunk - s.hotH) % 8 = ofs) → (s.macLine v ofs chunk).extractLsb' (56 * j) 56 =
     (s.stored (mediaKey v ofs chunk j)).mac ∧ s.macLine v ofs chunk >>> 448 = 0) ∧
  (∀ (s : State) (v r j : Nat), j < 8 → (s.macLine v (r % 8) (s.hotH + r)).extractLsb' (56 * j) 56 = (s.rowData v r).foldl (fun a p => a ^^^ (s.stored
     (s.deepKey v (7 * r + p) j)).mac) 0)

/-- Loss of a Slab, its return and what is done meanwhile (R219, R220, R222, R225, R226, R590). When a Slab is declared absent the survivor shows the loss, acts for its home and records the cause; a read held for an absent Vein to the end of its 64 strokes returns poison with code 0x02; a returned Slab is marked returning with the Seam up; the copier copies a stale frame whole and clears its bit; the fill of a trained module shows FILL_DONE. -/
def Obligations.SlabAbsence : Prop :=
  (∀ (s : State) (slab : Nat), s.runs = true → slab < 2 → s.boot.clkLost = [slab] → s.boot.hbMiss.1 < 2 → s.boot.hbMiss.2 < 2 → s.boot.absent = [] → Ends
     (.slabAbsent slab 1) s (fun t => t.boot.absent = [slab] ∧ t.boot.seamUp = false ∧ t.get .slab (1 - slab) F.SLAB_STATUS_PEER_PRESENT = 0 ∧ t.get .home
     (1 - slab) F.HOME_STATUS_ACTING = 1 ∧ t.get .rstc 0 F.RSTC_SLAB_SLAB = slab ∧ t.get .rstc 0 F.RSTC_SLAB_CAUSE = 1 ∧ t.get .dprt (1 - slab)
     F.DPRT_PEER_PEER_ABSENT = 1)) ∧
  (∀ (s : State) (page a : Nat) (rd : Rd), s.runs = true → s.home.reads = [rd] → s.home.queue = [] → s.home.senders = [] → s.home.waiting = [] →
     s.tier.moves = [] → rd.st = .held → rd.req.page = page → rd.req.who = .host a → 64 ≤ strokesSince rd.req.stamp s.now → strokeLe rd.req.stamp s.now =
     true → s.ring.freeing = [] → Ends (.absentVeinHoldTimeout page) s (fun t => (∃ x, t.home.reads = [x] ∧ x.req = rd.req ∧ x.st = .ready ∧ x.data = 0 ∧
     x.poison = 2) ∧ t.tier = s.tier ∧ t.media = s.media ∧ t.regs = s.regs ∧ t.out = s.out)) ∧
  (∀ (s : State) (d : Nat), s.runs = true → d < 2 → s.boot.absent = [d] → s.boot.returning = none → s.boot.slabReset = [] → s.boot.warmLeft = [] → d ∉
     s.boot.clkLost → s.boot.inReset = none → Ends .peerReturn s (fun t => t.boot.returning = some d ∧ t.boot.seamUp = true ∧ t.present d = true ∧ t.get
     .slab d F.SLAB_STATUS_PEER_PRESENT = 1 ∧ t.get .slab (1 - d) F.SLAB_STATUS_PEER_PRESENT = 1 ∧ t.get .dprt (1 - d) F.DPRT_PEER_PEER_ABSENT = 0 ∧ t.tier
     = s.tier)) ∧
  (∀ (s : State) (k f side : Nat), s.runs = true → k < 8 → (s.dipt k).st = .resync → s.working = true → (s.dipt k).stale = [f] → (s.dipt k).behind = [] →
     side = s.get .dipt k F.DIPT_STATUS_SIDE → side < 2 → s.veinOk k = true → s.veinOk (k + 8) = true → s.retOfs k = none → s.retOfs (k + 8) = none → ∀ i <
     64, (s.stored (s.hotKey (k + 8 * side) f i)).err = 0 → Ends (.resyncFrameCopy k) s (fun t => (t.dipt k).stale = [] ∧ (∀ i < 64, t.stored (t.hotKey (k
     + 8 * (1 - side)) f i) = s.stored (s.hotKey (k + 8 * side) f i)) ∧ (t.get .dipt k F.HDR_INT_STATUS_INT_BLOCK).testBit 1 = true ∧ t.tier = s.tier)) ∧
  (∀ (s : State), s.runs = true → s.boot.filled = false → s.boot.trained = true → s.boot.warmLeft = [] → Ends .fillDone s (fun t => t.boot.filled = true
     ∧ t.get .mod 0 F.MOD_READY_FILL_DONE = 1 ∧ t.home = s.home ∧ t.ring = s.ring))

/-- A counter line leaves its cache, and a lost subtree is rebuilt (R253, R254, R256, R265). A dirty line evicted below the root raises its parent's counter for it by one and makes the parent dirty; the rebuild of a lost ledger line leaves its eight handles in use with sequence 0, and the loss is no longer recorded. -/
def Obligations.TreeMaintenance : Prop :=
  (∀ (s : State) (dipt level index : Nat) (was : Bool), s.runs = true → level < 6 → s.crypto.cache = [{ dipt := dipt, level := level, index := index, dirty := true }, { dipt := dipt, level := level + 1, index := index / 8, dirty := was }]
     → sget 0 s.crypto.nodes (nodeKey dipt (level + 1) (index / 8) (index % 8)) < 0xFFFFFFFFFFFFFF → Ends (.treeLineEvict dipt level index) s (fun t =>
     sget 0 t.crypto.nodes (nodeKey dipt (level + 1) (index / 8) (index % 8)) = sget 0 s.crypto.nodes (nodeKey dipt (level + 1) (index / 8) (index % 8)) +
     1 ∧ t.crypto.cache = [{ dipt := dipt, level := level + 1, index := index / 8, dirty := true }] ∧ t.crypto.roots = s.crypto.roots ∧ t.tier = s.tier ∧
     t.out = s.out)) ∧
  (∀ (s : State) (index : Nat), s.runs = true → s.crypto.losses = [{ dipt := 8, level := 0, index := index, ledger := true }] → sget 0 s.crypto.nodes
     (nodeKey 8 1 (index / 8) (index % 8)) < 0xFFFFFFFFFFFFFF → Ends (.subtreeRebuildDone 8 0 index) s (fun t => t.crypto.losses = [] ∧ (∀ i < 8, sget 0
     t.crypto.ledgerSeq (8 * index + i) = 0 ∧ sget false t.crypto.ledgerUse (8 * index + i) = true) ∧ t.tier = s.tier ∧ t.out = s.out))

/-- The commands of the key store (R234, R235, R236, R272). On a free context, generate, load and unwrap make it valid with the staged attributes and keys drawn, taken from KEYS_MATERIAL or unwrapped (ERR 3, with the context left, when the blob does not unwrap); an erase and a change of attributes of a valid context wait for the next stroke edge with BUSY 1; a read of attributes shows them; the end of an erase's drain removes the context. Every other command that ends shows ERR 0; each that ends shows DONE 1, BUSY 0 and clears KEYS_MATERIAL; no other context changes. -/
def Obligations.KeyStore : Prop :=
  (∀ (s : State) (agent slab c : Nat), s.runs = true → s.mayWrite agent .keys slab F.KEYS_CMD_OP → c = s.keysSel slab → c ≠ 0 → s.bit .keys slab
     F.KEYS_STATUS_BUSY = false → s.ctxBusy c = false → Ends (.keysGenerate agent slab) s (fun t => t.ctx c = { valid := true, release := s.bit .keys slab F.KEYS_ATTR_RELEASE, prot := s.bit .keys slab F.KEYS_ATTR_PROTECTED, mask := s.get .keys slab F.KEYS_ATTR_ATTACH_MASK, keys := (s.draw 768).1 }
     ∧ (∀ x, x ≠ c → t.ctx x = s.ctx x) ∧ t.get .keys slab F.KEYS_STATUS_ERR = 0 ∧ t.get .keys slab F.KEYS_STATUS_DONE = 1 ∧ t.get .keys slab
     F.KEYS_STATUS_BUSY = 0 ∧ (∀ w < 28, t.get .keys slab F.KEYS_MATERIAL_DATA w = 0) ∧ t.draws = s.draws + 1)) ∧
  (∀ (s : State) (agent slab c : Nat), s.runs = true → s.mayWrite agent .keys slab F.KEYS_CMD_OP → c = s.keysSel slab → c ≠ 0 → s.bit .keys slab
     F.KEYS_STATUS_BUSY = false → s.ctxBusy c = false → Ends (.keysLoad agent slab) s (fun t => t.ctx c = { valid := true, release := s.bit .keys slab F.KEYS_ATTR_RELEASE, prot := s.bit .keys slab F.KEYS_ATTR_PROTECTED, mask := s.get .keys slab F.KEYS_ATTR_ATTACH_MASK, keys := BitVec.ofNat 768 (leNat (s.keysMaterial slab 24)) }
     ∧ (∀ x, x ≠ c → t.ctx x = s.ctx x) ∧ t.get .keys slab F.KEYS_STATUS_ERR = 0 ∧ t.get .keys slab F.KEYS_STATUS_DONE = 1 ∧ t.get .keys slab
     F.KEYS_STATUS_BUSY = 0 ∧ (∀ w < 28, t.get .keys slab F.KEYS_MATERIAL_DATA w = 0))) ∧
  (∀ (s : State) (agent slab kek c : Nat), s.runs = true → s.mayWrite agent .keys slab F.KEYS_CMD_OP → c = s.keysSel slab → c ≠ 0 → s.bit .keys slab
     F.KEYS_STATUS_BUSY = false → s.ctxBusy c = false → Ends (.keysUnwrap agent slab kek) s (fun t => (∀ x, x ≠ c → t.ctx x = s.ctx x) ∧ t.get .keys slab
     F.KEYS_STATUS_DONE = 1 ∧ t.get .keys slab F.KEYS_STATUS_BUSY = 0 ∧ (∀ w < 28, t.get .keys slab F.KEYS_MATERIAL_DATA w = 0) ∧ (match (sget none s.secure.keks kek).bind (fun k => unwrapKeys k (s.keysMaterial slab 26)) with | some m => t.get .keys slab F.KEYS_STATUS_ERR = 0 ∧ t.ctx c = { valid := true, release := s.bit .keys slab F.KEYS_ATTR_RELEASE, prot := s.bit .keys slab F.KEYS_ATTR_PROTECTED, mask := s.get .keys slab F.KEYS_ATTR_ATTACH_MASK, keys := m } | none => t.get .keys slab F.KEYS_STATUS_ERR = 3 ∧ t.ctx c = s.ctx c))) ∧
  (∀ (s : State) (agent slab c : Nat), s.runs = true → s.mayWrite agent .keys slab F.KEYS_CMD_OP → c = s.keysSel slab → c ≠ 0 → s.bit .keys slab
     F.KEYS_STATUS_BUSY = false → (s.ctx c).valid = true → Ends (.keysErase agent slab) s (fun t => t.crypto.eraseEdge = s.crypto.eraseEdge ++ [(c, slab)]
     ∧ t.get .keys slab F.KEYS_STATUS_BUSY = 1 ∧ t.crypto.ctxs = s.crypto.ctxs ∧ { s with crypto := t.crypto }.OnlyRegs t [bitAddr .keys slab
     F.KEYS_STATUS_BUSY])) ∧
  (∀ (s : State) (agent slab c : Nat), s.runs = true → s.mayWrite agent .keys slab F.KEYS_CMD_OP → c = s.keysSel slab → c ≠ 0 → s.bit .keys slab
     F.KEYS_STATUS_BUSY = false → (s.ctx c).valid = true → Ends (.keysWriteAttr agent slab) s (fun t => t.crypto.attrNext = s.crypto.attrNext ++ [(c, s.bit
     .keys slab F.KEYS_ATTR_RELEASE, s.bit .keys slab F.KEYS_ATTR_PROTECTED, s.get .keys slab F.KEYS_ATTR_ATTACH_MASK)] ∧ t.get .keys slab
     F.KEYS_STATUS_BUSY = 1 ∧ t.crypto.ctxs = s.crypto.ctxs ∧ { s with crypto := t.crypto }.OnlyRegs t [bitAddr .keys slab F.KEYS_STATUS_BUSY])) ∧
  (∀ (s : State) (agent slab c : Nat), s.runs = true → s.mayWrite agent .keys slab F.KEYS_CMD_OP → c = s.keysSel slab → c ≠ 0 → s.bit .keys slab
     F.KEYS_STATUS_BUSY = false → Ends (.keysReadAttr agent slab) s (fun t => t.get .keys slab F.KEYS_ATTR_VALID = b2n (s.ctx c).valid ∧ t.get .keys slab
     F.KEYS_ATTR_RELEASE = b2n (s.ctx c).release ∧ t.get .keys slab F.KEYS_ATTR_PROTECTED = b2n (s.ctx c).prot ∧ t.get .keys slab F.KEYS_ATTR_ATTACH_MASK =
     (s.ctx c).mask % 2 ^ F.KEYS_ATTR_ATTACH_MASK.w ∧ t.crypto = s.crypto ∧ t.get .keys slab F.KEYS_STATUS_ERR = 0 ∧ t.get .keys slab F.KEYS_STATUS_DONE =
     1 ∧ t.get .keys slab F.KEYS_STATUS_BUSY = 0 ∧ (∀ w < 28, t.get .keys slab F.KEYS_MATERIAL_DATA w = 0))) ∧
  (∀ (s : State) (slab c : Nat), s.runs = true → s.crypto.erasing = [(c, slab)] → s.ctxInUse c = false → swf {} s.crypto.ctxs = true → Ends
     (.keysEraseDone slab) s (fun t => t.crypto.erasing = [] ∧ t.ctx c = {} ∧ (∀ x, x ≠ c → t.ctx x = s.ctx x) ∧ t.get .keys slab F.KEYS_STATUS_ERR = 0 ∧
     t.get .keys slab F.KEYS_STATUS_DONE = 1 ∧ t.get .keys slab F.KEYS_STATUS_BUSY = 0 ∧ (∀ w < 28, t.get .keys slab F.KEYS_MATERIAL_DATA w = 0)))

/-- A host read and a host write of a page that holds zeros (R27, R29, R88, R95, R632). On a ready port, at an address that a decoder and a valid alias with a permitted context map to a zero page nobody caches: the read is ready with data zero under its stamp, and the page stays zero; the write completes with result 0 and gives the page a hot frame with the write's context. -/
def Obligations.HostAccesses : Prop :=
  (∀ (s : State) (a hpa at10 c : Nat) (h : HostAddr), s.runs = true → s.linkUp a = true → s.link a F.PORT_LINK_MEM_EN = 1 → (at10 + 24) / 25 < s.tb.len →
     (s.portRefuses a).2 = false → s.hostDecode a hpa = some h → s.aliasCtx a h.entry = some c → c ≠ 0 → (s.ctx c).valid = true → (s.ctx c).mask.testBit a
     = true → (s.ctx c).prot = false → (s.entry h.page).st = .zero → s.quiet → s.regu.held = [] → s.hub.slots = [] → s.tier.lostLines = [] →
     s.tier.badImages = [] → s.bit .regu 0 F.REGU_CTL_HOLD_EN = false → (s.dirOf h.page h.line).unused = true → s.blockClosed .port (portOf a) = false →
     Ends (.hostRead a hpa 0 at10) s (fun t => ∃ rd, t.home.reads = [rd] ∧ rd.req.who = .host a ∧ rd.req.page = h.page ∧ rd.req.line = h.line ∧ rd.req.ctx
     = c ∧ rd.req.stamp = s.now ∧ rd.st = .ready ∧ rd.data = 0 ∧ rd.poison = 0 ∧ t.home.queue = [] ∧ (t.entry h.page).st = .zero)) ∧
  (∀ (s : State) (a hpa at10 c k f : Nat) (h : HostAddr) (data : Line) (err : LineErr), s.runs = true → s.linkUp a = true → s.link a F.PORT_LINK_MEM_EN =
     1 → (at10 + 24) / 25 < s.tb.len → (s.portRefuses a).2 = false → s.hostDecode a hpa = some h → s.aliasCtx a h.entry = some c → c ≠ 0 → (s.ctx c).valid
     = true → (s.ctx c).mask.testBit a = true → (s.ctx c).prot = false → (s.entry h.page).st = .zero → s.quiet → s.regu.held = [] → s.hub.slots = [] →
     s.tier.lostLines = [] → s.tier.badImages = [] → s.bit .regu 0 F.REGU_CTL_HOLD_EN = false → (s.dirOf h.page h.line).unused = true → s.findFrame h.page
     = some (k, f) → s.vq = [] → s.hub.wrHeld = [] → s.hub.accHeld = [] → s.tier.sweeping = [] → s.blockClosed .port (portOf a) = false → Ends (.hostWrite
     a hpa 0 at10 data fullMask false err) s (fun t => (t.entry h.page).vein = k ∧ (t.entry h.page).loc = f ∧ (t.entry h.page).ctx = c ∧ (t.entry
     h.page).st ∈ [PState.hot, .moving] ∧ (∃ id load, Msg.done (.host a) id 0 load ∈ t.out) ∧ t.home.reads = [] ∧ t.home.queue = []))

/-- Data come back from a Vein and leave to the host (R51, R193, R259, R288, R316, R631). A hot read whose one line comes back clean and authentic is ready with that line; a ready read leaves with its data, or with zeros and its poison code; a verdict that fails after an early release puts the port of the read into viral with cause 1; a host's invalid answer to a snoop takes the host out of the line's entry and out of what the recall awaits. -/
def Obligations.ReadReturnAndEgress : Prop :=
  (∀ (s s1 : State) (id a : Nat) (rd : Rd) (n : Need) (l : Line), s.runs = true → s.home.reads = [rd] → s.home.queue = [] → s.home.senders = [] →
     s.home.waiting = [] → s.ring.freeing = [] → s.vq = [] → s.hub.accHeld = [] → rd.req.id = id → rd.req.who = .host a → rd.st = .media → rd.loc.st = .hot
     → rd.needs = [n] → rd.fill = false → rd.merge = none → rd.poison = 0 → s.tier.lostLines = [] → s.underLoss rd.loc.vein rd.loc.loc = false → s.takeLine
     rd n [] (s.partner (rd.vein.getD 0) rd.loc.loc n.idx) = (.good l n.snap, s1) → { s with media := s1.media, veins := s1.veins, crypto := s1.crypto, regs := s1.regs }
     = s1 → s.blockResets = [] → Ends (.mediaReadReturn id [] []) s (fun t => ∃ x, t.home.reads = [x] ∧ x.req = rd.req ∧ x.st = .ready ∧ x.data = l ∧
     x.poison = 0 ∧ t.tier = s.tier ∧ t.media = s1.media ∧ t.crypto = s1.crypto ∧ t.out = s.out ∧ (∀ k, k ≠ bitAddr .dipt rd.loc.vein (if rd.vein.getD 0 <
     8 then F.DIPT_READS_LO_COUNT else F.DIPT_READS_HI_COUNT) → sget 0 t.regs k = sget 0 s1.regs k))) ∧
  (∀ (s : State) (id at10 a : Nat) (rd : Rd), s.runs = true → s.home.reads = [rd] → s.home.queue = [] → s.home.senders = [] → s.home.waiting = [] →
     s.ring.freeing = [] → rd.req.id = id → rd.req.who = .host a → rd.st = .ready → Ends (.readEgress id at10) s (fun t => t.home.reads = [] ∧ (∃ load, Msg.readData
     (.host a) id (if rd.poison = 0 then rd.data else 0) rd.poison load ∈ t.out) ∧ t.tier = s.tier ∧ t.media = s.media ∧ t.home.dir = s.home.dir)) ∧
  (∀ (s : State) (id a : Nat) (rd : Rd), s.runs = true → s.home.late = [rd] → rd.req.id = id → rd.req.who = .host a → rd.loc.st ≠ .hot → s.home.queue =
     [] → s.home.senders = [] → s.home.waiting = [] → s.ring.freeing = [] → Ends (.lateVerdict id) s (fun t => t.home.late = [] ∧ t.link a
     F.PORT_LINK_VIRAL = 1 ∧ t.link a F.PORT_VIRAL_CAUSE = 1 ∧ a ∈ t.home.departNext ∧ t.tier.pmap = s.tier.pmap)) ∧
  (∀ (s : State) (a page line : Nat) (w : Waiting), s.runs = true → s.home.waiting = [w] → s.home.queue = [] → s.home.senders = [] → s.ring.freeing = []
     → w.req.page = page → w.req.line = line → Holder.host a ∈ w.awaiting → w.unsent = [] → w.victim = true ∨ w.awaiting.filter (· ≠ Holder.host a) ≠ [] →
     Ends (.bisnpResponse a page line 0 none) s (fun t => t.home.waiting = [{ w with awaiting := w.awaiting.filter (· ≠ Holder.host a), lastRsp := some s.tb.elapsed.toNat }]
     ∧ (t.rawDir page line).hosts.testBit a = false ∧ t.home.reads = s.home.reads ∧ t.tier = s.tier ∧ t.media = s.media ∧ t.regs = s.regs))

/-- Links of attach points come up, go down and are reset (R273, R274, R276, R304, R332). A link that trains at full width shows UP with its width, speed and 256-byte flits and CXL.mem enabled, the read latency of 960 ns and its trained rate in both regions of the CDAT, and tells it; a fall of the link, PERST or a hot reset takes it down, counts a retraining, makes the attach point depart and drops its reads; a function-level reset and a write of the configuration space change the function's enables alone, the reset also a firmware transfer and a mailbox request of the attach point. -/
def Obligations.PortLinks : Prop :=
  (∀ (s : State) (a width speed : Nat), s.runs = true → s.mayTrain a = true → s.linkUp a = false → speed < 8 → (if s.bit .port (portOf a)
     F.PORT_CFG_SPLIT then 2 else 3) ≤ width → s.plainPcie = false → a ∉ s.home.departNext → s.home.departing = [] → s.link a F.PORT_LINK_DEGRADED = 0 →
     Ends (.linkUp a width speed true true) s (fun t => t.linkUp a = true ∧ t.link a F.PORT_LINK_WIDTH = (if s.bit .port (portOf a) F.PORT_CFG_SPLIT then 2
     else 3) ∧ t.link a F.PORT_LINK_SPEED = min speed (s.maxSpeed (portOf a)) ∧ t.link a F.PORT_LINK_FLIT256 = 1 ∧ t.link a F.PORT_LINK_MEM_EN = 1 ∧
     (t.cdat a).map (fun r => (r.readNs, r.mbps)) = List.replicate 2 (960, 125 * [2500, 5000, 8000, 16000, 32000, 64000].getD (min speed (s.maxSpeed
     (portOf a))) 64000 * (if s.bit .port (portOf a) F.PORT_CFG_SPLIT then 8 else 16) / 1000) ∧ (t.get .port (portOf a) F.HDR_INT_STATUS_INT_BLOCK).testBit
     0 = true ∧ { s with ports := t.ports }.OnlyRegsOut t (intAddrs .port (portOf a) ++ [bitAddr .port (portOf a) F.PORT_LINK_UP (halfOf a), bitAddr .port
     (portOf a) F.PORT_LINK_WIDTH (halfOf a), bitAddr .port (portOf a) F.PORT_LINK_SPEED (halfOf a), bitAddr .port (portOf a) F.PORT_LINK_FLIT256 (halfOf
     a), bitAddr .port (portOf a) F.PORT_LINK_MEM_EN (halfOf a), bitAddr .port (portOf a) F.PORT_LINK_TRAIN_NARROW (halfOf a), bitAddr .port (portOf a)
     F.PORT_LINK_DEGRADED (halfOf a)]))) ∧
  (∀ (s : State) (a : Nat), s.runs = true → s.linkUp a = true → s.home.queue = [] → s.home.senders = [] → s.home.waiting = [] → s.ring.freeing = [] →
     Ends (.linkDown a) s (fun t => t.linkUp a = false ∧ t.link a F.PORT_RETRAIN_COUNT = min 0xFFFFFFFF (s.link a F.PORT_RETRAIN_COUNT + 1) ∧ a ∈
     t.home.departNext ∧ t.home.reads = s.home.reads.filter (fun r => r.req.attach ≠ some a) ∧ (t.att a).early = [] ∧ (t.att a).bme = false ∧ t.tier =
     s.tier ∧ t.media = s.media)) ∧
  (∀ (s : State) (a : Nat), s.runs = true → s.hasAttach a = true → s.linkUp a = true → s.bit .port (portOf a) F.HDR_STATUS_COMMIT_PENDING = false →
     s.home.queue = [] → s.home.senders = [] → s.home.waiting = [] → s.ring.freeing = [] → Ends (.perst a) s (fun t => t.linkUp a = false ∧ t.link a
     F.PORT_RETRAIN_COUNT = min 0xFFFFFFFF (s.link a F.PORT_RETRAIN_COUNT + 1) ∧ a ∈ t.home.departNext ∧ t.home.reads = s.home.reads.filter (fun r =>
     r.req.attach ≠ some a) ∧ t.tier = s.tier ∧ t.media = s.media)) ∧
  (∀ (s : State) (a : Nat), s.runs = true → s.linkUp a = true → s.bit .port (portOf a) F.HDR_STATUS_COMMIT_PENDING = false → s.home.queue = [] →
     s.home.senders = [] → s.home.waiting = [] → s.ring.freeing = [] → Ends (.hotReset a) s (fun t => t.linkUp a = false ∧ t.link a F.PORT_RETRAIN_COUNT =
     min 0xFFFFFFFF (s.link a F.PORT_RETRAIN_COUNT + 1) ∧ a ∈ t.home.departNext ∧ t.home.reads = s.home.reads.filter (fun r => r.req.attach ≠ some a) ∧
     t.tier = s.tier ∧ t.media = s.media)) ∧
  (∀ (s : State) (a : Nat), s.runs = true → s.linkUp a = true → s.home.queue = [] → s.home.senders = [] → s.home.waiting = [] → s.ring.freeing = [] →
     Ends (.flr a) s (fun t => (t.att a).bme = false ∧ (t.att a).d3 = false ∧ (t.att a).msixOn = false ∧ t.ports.fwOwner ≠ some a ∧ t.ports.hdm =
     s.ports.hdm ∧ t.regs = s.regs ∧ t.tier = s.tier ∧ t.home.reads = s.home.reads)) ∧
  (∀ (s : State) (a : Nat) (d3 bme msix : Bool), s.runs = true → s.linkUp a = true → Ends (.configSpaceWrite a d3 bme msix) s (fun t => t.att a = { s.att a with d3 := d3, bme := bme, msixOn := msix }
     ∧ (∀ x, x ≠ a → t.att x = s.att x) ∧ { s with ports := { s.ports with att := t.ports.att } } = t))

/-- Decoder commits, IDE streams and page interrupts of a port (R279, R280, R288, R290, R291, R293). A decoder setting that passes its checks waits for the next stroke edge; a failed IDE check ends the secure stream, counts it and puts the attach point into viral with cause 2; key management makes a stream secure; a rearm is noted for each half named. -/
def Obligations.PortDecodersAndStreams : Prop :=
  (∀ (s : State) (a j base size ways gran pos skip : Nat) (lock : Bool) (x : HdmDec), s.runs = true → s.linkUp a = true → j < (s.decNums a).length →
     (s.hdmAhead.dec (portOf a) ((s.decNums a).getD j 8)).committed = false → x = { base := base, size := size, ways := ways, gran := gran, pos := pos, skip := skip, committed := true, lock := lock }
     → s.hdmAhead.hdmOk a j x = true → Ends (.hdmCommit a j base size ways gran pos skip true lock) s (fun t => t.ports.hdmNext = s.ports.hdmNext ++ [(8 *
     portOf a + (s.decNums a).getD j 8, x)] ∧ { s with ports := { s.ports with hdmNext := t.ports.hdmNext } } = t)) ∧
  (∀ (s : State) (a : Nat), s.runs = true → s.linkUp a = true → s.link a F.PORT_LINK_IDE_SECURE = 1 → Ends (.ideFail a) s (fun t => t.link a
     F.PORT_LINK_IDE_SECURE = 0 ∧ t.link a F.PORT_IDE_FAIL_COUNT = min 0xFFFFFFFF (s.link a F.PORT_IDE_FAIL_COUNT + 1) ∧ t.link a F.PORT_LINK_VIRAL = 1 ∧
     t.link a F.PORT_VIRAL_CAUSE = 2 ∧ a ∈ t.home.departNext ∧ t.tier = s.tier ∧ t.media = s.media)) ∧
  (∀ (s : State) (a : Nat), s.runs = true → s.linkUp a = true → s.boot.released = true → s.link a F.PORT_LINK_FLIT256 = 1 → Ends (.ideKm a) s (fun t =>
     t.link a F.PORT_LINK_IDE_SECURE = 1 ∧ s.OnlyRegs t [bitAddr .port (portOf a) F.PORT_LINK_IDE_SECURE (halfOf a)])) ∧
  (∀ (s : State) (agent port mask : Nat), s.runs = true → s.mayWrite agent .port port F.PORT_IRQ_REARM_REARM_0 → Ends (.portIrqRearm agent port mask) s
     (fun t => (∀ h < 2, mask.testBit h = true → (t.att (2 * port + h)).rearm = true) ∧ (∀ h < 2, mask.testBit h = false → t.att (2 * port + h) = s.att (2
     * port + h)) ∧ { s with ports := { s.ports with att := t.ports.att } } = t))

/-- Event records and their interrupt policy (R294, R300). A log is read with its overflow and its records in order; clearing a whole log empties it and its overflow and leaves the other logs; the interrupt policy is read and written one byte a log. Nothing else changes. -/
def Obligations.MailboxEvents : Prop :=
  (∀ (s : State) (a log : Nat) (n first last : Nat), s.runs = true → a = 16 ∨ s.linkUp a = true → s.mboxBusy a = false → log ≤ 4 → sget (0, 0, 0) (s.att
     a).overflow log = (n, first, last) → Ends (.getEventRecords a log) s (fun t => t.out = s.out ++ [.answer a 0 (leBytes 1 (b2n (n ≠ 0)) ++ leBytes 1 0
     ++ leBytes 2 n ++ leBytes 8 first ++ leBytes 8 last ++ leBytes 2 (s.logOf a log).length ++ List.replicate 10 0 ++ (s.logOf a log).flatMap
     EvRec.bytes)] ∧ { s with out := t.out } = t)) ∧
  (∀ (s : State) (a log : Nat), s.runs = true → a = 16 ∨ s.linkUp a = true → s.mboxBusy a = false → log ≤ 4 → s.logOf a log ≠ [] → keysRising (s.att
     a).overflow = true → Ends (.clearEventRecords a log true []) s (fun t => t.logOf a log = [] ∧ (∀ k, k ≠ log → t.logOf a k = s.logOf a k) ∧ sget (0, 0, 0)
     (t.att a).overflow log = (0, 0, 0) ∧ (∀ x, x ≠ a → t.att x = s.att x) ∧ t.out = s.out ++ [.answer a 0 ([])] ∧ { s with out := t.out, ports := { s.ports with att := t.ports.att } }
     = t)) ∧
  (∀ (s : State) (a : Nat), s.runs = true → a = 16 ∨ s.linkUp a = true → s.mboxBusy a = false → Ends (.getEventInterruptPolicy a) s (fun t => t.out =
     s.out ++ [.answer a 0 ((List.range 5).flatMap (fun l => leBytes 1 (sget 0x10 (s.att a).policy l)))] ∧ { s with out := t.out } = t)) ∧
  (∀ (s : State) (a p0 p1 p2 p3 p4 : Nat), s.runs = true → a = 16 ∨ s.linkUp a = true → s.mboxBusy a = false → Ends (.setEventInterruptPolicy a [p0, p1, p2, p3, p4])
     s (fun t => (List.range 5).map (fun l => sget 0x10 (t.att a).policy l) = [p0 % 256, p1 % 256, p2 % 256, p3 % 256, p4 % 256] ∧ (t.att a).logs = (s.att
     a).logs ∧ (∀ x, x ≠ a → t.att x = s.att x) ∧ t.out = s.out ++ [.answer a 0 ([])] ∧ { s with out := t.out, ports := { s.ports with att := t.ports.att } }
     = t))

/-- What the mailbox tells of the module (R294, R295, R297). Timestamp, alert configuration, supported logs, log bytes, partition, timebase and identity are answered from the state with code 0, as are the two capacities of the memory device and the temperature and the life used of its health; the set commands store what they are given. -/
def Obligations.MailboxStatus : Prop :=
  (∀ (s : State) (a : Nat), s.runs = true → a = 16 ∨ s.linkUp a = true → s.mboxBusy a = false → Ends (.getTimestamp a) s (fun t => t.out = s.out ++
     [.answer a 0 (leBytes 8 s.timestamp)] ∧ { s with out := t.out } = t)) ∧
  (∀ (s : State) (a value : Nat), s.runs = true → a = 16 ∨ s.linkUp a = true → s.mboxBusy a = false → value < 2 ^ 64 → Ends (.setTimestamp a value) s
     (fun t => t.timestamp = value ∧ t.out = s.out ++ [.answer a 0 ([])] ∧ { s with out := t.out, ports := { s.ports with tstamp := t.ports.tstamp } } = t)) ∧
  (∀ (s : State) (a : Nat), s.runs = true → a = 16 ∨ s.linkUp a = true → s.mboxBusy a = false → Ends (.getAlertConfig a) s (fun t => t.out = s.out ++
     [.answer a 0 (leBytes 12 s.ports.alertCfg.toNat)] ∧ { s with out := t.out } = t)) ∧
  (∀ (s : State) (a : Nat) (cfg : BitVec 96), s.runs = true → a = 16 ∨ s.linkUp a = true → s.mboxBusy a = false → Ends (.setAlertConfig a cfg) s (fun t
     => t.ports.alertCfg = cfg ∧ t.out = s.out ++ [.answer a 0 ([])] ∧ { s with out := t.out, ports := { s.ports with alertCfg := cfg } } = t)) ∧
  (∀ (s : State) (a : Nat), s.runs = true → a = 16 ∨ s.linkUp a = true → s.mboxBusy a = false → Ends (.getSupportedLogs a) s (fun t => t.out = s.out ++
     [.answer a 0 (leBytes 2 1 ++ List.replicate 6 0 ++ effectsUuid ++ leBytes 4 (4 * mboxOpcodes.length))] ∧ { s with out := t.out } = t)) ∧
  (∀ (s : State) (a ofs n : Nat), s.runs = true → a = 16 ∨ s.linkUp a = true → s.mboxBusy a = false → ofs + n ≤ 4 * mboxOpcodes.length → Ends (.getLog a
     ofs n) s (fun t => t.out = s.out ++ [.answer a 0 ((effectsLog.drop ofs).take n)] ∧ { s with out := t.out } = t)) ∧
  (∀ (s : State) (a : Nat), s.runs = true → a = 16 ∨ s.linkUp a = true → s.mboxBusy a = false → Ends (.identifyMemoryDevice a) s (fun t => ∃ p, t.out =
     s.out ++ [.answer a 0 p] ∧ fieldB p 16 8 = s.get .tier 0 F.TIER_CAP_LOGICAL_CAP % 2 ^ 64 ∧ fieldB p 24 8 = s.get .tier 0 F.TIER_CAP_STATIC_CAP % 2 ^
     64 ∧ { s with out := t.out, draws := t.draws } = t)) ∧
  (∀ (s : State) (a : Nat), s.runs = true → a = 16 ∨ s.linkUp a = true → s.mboxBusy a = false → Ends (.getPartitionInfo a) s (fun t => t.out = s.out ++
     [.answer a 0 (leBytes 8 (s.get .tier 0 F.TIER_CAP_STATIC_CAP) ++ List.replicate 24 0)] ∧ { s with out := t.out } = t)) ∧
  (∀ (s : State) (a : Nat), s.runs = true → a = 16 ∨ s.linkUp a = true → s.mboxBusy a = false → Ends (.getHealthInfo a) s (fun t => ∃ p, t.out = s.out ++
     [.answer a 0 p] ∧ fieldB p 3 1 = 0xFF ∧ fieldB p 4 2 = ((s.hubTemp / 16) % 65536).toNat ∧ { s with out := t.out, draws := t.draws } = t)) ∧
  (∀ (s : State) (a : Nat), s.runs = true → a = 16 ∨ s.linkUp a = true → s.mboxBusy a = false → Ends (.gnorridIdentify a) s (fun t => (∃ p, t.out = s.out
     ++ [.answer a 0 p] ∧ fieldB p 0 1 = 0x0B ∧ fieldB p 1 1 = s.role % 256 ∧ fieldB p 2 3 = s.addr % 2 ^ 24 ∧ fieldB p 8 6 = s.now.toNat) ∧ { s with out := t.out }
     = t)) ∧
  (∀ (s : State) (a : Nat), s.runs = true → a = 16 ∨ s.linkUp a = true → s.mboxBusy a = false → Ends (.getTimebase a) s (fun t => t.out = s.out ++
     [.answer a 0 (leBytes 6 s.now.toNat ++ leBytes 1 s.tb.phase ++ leBytes 1 s.tmbStatus ++ leBytes 4 s.tb.elapsed.toNat)] ∧ { s with out := t.out } = t))

/-- Poison and media commands (R285, R286, R298, R299). The poison list is answered for the range asked; an injected line becomes a marker in every copy and a cleared line takes the data given, in every copy, and each is answered 0; a scan is estimated, begun and ended with the markers it found, which its results give. -/
def Obligations.MailboxMedia : Prop :=
  (∀ (s : State) (a dpa len : Nat) (l : List PoisonEnt), s.runs = true → a = 16 ∨ s.linkUp a = true → s.mboxBusy a = false → s.ports.poisonOverflow =
     none → l = s.ports.poisonList.filter (fun x => x.within dpa len) → Ends (.getPoisonList a dpa len) s (fun t => t.out = s.out ++ [.answer a 0
     (List.replicate 10 0 ++ leBytes 2 l.length ++ List.replicate 20 0 ++ l.flatMap PoisonEnt.bytes)] ∧ { s with out := t.out } = t)) ∧
  (∀ (s : State) (a dpa page line : Nat) (e : PEntry), s.runs = true → a = 16 ∨ s.linkUp a = true → s.mboxBusy a = false → page = dpa / 4096 → line = dpa
     % 4096 / 64 → s.entry page = e → e.st = .hot → s.quiet → s.home.dir = [] → s.home.icache = [] → s.hub.slots = [] → s.hub.prefetch = [] → s.hub.wrHeld
     = [] → s.vq = [] → s.tier.lostLines = [] → s.underLoss e.vein e.loc = false → (s.dipt e.vein).behind = [] → Ends (.injectPoison a dpa) s (fun t => (∀
     v ∈ s.writeVeins e.vein, (t.stored (t.hotKey v e.loc line)).marker = true) ∧ Msg.answer a 0 [] ∈ t.out ∧ t.home.reads = [] ∧ (t.entry page).st = .hot
     ∧ (t.entry page).loc = e.loc)) ∧
  (∀ (s : State) (a dpa page line : Nat) (e : PEntry) (data : Line), s.runs = true → a = 16 ∨ s.linkUp a = true → s.mboxBusy a = false → page = dpa /
     4096 → line = dpa % 4096 / 64 → s.entry page = e → e.st = .hot → s.quiet → s.home.dir = [] → s.home.icache = [] → s.hub.slots = [] → s.hub.prefetch =
     [] → s.hub.wrHeld = [] → s.vq = [] → s.tier.lostLines = [] → s.underLoss e.vein e.loc = false → (s.dipt e.vein).behind = [] → Ends (.clearPoison a dpa
     data) s (fun t => (∀ v ∈ s.writeVeins e.vein, (t.stored (t.hotKey v e.loc line)).marker = false ∧ (t.stored (t.hotKey v e.loc line)).sealedIn.plain =
     data) ∧ Msg.answer a 0 [] ∈ t.out ∧ t.home.reads = [] ∧ (t.entry page).st = .hot ∧ (t.entry page).loc = e.loc)) ∧
  (∀ (s : State) (a dpa len : Nat), s.runs = true → a = 16 ∨ s.linkUp a = true → s.mboxBusy a = false → Ends (.getScanMediaCapabilities a dpa len) s (fun
     t => t.out = s.out ++ [.answer a 0 (leBytes 4 (s.scanTime (pageRange dpa len).1 (pageRange dpa len).2))] ∧ { s with out := t.out } = t)) ∧
  (∀ (s : State) (a dpa len : Nat), s.runs = true → a = 16 ∨ s.linkUp a = true → s.mboxBusy a = false → s.ports.scan = none → Ends (.scanMedia a dpa len)
     s (fun t => t.ports.scan = some (a, (pageRange dpa len).1, (pageRange dpa len).2, s.now) ∧ t.out = s.out ++ [.answer a 0 ([])] ∧ { s with out := t.out, ports := { s.ports with scan := t.ports.scan, scanResult := [] } }
     = t)) ∧
  (∀ (s : State) (a first n : Nat) (t0 : Stroke), s.runs = true → s.ports.scan = some (a, first, n, t0) → s.scanTime first n ≤ strokesSince t0 s.now →
     Ends (.scanMediaDone [] []) s (fun t => t.ports.scan = none ∧ t.ports.scanResult = (s.pagesIn first n).flatMap s.markersOf ∧ { s with ports := { s.ports with scan := none, scanResult := t.ports.scanResult } }
     = t)) ∧
  (∀ (s : State) (a : Nat), s.runs = true → a = 16 ∨ s.linkUp a = true → s.mboxBusy a = false → s.ports.scan = none → Ends (.getScanMediaResults a) s
     (fun t => t.out = s.out ++ [.answer a 0 (leBytes 2 s.ports.scanResult.length ++ s.ports.scanResult.flatMap PoisonEnt.bytes)] ∧ { s with out := t.out }
     = t))

/-- Dynamic capacity, firmware and register commands (R94, R296, R299, R301, R302, R303). An offer that fits is kept and logged to its attach point; a response that takes a whole offer makes it an extent; a release of an extent takes it out; a late offer is withdrawn with an interrupt; a transfer that begins writes its bytes to the slot that is not active and belongs to its attach point; an activation marks the slot pending; register commands read and write under the grant of their mailbox. -/
def Obligations.MailboxCapacityAndFirmware : Prop :=
  (∀ (s : State) (a first n : Nat), s.runs = true → s.hasAttach a = true → s.boot.released = true → s.mayOffer (first, n) = true → Ends (.dcOffer a first
     n) s (fun t => t.tier.offers = s.tier.offers ++ [(a, (first, n), sittingOf s.now)] ∧ t.tier.extents = s.tier.extents ∧ (∀ x, x ≠ a → t.att x = s.att
     x) ∧ t.regs = s.regs ∧ t.home = s.home)) ∧
  (∀ (s : State) (a sit : Nat) (x : Nat × Nat), s.runs = true → a = 16 ∨ s.linkUp a = true → s.mboxBusy a = false → s.tier.offers = [(a, x, sit)] → x.2 ≠
     0 → Ends (.addDynamicCapacityResponse a [x]) s (fun t => t.tier.extents = s.tier.extents ++ [x] ∧ t.tier.offers = [] ∧ t.out = s.out ++ [.answer a 0
     ([])] ∧ { s with out := t.out, tier := { s.tier with extents := t.tier.extents, offers := [] } } = t)) ∧
  (∀ (s : State) (a : Nat) (x : Nat × Nat), s.runs = true → a = 16 ∨ s.linkUp a = true → s.mboxBusy a = false → s.tier.extents = [x] → x.2 ≠ 0 →
     s.touchedPages (x.1 * 65536) (x.2 * 65536) = [] → Ends (.releaseDynamicCapacity a x) s (fun t => t.tier.extents = [] ∧ (∀ p, t.inRegion p = true →
     s.inRegion p = true) ∧ t.out = s.out ++ [.answer a 0 ([])] ∧ { s with out := t.out, tier := { s.tier with extents := [] } } = t)) ∧
  (∀ (s : State) (a sit : Nat) (x : Nat × Nat), s.runs = true → s.tier.offers = [(a, x, sit)] → s.get .port (portOf a) F.PORT_DC_CTL_OFFER_TIMEOUT ≤
     sittingOf s.now - sit → Ends .dcOfferTimeout s (fun t => t.tier.offers = [] ∧ t.tier.extents = s.tier.extents ∧ (t.get .port (portOf a)
     F.HDR_INT_STATUS_INT_BLOCK).testBit 5 = true ∧ { s with tier := { s.tier with offers := [] } }.OnlyRegsOut t (intAddrs .port (portOf a)))) ∧
  (∀ (s : State) (a : Nat), s.runs = true → a = 16 ∨ s.linkUp a = true → s.mboxBusy a = false → Ends (.getFwInfo a) s (fun t => (∃ p, t.out = s.out ++
     [.answer a 0 p] ∧ fieldB p 0 1 = 2 ∧ fieldB p 1 1 % 8 = s.flashActive + 1) ∧ { s with out := t.out } = t)) ∧
  (∀ (s : State) (a ofs : Nat) (data : List Byte), s.runs = true → a = 16 ∨ s.linkUp a = true → s.mboxBusy a = false → s.stage ≠ 3 → s.stage ≠ 6 →
     s.ports.fwOwner = none → ofs + data.length ≤ 0x800000 → Ends (.transferFw a 1 ofs data) s (fun t => t.ports.fwOwner = some a ∧ (∀ i < data.length, t.flashByte
     (slotBase (1 - s.flashActive) + ofs + i) = data.getD i 0) ∧ t.flashActive = s.flashActive ∧ t.out = s.out ++ [.answer a 0 ([])] ∧ { s with out := t.out, ports := { s.ports with fwOwner := some a }, boot := { s.boot with flash := t.boot.flash } }
     = t)) ∧
  (∀ (s : State) (a slot : Nat), s.runs = true → a = 16 ∨ s.linkUp a = true → s.mboxBusy a = false → s.stage ≠ 3 → s.stage ≠ 6 → s.ports.fwOwner = none →
     slot = 1 ∨ slot = 2 → Ends (.activateFw a 1 slot) s (fun t => t.flashPending = some (slot - 1) ∧ t.flashActive = s.flashActive ∧ t.out = s.out ++
     [.answer a 0 ([])] ∧ { s with out := t.out, boot := { s.boot with flash := t.boot.flash } } = t)) ∧
  (∀ (s : State) (a ofs v : Nat) (u : State), s.runs = true → a = 16 ∨ s.linkUp a = true → s.mboxBusy a = false → ofs % 4 = 0 → ofs < 2 ^ 24 →
     s.narrowRead (mboxAgent a) ofs 4 = (v, u) → s.dropCause (mboxAgent a) ofs 4 false = none → Ends (.registerRead a ofs 1) s (fun t => t.out = u.out ++
     [.answer a 0 (leBytes 32 0 ++ leBytes 4 v)] ∧ t.regs = u.regs ∧ t.tier = u.tier)) ∧
  (∀ (s u : State) (a ofs w : Nat), s.runs = true → a = 16 ∨ s.linkUp a = true → s.mboxBusy a = false → ofs % 4 = 0 → ofs < 2 ^ 24 → s.dropCause
     (mboxAgent a) ofs 4 true = none → s.writeAt (mboxAgent a) ofs w = (false, u) → Ends (.registerWrite a ofs [w]) s (fun t => t.out = u.out ++ [.answer a
     0 (leBytes 32 0)] ∧ t.regs = (u.within s).regs ∧ t.staged = u.staged ∧ t.tier = u.tier))

/-- What an internal cache's requests do at an idle home (R319, R321, R322, R325, R327, R630). On a line of a zero page that nobody caches: a read for sharing makes the engine the exclusive owner of a clean line of zeros, a read for ownership or an upgrade the owner of the line with its bytes merged in, a snoop read returns zeros and leaves no entry, and a far atomic is counted, returns the old line and completes. An owner's writeback or eviction leaves no copy and completes with 0. -/
def Obligations.InternalCaches : Prop :=
  (∀ (s : State) (o page line c : Nat), s.runs = true → o < 16 → line < 64 → (s.entry page).st = .zero → c ≠ 0 → (s.ctx c).valid = true → (s.ctx c).prot
     = false → s.quiet → s.hub.slots = [] → s.tier.lostLines = [] → s.tier.badImages = [] → s.home.dir = [] → s.home.icache = [] → Ends (.intRds o page
     line c 0) s (fun t => (t.dirOf page line).ist = .e ∧ (t.dirOf page line).iowner = o ∧ t.home.icache = [{ owner := o, page := page, line := line, data := 0, ctx := c }]
     ∧ t.home.reads = [] ∧ (∃ id, Msg.readData (.engine o) id 0 0 0 ∈ t.out) ∧ (t.entry page).st = .zero)) ∧
  (∀ (s : State) (o page line c : Nat) (data : Line) (mask : BitVec 64), s.runs = true → o < 16 → line < 64 → (s.entry page).st = .zero → c ≠ 0 → (s.ctx
     c).valid = true → (s.ctx c).prot = false → s.quiet → s.hub.slots = [] → s.tier.lostLines = [] → s.tier.badImages = [] → s.home.dir = [] →
     s.home.icache = [] → Ends (.intRdo o page line c data mask) s (fun t => (t.dirOf page line).ist = .m ∧ (t.dirOf page line).iowner = o ∧ t.home.icache
     = [{ owner := o, page := page, line := line, dirty := true, data := mergeLine 0 data mask, updates := 1, ctx := c }] ∧ t.get .home (s.homeSlab page)
     F.HOME_NEAR_GRANTS_COUNT = min (2 ^ F.HOME_NEAR_GRANTS_COUNT.w - 1) (s.get .home (s.homeSlab page) F.HOME_NEAR_GRANTS_COUNT + 1) ∧ (t.entry page).st =
     .zero)) ∧
  (∀ (s : State) (o page line c : Nat) (data : Line) (mask : BitVec 64), s.runs = true → o < 16 → line < 64 → (s.entry page).st = .zero → c ≠ 0 → (s.ctx
     c).valid = true → (s.ctx c).prot = false → s.quiet → s.hub.slots = [] → s.tier.lostLines = [] → s.tier.badImages = [] → s.home.dir = [] →
     s.home.icache = [] → Ends (.intUpg o page line c data mask) s (fun t => (t.dirOf page line).ist = .m ∧ (t.dirOf page line).iowner = o ∧ t.home.icache
     = [{ owner := o, page := page, line := line, dirty := true, data := mergeLine 0 data mask, updates := 1, ctx := c }] ∧ t.get .home (s.homeSlab page)
     F.HOME_NEAR_GRANTS_COUNT = min (2 ^ F.HOME_NEAR_GRANTS_COUNT.w - 1) (s.get .home (s.homeSlab page) F.HOME_NEAR_GRANTS_COUNT + 1) ∧ (t.entry page).st =
     .zero)) ∧
  (∀ (s : State) (o page line c : Nat), s.runs = true → o < 16 → line < 64 → (s.entry page).st = .zero → c ≠ 0 → (s.ctx c).valid = true → (s.ctx c).prot
     = false → s.quiet → s.hub.slots = [] → s.tier.lostLines = [] → s.tier.badImages = [] → s.home.dir = [] → s.home.icache = [] → Ends (.snoopRead o page
     line c) s (fun t => (∃ id, Msg.readData (.engine o) id 0 0 0 ∈ t.out) ∧ t.home.dir = [] ∧ t.home.icache = [] ∧ t.home.reads = [] ∧ (t.entry page).st =
     .zero)) ∧
  (∀ (s : State) (o page line c key : Nat) (kernel : List Byte) (vals : List (Option Nat)), s.runs = true → o < 16 → line < 64 → (s.entry page).st =
     .zero → c ≠ 0 → (s.ctx c).valid = true → (s.ctx c).prot = false → s.quiet → s.hub.slots = [] → s.tier.lostLines = [] → s.tier.badImages = [] →
     s.home.dir = [] → s.home.icache = [] → s.home.atomicHeld = [] → Ends (.farAtomic o page line c key kernel vals) s (fun t => t.get .home (s.homeSlab
     page) F.HOME_FAR_OPS_COUNT = min (2 ^ F.HOME_FAR_OPS_COUNT.w - 1) (s.get .home (s.homeSlab page) F.HOME_FAR_OPS_COUNT + 1) ∧ t.home.atomicHeld = [] ∧
     (∃ id, Msg.readData (.engine o) id 0 0 0 ∈ t.out) ∧ (∃ id load, Msg.done (.engine o) id 0 load ∈ t.out) ∧ t.home.icache = [])) ∧
  (∀ (s : State) (o page line c : Nat) (data : Line) (e : DirEnt) (x : ICLine), s.runs = true → o < 16 → line < 64 → (s.entry page).st = .zero → c ≠ 0 →
     (s.ctx c).valid = true → (s.ctx c).prot = false → s.quiet → s.hub.slots = [] → s.tier.lostLines = [] → s.dirOf page line = e → e.hst = .i → e.ist = .m
     → e.iowner = o → s.home.icache = [x] → x.owner = o → x.page = page → x.line = line → Ends (.intWb o page line c data) s (fun t => (t.dirOf page
     line).unused = true ∧ t.home.icache = [] ∧ (∃ id load, Msg.done (.engine o) id 0 load ∈ t.out))) ∧
  (∀ (s : State) (o page line c : Nat) (e : DirEnt) (x : ICLine), s.runs = true → o < 16 → line < 64 → (s.entry page).st = .zero → c ≠ 0 → (s.ctx
     c).valid = true → (s.ctx c).prot = false → s.quiet → s.hub.slots = [] → s.dirOf page line = e → e.hst = .i → e.ist = .e → e.iowner = o → s.home.icache
     = [x] → x.owner = o → x.page = page → x.line = line → Ends (.intEvict o page line c) s (fun t => (t.dirOf page line).unused = true ∧ t.home.icache =
     [] ∧ (∃ id load, Msg.done (.engine o) id 0 load ∈ t.out) ∧ t.tier.pmap = s.tier.pmap))

/-- Recalls, departures and unknown regions (R312, R320, R331, R332, R333, R334, R335, R336). An acknowledgement takes its holder out of what a recall awaits; an answered victim leaves the buffer; the end of a sweep takes the departed attach point out of every entry and out of DEPARTED; an unknown region is resolved by snooping the attach points that map it and is then known; the hand-back shows HANDBACK while it runs and ends ACTING; a directory query of a line without entry answers HIT 0. -/
def Obligations.RecallsAndDepartures : Prop :=
  (∀ (s : State) (o page line : Nat) (w : Waiting), s.runs = true → o < 16 → s.home.waiting = [w] → s.home.queue = [] → s.home.senders = [] → w.req.page
     = page → w.req.line = line → w.req.kind = .discard → w.req.owner ≠ some o → w.victim = false → w.unsent = [] → Holder.owner o ∈ w.awaiting →
     w.awaiting.filter (· ≠ Holder.owner o) ≠ [] → (s.rawDir page line).dirty = false → s.ring.freeing = [] → Ends (.invalAck 0 o page line none) s (fun t
     => t.home.waiting = [{ w with awaiting := w.awaiting.filter (· ≠ Holder.owner o) }] ∧ t.icLine o page line = none ∧ t.home.dir = s.home.dir ∧ t.tier =
     s.tier ∧ t.media = s.media ∧ t.regs = s.regs ∧ t.out = s.out)) ∧
  (∀ (s : State) (slab hl : Nat) (w : Waiting), s.runs = true → s.home.waiting = [w] → s.home.queue = [] → s.home.senders = [] → w.victim = true →
     w.req.page = pageOfHl slab hl → w.req.line = hl % 64 → w.awaiting = [] → s.ring.freeing = [] → Ends (.victimRecallDone slab hl) s (fun t =>
     t.home.waiting = [] ∧ t.home.victims = s.home.victims.filter (fun v => !(v.slab = slab && v.hl = hl)) ∧ { s with home := { s.home with waiting := [], victims := t.home.victims } }
     = t)) ∧
  (∀ (s : State) (a n : Nat), s.runs = true → a < 16 → s.home.departing = [(a, n)] → (s.att a).memWait = false → s.home.queue = [] → s.home.senders = []
     → s.home.waiting = [] → s.ring.freeing = [] → Ends (.sweepDone a) s (fun t => t.home.departing = [] ∧ (∀ x ∈ t.home.dir, x.2.hosts.testBit a = false)
     ∧ (∀ d < 2, (t.get .home d F.HOME_STATUS_DEPARTED).testBit a = false ∧ t.get .home d F.HOME_STATUS_SWEEPING = 0 ∧ (t.get .home d
     F.HDR_INT_STATUS_INT_BLOCK).testBit 2 = true) ∧ t.tier = s.tier ∧ t.media = s.media)) ∧
  (∀ (s : State) (r : HReq), s.runs = true → s.home.resolving = none → s.home.regionWait = [r] → s.home.icache = [] → Ends .regionResolve s (fun t =>
     t.home.resolving = some (regionKey r.page) ∧ t.home.regionWait = [r] ∧ (∀ a < 16, s.mapsRegion a (regionOf r.page) = true → s.gone a = false →
     Msg.snoopRegion a (regionOf r.page) ∈ t.out) ∧ { s with home := { s.home with resolving := t.home.resolving } }.OnlyRegsOut t [bitAddr .home
     (s.homeSlab r.page) F.HOME_BISNP_SENT_COUNT])) ∧
  (∀ (s : State) (key : Nat), s.runs = true → s.home.resolving = some key → s.home.regionWait = [] → key < 1048576 → Ends (.regionResolved []) s (fun t
     => t.home.resolving = none ∧ t.home.unknown = s.home.unknown.filter (· ≠ key) ∧ (t.get .home (1 - key / 524288) F.HDR_INT_STATUS_INT_BLOCK).testBit 4
     = true ∧ { s with home := { s.home with resolving := none, unknown := t.home.unknown } }.OnlyRegsOut t (intAddrs .home (1 - key / 524288) ++ [bitAddr
     .home (1 - key / 524288) F.HOME_UNKNOWN_REGIONS_REGIONS]))) ∧
  (∀ (s : State) (d : Nat), s.runs = true → s.actingHome = some d → s.home.handback = true → s.bit .home d F.HOME_STATUS_HANDBACK = false → Ends
     .handback s (fun t => t.get .home d F.HOME_STATUS_HANDBACK = 1 ∧ t.actingHome = some d ∧ { s with hub := { s.hub with ents := t.hub.ents } }.OnlyRegs
     t [bitAddr .home d F.HOME_STATUS_HANDBACK, bitAddr .hcac d F.HCAC_INVAL_EVENTS_COUNT])) ∧
  (∀ (s : State) (d : Nat), s.runs = true → s.actingHome = some d → s.bit .home d F.HOME_STATUS_HANDBACK = true → Ends .handbackDone s (fun t => t.get
     .home d F.HOME_STATUS_HANDBACK = 0 ∧ t.get .home d F.HOME_STATUS_ACTING = 0 ∧ t.home.handback = false ∧ (t.get .home d
     F.HDR_INT_STATUS_INT_BLOCK).testBit 1 = true ∧ (t.get .home d F.HDR_INT_STATUS_INT_BLOCK).testBit 3 = true ∧ t.tier = s.tier ∧ t.media = s.media ∧
     t.home.dir = s.home.dir)) ∧
  (∀ (s : State) (agent slab line page : Nat), s.runs = true → s.mayWrite agent .home slab F.HOME_DIRQ_CTL_LINE → line < 64 → slab < 2 → s.bit .home slab
     F.HOME_DIRQ_STATUS_BUSY = false → s.get .home slab F.HOME_DIRQ_PAGE_PAGE = page → s.homeSlab page = slab → s.quiet → s.home.dir = [] → Ends (.dirq
     agent slab line) s (fun t => t.get .home slab F.HOME_DIRQ_STATUS_DONE = 1 ∧ t.get .home slab F.HOME_DIRQ_STATUS_BUSY = 0 ∧ t.get .home slab
     F.HOME_DIRQ_STATUS_HIT = 0 ∧ t.get .home slab F.HOME_DIRQ_STATUS_UNKNOWN = 0 ∧ t.get .home slab F.HOME_DIRQ_ENTRY_LO_ENTRY_LO = 0 ∧ t.home.dir = [] ∧
     t.tier.pmap = s.tier.pmap))

/-- Commands of the Hub Cache (R346, R353, R358, R359). An invalidation of a page by name ends at once with DONE 1 and drops its run-ahead slot; the cleans, an invalidation of a set and way and one of all hold BUSY 1 until HCAC_CMD_DONE, which a sweep of all by the secure processor ends with no entry of the Slab left; a new partition holds REPART_BUSY until it governs, and tells it. -/
def Obligations.HubCacheCommands : Prop :=
  (∀ (s : State) (agent slab page : Nat), s.runs = true → s.mayWrite agent .hcac slab F.HCAC_CMD_OP → slab < 2 → s.bit .hcac slab F.HCAC_CMD_STATUS_BUSY
     = false → isSecp agent = false → s.get .hcac slab F.HCAC_CMD_PAGE_PAGE = page → s.pageExists page = true → s.homeSlab page = slab → s.quiet →
     s.blockClosed .hcac slab = false → Ends (.hcacInvalPage agent slab) s (fun t => t.get .hcac slab F.HCAC_CMD_STATUS_DONE = 1 ∧ t.get .hcac slab
     F.HCAC_CMD_STATUS_BUSY = 0 ∧ (t.get .hcac slab F.HDR_INT_STATUS_INT_BLOCK).testBit 0 = true ∧ t.raSlot page = none ∧ t.tier.pmap = s.tier.pmap ∧
     t.media = s.media)) ∧
  (∀ (s : State) (agent slab page : Nat), s.runs = true → s.mayWrite agent .hcac slab F.HCAC_CMD_OP → slab < 2 → s.bit .hcac slab F.HCAC_CMD_STATUS_BUSY
     = false → isSecp agent = false → s.get .hcac slab F.HCAC_CMD_PAGE_PAGE = page → s.pageExists page = true → s.homeSlab page = slab → s.quiet →
     s.blockClosed .hcac slab = false → Ends (.hcacCleanPage agent slab) s (fun t => t.get .hcac slab F.HCAC_CMD_STATUS_BUSY = 1 ∧ (t.hub.cmds.any (fun c
     => c.1 = slab && c.2.1 = 2 && c.2.2.1 = page)) = true ∧ t.hub.ents = s.hub.ents ∧ t.hub.slots = s.hub.slots ∧ t.tier.pmap = s.tier.pmap ∧ t.media =
     s.media)) ∧
  (∀ (s : State) (agent slab page : Nat), s.runs = true → s.mayWrite agent .hcac slab F.HCAC_CMD_OP → slab < 2 → s.bit .hcac slab F.HCAC_CMD_STATUS_BUSY
     = false → isSecp agent = false → s.get .hcac slab F.HCAC_CMD_PAGE_PAGE = page → s.pageExists page = true → s.homeSlab page = slab → s.quiet →
     s.blockClosed .hcac slab = false → Ends (.hcacCleanInvalPage agent slab) s (fun t => t.get .hcac slab F.HCAC_CMD_STATUS_BUSY = 1 ∧ (t.hub.cmds.any
     (fun c => c.1 = slab && c.2.1 = 3 && c.2.2.1 = page)) = true ∧ t.hub.ents = s.hub.ents ∧ t.hub.slots = s.hub.slots ∧ t.tier.pmap = s.tier.pmap ∧
     t.media = s.media)) ∧
  (∀ (s : State) (agent slab set way : Nat), s.runs = true → s.mayWrite agent .hcac slab F.HCAC_CMD_OP → slab < 2 → s.bit .hcac slab
     F.HCAC_CMD_STATUS_BUSY = false → set < 32768 → way < 16 → way < 16 - s.secureWays slab ∨ isSecp agent = true → swf none s.hub.ents = true →
     s.blockClosed .hcac slab = false → Ends (.hcacInvalSetWay agent slab set way) s (fun t => t.hcEnt slab set way = none ∧ t.get .hcac slab
     F.HCAC_CMD_STATUS_BUSY = 1 ∧ (t.hub.cmds.any (fun c => c = (slab, 4, 0, agent))) = true ∧ (∀ x ∈ s.hub.ents, x.1 ≠ hcKey slab set way → x ∈
     t.hub.ents) ∧ { s with hub := t.hub }.OnlyRegs t [bitAddr .hcac slab F.HCAC_CMD_STATUS_BUSY])) ∧
  (∀ (s : State) (agent slab : Nat), s.runs = true → s.mayWrite agent .hcac slab F.HCAC_CMD_OP → slab < 2 → s.bit .hcac slab F.HCAC_CMD_STATUS_BUSY =
     false → s.blockClosed .hcac slab = false → Ends (.hcacInvalAll agent slab) s (fun t => t.get .hcac slab F.HCAC_CMD_STATUS_BUSY = 1 ∧ (t.hub.cmds.any
     (fun c => c = (slab, 5, 0, agent))) = true ∧ { s with hub := { s.hub with cmds := t.hub.cmds } }.OnlyRegs t [bitAddr .hcac slab
     F.HCAC_CMD_STATUS_BUSY])) ∧
  (∀ (s : State) (slab agent : Nat), s.runs = true → slab < 2 → s.hub.cmds = [(slab, 5, 0, agent)] → isSecp agent = true → Ends (.hcacCmdDone slab) s
     (fun t => (∀ x ∈ t.hub.ents, x.1 / 524288 = slab → x.2 = none) ∧ t.hub.cmds = [] ∧ t.get .hcac slab F.HCAC_CMD_STATUS_DONE = 1 ∧ t.get .hcac slab
     F.HCAC_CMD_STATUS_BUSY = 0 ∧ (t.get .hcac slab F.HDR_INT_STATUS_INT_BLOCK).testBit 0 = true ∧ t.tier = s.tier ∧ t.media = s.media)) ∧
  (∀ (s : State) (agent slab ways : Nat), s.runs = true → isSecp agent = true → s.mayWrite agent .hcac slab F.HCAC_PART_SECURE_WAYS → s.bit .hcac slab
     F.HCAC_PART_REPART_BUSY = false → ways ≠ s.get .hcac slab F.HCAC_PART_SECURE_WAYS → Ends (.hcacRepartition agent slab ways) s (fun t => t.get .hcac
     slab F.HCAC_PART_REPART_BUSY = 1 ∧ (slab, ways) ∈ t.hub.repart ∧ { s with hub := { s.hub with repart := t.hub.repart } }.OnlyRegs t [bitAddr .hcac
     slab F.HCAC_PART_REPART_BUSY])) ∧
  (∀ (s : State) (slab ways : Nat), s.runs = true → s.hub.repart = [(slab, ways)] → ways < 16 → Ends (.repartDone slab) s (fun t => t.get .hcac slab
     F.HCAC_PART_SECURE_WAYS = ways ∧ t.get .hcac slab F.HCAC_PART_REPART_BUSY = 0 ∧ t.hub.repart = [] ∧ (t.get .hcac slab
     F.HDR_INT_STATUS_INT_BLOCK).testBit 1 = true ∧ t.tier = s.tier ∧ t.media = s.media))

/-- Prefetches, run-ahead fills and drained chunks (R347, R349, R350, R351, R352). A prefetched line that comes back authentic takes a free way of its set as a prefetched entry; a run-ahead fill adds the sixteen lines of the next sub-block to its slot and is counted; a drained chunk leaves the line buffer. -/
def Obligations.HubCacheFills : Prop :=
  (∀ (s : State) (page line sl v way : Nat) (sec : Bool) (e : PEntry), s.runs = true → s.hub.prefetch = [(sl, page, line, sec)] → s.hub.dirtied = [] →
     s.entry page = e → e.st = .hot → s.pickCopy e.vein e.loc { id := 0, kind := .snoopRead, who := .host 0, page := page, line := line } = some v →
     (s.stored (s.hotKey v e.loc line)).err = 0 → (s.stored (s.hotKey v e.loc line)).marker = false → s.media.resv = [] → s.get .vein v
     F.VEIN_STATUS_CHAN_RETIRED = 0 → macOk (s.stored (s.hotKey v e.loc line)) 0 (s.bindHot e.vein e.loc line page e.ctx 0) = true → s.hcHas sl (hotName
     e.vein e.loc line) = false → (s.partWays sl sec).find? (fun w => (s.hcEnt sl (hcSet (hotName e.vein e.loc line)) w).isNone) = some way → Ends
     (.prefetchInstall page line { idx := line }) s (fun t => t.hcEnt sl (hcSet (hotName e.vein e.loc line)) way = some { name := hotName e.vein e.loc line, cont := s.stored (s.hotKey v e.loc line), secure := sec, prefetched := true, page := page }
     ∧ t.hub.prefetch = [] ∧ { s with hub := t.hub, media := t.media, veins := t.veins } = t)) ∧
  (∀ (s : State) (page j : Nat) (rest : List Nat) (x : HlbSlot) (sub : List Byte), s.runs = true → s.hub.slots = [x] → x.page = page → x.runahead = true
     → x.ready = true → x.left = j :: rest → s.wstampOf page = x.ws → memHeadOk x.image ((s.entry page).gm1 + 1) = true → decodeSubOf x.image j = some sub
     → Ends (.runaheadInstall page) s (fun t => (t.raSlot page).map (fun y => (y.left, y.lines)) = some (rest, x.lines ++ (List.range 16).map (fun i => { line := 16 * j + i, data := imageLine sub i }))
     ∧ t.get .hcac (s.homeSlab page) F.HCAC_RUNAHEAD_FILLS_COUNT = min (2 ^ F.HCAC_RUNAHEAD_FILLS_COUNT.w - 1) (s.get .hcac (s.homeSlab page)
     F.HCAC_RUNAHEAD_FILLS_COUNT + 1) ∧ { s with hub := t.hub }.OnlyRegs t [bitAddr .hcac (s.homeSlab page) F.HCAC_RUNAHEAD_FILLS_COUNT])) ∧
  (∀ (s : State) (vein ofs chunk : Nat), s.runs = true → Ends (.chunkDrain vein ofs chunk) s (fun t => (∀ x ∈ t.hub.vlb, ¬(x.vein = vein ∧ x.ofs = ofs ∧
     x.chunk = chunk)) ∧ (∀ x ∈ s.hub.vlb, ¬(x.vein = vein ∧ x.ofs = ofs ∧ x.chunk = chunk) → x ∈ t.hub.vlb) ∧ { s with hub := { s.hub with vlb := t.hub.vlb } }
     = t))

/-- What the six query operations do (R367, R371, R372, R373, R377, R383, R384, R389, R390, R391). QE_NOOP fetches its descriptor, moves HEAD on and ends with status 0; a FILTER without input bitmap or terms passes every row and writes a bitmap of ones to the host, then reads its last address; a PROJECT of a row id writes eight bytes; a GATHER counts a rid at or over ROW_LIMIT in AUX and passes it by; an anti-join probe without a match writes its record; an AGGREGATE that finds its entry passes the row. Each ends its job of one row left with status 0. -/
def Obligations.QueryOperations : Prop :=
  (∀ (s : State) (q : Nat) (env : JobEnv) (d : List Byte) (u : State), s.runs = true → s.qMayFetch q = true → s.qSize q ≤ 4096 → s.jobBytes env (.engine
     q) (s.qKey q) (s.get .qeng q F.QENG_SQ_BASE_PAGE * 4096 + 128 * s.get .qeng q F.QENG_SQ_HEAD_HEAD) 128 = ((d, none), u) → qOp d = 0 → descBad d = none
     → u.home.queue = [] → u.home.senders = [] → u.home.waiting = [] → s.blockClosed .qeng q = false → Ends (.qeNoop q env) s (fun t => t.qjob q = some { desc := d, result := some 0 }
     ∧ t.get .qeng q F.QENG_SQ_HEAD_HEAD = (s.get .qeng q F.QENG_SQ_HEAD_HEAD + 1) % s.qSize q ∧ t.tier = u.tier ∧ t.media = u.media ∧ t.out = u.out)) ∧
  (∀ (s : State) (q n : Nat) (env : JobEnv) (j : QJob), s.runs = true → s.qjob q = some j → j.result = none → s.query.throttled = false → env.rows = none
     → qFlag j.desc 4 = false → kTerms j.kernel = 0 → qOp j.desc = 1 → qRows j.desc = n → 0 < n → j.rowsDone = 0 → j.passed = 0 → j.sel = [] → s.hostOpen
     (s.qAttach q) = true → qFlag j.desc 6 = true → env.hostFail = false → s.home.queue = [] → s.home.senders = [] → s.home.waiting = [] → s.blockClosed
     .qeng q = false → s.ring.freeing = [] → Ends (.qeFilter q env) s (fun t => (∃ y, t.qjob q = some y ∧ y.result = some 0 ∧ y.rowsDone = n ∧ y.passed = n
     ∧ y.outBytes = (n + 7) / 8) ∧ t.out = s.out ++ [.hostWrite (s.qAttach q) (qOut j.desc) (selBytes (List.replicate n true)), .hostRead (s.qAttach q)
     (qOut j.desc)] ∧ t.get .qeng q F.QENG_ROWS_LO_ROWS_LO + 2 ^ 32 * t.get .qeng q F.QENG_ROWS_HI_ROWS_HI = min (2 ^ 64 - 1) (s.get .qeng q
     F.QENG_ROWS_LO_ROWS_LO + 2 ^ 32 * s.get .qeng q F.QENG_ROWS_HI_ROWS_HI + n) ∧ t.home = s.home ∧ t.tier = s.tier ∧ t.media = s.media)) ∧
  (∀ (s : State) (q : Nat) (env : JobEnv) (j : QJob), s.runs = true → s.qjob q = some j → j.result = none → s.query.throttled = false → env.rows = none →
     qFlag j.desc 4 = false → kTerms j.kernel = 0 → qRows j.desc = j.rowsDone + 1 → j.lastHost = none → qOp j.desc = 2 → kProj j.kernel = 0 → qFlag j.desc
     2 = true → qFlag j.desc 3 = false → j.outBytes + 8 ≤ qOutLen j.desc → s.hostOpen (s.qAttach q) = true → qFlag j.desc 6 = true → env.hostFail = false →
     s.home.queue = [] → s.home.senders = [] → s.home.waiting = [] → s.blockClosed .qeng q = false → s.ring.freeing = [] → Ends (.qeProject q env) s (fun t
     => (∃ y, t.qjob q = some y ∧ y.result = some 0 ∧ y.rowsDone = j.rowsDone + 1 ∧ y.passed = j.passed + 1 ∧ y.outBytes = j.outBytes + 8) ∧ t.out = s.out
     ++ [.hostWrite (s.qAttach q) (qOut j.desc + j.outBytes) (leBytes 8 (qStart j.desc + j.rowsDone)), .hostRead (s.qAttach q) (qOut j.desc + j.outBytes)]
     ∧ t.home = s.home ∧ t.tier = s.tier ∧ t.media = s.media)) ∧
  (∀ (s : State) (q : Nat) (env : JobEnv) (j : QJob) (rid : Nat) (u : State), s.runs = true → s.qjob q = some j → j.result = none → s.query.throttled =
     false → env.rows = none → qFlag j.desc 4 = false → kTerms j.kernel = 0 → qRows j.desc = j.rowsDone + 1 → j.lastHost = none → qOp j.desc = 3 → s.qCell
     env q j.desc j.kernel 0 (qStart j.desc + j.rowsDone) = (.ok (some rid), u) → kLimit j.kernel ≤ rid → u.home.queue = [] → u.home.senders = [] →
     u.home.waiting = [] → s.blockClosed .qeng q = false → Ends (.qeGather q env) s (fun t => (∃ y, t.qjob q = some y ∧ y.result = some 0 ∧ y.rowsDone =
     j.rowsDone + 1 ∧ y.passed = j.passed ∧ y.aux = j.aux + 1 ∧ y.outBytes = j.outBytes) ∧ t.out = u.out ∧ t.tier = u.tier ∧ t.media = u.media)) ∧
  (∀ (s : State) (q : Nat) (env : JobEnv) (j : QJob) (lim : Bool) (y : QJob) (u : State), s.runs = true → s.qjob q = some j → j.result = none →
     s.query.throttled = false → env.rows = none → qFlag j.desc 4 = false → kTerms j.kernel = 0 → qRows j.desc = j.rowsDone + 1 → j.lastHost = none → qOp
     j.desc = 4 → kKeys j.kernel = 0 → kProj j.kernel = 0 → kMode j.kernel = 2 → qFlag j.desc 2 = true → qFlag j.desc 3 = false → State.qProbe env q 0
     (kProbeMax j.kernel) (hashSlot 0 (kLog j.kernel)) s j = (.ok ([], lim), y, u) → j.outBytes + 8 ≤ qOutLen j.desc → u.hostOpen (u.qAttach q) = true →
     qFlag j.desc 6 = true → env.hostFail = false → u.home.queue = [] → u.home.senders = [] → u.home.waiting = [] → s.blockClosed .qeng q = false → Ends
     (.qeHashProbe q env) s (fun t => (∃ z, t.qjob q = some z ∧ z.result = some 0 ∧ z.rowsDone = j.rowsDone + 1 ∧ z.passed = j.passed + 1 ∧ z.aux = j.aux +
     1 ∧ z.probeLimit = (j.probeLimit || lim)) ∧ t.out = u.out ++ [.hostWrite (u.qAttach q) (qOut j.desc + j.outBytes) (leBytes 8 (qStart j.desc +
     j.rowsDone)), .hostRead (u.qAttach q) (qOut j.desc + j.outBytes)] ∧ t.tier = u.tier ∧ t.media = u.media)) ∧
  (∀ (s : State) (q : Nat) (env : JobEnv) (j : QJob) (y : QJob) (u : State), s.runs = true → s.qjob q = some j → j.result = none → s.query.throttled =
     false → env.rows = none → qFlag j.desc 4 = false → kTerms j.kernel = 0 → qRows j.desc = j.rowsDone + 1 → j.lastHost = none → qOp j.desc = 5 → kKeys
     j.kernel = 0 → kAgg j.kernel = 0 → qFlag j.desc 5 = false → State.qPlace env q 0 (valOf []) (kProbeMax j.kernel) (hashSlot 0 (kLog j.kernel)) s j =
     (y, u, true) → y.result = none → u.home.queue = [] → u.home.senders = [] → u.home.waiting = [] → s.blockClosed .qeng q = false → Ends (.qeAggregate q
     env) s (fun t => (∃ z, t.qjob q = some z ∧ z.result = some 0 ∧ z.rowsDone = j.rowsDone + 1 ∧ z.passed = j.passed + 1 ∧ z.aux = y.aux ∧ z.nearHeld =
     !(u.qDirty q j.kernel).isEmpty) ∧ t.out = u.out ∧ t.tier = u.tier ∧ t.media = u.media))

/-- Doorbells, records, aborts and flushes of a query engine (R384, R391, R394, R397, R398, R402, R403). A valid tail submits the entries up to it and a doorbell of a disabled queue sets DOORBELL_BAD and nothing else; a finished job leaves its engine with its record held and counted; with empty slots CQ_HEAD takes what is written and FULL falls; an abort ends the job in progress with status 7, its counts kept, and clears ENABLE; a flush starts on an idle engine and ends with its clean line gone and its bit raised; a spent grant throttles the engines. -/
def Obligations.QueryControl : Prop :=
  (∀ (s : State) (agent q tail : Nat), s.runs = true → s.mayWrite agent .qeng q F.QENG_SQ_TAIL_TAIL → s.bit .qeng q F.QENG_CTL_ENABLE = true → tail <
     s.qSize q → tail < 4096 → s.qWaiting q + (tail + s.qSize q - s.get .qeng q F.QENG_SQ_TAIL_TAIL % s.qSize q) % s.qSize q ≤ s.qSize q - 1 →
     s.blockClosed .qeng q = false → Ends (.qengDoorbell agent q tail) s (fun t => t.get .qeng q F.QENG_SQ_TAIL_TAIL = tail ∧ s.OnlyRegs t [bitAddr .qeng q
     F.QENG_SQ_TAIL_TAIL])) ∧
  (∀ (s : State) (agent q tail : Nat), s.runs = true → s.mayWrite agent .qeng q F.QENG_SQ_TAIL_TAIL → s.bit .qeng q F.QENG_CTL_ENABLE = false →
     s.blockClosed .qeng q = false → Ends (.qengDoorbell agent q tail) s (fun t => t.get .qeng q F.QENG_STATUS_DOORBELL_BAD = 1 ∧ s.OnlyRegs t [bitAddr
     .qeng q F.QENG_STATUS_DOORBELL_BAD])) ∧
  (∀ (s : State) (q st : Nat) (j : QJob), s.runs = true → s.qjob q = some j → j.result = some st → s.qHeld q < 3 → Ends (.qeJobDone q) s (fun t => t.qjob
     q = none ∧ (∃ r, t.query.held = s.query.held ++ [r] ∧ r.engine = q ∧ r.bytes = j.record q st ∧ r.intr = qFlag j.desc 1) ∧ t.get .qeng q
     F.QENG_JOBS_COUNT = min (2 ^ F.QENG_JOBS_COUNT.w - 1) (s.get .qeng q F.QENG_JOBS_COUNT + 1) ∧ { s with query := t.query }.OnlyRegs t [bitAddr .qeng q
     F.QENG_JOBS_COUNT])) ∧
  (∀ (s : State) (agent slab c head : Nat), s.runs = true → c < 4 → s.mayWrite agent .qgth slab F.QGTH_CQ_HEAD_HEAD c → head < 4096 → s.slotRecs slab =
     [] → s.home.queue = [] → s.home.senders = [] → s.home.waiting = [] → s.ring.freeing = [] → Ends (.qgthCqHead agent slab c head) s (fun t => t.get
     .qgth slab F.QGTH_CQ_HEAD_HEAD c = head ∧ (∀ i < 4, t.get .qgth slab F.QGTH_CQ_STATUS_FULL i = 0) ∧ { s with regs := t.regs } = t)) ∧
  (∀ (s : State) (agent q value : Nat) (j : QJob), s.runs = true → s.mayWrite agent .qeng q F.QENG_CTL_ENABLE → value.testBit 1 = true → value.testBit 2
     = false → s.qjob q = some j → j.result = none → qOp j.desc ≠ 1 → qOp j.desc ≠ 5 → j.lastHost = none → s.home.queue = [] → s.home.senders = [] →
     s.home.waiting = [] → s.ring.freeing = [] → Ends (.qengAbort agent q value) s (fun t => (∃ y, t.qjob q = some y ∧ y.result = some 7 ∧ y.rowsDone =
     j.rowsDone ∧ y.passed = j.passed ∧ y.outBytes = j.outBytes) ∧ t.get .qeng q F.QENG_CTL_ENABLE = 0 ∧ (t.get .qeng q F.HDR_INT_STATUS_INT_BLOCK).testBit
     0 = true ∧ t.home = s.home ∧ t.tier = s.tier ∧ t.media = s.media)) ∧
  (∀ (s : State) (agent q : Nat), s.runs = true → s.mayWrite agent .qeng q F.QENG_CTL_ENABLE → s.qjob q = none → Ends (.qengCacheFlush agent q) s (fun t
     => q ∈ t.query.flushing ∧ { s with query := { s.query with flushing := t.query.flushing } } = t)) ∧
  (∀ (s : State) (q : Nat) (x : ICLine), s.runs = true → q ∈ s.query.flushing → s.home.icache = [x] → x.owner = q → x.dirty = false → s.home.queue = [] →
     s.home.senders = [] → s.home.waiting = [] → s.ring.freeing = [] → Ends (.qengFlushDone q) s (fun t => q ∉ t.query.flushing ∧ t.home.icache = [] ∧
     (t.get .qeng q F.HDR_INT_STATUS_INT_BLOCK).testBit 3 = true ∧ t.tier = s.tier ∧ t.media = s.media)) ∧
  (∀ (s : State), s.runs = true → s.grantLeft .query = false → Ends .qeThrottle s (fun t => t.query.throttled = true ∧ { s with query := { s.query with throttled := true } }
     = t))

/-- Events of a ring side (R432, R434, R437, R439, R441, R452, R453, R463, R464, R465, R479). LSKP reseeds the generators of the lanes that receive and changes nothing else; an echo is answered with its time and an answer sets the delay to half of the round trip, to the nearest; LSTRK from the timing upstream sets the error, the depth, the spec and holdover bits; an unwrap names the peer's stroke; a probe in a half opens the joiner's cells once both halves are heard; a side that trains is up; a good flit in order is acknowledged and a flit with a bad CRC is counted and refused once; a timeout sends the held frame again and counts it; a link declared down wraps. -/
def Obligations.RingLinks : Prop :=
  (∀ (s : State) (p sd adjust : Nat), s.runs = true → p < 2 → sd < 2 → Ends (.lskp p sd adjust) s (fun t => t.side p sd = { s.side p sd with rxScr := 0 }
     ∧ (∀ q < 2, ∀ e < 2, (q, e) ≠ (p, sd) → t.side q e = s.side q e) ∧ { s with ring := t.ring } = t)) ∧
  (∀ (s : State) (p sd ta : Nat), s.runs = true → s.sideUp p sd = true → Ends (.lecho p sd ta) s (fun t => { s with out := s.out ++ [.oset p sd 0xC3 [1, ta % 256, ta / 256 % 256]] }
     = t)) ∧
  (∀ (s : State) (p sd ta t4 : Nat), s.runs = true → s.sideUp p sd = true → (s.side p sd).echo = true → (t4 - ta + 1) / 2 < 2 ^ 16 → Ends (.lechoReply p
     sd ta t4) s (fun t => t.ringGet p sd F.RING_DELAY_DELAY = (t4 - ta + 1) / 2 ∧ t.ringGet p sd F.RING_DELAY_VALID = 1 ∧ (t.side p sd).echo = false ∧ { s with ring := { s.ring with sides := t.ring.sides } }.OnlyRegs
     t [bitAddr .ring (slabOfSide sd) F.RING_DELAY_DELAY p, bitAddr .ring (slabOfSide sd) F.RING_DELAY_VALID p])) ∧
  (∀ (s : State) (p sd : Nat) (txOfs depth : Nat) (sourceOk holdover rooted : Bool) (tr e : Int), s.runs = true → s.sideUp p sd = true → s.isUpstream p
     sd = true → s.pairState p = 4 → 0 ≤ tr → e = (txOfs : Int) + (s.ringGet p sd F.RING_DELAY_DELAY : Int) - tr → Ends (.lstrk p sd s.now txOfs sourceOk
     holdover rooted depth tr) s (fun t => t.ring.err = e ∧ t.get .lode 0 F.LODE_TIMING_ERROR = (e % 65536).toNat ∧ t.get .tmb 0 F.TMB_STATUS_IN_SPEC = b2n
     (decide (-3 ≤ e) && decide (e ≤ 3) && sourceOk) ∧ t.get .lode 0 F.LODE_TIMING_DEPTH = (depth + 1) % 256 ∧ t.get .lode 0 F.LODE_STATE_HOLDOVER = b2n
     holdover ∧ t.get .lode 0 F.LODE_ID_ROOTED = b2n rooted ∧ t.ring.holdoverCount = 0 ∧ t.tb = s.tb ∧ t.out = s.out)) ∧
  (∀ (s : State) (p sd : Nat) (stroke : Stroke) (position : Nat), s.runs = true → s.sideUp p sd = true → s.ringGet p sd F.RING_LINK_WRAP = 1 → Ends
     (.lsplUnwrap p sd stroke position) s (fun t => t.side p sd = { s.side p sd with unwrapPeer := some stroke } ∧ { s with ring := { s.ring with sides := t.ring.sides } }
     = t)) ∧
  (∀ (s : State) (p sd : Nat) (w stroke : Stroke) (position : Nat), s.runs = true → p < 2 → sd < 2 → (s.pair p).window = some w → s.pairState p = 2 →
     (s.pair p).opened = [1 - sd] → strokesSince (halfStart w sd) s.now < 4 → Ends (.lsplProbe p sd stroke position) s (fun t => (t.pair p).opened = [1 -
     sd, sd] ∧ (∀ i < 2, t.ringGet p i F.RING_LINK_CELL_OPEN = 1) ∧ t.out = s.out ++ [.oset p (1 - sd) 0xD2 (1 :: (leBytes 6 s.now.toNat).map (fun b =>
     b.toNat) ++ [0xFF])])) ∧
  (∀ (s : State) (p sd position role : Nat) (serial : BitVec 64) (hd pb : Bool), s.runs = true → s.ringGet p sd F.RING_LINK_CELL_OPEN = 1 → s.ringGet p
     sd F.RING_LINK_PERM_DOWN = 0 → s.ringGet p sd F.RING_LINK_WRAP = 0 → s.side p sd = {} → s.sideUp p sd = false → s.pairState p = 9 → position < 64 →
     s.ring.egress = [] → Ends (.ringSideUp p sd position role serial hd pb) s (fun t => t.sideUp p sd = true ∧ t.ringGet p sd F.RING_LINK_LOCKED = 1 ∧
     t.ringGet p sd F.RING_LINK_NEIGH_POS = position ∧ t.ringGet p sd F.RING_LINK_NEIGH_VALID = 1 ∧ t.side p sd = { trained := 1, echo := true } ∧ (t.get
     .ring (slabOfSide sd) F.HDR_INT_STATUS_INT_BLOCK).testBit 1 = true ∧ Msg.oset p sd 0xC3 [0] ∈ t.out)) ∧
  (∀ (s : State) (p sd fseq ackSeq crCount : Nat) (ackValid : Bool) (slots : List Nat), s.runs = true → s.sideTakes p sd = true → fseq < 4096 → fseq =
     (s.side p sd).rxSeq → (s.pair p).probing = [] → s.ring.egress = [] → slots.getD 4 0 = 0 → Ends (.flitReceive p sd fseq ackSeq ackValid false true 1
     crCount slots) s (fun t => (t.side p sd).rxSeq = (fseq + 1) % 4096 ∧ (t.side p sd).nak = false ∧ (t.side p sd).replay = (if ackValid then (s.side p
     sd).replay.filter (fun r => !flitLe r.last ackSeq) else (s.side p sd).replay) ∧ (t.side p sd).credits = (s.side p sd).credits.set 1 ((s.side p
     sd).credits.getD 1 0 + crCount) ∧ t.out = s.out ++ [.link p sd fseq false] ∧ { s with ring := t.ring, out := t.out } = t)) ∧
  (∀ (s : State) (p sd fseq ackSeq crVc crCount : Nat) (slots : List Nat), s.runs = true → s.sideTakes p sd = true → fseq < 4096 → fseq = (s.side p
     sd).rxSeq → (s.pair p).probing = [] → s.ring.egress = [] → crVc < 4 → Ends (.flitReceive p sd fseq ackSeq false false true crVc crCount slots) s (fun
     t => t.ringGet p sd F.RING_DISCARD_COUNT = min (2 ^ 32 - 1) (s.ringGet p sd F.RING_DISCARD_COUNT + slots.getD 4 0) ∧ t.tier = s.tier)) ∧
  (∀ (s : State) (p sd fseq ackSeq crVc crCount : Nat) (ackValid nak : Bool) (slots : List Nat), s.runs = true → s.sideTakes p sd = true → (s.side p
     sd).nak = false → Ends (.flitReceive p sd fseq ackSeq ackValid nak false crVc crCount slots) s (fun t => t.ringGet p sd F.RING_CRC_ERR_COUNT = min (2
     ^ F.RING_CRC_ERR_COUNT.w - 1) (s.ringGet p sd F.RING_CRC_ERR_COUNT + 1) ∧ t.side p sd = { s.side p sd with nak := true, rxScr := (s.side p sd).rxScr + 16 }
     ∧ t.out = s.out ++ [.link p sd (((s.side p sd).rxSeq + 4095) % 4096) true])) ∧
  (∀ (s : State) (p sd : Nat) (r : Sent), s.runs = true → s.sideUp p sd = true → (s.side p sd).replay = [r] → min 0xFFFF (s.ringGet p sd
     F.RING_BUCKET_LEVEL + 256 * s.get .ring (slabOfSide sd) F.RING_BUCKET_CFG_W_TIMEOUT) < 256 * s.get .ring (slabOfSide sd) F.RING_BUCKET_CFG_THRESH →
     Ends (.ringReplayTimeout p sd) s (fun t => Msg.frame p sd r.frame ∈ t.out ∧ t.ringGet p sd F.RING_RETRY_COUNT = min (2 ^ F.RING_RETRY_COUNT.w - 1)
     (s.ringGet p sd F.RING_RETRY_COUNT + 1) ∧ (t.side p sd).replay = [r] ∧ t.ringGet p sd F.RING_BUCKET_LEVEL = min 0xFFFF (s.ringGet p sd
     F.RING_BUCKET_LEVEL + 256 * s.get .ring (slabOfSide sd) F.RING_BUCKET_CFG_W_TIMEOUT))) ∧
  (∀ (s : State) (p sd : Nat), s.runs = true → s.sideUp p sd = true → p < 2 → sd < 2 → cellOpenIn (s.pairState p) = true → s.ringGet p sd
     F.RING_LINK_WRAP = 0 → s.isUpstream p sd = false → s.ring.egress = [] → (s.side p sd).replay = [] → Ends (.ringLockLoss p sd true) s (fun t =>
     t.sideUp p sd = false ∧ t.ringGet p sd F.RING_LINK_LOCKED = 0 ∧ t.ringGet p sd F.RING_LINK_WRAP = 1 ∧ t.get .lode 0 F.LODE_RING_WRAPPED p = 1 ∧
     (t.side p sd).rxSeq = 0 ∧ t.tier = s.tier))

/-- A flit, an ordered set and a header slot cross a ring link unchanged (R432, R433, R437, R440). The eight data blocks a flit makes after n data bytes since the last LSKP, each descrambled by its lane's generator at the same point, give the flit back; a block whose sync header is neither 0b01 nor 0b10 makes no flit. An ordered set on all eight lanes is used as it was sent; the header slot of a frame whose fields fit their widths names that frame again. -/
def Obligations.LaneCoding : Prop :=
  (∀ (flit : List Byte) (n : Nat), flit.length = 128 → flitOf (fun l => dataBlock flit l n) n = some flit) ∧
  (∀ (blocks : Nat → BitVec 2 × List Byte) (n l : Nat), l < 8 → (blocks l).1 ≠ 1 → flitOf blocks n = none ∧ ((blocks l).1 ≠ 2 → blockKind (blocks l).1 =
     .error)) ∧
  (∀ (l : List Byte), l.length = 14 → setOf ((List.range 8).map (setBlock l)) = some l) ∧
  (∀ (f : Frame) (n : Nat), f.wellFormed = true → f.payload.length = 16 * n → n < 64 → frameOf (headerSlot f) f.payload = some f)

/-- Enumeration, membership and order of a ring (R443, R444, R446, R447, R457, R459, R466, R467). In LISTEN a STROKE frame is heard and gives the head and the window; a REPORT that is back at the head fills its sixteen places; the head takes the count of its own ENUM and gathers a JOIN_REQ; an ASSIGN with a position gives the member its position, its address and the state MEMBER, and one with REFUSED the state REFUSED; an ORDER gives the positions, the epoch and the number of members; silence, traffic and the timeouts move a pair as R467 says. -/
def Obligations.RingMembership : Prop :=
  (∀ (s : State) (p sd : Nat) (f : Frame), s.runs = true → s.pairState p = 1 → Ends (.stroke p sd f) s (fun t => t.pair p = { s.pair p with heard := s.now, headAddr := f.src, window := if (fieldB f.payload 6 1).testBit 1 then some (BitVec.ofNat 48 (fieldB f.payload 8 6)) else (s.pair p).window }
     ∧ { s with ring := { s.ring with pairs := t.ring.pairs } } = t)) ∧
  (∀ (s : State) (p sd : Nat) (f : Frame), s.runs = true → s.sideTakes p sd = true → s.isHead p = true → f.src = s.addr → f.arg < 4 → Ends (.report p sd
     f) s (fun t => (∀ k < 16, sfind (t.pair p).reports (16 * f.arg + k) = some (sliceB f.payload (32 * k) 32)) ∧ (t.pair p).held = (s.pair p).held ∧
     t.regs = s.regs ∧ t.out = s.out ++ [.credit p sd f.vc (frameSlots f)])) ∧
  (∀ (s : State) (p sd : Nat) (f : Frame), s.runs = true → s.sideTakes p sd = true → s.pairState p = 9 ∨ s.pairState p = 0xA → (s.pair p).enumTag = some
     f.tag → (s.pair p).counted = none → (s.pair p).joins.length + 1 < f.arg → f.arg < 128 → Ends (.enum p sd f Config.serial) s (fun t => (t.pair
     p).counted = some f.arg ∧ (t.pair p).enumTag = some f.tag ∧ (t.pair p).joins = (s.pair p).joins ∧ t.regs = s.regs)) ∧
  (∀ (s : State) (p sd : Nat) (f : Frame), s.runs = true → s.sideTakes p sd = true → s.isHead p = true → (s.pair p).enumTag ≠ none → (s.pair p).counted =
     none → (s.pair p).joins = [] → Ends (.joinReq p sd f) s (fun t => (∃ j, (t.pair p).joins = [j] ∧ j.serial = BitVec.ofNat 64 (fieldB f.payload 0 8) ∧
     j.pref = (if f.arg.testBit 6 then some (f.arg % 64) else none) ∧ j.role = bits f.arg 7 2 ∧ j.tag = f.tag) ∧ t.regs = s.regs ∧ t.out = s.out ++
     [.credit p sd f.vc (frameSlots f)])) ∧
  (∀ (s : State) (p sd : Nat) (f : Frame), s.runs = true → s.sideTakes p sd = true → p < 2 → s.pairState p = 3 → (s.pair p).joinTag = some f.tag →
     f.arg.testBit 6 = false → Ends (.assign p sd f) s (fun t => t.position p = f.arg % 64 ∧ t.pairState p = 4 ∧ (t.pair p).joinTag = none ∧ (t.pair
     p).headAddr = f.src ∧ t.addr = s.addrUnder p f.src (f.arg % 64) % 2 ^ 18 ∧ t.bit .lode 0 F.LODE_ID_ADDR_VALID = true ∧ (t.get .lode 0
     F.HDR_INT_STATUS_INT_BLOCK).testBit 0 = true ∧ t.tier = s.tier)) ∧
  (∀ (s : State) (p sd : Nat) (f : Frame) (order : List Nat), s.runs = true → s.sideTakes p sd = true → f.bcast = false → f.dst = s.addr → s.bit .lode 0
     F.LODE_ID_ADDR_VALID = true → s.resting = false → p < 2 → f.src = s.addr ∨ f.bcast = false → s.isMember p = true → order = ((List.range 64).map (fun k
     => fieldB f.payload k 1)).takeWhile (· ≠ 0xFF) → s.tier.pmap = [] → Ends (.order p sd f) s (fun t => (t.pair p).order = order ∧ t.get .lode 0
     F.LODE_RING_EPOCH p = f.arg % 65536 ∧ t.get .lode 0 F.LODE_RING_MEMBERS p = order.length % 128 ∧ t.get .lode 0 F.LODE_RING_WRAPPED p = b2n (bits f.arg
     16 7 ≠ 0x7F) ∧ t.tier = s.tier)) ∧
  (∀ (s : State) (p : Nat) (b : Stroke), s.runs = true → p < 2 → (s.pair p).trainedAt = some b → s.pairState p = 3 → 4096 ≤ strokesSince b s.now → Ends
     (.enumTimeout p) s (fun t => t.pairState p = 5 ∧ t.addr = 0 ∧ t.bit .lode 0 F.LODE_ID_ROOTED = false ∧ t.bit .tier 0 F.TIER_SPILL_TGT_VALID = false ∧
     (t.get .lode 0 F.HDR_INT_STATUS_INT_BLOCK).testBit 2 = true)) ∧
  (∀ (s : State) (p : Nat) (b : Stroke), s.runs = true → p < 2 → (s.pair p).lastStrokeFrame = some b → s.pairState p = 4 → 64 ≤ strokesSince b s.now →
     Ends (.strokeFrameTimeout p) s (fun t => t.pairState p = 5 ∧ t.addr = 0 ∧ t.bit .lode 0 F.LODE_ID_ROOTED = false ∧ t.bit .tier 0
     F.TIER_SPILL_TGT_VALID = false ∧ (t.get .lode 0 F.HDR_INT_STATUS_INT_BLOCK).testBit 2 = true)) ∧
  (∀ (s : State) (p : Nat), s.runs = true → p < 2 → s.pairState p = 1 → s.bit .lode 0 F.LODE_CTL_JOIN_EN = true → p = 0 ∨ s.role = 0 → Ends (.tapTraffic
     p) s (fun t => t.pairState p = 2 ∧ t.pair p = { s.pair p with heard := s.now } ∧ { s with ring := { s.ring with pairs := t.ring.pairs } }.OnlyRegs t
     [bitAddr .lode 0 (if p = 0 then F.LODE_STATE_STATE_A else F.LODE_STATE_STATE_B)])) ∧
  (∀ (s : State) (p : Nat), s.runs = true → p < 2 → s.pairState p = 1 → 4096 ≤ strokesSince (s.pair p).heard s.now → Ends (.tapSilenceTimeout p) s (fun t
     => t.pairState p = 3 ∧ (∀ i < 2, t.ringGet p i F.RING_LINK_CELL_OPEN = 1) ∧ { s with regs := t.regs } = t)) ∧
  (∀ (s : State) (agent : Nat), s.runs = true → s.mayWrite agent .lode 0 F.LODE_REJOIN_GO → s.pairState 0 = 8 → s.pairState 1 ≠ 8 → s.pairState 1 ≠ 5 →
     Ends (.lodeRejoin agent) s (fun t => t.pairState 0 = 1 ∧ t.pairState 1 = s.pairState 1 ∧ t.pair 0 = { heard := s.now } ∧ (∀ i < 2, t.ringGet 0 i
     F.RING_LINK_CELL_OPEN = 0 ∧ t.sideUp 0 i = false)))

/-- Register, key and command frames at their ends (R467, R471, R472, R473, R474, R475, R478). A register read by the manager is answered with its words and its drops, a register write with its drops; a response, a key acknowledgement and a command acknowledgement reach the manager's agent and end their request; a key transfer that passes its checks is remembered and its context loaded where the blob unwraps; an accepted command is counted and acknowledged with 0, its sequence is taken, and a reset waits, an evacuation begins or ends. -/
def Obligations.RingCommands : Prop :=
  (∀ (s : State) (p sd q rs : Nat) (f : Frame) (drop : Nat) (ws : List Nat) (u : State), s.runs = true → s.sideTakes p sd = true → f.bcast = false →
     f.dst = s.addr → s.bit .lode 0 F.LODE_ID_ADDR_VALID = true → s.resting = false → s.fromManager f = true → State.readRun 9 (bits f.arg 24 4 + 1) (f.arg
     % 2 ^ 24) 0 (s.freeSlots p sd f) = (drop, ws, u) → ws.length ≤ 16 → q = u.pairFor f.src → rs = (u.pair q).routeSide (u.posOn q f.src) → u.sideUp q rs
     = true → u.ringGet q rs F.RING_LINK_WRAP = 0 → u.ring.egress = [] → (u.side q rs).replay = [] → (u.pair q).paused = [] → 16 ≤ (u.side q
     rs).credits.getD 2 0 → Ends (.regRd p sd f) s (fun t => Msg.frame q rs { ty := 0x09, vc := 2, dst := f.src, src := u.addr, tag := f.tag, arg := drop, payload := ws.flatMap (fun w => leBytes 4 w), dir := 1 - rs }
     ∈ t.out ∧ t.regs = (u.within s).regs ∧ t.tier = u.tier)) ∧
  (∀ (s : State) (p sd q rs : Nat) (f : Frame) (drop : Nat) (u : State), s.runs = true → s.sideTakes p sd = true → f.bcast = false → f.dst = s.addr →
     s.bit .lode 0 F.LODE_ID_ADDR_VALID = true → s.resting = false → s.fromManager f = true → State.writeRun 9 ((List.range (bits f.arg 24 4 + 1)).map (fun
     i => fieldB f.payload (4 * i) 4)) (f.arg % 2 ^ 24) 0 (s.freeSlots p sd f) = (drop, u) → q = u.pairFor f.src → rs = (u.pair q).routeSide (u.posOn q
     f.src) → u.sideUp q rs = true → u.ringGet q rs F.RING_LINK_WRAP = 0 → u.ring.egress = [] → (u.side q rs).replay = [] → (u.pair q).paused = [] → 16 ≤
     (u.side q rs).credits.getD 2 0 → Ends (.regWr p sd f) s (fun t => Msg.frame q rs { ty := 0x09, vc := 2, dst := f.src, src := u.addr, tag := f.tag, arg := drop, dir := 1 - rs }
     ∈ t.out ∧ t.regs = (u.within s).regs ∧ t.tier = u.tier)) ∧
  (∀ (s : State) (p sd : Nat) (f : Frame) (r : Req1), s.runs = true → s.sideTakes p sd = true → f.bcast = false → f.dst = s.addr → s.bit .lode 0
     F.LODE_ID_ADDR_VALID = true → s.resting = false → s.ring.reqs = [r] → r.tag = f.tag → r.frame.ty = 7 → r.frame.arg < 2 ^ 24 → Ends (.regRsp p sd f) s
     (fun t => t.ring.reqs = [] ∧ t.out = s.out ++ [.credit p sd f.vc (frameSlots f)] ++ [.regData s.mgmtAgent r.frame.arg (fieldB f.payload 0 4), .ringAck
     f.tag (f.arg % 65536)] ∧ t.regs = s.regs)) ∧
  (∀ (s : State) (p sd : Nat) (f : Frame), s.runs = true → s.sideTakes p sd = true → f.bcast = false → f.dst = s.addr → s.bit .lode 0
     F.LODE_ID_ADDR_VALID = true → s.resting = false → s.ring.reqs = [] → Ends (.keyAck p sd f) s (fun t => { s.freeSlots p sd f with out := s.out ++ [.credit p sd f.vc (frameSlots f)] ++ [.ringAck f.tag (f.arg % 16)] }
     = t)) ∧
  (∀ (s : State) (p sd : Nat) (f : Frame), s.runs = true → s.sideTakes p sd = true → f.bcast = false → f.dst = s.addr → s.bit .lode 0
     F.LODE_ID_ADDR_VALID = true → s.resting = false → s.ring.reqs = [] → Ends (.cmdAck p sd f) s (fun t => { s.freeSlots p sd f with out := s.out ++ [.credit p sd f.vc (frameSlots f)] ++ [.ringAck f.tag (f.arg % 256)] }
     = t)) ∧
  (∀ (s : State) (p sd : Nat) (f : Frame) (c : Nat), s.runs = true → s.sideTakes p sd = true → f.bcast = false → f.dst = s.addr → s.bit .lode 0
     F.LODE_ID_ADDR_VALID = true → s.resting = false → s.isAncestor f.src = true → strokesSince (BitVec.ofNat 48 (fieldB f.payload 8 6)) s.now < 2048 →
     sget none s.ring.keyXfer f.src = none → s.fabricMac (headerBytes f ++ sliceB f.payload 0 120) (fieldB f.payload 120 8) = true → c = fieldB f.payload 0
     2 % 16384 → c ≠ 0 → s.ctxBusy c = false → Ends (.keyXfer p sd f) s (fun t => sget none t.ring.keyXfer f.src = some (fieldB f.payload 8 6, fieldB
     f.payload 14 2) ∧ (∀ x, x ≠ c → t.ctx x = s.ctx x) ∧ t.get .keys s.primary F.KEYS_STATUS_DONE = 1 ∧ (match (sget none s.secure.keks (fieldB f.payload 6 2)).bind (fun k => unwrapKeys k (sliceB f.payload 16 104)) with | some m => t.get .keys s.primary F.KEYS_STATUS_ERR = 0 ∧ t.ctx c = { valid := true, release := (fieldB f.payload 2 1).testBit 0, prot := (fieldB f.payload 2 1).testBit 1, mask := fieldB f.payload 4 2, keys := m } | none => t.get .keys s.primary F.KEYS_STATUS_ERR = 3 ∧ t.ctx c = s.ctx c))) ∧
  (∀ (s : State) (p sd q rs : Nat) (f : Frame), s.runs = true → s.sideTakes p sd = true → f.bcast = false → f.dst = s.addr → s.bit .lode 0
     F.LODE_ID_ADDR_VALID = true → s.resting = false → s.cmdStatus f.payload = 0 → fieldB f.payload 0 1 = 1 → q = s.pairFor f.src → rs = (s.pair
     q).routeSide (s.posOn q f.src) → s.sideUp q rs = true → s.ringGet q rs F.RING_LINK_WRAP = 0 → s.ring.egress = [] → (s.side q rs).replay = [] → (s.pair
     q).paused = [] → 16 ≤ (s.side q rs).credits.getD 2 0 → Ends (.cmdWarmReset p sd f) s (fun t => t.ring.cmdResets = s.ring.cmdResets ++ [(false, fieldB
     f.payload 5 3 % 2 ^ 18, fieldB f.payload 16 4)] ∧ t.get .lode 0 F.LODE_CMD_LAST_CODE = 1 ∧ t.get .lode 0 F.LODE_CMD_LAST_STATUS = 0 ∧ t.get .lode 0
     F.LODE_CMD_STAT_ACCEPTED = min (2 ^ F.LODE_CMD_STAT_ACCEPTED.w - 1) (s.get .lode 0 F.LODE_CMD_STAT_ACCEPTED + 1) ∧ sget 0 t.ring.cmdSeq (fieldB
     f.payload 5 3 % 2 ^ 18) = fieldB f.payload 16 4 + 1 ∧ Msg.frame q rs { ty := 0x0D, vc := 2, dst := f.src, src := s.addr, tag := f.tag, dir := 1 - rs }
     ∈ t.out)) ∧
  (∀ (s : State) (p sd q rs : Nat) (f : Frame), s.runs = true → s.sideTakes p sd = true → f.bcast = false → f.dst = s.addr → s.bit .lode 0
     F.LODE_ID_ADDR_VALID = true → s.resting = false → s.cmdStatus f.payload = 0 → fieldB f.payload 0 1 = 2 → q = s.pairFor f.src → rs = (s.pair
     q).routeSide (s.posOn q f.src) → s.sideUp q rs = true → s.ringGet q rs F.RING_LINK_WRAP = 0 → s.ring.egress = [] → (s.side q rs).replay = [] → (s.pair
     q).paused = [] → 16 ≤ (s.side q rs).credits.getD 2 0 → Ends (.cmdColdReset p sd f) s (fun t => t.ring.cmdResets = s.ring.cmdResets ++ [(true, fieldB
     f.payload 5 3 % 2 ^ 18, fieldB f.payload 16 4)] ∧ t.get .lode 0 F.LODE_CMD_LAST_CODE = 2 ∧ t.get .lode 0 F.LODE_CMD_LAST_STATUS = 0 ∧ t.get .lode 0
     F.LODE_CMD_STAT_ACCEPTED = min (2 ^ F.LODE_CMD_STAT_ACCEPTED.w - 1) (s.get .lode 0 F.LODE_CMD_STAT_ACCEPTED + 1) ∧ sget 0 t.ring.cmdSeq (fieldB
     f.payload 5 3 % 2 ^ 18) = fieldB f.payload 16 4 + 1 ∧ Msg.frame q rs { ty := 0x0D, vc := 2, dst := f.src, src := s.addr, tag := f.tag, dir := 1 - rs }
     ∈ t.out)) ∧
  (∀ (s : State) (p sd q rs : Nat) (f : Frame), s.runs = true → s.sideTakes p sd = true → f.bcast = false → f.dst = s.addr → s.bit .lode 0
     F.LODE_ID_ADDR_VALID = true → s.resting = false → s.cmdStatus f.payload = 0 → fieldB f.payload 0 1 = 3 → s.tier.lent = [] → ∀ x ∈ s.tier.pmap, x.2.st
     ≠ .spilled → q = s.pairFor f.src → rs = (s.pair q).routeSide (s.posOn q f.src) → s.sideUp q rs = true → s.ringGet q rs F.RING_LINK_WRAP = 0 →
     s.ring.egress = [] → (s.side q rs).replay = [] → (s.pair q).paused = [] → 16 ≤ (s.side q rs).credits.getD 2 0 → Ends (.cmdEvacuate p sd f) s (fun t =>
     t.bit .lode 0 F.LODE_EVAC_EVAC = true ∧ t.ring.evacLeft = (if fieldB f.payload 28 4 = 0 then none else some (fieldB f.payload 28 4)) ∧ (∀ i < 2, t.pairState
     i = if s.pairState i = 4 then 7 else s.pairState i) ∧ t.get .lode 0 F.LODE_CMD_LAST_CODE = 3 ∧ t.get .lode 0 F.LODE_CMD_LAST_STATUS = 0 ∧ t.get .lode
     0 F.LODE_CMD_STAT_ACCEPTED = min (2 ^ F.LODE_CMD_STAT_ACCEPTED.w - 1) (s.get .lode 0 F.LODE_CMD_STAT_ACCEPTED + 1) ∧ sget 0 t.ring.cmdSeq (fieldB
     f.payload 5 3 % 2 ^ 18) = fieldB f.payload 16 4 + 1 ∧ Msg.frame q rs { ty := 0x0D, vc := 2, dst := f.src, src := s.addr, tag := f.tag, dir := 1 - rs }
     ∈ t.out)) ∧
  (∀ (s : State) (p sd q rs : Nat) (f : Frame), s.runs = true → s.sideTakes p sd = true → f.bcast = false → f.dst = s.addr → s.bit .lode 0
     F.LODE_ID_ADDR_VALID = true → s.resting = false → s.cmdStatus f.payload = 0 → fieldB f.payload 0 1 = 4 → q = s.pairFor f.src → rs = (s.pair
     q).routeSide (s.posOn q f.src) → s.sideUp q rs = true → s.ringGet q rs F.RING_LINK_WRAP = 0 → s.ring.egress = [] → (s.side q rs).replay = [] → (s.pair
     q).paused = [] → 16 ≤ (s.side q rs).credits.getD 2 0 → Ends (.cmdCancelEvac p sd f) s (fun t => t.bit .lode 0 F.LODE_EVAC_EVAC = false ∧
     t.ring.evacLeft = none ∧ (∀ i < 2, t.pairState i = if s.pairState i = 7 then 4 else s.pairState i) ∧ t.get .lode 0 F.LODE_CMD_LAST_CODE = 4 ∧ t.get
     .lode 0 F.LODE_CMD_LAST_STATUS = 0 ∧ t.get .lode 0 F.LODE_CMD_STAT_ACCEPTED = min (2 ^ F.LODE_CMD_STAT_ACCEPTED.w - 1) (s.get .lode 0
     F.LODE_CMD_STAT_ACCEPTED + 1) ∧ sget 0 t.ring.cmdSeq (fieldB f.payload 5 3 % 2 ^ 18) = fieldB f.payload 16 4 + 1 ∧ Msg.frame q rs { ty := 0x0D, vc := 2, dst := f.src, src := s.addr, tag := f.tag, dir := 1 - rs }
     ∈ t.out))

/-- Splices, retries, timing and departures (R456, R461, R462, R466, R475, R479, R480). After 64 strokes of holdover the timing upstream moves to the other side when it is up; a splice half pauses its side and sends its probe; a request without an answer is sent once more the other way round and given up after 64 strokes; a revived side is no longer down for good; an evacuation that is done, or whose Sittings have passed, clears EVAC and sets its bit. -/
def Obligations.RingEvents : Prop :=
  (∀ (s : State) (p sd : Nat), s.runs = true → 64 ≤ s.ring.holdoverCount → p = s.get .lode 0 F.LODE_STATE_TIMING_PORT - 1 → sd = s.get .lode 0
     F.LODE_STATE_TIMING_SIDE → sd < 2 → s.sideUp p (1 - sd) = true → Ends .holdoverTimeout s (fun t => t.get .lode 0 F.LODE_STATE_TIMING_SIDE = 1 - sd ∧ { s with ring := { s.ring with holdoverCount := 0 } }.OnlyRegs
     t [bitAddr .lode 0 F.LODE_STATE_TIMING_SIDE])) ∧
  (∀ (s : State) (p dir : Nat) (w : Stroke), s.runs = true → dir < 2 → (s.pair p).window = some w → s.isMember p = true → s.now = halfStart w dir →
     s.sideUp p (1 - dir) = true → (s.side p (1 - dir)).replay = [] → (s.pair p).probing = [] → Ends (.spliceHalfStart p dir) s (fun t => (1 - dir) ∈
     (t.pair p).paused ∧ (t.pair p).probing = [] ∧ t.out = s.out ++ [.oset p (1 - dir) 0xD2 (1 :: (leBytes 6 s.now.toNat).map (fun b => b.toNat) ++
     [s.position p])] ∧ { s with ring := { s.ring with pairs := t.ring.pairs }, out := t.out } = t)) ∧
  (∀ (s : State) (tag : Nat) (r : Req1), s.runs = true → s.ring.reqs = [r] → r.tag = tag → r.retried = false → 8 ≤ strokesSince r.sent s.now → s.sideUp
     r.pair (1 - r.side) = true → s.ringGet r.pair (1 - r.side) F.RING_LINK_WRAP = 0 → s.ring.egress = [] → (s.side r.pair (1 - r.side)).replay = [] →
     (s.pair r.pair).paused = [] → r.frame.payload = [] → r.frame.vc = 1 → r.frame.ty ≠ 0x15 → 1 ≤ (s.side r.pair (1 - r.side)).credits.getD 1 0 → Ends
     (.ringRequestRetry tag) s (fun t => t.ring.reqs = [{ r with retried := true }] ∧ Msg.frame r.pair (1 - r.side) { r.frame with dir := 1 - (1 - r.side) }
     ∈ t.out ∧ t.regs = s.regs)) ∧
  (∀ (s : State) (tag : Nat) (r : Req1), s.runs = true → s.ring.reqs = [r] → r.tag = tag → 64 ≤ strokesSince r.sent s.now → r.frame.ty = 7 → Ends
     (.ringRequestFail tag) s (fun t => { s with ring := { s.ring with reqs := [] } } = t)) ∧
  (∀ (s : State) (agent slab p : Nat), s.runs = true → slab < 2 → p < 2 → s.mayWrite agent .ring slab F.RING_CTL_REVIVE_0 → Ends (.ringRevive agent slab
     (2 ^ p)) s (fun t => t.ringGet p (1 - slab) F.RING_LINK_PERM_DOWN = 0 ∧ t.ringGet p (1 - slab) F.RING_BUCKET_LEVEL = 0 ∧ t.ringGet p (1 - slab)
     F.RING_BUCKET_PERMANENT = 0 ∧ s.OnlyRegs t [bitAddr .ring slab F.RING_LINK_PERM_DOWN p, bitAddr .ring slab F.RING_BUCKET_PERMANENT p, bitAddr .ring
     slab F.RING_BUCKET_LEVEL p])) ∧
  (∀ (s : State), s.runs = true → s.bit .lode 0 F.LODE_EVAC_EVAC = true → s.tier.lent = [] → s.countPages .spilled = 0 → s.tier.moves = [] → s.pairState
     0 ≠ 7 → s.pairState 1 ≠ 7 → Ends .evacDone s (fun t => t.bit .lode 0 F.LODE_EVAC_EVAC = false ∧ t.bit .lode 0 F.LODE_EVAC_DONE = true ∧
     t.ring.evacLeft = none ∧ (t.get .lode 0 F.HDR_INT_STATUS_INT_BLOCK).testBit 5 = true ∧ t.tier = s.tier)) ∧
  (∀ (s : State), s.runs = true → s.bit .lode 0 F.LODE_EVAC_EVAC = true → s.ring.evacLeft = some 0 → s.pairState 0 ≠ 7 → s.pairState 1 ≠ 7 → Ends
     .evacDeadline s (fun t => t.bit .lode 0 F.LODE_EVAC_EVAC = false ∧ t.bit .lode 0 F.LODE_EVAC_INCOMPLETE = true ∧ { s with ring := { s.ring with evacLeft := none } }.OnlyRegs
     t [bitAddr .lode 0 F.LODE_EVAC_EVAC, bitAddr .lode 0 F.LODE_EVAC_INCOMPLETE]))

/-- Spill frames at the donor and at the borrower (R105, R112, R115, R266, R468, R469). A donor with room grants its next handle, stores a page with its last granule, answers its borrower's read with the granules, holds a declined handle and forgets a freed one; a borrower takes a granted handle into its ledger with the next spill sequence, turns the page to spilled when the donor is done, keeps the granules that come back, and begins a recall when the page is returned. -/
def Obligations.RingSpill : Prop :=
  (∀ (s : State) (p sd q rs : Nat) (f : Frame) (g : Nat), s.runs = true → s.sideTakes p sd = true → f.bcast = false → f.dst = s.addr → s.bit .lode 0
     F.LODE_ID_ADDR_VALID = true → s.resting = false → g = f.arg % 8 + 1 → s.mayGrant g = true → g ≤ s.poolFree → s.handleUsed s.ring.nextHandle = false →
     s.ring.nextHandle < 2 ^ 22 → q = s.pairFor f.src → rs = (s.pair q).routeSide (s.posOn q f.src) → s.sideUp q rs = true → s.ringGet q rs
     F.RING_LINK_WRAP = 0 → s.ring.egress = [] → (s.side q rs).replay = [] → (s.pair q).paused = [] → 16 ≤ (s.side q rs).credits.getD 2 0 → Ends (.spillReq
     p sd f) s (fun t => t.ring.granted = s.ring.granted ++ [{ handle := s.ring.nextHandle, borrower := f.src, granules := g, tag := f.tag }] ∧
     t.ring.nextHandle = (s.ring.nextHandle + 1) % 2 ^ 22 ∧ t.tier = s.tier ∧ Msg.frame q rs { ty := 0x11, vc := 2, dst := f.src, src := s.addr, tag := f.tag, arg := s.ring.nextHandle, dir := 1 - rs }
     ∈ t.out)) ∧
  (∀ (s : State) (p sd : Nat) (f : Frame) (j : SpillJob) (m : Move), s.runs = true → s.sideTakes p sd = true → f.bcast = false → f.dst = s.addr → s.bit
     .lode 0 F.LODE_ID_ADDR_VALID = true → s.resting = false → s.ring.spills = [j] → j.tag = f.tag → j.donor = f.src → j.handle = none → f.arg < 2 ^ 22 →
     sget false s.crypto.ledgerUse f.arg = false → s.moveOf j.page = some m → Ends (.spillGrant p sd f) s (fun t => t.ring.spills = [{ j with handle := some f.arg }]
     ∧ sget false t.crypto.ledgerUse f.arg = true ∧ sget 0 t.crypto.ledgerSeq f.arg = s.crypto.spillSeq ∧ t.crypto.spillSeq = s.crypto.spillSeq + 1 ∧
     t.tier.pmap = s.tier.pmap)) ∧
  (∀ (s : State) (p sd : Nat) (f : Frame) (x : Granted), s.runs = true → s.sideTakes p sd = true → f.bcast = false → f.dst = s.addr → s.bit .lode 0
     F.LODE_ID_ADDR_VALID = true → s.resting = false → s.ring.granted = [x] → x.handle = f.arg % 2 ^ 22 → x.borrower = f.src → x.granules = 1 → x.got = []
     → bits f.arg 22 3 = 0 → s.bit .tier 0 F.HDR_STATUS_COMMIT_PENDING = false → Ends (.spillData p sd f) s (fun t => t.ring.granted = [] ∧ t.tier.lent =
     s.tier.lent ++ [{ handle := x.handle, borrower := f.src, granules := 1, data := [f.payload] }] ∧ t.tier.pmap = s.tier.pmap ∧ t.regs = s.regs)) ∧
  (∀ (s : State) (p sd : Nat) (f : Frame) (j : SpillJob) (m : Move), s.runs = true → s.sideTakes p sd = true → f.bcast = false → f.dst = s.addr → s.bit
     .lode 0 F.LODE_ID_ADDR_VALID = true → s.resting = false → s.ring.spills = [j] → j.handle = some (f.arg % 2 ^ 22) → j.donor = f.src → s.tier.moves =
     [m] → m.page = j.page → m.kind = .spill → m.src = .deep → s.hub.slots = [] → s.tier.deferredPins = [] → s.home.reads = [] → s.home.queue = [] →
     s.home.senders = [] → s.home.waiting = [] → s.ring.freeing = [] → Ends (.spillDone p sd f) s (fun t => t.entry j.page = { st := .spilled, heat := 0, epoch := epochOf s.now, ctx := (s.entry j.page).ctx, gm1 := j.granules - 1, pinned := (s.entry j.page).pinned, noSpill := (s.entry j.page).noSpill, handle := f.arg % 2 ^ 22, donor := f.src }
     ∧ t.ring.spills = [] ∧ t.moveOf j.page = none)) ∧
  (∀ (s : State) (p sd q rs : Nat) (f : Frame) (x : Lent) (d : List Byte), s.runs = true → s.sideTakes p sd = true → f.bcast = false → f.dst = s.addr →
     s.bit .lode 0 F.LODE_ID_ADDR_VALID = true → s.resting = false → s.tier.lent = [x] → x.handle = f.arg % 2 ^ 22 → x.borrower = f.src → x.granules = 1 →
     x.data = [d] → d.length ≤ 640 → f.arg.testBit 22 = false → q = s.pairFor f.src → rs = (s.pair q).routeSide (s.posOn q f.src) → s.sideUp q rs = true →
     s.ringGet q rs F.RING_LINK_WRAP = 0 → s.ring.egress = [] → (s.side q rs).replay = [] → (s.pair q).paused = [] → 64 ≤ (s.side q rs).credits.getD 2 0 →
     Ends (.spillRead p sd f) s (fun t => Msg.frame q rs { ty := 0x15, vc := 2, dst := f.src, src := s.addr, tag := f.tag, arg := spillArg x.handle 0 1, payload := d, dir := 1 - rs }
     ∈ t.out ∧ t.tier = s.tier ∧ t.regs = s.regs)) ∧
  (∀ (s : State) (p sd : Nat) (f : Frame) (x : SpillFetch), s.runs = true → s.sideTakes p sd = true → f.bcast = false → f.dst = s.addr → s.bit .lode 0
     F.LODE_ID_ADDR_VALID = true → s.resting = false → s.ring.fetches = [x] → x.tag = f.tag → x.donor = f.src → x.handle = f.arg % 2 ^ 22 → x.got = [] →
     bits f.arg 25 3 = 1 → Ends (.spillRdata p sd f) s (fun t => t.ring.fetches = [{ x with got := [(bits f.arg 22 3, f.payload)] }] ∧ t.home = s.home ∧
     t.tier = s.tier ∧ t.regs = s.regs)) ∧
  (∀ (s : State) (p sd : Nat) (f : Frame) (x : Lent), s.runs = true → s.sideTakes p sd = true → f.bcast = false → f.dst = s.addr → s.bit .lode 0
     F.LODE_ID_ADDR_VALID = true → s.resting = false → s.tier.lent = [x] → x.handle = f.arg % 2 ^ 22 → x.borrower = f.src → s.ring.granted = [] →
     s.ring.declined = [] → Ends (.spillFree p sd f) s (fun t => t.tier.lent = [] ∧ { s.freeSlots p sd f with tier := { s.tier with lent := [] } } = t)) ∧
  (∀ (s : State) (p sd : Nat) (f : Frame) (x : Granted), s.runs = true → s.sideTakes p sd = true → f.bcast = false → f.dst = s.addr → s.bit .lode 0
     F.LODE_ID_ADDR_VALID = true → s.resting = false → s.ring.granted = [x] → x.handle = f.arg % 2 ^ 22 → x.borrower = f.src → Ends (.spillDecline p sd f)
     s (fun t => (x.handle, f.src) ∈ t.ring.declined ∧ (∀ g ∈ t.ring.granted, g.handle ≠ x.handle) ∧ t.tier = s.tier)) ∧
  (∀ (s : State) (p sd : Nat) (f : Frame) (page : Nat) (e : PEntry), s.runs = true → s.sideTakes p sd = true → f.bcast = false → f.dst = s.addr → s.bit
     .lode 0 F.LODE_ID_ADDR_VALID = true → s.resting = false → s.tier.pmap = [(page, e)] → e.st = .spilled → e.handle = f.arg % 2 ^ 22 → e.donor = f.src →
     s.tier.moves = [] → Ends (.spillReturn p sd f) s (fun t => t.entry page = { e with st := .moving } ∧ (t.moveOf page).map (fun m => (m.kind, m.src, m.handle, m.donor))
     = some (.recallDeep, .spilled, e.handle, e.donor)))

/-- The division of a budget, the sensors, Rest and waking (R483, R484, R491, R496, R497, R498, R499, R500, R501, R503, R504). A head divides its budget among itself and the members it knows of; a conversion of the meter or of a request is taken where it belongs; a Rest entry that passes its checks waits for consent, one that fails them is refused, an idle module is named to rest at the next edge and a busy one stops the entry; a sample latches its readings and the first channel past its threshold, or else the ring's latch, wakes the module; a wake event wakes it or aborts an entry; the end of a wake raises READY, clears the regulation debts and sends PM_PME where the wake calls for it. -/
def Obligations.RestAndMeters : Prop :=
  (∀ (s : State) (m a b : Nat) (k : BitVec 64), s.runs = true → s.isHead 0 = true → s.now.toNat % 2048 = 16 + 96 * s.divideDepth → s.ring.divided = false
     → (s.pair 0).held = [(m, k)] → 0 < m → m < 64 → a = min 0xFFFFFFFE (s.get .ledg 0 F.LEDG_USED_INPUT_USED + s.get .ledg 0 F.LEDG_DEFICIT_DEFICIT) → b =
     (match sfind (s.pair 0).reports m with | some e => if (fieldB e 1 1).testBit 0 then min 0xFFFFFFFE (fieldB e 4 4 + fieldB e 8 4) else s.get .ledg 0 F.LEDG_NEW_REQ_REQ | none => s.get .ledg 0 F.LEDG_NEW_REQ_REQ)
     → Ends .budgetDivide s (fun t => t.get .ledg 0 F.LEDG_GRANT_OUT_GRANT = (divide s.subtreeBudget [a, b]).getD 0 0 % 2 ^ 32 ∧ t.get .ledg 0 F.LEDG_GRANT_OUT_GRANT m = (divide s.subtreeBudget [a, b]).getD 1 0 % 2 ^ 32 ∧ (∀ p < 64, p ≠ 0 → p ≠ m → t.get .ledg 0 F.LEDG_GRANT_OUT_GRANT p = 0) ∧ { s with ring := { s.ring with divided := true } }.OnlyRegs t ((List.range 64).map (fun p => bitAddr .ledg 0 F.LEDG_GRANT_OUT_GRANT p)))) ∧
  (∀ (s : State) (ch reading : Nat), s.runs = true → ch ≤ 12 → reading < 2 ^ 32 → s.energy.request = some ch → Ends (.sensorConversion ch reading 3) s
     (fun t => t.get .ledg 0 F.LEDG_SENSOR_READING ch = reading ∧ t.get .ledg 0 F.LEDG_SENSOR_RESULT_READING = reading ∧ t.get .ledg 0
     F.LEDG_STATUS_REQ_BUSY = 0 ∧ t.get .ledg 0 F.LEDG_STATUS_REQ_DONE = 1 ∧ { s with energy := { s.energy with request := none } }.OnlyRegs t [bitAddr
     .ledg 0 F.LEDG_SENSOR_READING ch, bitAddr .ledg 0 F.LEDG_SENSOR_RESULT_READING, bitAddr .ledg 0 F.LEDG_STATUS_REQ_BUSY, bitAddr .ledg 0
     F.LEDG_STATUS_REQ_DONE])) ∧
  (∀ (s : State) (ch reading prev : Nat), s.runs = true → reading < 2 ^ 32 → ch = (if s.restState = 4 then 0 else meterCh s.now) → ch < 9 → prev = (sget
     none s.energy.last ch).getD s.energy.opened → Ends (.sensorConversion ch reading 2) s (fun t => t.get .ledg 0 F.LEDG_SENSOR_READING ch = reading ∧
     sget 0 t.energy.rail ch = sget 0 s.energy.rail ch + reading % 65536 * (reading / 65536) * ((s.tb.elapsed.toNat + 2 ^ 32 - prev) % 2 ^ 32) ∧ sget none
     t.energy.last ch = some s.tb.elapsed.toNat ∧ (∀ x, x ≠ ch → sget 0 t.energy.rail x = sget 0 s.energy.rail x) ∧ (16000 * s.get .ledg 0 F.LEDG_BUDGET_B
     ≤ railEnergy (sget 0 t.energy.rail 0) → t.bit .ledg 0 F.LEDG_STATUS_BUDGET_HIT = true))) ∧
  (∀ (s : State) (reading : Nat), s.runs = true → reading < 2 ^ 32 → s.restState ≠ 4 → meterCh s.now = 9 → Ends (.sensorConversion 9 reading 2) s (fun t
     => t.get .ledg 0 F.LEDG_SENSOR_READING 9 = reading ∧ t.energy.inletMax = some ((s.energy.inletMax.map (fun m => max m (tempOf reading))).getD (tempOf
     reading)) ∧ sget none t.energy.last 9 = some s.tb.elapsed.toNat ∧ { s with energy := t.energy }.OnlyRegs t [bitAddr .ledg 0 F.LEDG_SENSOR_READING 9])) ∧
  (∀ (s : State) (agent ch : Nat), s.runs = true → s.mayWrite agent .ledg 0 F.LEDG_SENSOR_REQ_GO → s.bit .ledg 0 F.LEDG_STATUS_REQ_BUSY = false → ch ≤ 12
     → Ends (.sensorRequest agent ch) s (fun t => t.energy.request = some ch ∧ t.get .ledg 0 F.LEDG_STATUS_REQ_BUSY = 1 ∧ (s.tb.phase = 0 ∨ 96 < s.tb.phase
     → t.get .ledg 0 F.LEDG_STATUS_MP_LOST = 1 ∧ t.get .ledg 0 F.HDR_STATUS_LOST_ARB = 1) ∧ (s.tb.phase ≠ 0 → s.tb.phase ≤ 96 → { s with energy := { s.energy with request := some ch } }.OnlyRegs
     t [bitAddr .ledg 0 F.LEDG_STATUS_REQ_BUSY]))) ∧
  (∀ (s : State) (agent : Nat), s.runs = true → s.mayWrite agent .rest 0 F.REST_CTL_ENTER → s.restState = 0 → s.restCheck = none → s.pwrOf 31 = none →
     Ends (.restEnter agent) s (fun t => t.get .rest 0 F.REST_STATUS_STATE = 2 ∧ t.rest.request = s.now ∧ t.secure.pwr = s.secure.pwr ++ [{ block := 31, action := 3, agent := agent, stamp := s.now }]
     ∧ t.get .own 0 F.OWN_PWR_PENDING_REST = 1 ∧ t.get .own 0 F.OWN_PWR_STAT_DEFERRED = min (2 ^ F.OWN_PWR_STAT_DEFERRED.w - 1) (s.get .own 0
     F.OWN_PWR_STAT_DEFERRED + 1) ∧ (t.get .own 0 F.HDR_INT_STATUS_INT_BLOCK).testBit 2 = true ∧ t.boot = s.boot)) ∧
  (∀ (s : State) (agent reason who unit : Nat), s.runs = true → s.mayWrite agent .rest 0 F.REST_CTL_ENTER → s.restState = 0 → s.restCheck = some (reason, who, unit)
     → Ends (.restEnter agent) s (fun t => t.get .rest 0 F.REST_STATUS_STATE = 0 ∧ sget none t.rest.log (s.rest.nextSeq % 16) = some { seq := s.rest.nextSeq, kind := 1, reason := reason, agent := who, unit := unit, stamp := s.now }
     ∧ sget 0 t.rest.refusedBy who = min 0xFFFF (sget 0 s.rest.refusedBy who + 1) ∧ t.get .rest 0 F.REST_REFUSED_REFUSED = min (2 ^
     F.REST_REFUSED_REFUSED.w - 1) (s.get .rest 0 F.REST_REFUSED_REFUSED + 1) ∧ (t.get .rest 0 F.HDR_INT_STATUS_INT_BLOCK).testBit 0 = true ∧ t.secure =
     s.secure)) ∧
  (∀ (s : State), s.runs = true → s.restState = 3 → s.busyBlock = none → strokesSince s.rest.drainFrom s.now ≤ s.drainMax → Ends .restEntryEdge s (fun t
     => { s with rest := { s.rest with entering := true } } = t)) ∧
  (∀ (s : State) (b : Block) (n : Nat), s.runs = true → s.restState = 3 → s.rest.entering = false → s.drainMax ≤ strokesSince s.rest.drainFrom s.now →
     s.busyBlock = some (b, n) → Ends .restDrainTimeout s (fun t => t.get .rest 0 F.REST_STATUS_STATE = 0 ∧ sget none t.rest.log (s.rest.nextSeq % 16) =
     some { seq := s.rest.nextSeq, kind := 2, reason := 8, agent := 0x40 + Block.id b, unit := n, stamp := s.now } ∧ sget 0 t.rest.abortedBy (0x40 +
     Block.id b) = min 0xFFFF (sget 0 s.rest.abortedBy (0x40 + Block.id b) + 1) ∧ t.get .rest 0 F.REST_REFUSED_ABORTED = min (2 ^ F.REST_REFUSED_ABORTED.w
     - 1) (s.get .rest 0 F.REST_REFUSED_ABORTED + 1) ∧ (t.get .rest 0 F.HDR_INT_STATUS_INT_BLOCK).testBit 1 = true ∧ t.secure = s.secure)) ∧
  (∀ (s : State) (readings : List Nat), s.runs = true → s.restState = 4 → s.bit .rest 0 F.REST_CFG_SKETCH_EN = true → s.now.toNat % max 1 (s.get .rest 0
     F.REST_CFG_SKETCH_PERIOD) = 3 → readings.length = 8 → ∀ n < 8, s.crosses n (readings.getD n 0) = false → s.ring.wakeLatch = false → Ends
     (.sketchSample readings) s (fun t => t.get .rest 0 F.REST_STATUS_STATE = 4 ∧ (∀ n < 8, t.get .ledg 0 F.LEDG_SENSOR_READING (sketchChans.getD n 0) =
     readings.getD n 0 % 2 ^ 32) ∧ t.rest = s.rest ∧ t.ring = s.ring)) ∧
  (∀ (s : State) (readings : List Nat) (n : Nat), s.runs = true → s.restState = 4 → s.bit .rest 0 F.REST_CFG_SKETCH_EN = true → s.now.toNat % max 1
     (s.get .rest 0 F.REST_CFG_SKETCH_PERIOD) = 3 → readings.length = 8 → (List.range 8).find? (fun i => s.crosses i (readings.getD i 0)) = some n → Ends
     (.sketchSample readings) s (fun t => t.get .rest 0 F.REST_STATUS_STATE = 5 ∧ t.get .rest 0 F.REST_WAKE_AGENT = 0x48 ∧ t.get .rest 0
     F.REST_WAKE_CHANNEL = n ∧ t.get .rest 0 F.REST_WAKE_WAKES = min (2 ^ F.REST_WAKE_WAKES.w - 1) (s.get .rest 0 F.REST_WAKE_WAKES + 1) ∧
     t.rest.wakeStroke = s.now ∧ t.rest.pme = true ∧ t.ring.wakeLatch = false ∧ (t.get .rest 0 F.HDR_INT_STATUS_INT_BLOCK).testBit 2 = true)) ∧
  (∀ (s : State) (readings : List Nat), s.runs = true → s.restState = 4 → s.bit .rest 0 F.REST_CFG_SKETCH_EN = true → s.now.toNat % max 1 (s.get .rest 0
     F.REST_CFG_SKETCH_PERIOD) = 3 → readings.length = 8 → ∀ n < 8, s.crosses n (readings.getD n 0) = false → s.ring.wakeLatch = true → Ends (.sketchSample
     readings) s (fun t => t.get .rest 0 F.REST_STATUS_STATE = 5 ∧ t.get .rest 0 F.REST_WAKE_AGENT = 9 ∧ t.get .rest 0 F.REST_WAKE_CHANNEL = 0 ∧
     t.rest.wakeStroke = s.now ∧ t.rest.pme = true ∧ t.ring.wakeLatch = false ∧ (t.get .rest 0 F.HDR_INT_STATUS_INT_BLOCK).testBit 2 = true)) ∧
  (∀ (s : State) (waker : Nat), s.runs = true → isHost waker = true ∨ waker ∈ [0x08, 0x43, 0x46] → s.restState = 4 → Ends (.wakeEvent waker) s (fun t =>
     t.get .rest 0 F.REST_STATUS_STATE = 5 ∧ t.get .rest 0 F.REST_WAKE_AGENT = waker ∧ t.get .rest 0 F.REST_WAKE_CHANNEL = 0 ∧ t.get .rest 0
     F.REST_WAKE_WAKES = min (2 ^ F.REST_WAKE_WAKES.w - 1) (s.get .rest 0 F.REST_WAKE_WAKES + 1) ∧ t.rest.wakeStroke = s.now ∧ t.rest.pme = false ∧ (t.get
     .rest 0 F.HDR_INT_STATUS_INT_BLOCK).testBit 2 = true)) ∧
  (∀ (s : State) (waker : Nat), s.runs = true → isHost waker = true ∨ waker ∈ [0x08, 0x43, 0x46] → 1 ≤ s.restState → s.restState ≤ 3 → Ends (.wakeEvent
     waker) s (fun t => t.get .rest 0 F.REST_STATUS_STATE = 0 ∧ sget none t.rest.log (s.rest.nextSeq % 16) = some { seq := s.rest.nextSeq, kind := 2, reason := 9, agent := waker, unit := 0, stamp := s.now }
     ∧ t.pwrOf 31 = none ∧ t.get .rest 0 F.REST_REFUSED_ABORTED = min (2 ^ F.REST_REFUSED_ABORTED.w - 1) (s.get .rest 0 F.REST_REFUSED_ABORTED + 1) ∧
     (t.get .rest 0 F.HDR_INT_STATUS_INT_BLOCK).testBit 1 = true)) ∧
  (∀ (s : State), s.runs = true → s.restState = 5 → Ends .wakeDone s (fun t => t.get .rest 0 F.REST_STATUS_STATE = 0 ∧ t.get .mod 0 F.MOD_READY_READY = 1
     ∧ t.boot.readyAt = s.now ∧ t.rest.pme = false ∧ (∀ c < 8, t.get .regu 0 F.REGU_LOAD_DEBT_SLOTS c = 0) ∧ (s.rest.pme = true → ∀ a < 16, s.hasAttach a =
     true → (s.att a).d3 = true → Msg.pme a ∈ t.out)))

/-- What the secure processor serves: measurements, keys and debug access (R512, R514, R515, R516, R517, R518, R519, R521, R522, R533). A mailbox message is read and answered in the rings of the mailbox: a slot is reported, slots 5 to 7 are extended, a hand-over is asked for, a context is filled or begins its erase, a nonce is drawn, half a signature is held, and a whole one opens debug access exactly when it verifies; other forms are answered with their status. The register path extends the selected slot; a measurement response is signed; an installed key is held and the event extends slot 4. -/
def Obligations.SecureServices : Prop :=
  (∀ (s : State) (seq slot : Nat), s.runs = true → s.procUp = true → slot < 8 → Ends (.getMeas seq slot) s (fun t => { s with secure := { s.secure with toSec := s.secure.toSec.push 16 (mbxMsg 1 0 seq 0 (leBytes 1 slot)), toMgmt := s.secure.toMgmt.push 16 (mbxMsg 1 1 seq 0 (leBytes 48 (s.measSlot slot).toNat)) } }
     = t)) ∧
  (∀ (s : State) (seq slot : Nat), s.runs = true → s.procUp = true → 8 ≤ slot → Ends (.getMeas seq slot) s (fun t => { s with secure := { s.secure with toSec := s.secure.toSec.push 16 (mbxMsg 1 0 seq 0 (leBytes 1 slot)), toMgmt := s.secure.toMgmt.push 16 (mbxMsg 1 1 seq 2 ([])) } }
     = t)) ∧
  (∀ (s : State) (seq slot : Nat) (digest : BitVec 384), s.runs = true → s.procUp = true → 5 ≤ slot → slot < 8 → Ends (.measExtend seq slot digest) s
     (fun t => t.measSlot slot = sha384 (leBytes 48 (s.measSlot slot).toNat ++ leBytes 48 digest.toNat) ∧ sget 0 t.secure.counts slot = min 0xFFFF (sget 0
     s.secure.counts slot + 1) ∧ (∀ n, n ≠ slot → t.measSlot n = s.measSlot n) ∧ t.secure.toMgmt = s.secure.toMgmt.push 16 (mbxMsg 2 1 seq 0 ([])) ∧ { s with secure := t.secure }
     = t)) ∧
  (∀ (s : State) (seq slot : Nat) (digest : BitVec 384), s.runs = true → s.procUp = true → slot < 5 ∨ 8 ≤ slot → Ends (.measExtend seq slot digest) s
     (fun t => { s with secure := { s.secure with toSec := s.secure.toSec.push 16 (mbxMsg 2 0 seq 0 (leBytes 1 slot ++ leBytes 48 digest.toNat)), toMgmt := s.secure.toMgmt.push 16 (mbxMsg 2 1 seq 2 ([])) } }
     = t)) ∧
  (∀ (s : State) (seq block : Nat), s.runs = true → s.procUp = true → s.bit .own 0 F.OWN_CMD_STATUS_BUSY = false → block ≤ 17 → s.present (ownSlab block)
     = true → s.ownWorld block ≠ 1 → Ends (.mbxAssign seq block true) s (fun t => t.secure.handover = some { block := block, toSecure := true, answer := some (seq, 3) }
     ∧ t.get .own 0 F.OWN_CMD_STATUS_BUSY = 1 ∧ t.secure.toSec = s.secure.toSec.push 16 (mbxMsg 3 0 seq 0 (leBytes 1 block)) ∧ t.secure.toMgmt =
     s.secure.toMgmt ∧ { s with secure := t.secure }.OnlyRegs t [bitAddr .own 0 F.OWN_CMD_STATUS_BUSY])) ∧
  (∀ (s : State) (seq block : Nat), s.runs = true → s.procUp = true → s.bit .own 0 F.OWN_CMD_STATUS_BUSY = false → block ≤ 17 → s.present (ownSlab block)
     = true → s.ownWorld block ≠ 0 → Ends (.mbxRelease seq block true) s (fun t => t.secure.handover = some { block := block, toSecure := false, answer := some (seq, 4) }
     ∧ t.get .own 0 F.OWN_CMD_STATUS_BUSY = 1 ∧ t.secure.toSec = s.secure.toSec.push 16 (mbxMsg 4 0 seq 0 (leBytes 1 block)) ∧ t.secure.toMgmt =
     s.secure.toMgmt ∧ { s with secure := t.secure }.OnlyRegs t [bitAddr .own 0 F.OWN_CMD_STATUS_BUSY])) ∧
  (∀ (s : State) (seq block : Nat), s.runs = true → s.procUp = true → Ends (.mbxAssign seq block false) s (fun t => { s with secure := { s.secure with toSec := s.secure.toSec.push 16 (mbxMsg 3 0 seq 0 (leBytes 1 block)), toMgmt := s.secure.toMgmt.push 16 (mbxMsg 3 1 seq 1 ([])) } }
     = t)) ∧
  (∀ (s : State) (seq block : Nat), s.runs = true → s.procUp = true → Ends (.mbxRelease seq block false) s (fun t => { s with secure := { s.secure with toSec := s.secure.toSec.push 16 (mbxMsg 4 0 seq 0 (leBytes 1 block)), toMgmt := s.secure.toMgmt.push 16 (mbxMsg 4 1 seq 1 ([])) } }
     = t)) ∧
  (∀ (s : State) (seq ctx attrs mask : Nat), s.runs = true → s.procUp = true → s.bit .keys s.primary F.KEYS_STATUS_BUSY = false → 0 < ctx → ctx < 2 ^ 14
     → mask < 2 ^ 16 → s.ctxBusy ctx = false → Ends (.keyCreate seq ctx attrs mask true) s (fun t => t.ctx ctx = { valid := true, release := decide (attrs % 2 ≠ 0), prot := decide (attrs / 2 % 2 ≠ 0), mask := mask, keys := (s.draw 768).1 }
     ∧ (∀ x, x ≠ ctx → t.ctx x = s.ctx x) ∧ t.get .keys s.primary F.KEYS_STATUS_ERR = 0 ∧ t.get .keys s.primary F.KEYS_STATUS_DONE = 1 ∧ t.draws = s.draws
     + 1 ∧ t.secure.toMgmt = s.secure.toMgmt.push 16 (mbxMsg 5 1 seq 0 (leBytes 1 0)))) ∧
  (∀ (s : State) (seq ctx attrs mask : Nat), s.runs = true → s.procUp = true → Ends (.keyCreate seq ctx attrs mask false) s (fun t => { s with secure := { s.secure with toSec := s.secure.toSec.push 16 (mbxMsg 5 0 seq 0 (leBytes 2 ctx ++ leBytes 1 attrs ++ leBytes 2 mask)), toMgmt := s.secure.toMgmt.push 16 (mbxMsg 5 1 seq 1 ([])) } }
     = t)) ∧
  (∀ (s : State) (seq ctx : Nat), s.runs = true → s.procUp = true → s.bit .keys s.primary F.KEYS_STATUS_BUSY = false → 0 < ctx → ctx < 2 ^ 14 → (s.ctx
     ctx).valid = true → Ends (.keyErase seq ctx true) s (fun t => t.crypto.eraseEdge = s.crypto.eraseEdge ++ [(ctx, s.primary)] ∧ t.get .keys s.primary
     F.KEYS_STATUS_BUSY = 1 ∧ t.crypto.ctxs = s.crypto.ctxs ∧ t.secure.toMgmt = s.secure.toMgmt.push 16 (mbxMsg 6 1 seq 0 ([])))) ∧
  (∀ (s : State) (seq ctx : Nat), s.runs = true → s.procUp = true → Ends (.keyErase seq ctx false) s (fun t => { s with secure := { s.secure with toSec := s.secure.toSec.push 16 (mbxMsg 6 0 seq 0 (leBytes 2 ctx)), toMgmt := s.secure.toMgmt.push 16 (mbxMsg 6 1 seq 1 ([])) } }
     = t)) ∧
  (∀ (s : State) (seq : Nat), s.runs = true → s.procUp = true → Ends (.debugNonce seq) s (fun t => t.secure.nonce = some (Config.freeValue 64 s.draws) ∧
     t.secure.part0 = none ∧ t.draws = s.draws + 1 ∧ t.secure.toMgmt = s.secure.toMgmt.push 16 (mbxMsg 7 1 seq 0 (leBytes 8 (Config.freeValue 64
     s.draws).toNat)) ∧ { s with secure := t.secure, draws := t.draws } = t)) ∧
  (∀ (s : State) (seq : Nat) (half : BitVec 384), s.runs = true → s.procUp = true → Ends (.debugOpen seq 0 half) s (fun t => { s with secure := { s.secure with part0 := some half, toSec := s.secure.toSec.push 16 (mbxMsg 8 0 seq 0 (leBytes 1 0 ++ leBytes 48 half.toNat)), toMgmt := s.secure.toMgmt.push 16 (mbxMsg 8 1 seq 0 ([])) } }
     = t)) ∧
  (∀ (s : State) (seq : Nat) (half first : BitVec 384) (n : BitVec 64) (ok : Bool), s.runs = true → s.procUp = true → s.secure.nonce = some n →
     s.secure.part0 = some first → ok = verifySig 1 (leBytes 8 Config.serial.toNat ++ leBytes 8 n.toNat) (leBytes 48 first.toNat ++ leBytes 48 half.toNat)
     → Ends (.debugOpen seq 1 half) s (fun t => t.secure.part0 = none ∧ t.secure.debugAuth = (ok || s.secure.debugAuth) ∧ t.secure.nonce = (if ok then none
     else some n) ∧ (ok = true → t.measSlot 4 = sha384 (leBytes 48 (s.measSlot 4).toNat ++ leBytes 48 (sha384 (leBytes 1 1 ++ leBytes 6 s.now.toNat ++
     leBytes 1 s.secpAgent ++ List.replicate 8 0)).toNat)) ∧ t.secure.toMgmt = s.secure.toMgmt.push 16 (mbxMsg 8 1 seq (if ok then 0 else 1) []) ∧ { s with secure := t.secure }
     = t)) ∧
  (∀ (s : State) (seq part : Nat) (half : BitVec 384), s.runs = true → s.procUp = true → 2 ≤ part → Ends (.debugOpen seq part half) s (fun t => { s with secure := { s.secure with toSec := s.secure.toSec.push 16 (mbxMsg 8 0 seq 0 (leBytes 1 part ++ leBytes 48 half.toNat)), toMgmt := s.secure.toMgmt.push 16 (mbxMsg 8 1 seq 2 ([])) } }
     = t)) ∧
  (∀ (s : State) (seq : Nat) (half : BitVec 384), s.runs = true → s.procUp = true → s.secure.nonce = none ∨ s.secure.part0 = none → Ends (.debugOpen seq
     1 half) s (fun t => { s with secure := { s.secure with part0 := none, toSec := s.secure.toSec.push 16 (mbxMsg 8 0 seq 0 (leBytes 1 1 ++ leBytes 48 half.toNat)), toMgmt := s.secure.toMgmt.push 16 (mbxMsg 8 1 seq 2 ([])) } }
     = t)) ∧
  (∀ (s : State) (agent slab : Nat), s.runs = true → s.mayWrite agent .secp slab F.SECP_DEBUG_OPEN → s.secure.debugAuth = true → Ends (.secpDebugOpen
     agent slab) s (fun t => t.get .secp slab F.SECP_DEBUG_OPEN = 1 ∧ { s with crypto := { s.crypto with debugNext := true } }.OnlyRegs t [bitAddr .secp
     slab F.SECP_DEBUG_OPEN])) ∧
  (∀ (s : State) (agent slab : Nat), s.runs = true → s.mayWrite agent .secp slab F.SECP_DEBUG_OPEN → s.secure.debugAuth = false → Ends (.secpDebugOpen
     agent slab) s (fun t => s = t)) ∧
  (∀ (s : State) (agent slab slot : Nat) (digest : BitVec 384), s.runs = true → s.mayWrite agent .secp slab F.SECP_MEAS_SEL_EXTEND → slab < 2 → slot < 8
     → digest = BitVec.ofNat 384 (leNat ((List.range 12).flatMap (fun w => leBytes 4 (s.get .secp slab F.SECP_MEAS_IN_DIGEST w)))) → Ends (.secpMeasExtend
     agent slab slot) s (fun t => t.measSlot slot = sha384 (leBytes 48 (s.measSlot slot).toNat ++ leBytes 48 digest.toNat) ∧ sget 0 t.secure.counts slot =
     min 0xFFFF (sget 0 s.secure.counts slot + 1) ∧ (∀ n, n ≠ slot → t.measSlot n = s.measSlot n) ∧ (∀ d < 2, t.get .secp d F.SECP_MEAS_SEL_SLOT = slot ∧ ∀
     w < 12, t.get .secp d F.SECP_MEAS_IN_DIGEST w = 0))) ∧
  (∀ (s : State) (index nonce : Nat) (vs : List (BitVec 384)), s.runs = true → s.procUp = true → vs = (if index = 0xFF then (List.range 8).map s.measSlot
     else if 1 ≤ index && index ≤ 8 then [s.measSlot (index - 1)] else []) → Ends (.spdmGetMeasurements index nonce) s (fun t => { s with out := s.out ++ [.spdm index vs (Config.sign (leBytes 1 index ++ vs.flatMap (fun v => leBytes 48 v.toNat) ++ leBytes 32 nonce))] }
     = t)) ∧
  (∀ (s : State) (id : Nat) (key : BitVec 256), s.runs = true → s.procUp = true → id ≤ 15 → Ends (.kekInstall id key) s (fun t => sget none t.secure.keks
     id = some key ∧ (∀ x, x ≠ id → sget none t.secure.keks x = sget none s.secure.keks x) ∧ t.measSlot 4 = sha384 (leBytes 48 (s.measSlot 4).toNat ++
     leBytes 48 (sha384 (leBytes 1 3 ++ leBytes 6 s.now.toNat ++ leBytes 1 s.secpAgent ++ List.replicate 8 0)).toNat) ∧ { s with secure := t.secure } = t)) ∧
  (∀ (s : State) (key : BitVec 256), s.runs = true → s.procUp = true → Ends (.fabricKeyInstall key) s (fun t => t.secure.fabricNext = some key ∧
     t.secure.fabricKey = s.secure.fabricKey ∧ t.measSlot 4 = sha384 (leBytes 48 (s.measSlot 4).toNat ++ leBytes 48 (sha384 (leBytes 1 4 ++ leBytes 6
     s.now.toNat ++ leBytes 1 s.secpAgent ++ List.replicate 8 0)).toNat) ∧ { s with secure := t.secure } = t))

/-- Hand-overs, power requests, the watchdog and the mirror (R508, R522, R523, R524, R526, R527, R528, R529). A hand-over starts where nothing stands against it and fails with its cause otherwise; each of its stages takes it to the next, a block that stays busy too long back to its world; a power request on a secure block is deferred, a second one refused at once; an answer grants or refuses it and its time runs out; the watchdog's period is frozen once enabled, a kick returns its count to 0 and its expiry is an L3 fault of class 0x1B; the returned Slab's mirror is complete. -/
def Obligations.HandOversAndPower : Prop :=
  (∀ (s : State) (agent block : Nat) (toSecure : Bool), s.runs = true → s.mayWrite agent .own 0 F.OWN_CMD_GO → s.bit .own 0 F.OWN_CMD_STATUS_BUSY = false
     → block ≤ 17 → s.present (ownSlab block) = true → s.ownWorld block ≠ b2n toSecure → Ends (.ownHandover agent block toSecure) s (fun t => t.get .own 0
     F.OWN_CMD_STATUS_BUSY = 1 ∧ { s with secure := { s.secure with handover := some { block := block, toSecure := toSecure } } }.OnlyRegs t [bitAddr .own
     0 F.OWN_CMD_STATUS_BUSY])) ∧
  (∀ (s : State) (agent block : Nat) (toSecure : Bool), s.runs = true → s.mayWrite agent .own 0 F.OWN_CMD_GO → s.bit .own 0 F.OWN_CMD_STATUS_BUSY = false
     → 17 < block → Ends (.ownHandover agent block toSecure) s (fun t => t.get .own 0 F.OWN_CMD_STATUS_BUSY = 0 ∧ t.get .own 0 F.OWN_CMD_STATUS_FAILED = 1
     ∧ t.get .own 0 F.OWN_CMD_STATUS_CAUSE = 5 ∧ (t.get .own 0 F.HDR_INT_STATUS_INT_BLOCK).testBit 1 = true ∧ s.OnlyRegsOut t (intAddrs .own 0 ++ [bitAddr
     .own 0 F.OWN_CMD_STATUS_BUSY, bitAddr .own 0 F.OWN_CMD_STATUS_FAILED, bitAddr .own 0 F.OWN_CMD_STATUS_CAUSE]))) ∧
  (∀ (s : State) (agent block : Nat) (toSecure : Bool), s.runs = true → s.mayWrite agent .own 0 F.OWN_CMD_GO → s.bit .own 0 F.OWN_CMD_STATUS_BUSY = false
     → block ≤ 17 → s.present (ownSlab block) = true → s.ownWorld block = b2n toSecure → Ends (.ownHandover agent block toSecure) s (fun t => t.get .own 0
     F.OWN_CMD_STATUS_BUSY = 0 ∧ t.get .own 0 F.OWN_CMD_STATUS_FAILED = 1 ∧ t.get .own 0 F.OWN_CMD_STATUS_CAUSE = 4 ∧ (t.get .own 0
     F.HDR_INT_STATUS_INT_BLOCK).testBit 1 = true ∧ s.OnlyRegsOut t (intAddrs .own 0 ++ [bitAddr .own 0 F.OWN_CMD_STATUS_BUSY, bitAddr .own 0
     F.OWN_CMD_STATUS_FAILED, bitAddr .own 0 F.OWN_CMD_STATUS_CAUSE]))) ∧
  (∀ (s : State) (h : Handover), s.runs = true → s.secure.handover = some h → h.stage = .handing → s.ownIdle h.block = true → strokesSince h.edge s.now ≤
     s.handMax → Ends .handoverIdle s (fun t => { s with secure := { s.secure with handover := some { h with stage := .flushing } } } = t)) ∧
  (∀ (s : State) (h : Handover), s.runs = true → s.secure.handover = some h → h.stage = .handing → s.ownIdle h.block = false → s.handMax ≤ strokesSince
     h.edge s.now → Ends .handoverTimeout s (fun t => { s with secure := { s.secure with handover := some { h with stage := .done, failing := some (h.failing.getD 1) } } }
     = t)) ∧
  (∀ (s : State) (h : Handover), s.runs = true → s.secure.handover = some h → h.stage = .flushing → Ends .handoverFlushDone s (fun t => t.secure.handover
     = some { h with stage := .resetting } ∧ pg (ownBlock h.block).1 (ownBlock h.block).2 ∈ t.blockResets ∧ (16 ≤ h.block → ∀ n ∈ t.codec.active, n / 512 ≠
     h.block - 16))) ∧
  (∀ (s : State) (h : Handover), s.runs = true → s.secure.handover = some h → h.stage = .resetting → pg (ownBlock h.block).1 (ownBlock h.block).2 ∉
     s.blockResets → Ends .handoverResetDone s (fun t => { s with secure := { s.secure with handover := some { h with stage := .done } } } = t)) ∧
  (∀ (s : State) (agent block action : Nat), s.runs = true → block ≤ 17 → isSecp agent = false → action = 1 ∨ action = 2 → s.ownWorld block ≠ 0 →
     s.present (ownSlab block) = true → s.pwrOf block = none → Ends (.powerReq agent block action) s (fun t => t.secure.pwr = s.secure.pwr ++ [{ block := block, action := action, agent := agent, stamp := s.now }]
     ∧ (t.get .own 0 F.OWN_PWR_PENDING_BLOCKS).testBit block = true ∧ t.get .own 0 F.OWN_BLOCK_PWR_PENDING block = 1 ∧ t.get .own 0 F.OWN_PWR_STAT_DEFERRED
     = min (2 ^ F.OWN_PWR_STAT_DEFERRED.w - 1) (s.get .own 0 F.OWN_PWR_STAT_DEFERRED + 1) ∧ (t.get .own 0 F.HDR_INT_STATUS_INT_BLOCK).testBit 2 = true ∧
     t.boot = s.boot)) ∧
  (∀ (s : State) (agent block action : Nat) (p : PwrReq), s.runs = true → block ≤ 17 → isSecp agent = false → action = 1 ∨ action = 2 → s.ownWorld block
     ≠ 0 → s.present (ownSlab block) = true → s.pwrOf block = some p → Ends (.powerReq agent block action) s (fun t => t.get .own 0 F.OWN_PWR_STAT_REFUSED
     = min (2 ^ F.OWN_PWR_STAT_REFUSED.w - 1) (s.get .own 0 F.OWN_PWR_STAT_REFUSED + 1) ∧ s.OnlyRegs t [bitAddr .own 0 F.OWN_PWR_STAT_REFUSED])) ∧
  (∀ (s : State) (agent block : Nat) (p : PwrReq), s.runs = true → s.mayWrite agent .own 0 F.OWN_PWR_ANSWER_GO → s.pwrOf block = some p → p.granted =
     false → s.pwrAge p < s.deferMax → Ends (.powerAnswer agent block true) s (fun t => { s with secure := { s.secure with pwr := s.secure.pwr.map (fun x => if x.block = block then { x with granted := true } else x) } }
     = t)) ∧
  (∀ (s : State) (agent block : Nat) (p : PwrReq), s.runs = true → s.mayWrite agent .own 0 F.OWN_PWR_ANSWER_GO → s.pwrOf block = some p → p.granted =
     false → s.pwrAge p < s.deferMax → block ≤ 17 → s.gateOn block = none → Ends (.powerAnswer agent block false) s (fun t => t.secure.pwr =
     s.secure.pwr.filter (fun x => x.block ≠ block) ∧ t.get .own 0 F.OWN_BLOCK_PWR_PENDING block = 0 ∧ t.get .own 0 F.OWN_PWR_STAT_REFUSED = min (2 ^
     F.OWN_PWR_STAT_REFUSED.w - 1) (s.get .own 0 F.OWN_PWR_STAT_REFUSED + 1) ∧ t.boot = s.boot)) ∧
  (∀ (s : State) (agent : Nat) (p : PwrReq), s.runs = true → s.mayWrite agent .own 0 F.OWN_PWR_ANSWER_GO → s.pwrOf 31 = some p → p.granted = false →
     s.pwrAge p < s.deferMax → Ends (.powerAnswer agent 31 false) s (fun t => t.secure.pwr = s.secure.pwr.filter (fun x => x.block ≠ 31) ∧ t.get .rest 0
     F.REST_STATUS_STATE = 0 ∧ sget none t.rest.log (s.rest.nextSeq % 16) = some { seq := s.rest.nextSeq, kind := 1, reason := 6, agent := s.secpAgent, unit := 0, stamp := s.now }
     ∧ t.get .own 0 F.OWN_PWR_STAT_REFUSED = min (2 ^ F.OWN_PWR_STAT_REFUSED.w - 1) (s.get .own 0 F.OWN_PWR_STAT_REFUSED + 1) ∧ t.get .rest 0
     F.REST_REFUSED_REFUSED = min (2 ^ F.REST_REFUSED_REFUSED.w - 1) (s.get .rest 0 F.REST_REFUSED_REFUSED + 1))) ∧
  (∀ (s : State) (block : Nat) (p : PwrReq), s.runs = true → s.pwrOf block = some p → p.granted = false → s.deferMax ≤ s.pwrAge p → block ≤ 17 → s.gateOn
     block = none → Ends (.powerReqTimeout block) s (fun t => t.secure.pwr = s.secure.pwr.filter (fun x => x.block ≠ block) ∧ t.get .own 0
     F.OWN_PWR_STAT_REFUSED = min (2 ^ F.OWN_PWR_STAT_REFUSED.w - 1) (s.get .own 0 F.OWN_PWR_STAT_REFUSED + 1) ∧ (t.get .own 0
     F.HDR_INT_STATUS_INT_BLOCK).testBit 3 = true ∧ t.boot = s.boot)) ∧
  (∀ (s : State) (agent slab period : Nat), s.runs = true → s.mayWrite agent .secp slab F.SECP_WDOG_CTL_ENABLE → slab < 2 → period < 256 → Ends
     (.wdogEnable agent slab period) s (fun t => (∀ d < 2, t.get .secp d F.SECP_WDOG_CTL_ENABLE = 1 ∧ t.get .secp d F.SECP_WDOG_CTL_PERIOD = if s.bit .secp
     slab F.SECP_WDOG_CTL_ENABLE then s.get .secp d F.SECP_WDOG_CTL_PERIOD else period) ∧ s.OnlyRegs t ((List.range 2).flatMap (fun d => [bitAddr .secp d
     F.SECP_WDOG_CTL_ENABLE, bitAddr .secp d F.SECP_WDOG_CTL_PERIOD])))) ∧
  (∀ (s : State) (agent slab : Nat), s.runs = true → s.mayWrite agent .secp slab F.SECP_WDOG_KICK_KICK → Ends (.wdogKick agent slab) s (fun t => (∀ d <
     2, t.get .secp d F.SECP_WDOG_STATUS_ELAPSED = 0) ∧ s.OnlyRegs t [bitAddr .secp 0 F.SECP_WDOG_STATUS_ELAPSED, bitAddr .secp 1
     F.SECP_WDOG_STATUS_ELAPSED])) ∧
  (∀ (s : State) (l : Nat × Nat), s.runs = true → s.secure.wdogDue = true → s.wireOk { cls := 0x1B, block := Block.id .secp, inst := s.primary, loc := locOf .secp s.primary }
     = true → l = (s.nextSeq, 3) → Ends .wdogExpire s (fun t => t.secure.wdogDue = false ∧ sget none t.faults.pend 0x1B = some l ∧ t.nextSeq = (s.nextSeq +
     1) % 65536 ∧ t.boot.requests = s.boot.requests ++ [{ cold := classCold 0x1B, cause := 0x09, l3 := true }] ∧ t.faults.fatalPending = true ∧ t.tier =
     s.tier)) ∧
  (∀ (s : State), s.runs = true → s.secure.mirroring = true → s.boot.absent = [] → Ends .mirrorCopyDone s (fun t => t.secure.mirroring = false ∧
     t.secure.mems = copyPersistent s.secure.mems s.primary (1 - s.primary) ∧ (∀ d < 2, t.get .secp d F.SECP_STATUS_MIRROR_OK = 1) ∧ { s with secure := t.secure }.OnlyRegs
     t [bitAddr .secp 0 F.SECP_STATUS_MIRROR_OK, bitAddr .secp 1 F.SECP_STATUS_MIRROR_OK]))

/-- The switch, the current limit and power-good (R563, R566, R567, R568, R577). At the 12 A limit the fault timer runs and PWR_GOOD falls; below it the timer returns to 0 and LIMIT_EVENTS counts the episode; power-good rises from a closed switch, its first rise starts the rail sequence and a later one leaves the rails; each finished step brings up its rails and starts the next. Nothing but the supervisor changes, but for the interrupt of a powered hub. -/
def Obligations.SwitchAndPowerGood : Prop :=
  (∀ (s : State), s.sup.st = .ramp ∨ s.sup.st = .on → Ends .currentLimit s (fun t => t.sup.st = .limit ∧ t.sup.timerRun = true ∧ t.sup.pg = false ∧
     t.sup.rails = s.sup.rails ∧ t.sup.step = s.sup.step ∧ s.OnlySup t)) ∧
  (∀ (s : State), s.sup.st = .limit → Ends .limitClear s (fun t => t.sup.st = .ramp ∧ t.sup.timerRun = false ∧ t.sup.limitEvents = min 65535
     (s.sup.limitEvents + 1) ∧ t.sup.rails = s.sup.rails ∧ t.sup.count = s.sup.count ∧ (s.boot.powered = false → s.OnlySup t) ∧ (s.boot.powered = true →
     (t.get .psup 0 F.HDR_INT_STATUS_INT_BLOCK).testBit 0 = true))) ∧
  (∀ (s : State), s.sup.st = .ramp → s.sup.switchOn = true → s.sup.inputOk = true → s.sup.timerRun = false → Ends .powerGoodRise s (fun t => t.sup.st =
     .on ∧ t.sup.pg = true ∧ t.sup.pgOnce = true ∧ t.sup.rails = s.sup.rails ∧ (s.sup.pgOnce = false → t.sup.step = 1 ∧ s.OnlySup t) ∧ (s.sup.pgOnce = true
     → t.sup.step = s.sup.step ∧ (s.boot.powered = true → (t.get .psup 0 F.HDR_INT_STATUS_INT_BLOCK).testBit 1 = true)))) ∧
  (∀ (s : State), s.sup.st.closed = true → 1 ≤ s.sup.step → s.sup.step ≤ 6 → Ends .railStepDone s (fun t => t.sup.rails = s.sup.rails ||| stepRails
     s.sup.step ∧ t.sup.step = s.sup.step + 1 ∧ t.sup.st = s.sup.st ∧ t.sup.released = s.sup.released ∧ s.OnlySup t))

/-- What a fault of the front end does (R564, R565, R569, R572, R574, R576, R578). A fault-timer expiry, a fast trip or a rail sequence fault opens the switch, disables every converter, drives PWR_GOOD low and adds 1 to FAULT_COUNT, which stays at 6; faults 1 to 5 are followed by a cool-down of 500 units of 10 ms, the sixth latches off; the hub loses power. A damaged pass transistor holds the switch open, and an input out of range opens it, both without a change of FAULT_COUNT. -/
def Obligations.FrontEndFaults : Prop :=
  (∀ (s : State) (vin : Nat), s.sup.st = .limit → Ends (.faultTimerExpire vin) s (fun t => t.sup.down ∧ t.sup.count = min 6 (s.sup.count + 1) ∧
     t.sup.trips = min 65535 (s.sup.trips + 1) ∧ t.sup.mem.valid = true ∧ t.sup.mem.coolLeft = 500 ∧ t.sup.mem.vin = vin ∧ (s.sup.count < 5 → t.sup.st =
     .cool ∧ t.sup.mem.cause = 1 ∧ t.sup.mem.latched = false) ∧ (5 ≤ s.sup.count → t.sup.st = .latched ∧ t.sup.mem.cause = 6 ∧ t.sup.mem.latched = true) ∧
     s.OnlyCut t)) ∧
  (∀ (s : State) (vin : Nat), s.sup.st.closed = true → Ends (.fastTrip vin) s (fun t => t.sup.down ∧ t.sup.count = min 6 (s.sup.count + 1) ∧ t.sup.trips
     = min 65535 (s.sup.trips + 1) ∧ t.sup.mem.valid = true ∧ t.sup.mem.coolLeft = 500 ∧ t.sup.mem.vin = vin ∧ (s.sup.count < 5 → t.sup.st = .cool ∧
     t.sup.mem.cause = 2 ∧ t.sup.mem.latched = false) ∧ (5 ≤ s.sup.count → t.sup.st = .latched ∧ t.sup.mem.cause = 6 ∧ t.sup.mem.latched = true) ∧
     s.OnlyCut t)) ∧
  (∀ (s : State) (rail vin : Nat), s.sup.st.closed = true → 0 < s.sup.step → Ends (.railSequenceFault rail vin) s (fun t => t.sup.failed = 2 ^ rail ∧
     (s.sup.count < 5 → t.sup.mem.rail = rail) ∧ t.sup.down ∧ t.sup.count = min 6 (s.sup.count + 1) ∧ t.sup.trips = min 65535 (s.sup.trips + 1) ∧
     t.sup.mem.valid = true ∧ t.sup.mem.coolLeft = 500 ∧ t.sup.mem.vin = vin ∧ (s.sup.count < 5 → t.sup.st = .cool ∧ t.sup.mem.cause = 8 ∧
     t.sup.mem.latched = false) ∧ (5 ≤ s.sup.count → t.sup.st = .latched ∧ t.sup.mem.cause = 6 ∧ t.sup.mem.latched = true) ∧ s.OnlyCut t)) ∧
  (∀ (s : State) (vin : Nat), s.sup.auxUp = true → s.sup.switchOn = false → s.sup.st ≠ .fetFault → Ends (.fetBad vin) s (fun t => t.sup.st = .fetFault ∧
     t.sup.down ∧ t.sup.mem.fetBad = true ∧ t.sup.mem.valid = true ∧ t.sup.mem.cause = 5 ∧ t.sup.mem.vin = vin ∧ t.sup.count = s.sup.count ∧ s.OnlyCut t)) ∧
  (∀ (s : State) (high : Bool) (vin : Nat), s.sup.st.closed = true → Ends (.inputOutOfRange high vin) s (fun t => t.sup.st = .off ∧ t.sup.down ∧
     t.sup.inputOk = false ∧ t.sup.count = s.sup.count ∧ t.sup.mem.cause = (if high then 4 else 3) ∧ t.sup.mem.vin = vin ∧ s.OnlyCut t))

/-- How the supervisor closes the switch again (R569, R570, R571, R574, R575, R581). The enable and the input range close the switch from WAIT_EN; the end of a cool-down is a retry; the clean time returns FAULT_COUNT to 0; the thermal memory counts COOL_LEFT down while the auxiliary rail is away; the auxiliary rail reads the store on its rise and takes the supervisor to OFF when it fails; a deasserted enable opens the switch. -/
def Obligations.SupervisorStates : Prop :=
  (∀ (s : State) (inputOk memValid : Bool), s.sup.auxUp = false → s.sup.mem.fetBad = false → s.sup.mem.latched = false → s.sup.mem.coolLeft = 0 →
     s.sup.en = true → Ends (.auxRailUp inputOk memValid) s (fun t => t.sup.auxUp = true ∧ t.sup.inputOk = inputOk ∧ (inputOk = true → t.sup.st = .ramp ∧
     t.sup.switchOn = true ∧ t.sup.mem.valid = true ∧ t.sup.count = (if memValid then s.sup.mem.count else 0)) ∧ (inputOk = false → t.sup.st = s.sup.st) ∧
     s.OnlySup t)) ∧
  (∀ (s : State), Ends .auxRailDown s (fun t => t.sup.st = .off ∧ t.sup.down ∧ t.sup.auxUp = false ∧ t.sup.mem = s.sup.mem ∧ t.boot.powered = false ∧
     t.faults.lastFatal = none ∧ t.boot.coldCount = 0 ∧ t.regs = s.regs)) ∧
  (∀ (s : State) (lowMs : Nat), s.sup.st = .waitEn → s.sup.inputOk = true → Ends (.pwrEnAssert lowMs) s (fun t => t.sup.en = true ∧ t.sup.st = .ramp ∧
     t.sup.switchOn = true ∧ s.OnlySup t)) ∧
  (∀ (s : State) (lowMs : Nat), s.sup.st = .latched → 10 ≤ lowMs → s.sup.inputOk = true → Ends (.pwrEnAssert lowMs) s (fun t => t.sup.en = true ∧
     t.sup.count = 0 ∧ t.sup.mem.latched = false ∧ (0 < s.sup.mem.coolLeft → t.sup.st = .cool) ∧ (s.sup.mem.coolLeft = 0 → t.sup.st = .ramp) ∧ s.OnlySup t)) ∧
  (∀ (s : State), s.sup.st.closed = true → Ends .pwrEnDeassert s (fun t => t.sup.en = false ∧ t.sup.st = .waitEn ∧ t.sup.down ∧ t.sup.count = s.sup.count
     ∧ s.OnlyCut t)) ∧
  (∀ (s : State), s.sup.auxUp = true → s.sup.st = .waitEn → s.sup.en = true → Ends .inputInRange s (fun t => t.sup.inputOk = true ∧ t.sup.st = .ramp ∧
     t.sup.switchOn = true ∧ s.OnlySup t)) ∧
  (∀ (s : State), s.sup.st = .cool → Ends .coolDownEnd s (fun t => t.sup.mem.coolLeft = 0 ∧ t.sup.count = s.sup.count ∧ (s.sup.en = true → s.sup.inputOk
     = true → t.sup.st = .ramp ∧ t.sup.switchOn = true) ∧ (s.sup.en = false → t.sup.st = .waitEn ∧ t.sup.switchOn = s.sup.switchOn) ∧ s.OnlySup t)) ∧
  (∀ (s : State), s.sup.st = .on → s.sup.pg = true → s.sup.timerRun = false → Ends .cleanTimeExpire s (fun t => t.sup.count = 0 ∧ t.sup.mem.count = 0 ∧
     t.sup.st = .on ∧ s.OnlySup t)) ∧
  (∀ (s : State), s.sup.auxUp = false ∨ s.sup.st = .cool ∨ s.sup.st = .latched → Ends .thermalMemoryTick s (fun t => t.sup.mem.coolLeft =
     s.sup.mem.coolLeft - 1 ∧ t.sup.st = s.sup.st ∧ s.OnlySup t))

/-- Reports, broken wires, acknowledgements, the Seam's buckets and the clocks (R536, R537, R539, R540, R544, R547, R549, R551, R552, R601, R603, R604). A report is recorded with its phase, pending at its level; a broken wire is recorded once, with the fault of its level and its reaction; an acknowledgement ends the classes whose newest record it covers; each event of a lane group adds its weight, and a bucket at its threshold declares a permanent fault of class 0x1C; a lost clock is shown and a timebase's is an L3 fault; a lost reference is shown and, in mode 0b00, HOLDOVER; a gate takes effect on an idle domain, is refused on a busy one, and waits for the secure engines of its domain. -/
def Obligations.FaultsAndClocks : Prop :=
  (∀ (s : State) (r : Rep) (lvl : Nat), s.runs = true → s.wireOk r = true → r.checker = false → isAlarmRep r = false → r.cls ∉ [0x02, 0x03, 0x07, 0x14, 0x19]
     → lvl = (if (sget none s.faults.pend r.cls).isSome then classBase r + 1 else classBase r) → lvl ≤ 1 → s.home.queue = [] → s.home.senders = [] →
     s.home.waiting = [] → s.home.unknown = [] → s.ring.freeing = [] → Ends (.errorReport [r]) s (fun t => sget none t.faults.pend r.cls = some (s.nextSeq, lvl)
     ∧ (sfind t.faults.hq (s.nextSeq % 32)).map (fun (x : FRec) => (x.seq, x.cls, x.level, x.stamp, x.phase, x.block, x.inst)) = some (s.nextSeq, r.cls, lvl, s.now, r.phase, r.block, r.inst)
     ∧ t.nextSeq = (s.nextSeq + 1) % 65536 ∧ t.get .flt 0 F.FLT_STATUS_LAST_SEQ = s.nextSeq % 65536 ∧ t.get .flt 0 F.FLT_STATUS_ANY = 1 ∧ t.tb.phase = max
     s.tb.phase (min r.phase (s.tb.len - 1)) ∧ t.tier = s.tier)) ∧
  (∀ (s : State) (block inst loc phase : Nat) (b : Block), s.runs = true → blockOfId block = some b → b ∉ [Block.chan, .port, .ring, .qeng, .ofld] →
     (block, inst, loc) ∉ s.faults.broken → inst < 256 → loc < 4 → s.home.queue = [] → s.home.senders = [] → s.home.waiting = [] → s.home.unknown = [] →
     s.ring.freeing = [] → Ends (.wireBroken block inst loc phase) s (fun t => (block, inst, loc) ∈ t.faults.broken ∧ t.get .flt 0 F.FLT_WIRE_BROKEN = min
     (2 ^ F.FLT_WIRE_BROKEN.w - 1) (s.get .flt 0 F.FLT_WIRE_BROKEN + 1) ∧ t.get .flt 0 F.FLT_WIRE_LAST_BLOCK = block % 256 ∧ t.get .flt 0
     F.FLT_WIRE_LAST_INSTANCE = inst ∧ t.get .flt 0 F.FLT_WIRE_LAST_LOCATION = loc ∧ (sfind t.faults.hq (s.nextSeq % 32)).map (fun (x : FRec) => (x.seq, x.cls, x.level, x.stamp, x.phase, x.block, x.inst))
     = some (s.nextSeq, 0x1E, 3, s.now, phase, block, inst) ∧ sget none t.faults.pend 0x1E = some (s.nextSeq, 3) ∧ t.boot.requests = s.boot.requests ++ [{ cold := classCold 0x1E, cause := if classCold 0x1E then 0x08 else 0x07, l3 := true }]
     ∧ (t.get .flt 0 F.HDR_INT_STATUS_INT_BLOCK).testBit 4 = true ∧ t.tb.phase = max s.tb.phase (min phase (s.tb.len - 1)))) ∧
  (∀ (s : State) (block n loc phase : Nat), s.runs = true → blockOfId block = some .chan → (block, n, loc) ∉ s.faults.broken → sget none s.faults.pend
     0x1E = none → s.retOfs (n / 8) = some (n % 8) → n < 128 → s.home.queue = [] → s.home.senders = [] → s.home.waiting = [] → s.home.unknown = [] →
     s.ring.freeing = [] → Ends (.wireBroken block n loc phase) s (fun t => (block, n, loc) ∈ t.faults.broken ∧ sget none t.faults.pend 0x1E = some
     (s.nextSeq, 2) ∧ t.get .flt 0 F.FLT_WIRE_BROKEN = min (2 ^ F.FLT_WIRE_BROKEN.w - 1) (s.get .flt 0 F.FLT_WIRE_BROKEN + 1) ∧ t.get .chan n
     F.CHAN_STATUS_RETIRED = 1 ∧ t.boot.requests = s.boot.requests)) ∧
  (∀ (s : State) (agent cls seq n l : Nat), s.runs = true → s.mayWrite agent .flt 0 F.FLT_ACK_CLASS → sget none s.faults.pend cls = some (n, l) → Ends
     (.fltAck agent cls seq false) s (fun t => sget none t.faults.pend cls = (if seqLe n seq then none else some (n, l)) ∧ (∀ x, x ≠ cls → sget none
     t.faults.pend x = sget none s.faults.pend x) ∧ t.faults.hq = s.faults.hq.map (fun x => if x.2.cls = cls && seqLe x.2.seq seq then (x.1, { x.2 with acked := true })
     else x) ∧ { s with faults := t.faults } = t)) ∧
  (∀ (s : State) (agent cls seq : Nat), s.runs = true → s.mayWrite agent .flt 0 F.FLT_ACK_CLASS → Ends (.fltAck agent cls seq true) s (fun t => (∀ c <
     256, ∀ x, sget none s.faults.pend c = some x → sget none t.faults.pend c = if seqLe x.1 seq then none else some x) ∧ { s with faults := t.faults } =
     t)) ∧
  (∀ (s : State) (slab g lvl : Nat), s.runs = true → slab < 2 → g < 18 → lvl = min 0xFFFF (s.get .seam slab F.SEAM_BUCKET_LEVEL g + 256 * s.get .seam
     slab F.SEAM_BUCKET_CFG_W_CRC) → lvl < 256 * s.get .seam slab F.SEAM_BUCKET_CFG_THRESH ∨ s.bit .seam slab F.SEAM_BUCKET_PERMANENT g = true → Ends
     (.seamReplay slab g) s (fun t => t.get .seam slab F.SEAM_BUCKET_LEVEL g = lvl ∧ t.get .seam slab F.SEAM_REPLAY_COUNT = min (2 ^ F.SEAM_REPLAY_COUNT.w
     - 1) (s.get .seam slab F.SEAM_REPLAY_COUNT + 1) ∧ (t.get .seam slab F.HDR_INT_STATUS_INT_BLOCK).testBit 0 = true ∧ t.get .seam slab
     F.SEAM_CRC_ERR_COUNT = min (2 ^ F.SEAM_CRC_ERR_COUNT.w - 1) (s.get .seam slab F.SEAM_CRC_ERR_COUNT + 1) ∧ s.OnlyRegsOut t (intAddrs .seam slab ++
     [bitAddr .seam slab F.SEAM_BUCKET_LEVEL g, bitAddr .seam slab F.SEAM_REPLAY_COUNT, bitAddr .seam slab F.SEAM_CRC_ERR_COUNT]))) ∧
  (∀ (s : State) (slab g lvl : Nat), s.runs = true → slab < 2 → g < 18 → lvl = min 0xFFFF (s.get .seam slab F.SEAM_BUCKET_LEVEL g + 256 * s.get .seam
     slab F.SEAM_BUCKET_CFG_W_CRC) → 256 * s.get .seam slab F.SEAM_BUCKET_CFG_THRESH ≤ lvl → s.bit .seam slab F.SEAM_BUCKET_PERMANENT g = false →
     s.faults.broken = [] → Ends (.seamReplay slab g) s (fun t => t.get .seam slab F.SEAM_BUCKET_LEVEL g = lvl ∧ t.get .seam slab F.SEAM_REPLAY_COUNT = min
     (2 ^ F.SEAM_REPLAY_COUNT.w - 1) (s.get .seam slab F.SEAM_REPLAY_COUNT + 1) ∧ (t.get .seam slab F.HDR_INT_STATUS_INT_BLOCK).testBit 0 = true ∧ t.get
     .seam slab F.SEAM_CRC_ERR_COUNT = min (2 ^ F.SEAM_CRC_ERR_COUNT.w - 1) (s.get .seam slab F.SEAM_CRC_ERR_COUNT + 1) ∧ t.get .seam slab
     F.SEAM_BUCKET_PERMANENT g = 1 ∧ (t.get .seam slab F.SEAM_MAP_FAILED).testBit g = true ∧ sget none t.faults.pend 0x1C = some (s.nextSeq, 3) ∧
     t.boot.requests = s.boot.requests ++ [{ cold := classCold 0x1C, cause := if classCold 0x1C then 0x08 else 0x07, l3 := true }] ∧ (t.get .seam slab
     F.HDR_INT_STATUS_INT_BLOCK).testBit 1 = true)) ∧
  (∀ (s : State) (slab g lvl : Nat), s.runs = true → slab < 2 → g < 18 → lvl = min 0xFFFF (s.get .seam slab F.SEAM_BUCKET_LEVEL g + 256 * s.get .seam
     slab F.SEAM_BUCKET_CFG_W_TIMEOUT) → lvl < 256 * s.get .seam slab F.SEAM_BUCKET_CFG_THRESH ∨ s.bit .seam slab F.SEAM_BUCKET_PERMANENT g = true → Ends
     (.seamReplayTimeout slab g) s (fun t => t.get .seam slab F.SEAM_BUCKET_LEVEL g = lvl ∧ t.get .seam slab F.SEAM_REPLAY_COUNT = min (2 ^
     F.SEAM_REPLAY_COUNT.w - 1) (s.get .seam slab F.SEAM_REPLAY_COUNT + 1) ∧ (t.get .seam slab F.HDR_INT_STATUS_INT_BLOCK).testBit 0 = true ∧ s.OnlyRegsOut
     t (intAddrs .seam slab ++ [bitAddr .seam slab F.SEAM_BUCKET_LEVEL g, bitAddr .seam slab F.SEAM_REPLAY_COUNT]))) ∧
  (∀ (s : State) (slab g lvl : Nat), s.runs = true → slab < 2 → g < 18 → lvl = min 0xFFFF (s.get .seam slab F.SEAM_BUCKET_LEVEL g + 256 * s.get .seam
     slab F.SEAM_BUCKET_CFG_W_TIMEOUT) → 256 * s.get .seam slab F.SEAM_BUCKET_CFG_THRESH ≤ lvl → s.bit .seam slab F.SEAM_BUCKET_PERMANENT g = false →
     s.faults.broken = [] → Ends (.seamReplayTimeout slab g) s (fun t => t.get .seam slab F.SEAM_BUCKET_LEVEL g = lvl ∧ t.get .seam slab
     F.SEAM_REPLAY_COUNT = min (2 ^ F.SEAM_REPLAY_COUNT.w - 1) (s.get .seam slab F.SEAM_REPLAY_COUNT + 1) ∧ (t.get .seam slab
     F.HDR_INT_STATUS_INT_BLOCK).testBit 0 = true ∧ t.get .seam slab F.SEAM_BUCKET_PERMANENT g = 1 ∧ (t.get .seam slab F.SEAM_MAP_FAILED).testBit g = true
     ∧ sget none t.faults.pend 0x1C = some (s.nextSeq, 3) ∧ t.boot.requests = s.boot.requests ++ [{ cold := classCold 0x1C, cause := if classCold 0x1C then 0x08 else 0x07, l3 := true }]
     ∧ (t.get .seam slab F.HDR_INT_STATUS_INT_BLOCK).testBit 1 = true)) ∧
  (∀ (s : State) (slab g lvl : Nat), s.runs = true → slab < 2 → g < 18 → lvl = min 0xFFFF (s.get .seam slab F.SEAM_BUCKET_LEVEL g + 256 * s.get .seam
     slab F.SEAM_BUCKET_CFG_W_LOCK) → lvl < 256 * s.get .seam slab F.SEAM_BUCKET_CFG_THRESH ∨ s.bit .seam slab F.SEAM_BUCKET_PERMANENT g = true → Ends
     (.seamLockLoss slab g) s (fun t => t.get .seam slab F.SEAM_BUCKET_LEVEL g = lvl ∧ s.OnlyRegs t [bitAddr .seam slab F.SEAM_BUCKET_LEVEL g])) ∧
  (∀ (s : State) (slab g lvl : Nat), s.runs = true → slab < 2 → g < 18 → lvl = min 0xFFFF (s.get .seam slab F.SEAM_BUCKET_LEVEL g + 256 * s.get .seam
     slab F.SEAM_BUCKET_CFG_W_LOCK) → 256 * s.get .seam slab F.SEAM_BUCKET_CFG_THRESH ≤ lvl → s.bit .seam slab F.SEAM_BUCKET_PERMANENT g = false →
     s.faults.broken = [] → Ends (.seamLockLoss slab g) s (fun t => t.get .seam slab F.SEAM_BUCKET_LEVEL g = lvl ∧ t.get .seam slab F.SEAM_BUCKET_PERMANENT
     g = 1 ∧ (t.get .seam slab F.SEAM_MAP_FAILED).testBit g = true ∧ sget none t.faults.pend 0x1C = some (s.nextSeq, 3) ∧ t.boot.requests = s.boot.requests
     ++ [{ cold := classCold 0x1C, cause := if classCold 0x1C then 0x08 else 0x07, l3 := true }] ∧ (t.get .seam slab F.HDR_INT_STATUS_INT_BLOCK).testBit 1
     = true)) ∧
  (∀ (s : State) (domain : Nat), s.runs = true → 0 ≤ domain → domain < 19 → (gateOf 0 (domain - 0)).any (fun x => (s.get .clkc 0
     F.CLKC_GATE_STATUS_GATED).testBit x) = false → Ends (.clockLost domain) s (fun t => (t.get .clkc 0 F.CLKC_LOST_S0_DOMAINS).testBit (domain - 0) = true
     ∧ 0 ∈ t.boot.clkLost ∧ (t.get .clkc 0 F.HDR_INT_STATUS_INT_BLOCK).testBit 0 = true ∧ { s with boot := { s.boot with clkLost := t.boot.clkLost } }.OnlyRegsOut
     t (intAddrs .clkc 0 ++ [bitAddr .clkc 0 F.CLKC_LOST_S0_DOMAINS]))) ∧
  (∀ (s : State) (domain : Nat), s.runs = true → 19 ≤ domain → domain < 38 → (gateOf 1 (domain - 19)).any (fun x => (s.get .clkc 0
     F.CLKC_GATE_STATUS_GATED).testBit x) = false → Ends (.clockLost domain) s (fun t => (t.get .clkc 0 F.CLKC_LOST_S1_DOMAINS).testBit (domain - 19) =
     true ∧ 1 ∈ t.boot.clkLost ∧ (t.get .clkc 0 F.HDR_INT_STATUS_INT_BLOCK).testBit 0 = true ∧ { s with boot := { s.boot with clkLost := t.boot.clkLost } }.OnlyRegsOut
     t (intAddrs .clkc 0 ++ [bitAddr .clkc 0 F.CLKC_LOST_S1_DOMAINS]))) ∧
  (∀ (s : State), s.runs = true → Ends (.clockLost 38) s (fun t => t.get .clkc 0 F.CLKC_LOST_M_SUPERVISOR = 1 ∧ (t.get .clkc 0
     F.HDR_INT_STATUS_INT_BLOCK).testBit 0 = true ∧ s.OnlyRegsOut t (intAddrs .clkc 0 ++ [bitAddr .clkc 0 F.CLKC_LOST_M_SUPERVISOR]))) ∧
  (∀ (s : State), s.runs = true → s.faults.broken = [] → Ends (.clockLost 39) s (fun t => t.get .clkc 0 F.CLKC_LOST_M_TIMEBASE = 1 ∧ (t.get .clkc 0
     F.HDR_INT_STATUS_INT_BLOCK).testBit 0 = true ∧ sget none t.faults.pend 0x20 = some (s.nextSeq, 3) ∧ t.boot.requests = s.boot.requests ++ [{ cold := classCold 0x20, cause := if classCold 0x20 then 0x08 else 0x07, l3 := true }])) ∧
  (∀ (s : State), s.runs = true → s.get .rstc 0 F.RSTC_STRAPS_CLK_MODE ≠ 0 → Ends .refclkLost s (fun t => t.get .clkc 0 F.CLKC_STATUS_REF_PRESENT = 0 ∧ { s with boot := { s.boot with refPresent := false } }.OnlyRegs
     t [bitAddr .clkc 0 F.CLKC_STATUS_REF_PRESENT])) ∧
  (∀ (s : State), s.runs = true → s.get .rstc 0 F.RSTC_STRAPS_CLK_MODE = 0 → s.quiet → s.home.regionWait = [] → Ends .refclkLost s (fun t => t.get .clkc
     0 F.CLKC_STATUS_REF_PRESENT = 0 ∧ t.get .clkc 0 F.CLKC_STATUS_REF_LOST = 1 ∧ t.get .clkc 0 F.CLKC_STATUS_HOLDOVER = 1 ∧ t.boot.refPresent = false ∧ (∀
     a < 16, t.linkUp a = false))) ∧
  (∀ (s : State), s.runs = true → Ends .refclkReturn s (fun t => t.get .clkc 0 F.CLKC_STATUS_REF_PRESENT = 1 ∧ t.get .clkc 0 F.CLKC_STATUS_HOLDOVER = 0 ∧
     { s with boot := { s.boot with refPresent := true } }.OnlyRegs t [bitAddr .clkc 0 F.CLKC_STATUS_REF_PRESENT, bitAddr .clkc 0 F.CLKC_STATUS_HOLDOVER])) ∧
  (∀ (s : State) (agent target : Nat), s.runs = true → s.mayWrite agent .clkc 0 F.CLKC_GATE_GO → target ≤ 9 → s.bit .clkc 0 F.CLKC_GATE_STATUS_BUSY =
     false → s.domainIdle target = true → target < 8 ∨ ∀ q ∈ domainEngines target, s.ownWorld q = 0 → Ends (.clkcGate agent target) s (fun t => (t.get
     .clkc 0 F.CLKC_GATE_STATUS_GATED).testBit target = true ∧ t.get .clkc 0 F.CLKC_GATE_STATUS_DONE = 1 ∧ t.get .clkc 0 F.CLKC_GATE_STATUS_BUSY = 0 ∧
     (t.get .clkc 0 F.HDR_INT_STATUS_INT_BLOCK).testBit 2 = true ∧ s.OnlyRegsOut t (intAddrs .clkc 0 ++ [bitAddr .clkc 0 F.CLKC_GATE_STATUS_GATED, bitAddr
     .clkc 0 F.CLKC_GATE_STATUS_DONE, bitAddr .clkc 0 F.CLKC_GATE_STATUS_BUSY]))) ∧
  (∀ (s : State) (agent target : Nat), s.runs = true → s.mayWrite agent .clkc 0 F.CLKC_GATE_GO → target ≤ 9 → s.bit .clkc 0 F.CLKC_GATE_STATUS_BUSY =
     false → s.domainIdle target = false → Ends (.clkcGate agent target) s (fun t => t.get .clkc 0 F.CLKC_GATE_STATUS_REFUSED = 1 ∧ t.get .clkc 0
     F.CLKC_GATE_STATUS_CAUSE = 1 ∧ s.OnlyRegs t [bitAddr .clkc 0 F.CLKC_GATE_STATUS_REFUSED, bitAddr .clkc 0 F.CLKC_GATE_STATUS_CAUSE])) ∧
  (∀ (s : State) (agent target q : Nat), s.runs = true → s.mayWrite agent .clkc 0 F.CLKC_GATE_GO → target ≤ 9 → s.bit .clkc 0 F.CLKC_GATE_STATUS_BUSY =
     false → 8 ≤ target → s.domainIdle target = true → (domainEngines target).filter (fun x => s.ownWorld x ≠ 0) = [q] → s.pwrOf q = none → Ends (.clkcGate
     agent target) s (fun t => t.get .clkc 0 F.CLKC_GATE_STATUS_BUSY = 1 ∧ t.boot.gates = s.boot.gates ++ [{ target := target, gate := true, stamp := s.now, agent := agent, waits := [q] }]
     ∧ t.secure.pwr = s.secure.pwr ++ [{ block := q, action := 1, agent := agent, stamp := s.now }])) ∧
  (∀ (s : State) (agent target : Nat), s.runs = true → s.mayWrite agent .clkc 0 F.CLKC_GATE_GO → target ≤ 9 → s.bit .clkc 0 F.CLKC_GATE_STATUS_BUSY =
     false → Ends (.clkcUngate agent target) s (fun t => (t.get .clkc 0 F.CLKC_GATE_STATUS_GATED).testBit target = false ∧ t.get .clkc 0
     F.CLKC_GATE_STATUS_DONE = 1 ∧ t.get .clkc 0 F.CLKC_GATE_STATUS_BUSY = 0 ∧ (t.get .clkc 0 F.HDR_INT_STATUS_INT_BLOCK).testBit 2 = true ∧ s.OnlyRegsOut
     t (intAddrs .clkc 0 ++ [bitAddr .clkc 0 F.CLKC_GATE_STATUS_GATED, bitAddr .clkc 0 F.CLKC_GATE_STATUS_DONE, bitAddr .clkc 0 F.CLKC_GATE_STATUS_BUSY])))

/-- Power-off, the power-on reset, the reset pin and commands, warm flushes and a Slab's reset (R577, R579, R583, R584, R585, R586, R587, R588, R590, R591). POWER_OFF opens the switch and holds it without a fault; the power-on reset powers the hub and starts a cold reset that the straps and pins shape; the reset pin asks for a cold reset and its release lets a held one go on; the reset commands ask for a reset with their cause; a flush done in time holds the warm reset, one that is late turns it cold with cause 0x0B; a Slab's reset ends after 16 strokes. -/
def Obligations.PowerOffAndResets : Prop :=
  (∀ (s : State) (agent : Nat), s.runs = true → s.mayWrite agent .psup 0 F.PSUP_CTL_POWER_OFF → s.boot.offAsk = false → s.sup.st.closed = true → Ends
     (.powerOff agent) s (fun t => t.sup.st = .held ∧ t.sup.down ∧ t.sup.count = s.sup.count ∧ t.sup.mem = s.sup.mem ∧ s.OnlyCut t)) ∧
  (∀ (s : State) (straps : Straps) (ref : Bool), s.sup.step = 7 → s.sup.released = false → s.boot.sysRst = false → straps.2.1 ≠ 0 ∨ ref = true → straps.1
     < 4 → straps.2.1 < 4 → straps.2.2 < 4 → Ends (.powerOnReset straps ref) s (fun t => t.sup.released = true ∧ t.sup.st = s.sup.st ∧ t.sup.count =
     s.sup.count ∧ t.boot.powered = true ∧ t.boot.straps = straps ∧ t.boot.released = false ∧ t.get .rstc 0 F.RSTC_STRAPS_BOOT_SRC = straps.1 ∧ t.get .rstc
     0 F.RSTC_STRAPS_CLK_MODE = straps.2.1 ∧ t.get .rstc 0 F.RSTC_STRAPS_ROLE = straps.2.2 ∧ t.get .lode 0 F.LODE_ID_ROLE = straps.2.2 ∧ t.get .clkc 0
     F.CLKC_STATUS_REF_PRESENT = b2n ref ∧ t.now = 0 ∧ t.tier.pmap = [] ∧ t.boot.inReset.map (fun x => (x.cold, x.pinHeld, x.stage)) = some (true, false, .verify))) ∧
  (∀ (s : State) (straps : Straps) (ref : Bool), s.sup.step = 7 → s.sup.released = false → s.boot.sysRst = true ∨ (straps.2.1 = 0 ∧ ref = false) → Ends
     (.powerOnReset straps ref) s (fun t => t.sup.released = true ∧ t.boot.powered = true ∧ t.boot.straps = straps ∧ t.live = false ∧ t.boot.inReset.map
     (fun x => (x.cold, x.pinHeld)) = some (true, true))) ∧
  (∀ (s : State), s.boot.powered = true → s.boot.sysRst = false → Ends .sysRst s (fun t => { s with boot := { s.boot with sysRst := true, requests := s.boot.requests ++ [{ cold := true, cause := 2 }] } }
     = t)) ∧
  (∀ (s : State), s.boot.powered = false ∨ s.boot.sysRst = true → Ends .sysRst s (fun t => { s with boot := { s.boot with sysRst := true } } = t)) ∧
  (∀ (s : State) (straps : Straps) (ref : Bool), s.boot.sysRst = true → s.boot.inReset.any (fun r => r.pinHeld) = false → Ends (.sysRstRelease straps
     ref) s (fun t => { s with boot := { s.boot with sysRst := false, straps := straps, refPresent := ref } } = t)) ∧
  (∀ (s : State) (straps : Straps) (ref : Bool) (r : ResetRun), s.boot.sysRst = true → s.boot.powered = true → s.boot.inReset = some r → r.pinHeld = true
     → straps.2.1 ≠ 0 ∨ ref = true → straps.1 < 4 → straps.2.1 < 4 → straps.2.2 < 4 → Ends (.sysRstRelease straps ref) s (fun t => t.boot.sysRst = false ∧
     t.boot.straps = straps ∧ t.boot.inReset = some { r with pinHeld := false } ∧ t.get .rstc 0 F.RSTC_STRAPS_BOOT_SRC = straps.1 ∧ t.get .rstc 0
     F.RSTC_STRAPS_CLK_MODE = straps.2.1 ∧ t.get .rstc 0 F.RSTC_STRAPS_ROLE = straps.2.2 ∧ t.get .lode 0 F.LODE_ID_ROLE = s.boot.roleOvr.getD straps.2.2 %
     4)) ∧
  (∀ (s : State) (agent : Nat), s.runs = true → s.mayWrite agent .rstc 0 F.RSTC_CMD_OP → Ends (.rstcWarm agent) s (fun t => { s with boot := { s.boot with requests := s.boot.requests ++ [{ cold := false, cause := 4 }] } }
     = t)) ∧
  (∀ (s : State) (agent : Nat), s.runs = true → s.mayWrite agent .rstc 0 F.RSTC_CMD_OP → Ends (.rstcCold agent) s (fun t => { s with boot := { s.boot with requests := s.boot.requests ++ [{ cold := true, cause := 3 }] } }
     = t)) ∧
  (∀ (s : State) (r : ResetRun), s.runs = true → s.boot.inReset = some r → r.stage = .flush → strokesSince r.start s.now ≤ s.flushMax →
     s.flushAll.flushed = true → Ends .warmFlushDone s (fun t => t.boot.inReset = some { cold := false, cause := r.cause, start := s.now, stage := .held }
     ∧ t.live = false ∧ t.boot.released = false ∧ t.boot.hostReady = false ∧ t.boot.seamUp = false ∧ t.boot.filled = s.flushAll.bit .keys
     s.flushAll.primary F.KEYS_RETAIN_RETAIN ∧ t.home.queue = [] ∧ t.home.icache = [] ∧ t.vq = [] ∧ t.sup = s.sup ∧ t.tb.stroke = s.tb.stroke)) ∧
  (∀ (s : State) (r : ResetRun), s.runs = true → s.boot.inReset = some r → r.stage = .flush → s.flushMax ≤ strokesSince r.start s.now → s.boot.sysRst =
     false → s.boot.straps.2.1 ≠ 0 ∨ s.boot.refPresent = true → Ends .warmFlushTimeout s (fun t => t.boot.inReset = some { cold := true, cause := 0x0B, start := 0 }
     ∧ t.get .rstc 0 F.RSTC_CAUSE_LAST = 0x0B ∧ t.get .rstc 0 F.RSTC_CAUSE_PREVIOUS = s.get .rstc 0 F.RSTC_CAUSE_LAST % 256 ∧ t.get .rstc 0
     F.RSTC_STATUS_FLUSH_CUT = 1 ∧ t.get .rstc 0 F.RSTC_STATUS_VERIFY_CUT = 0 ∧ t.boot.coldCount = min 0xFFFF (s.boot.coldCount + 1) ∧ t.get .rstc 0
     F.RSTC_COUNTS_COLD = min 0xFFFF (s.boot.coldCount + 1) ∧ (t.get .rstc 0 F.HDR_INT_STATUS_INT_BLOCK).testBit 1 = true ∧ t.tier.pmap = [])) ∧
  (∀ (s : State) (slab : Nat) (x : SlabReset), s.runs = true → slab < 2 → s.boot.slabReset.find? (fun y => y.slab = slab) = some x → 16 ≤ strokesSince
     x.start s.now → slab = 0 ∨ s.bit .rstc 0 F.RSTC_STATUS_S1_HELD = false → Ends (.slabResetRelease slab) s (fun t => t.boot.slabReset =
     s.boot.slabReset.filter (fun y => y.slab ≠ slab) ∧ t.boot.clkLost = s.boot.clkLost.filter (· ≠ slab) ∧ t.boot.hbMiss = (0, 0) ∧ t.boot.warmLeft =
     s.boot.warmLeft ++ (List.range 8).map (· + 8 * slab) ∧ t.secure.mems = zeroMem s.secure.mems 0 slab 0 workSize ∧ t.get .secp slab F.SECP_STATUS_ROLE =
     1 ∧ t.tier = s.tier))

/-- Verification, the ring stream, the release of the processors and READY (R277, R512, R592, R593, R594, R595, R596, R597, R598). A verified part is accepted, or its cause recorded, as the verdict on it tells; the words of a ring stream are staged at ADDR, which advances, and END starts their verification; with the module trained and filled and the images accepted the processors are released and measured, in recovery the loader runs; the management processor's write lets READY rise, and READY rises when its conditions hold. -/
def Obligations.BootToReady : Prop :=
  (∀ (s : State) (slab kind v : Nat) (err : Bool), s.runs = true → s.verifyDue slab kind = true → v = s.partVerdict kind err → v = 0 ∨ s.verifyCut =
     false → Ends (.bootVerifyDone slab kind err) s (fun t => (v = 0 → t.boot.accepted.testBit (if kind = 1 then 2 else kind - 2) = true ∧ sget 0
     t.boot.digests kind = partDigest (s.partAt kind).1 (s.partAt kind).2) ∧ (v ≠ 0 → t.get .mgmt slab F.MGMT_BOOT_FAIL_CAUSE = v ∧ t.get .mgmt slab
     F.MGMT_BOOT_FAIL_PART = kind ∧ t.get .mgmt slab F.MGMT_BOOT_FAIL_SLOT = s.boot.slot % 2 ∧ (t.get .mgmt slab F.HDR_INT_STATUS_INT_BLOCK).testBit 0 =
     true) ∧ t.boot.released = s.boot.released ∧ t.boot.inReset = s.boot.inReset)) ∧
  (∀ (s : State) (slab kind v : Nat) (err : Bool), s.runs = true → s.verifyDue slab kind = true → v = s.partVerdict kind err → v ≠ 0 → s.verifyCut = true
     → s.boot.sysRst = false → s.boot.straps.2.1 ≠ 0 ∨ s.boot.refPresent = true → Ends (.bootVerifyDone slab kind err) s (fun t => t.boot.inReset = some { cold := true, cause := 0x0B, start := 0 }
     ∧ t.get .rstc 0 F.RSTC_CAUSE_LAST = 0x0B ∧ t.get .rstc 0 F.RSTC_STATUS_VERIFY_CUT = 1 ∧ t.get .rstc 0 F.RSTC_STATUS_FLUSH_CUT = 0)) ∧
  (∀ (s : State) (agent : Nat) (words : List Nat) (a : Nat), s.runs = true → s.mayWrite agent .mgmt 0 F.MGMT_BOOT_DATA_DATA → s.get .mgmt 0
     F.MGMT_BOOT_STATUS_STAGE = 2 → words.length ≤ 16 → a = s.get .mgmt 0 F.MGMT_BOOT_ADDR_ADDR → Ends (.mgmtBootData agent words) s (fun t => t.get .mgmt
     0 F.MGMT_BOOT_ADDR_ADDR = (a + 4 * words.length) % 2 ^ 23 ∧ (∀ i < 4 * words.length, sget 0 t.boot.staging ((a + i) % 2 ^ 23) = (words.flatMap (fun w
     => leBytes 4 w)).getD i 0) ∧ t.boot.stagedLen = max s.boot.stagedLen (a + 4 * words.length) ∧ { s with boot := t.boot }.OnlyRegs t [bitAddr .mgmt 0
     F.MGMT_BOOT_ADDR_ADDR])) ∧
  (∀ (s : State) (agent : Nat), s.runs = true → s.mayWrite agent .mgmt 0 F.MGMT_BOOT_CTL_END → s.get .mgmt 0 F.MGMT_BOOT_STATUS_STAGE = 2 → Ends
     (.mgmtBootEnd agent) s (fun t => t.get .mgmt 0 F.MGMT_BOOT_STATUS_STAGE = 1 ∧ t.get .mgmt 1 F.MGMT_BOOT_STATUS_STAGE = 1 ∧ s.OnlyRegs t [bitAddr .mgmt
     0 F.MGMT_BOOT_STATUS_STAGE, bitAddr .mgmt 1 F.MGMT_BOOT_STATUS_STAGE])) ∧
  (∀ (s : State) (r : ResetRun), s.runs = true → s.boot.trained = true → s.boot.filled = true → s.boot.warmLeft = [] → s.boot.inReset = some r → r.stage
     = .verify → s.stage = 4 → s.primary < 2 → Ends .processorRelease s (fun t => t.boot.released = true ∧ t.boot.inReset = none ∧ t.stage = 5 ∧ (∀ d < 2, t.get
     .secp d F.SECP_STATUS_BOOT_DONE = 1 ∧ t.get .secp d F.SECP_STATUS_MIRROR_OK = b2n s.boot.absent.isEmpty) ∧ t.measSlot 0 = sha384 (leBytes 48
     (s.measSlot 0).toNat ++ leBytes 48 (sget 0 s.boot.digests 2).toNat) ∧ t.measSlot 1 = sha384 (leBytes 48 (s.measSlot 1).toNat ++ leBytes 48 (sget 0
     s.boot.digests 3).toNat) ∧ t.measSlot 2 = sha384 (leBytes 48 (s.measSlot 2).toNat ++ leBytes 48 (sget 0 s.boot.digests 1).toNat) ∧ (∀ n, 4 ≤ n →
     t.measSlot n = s.measSlot n) ∧ t.primary = s.primary)) ∧
  (∀ (s : State) (r : ResetRun), s.runs = true → s.boot.trained = true → s.boot.filled = true → s.boot.warmLeft = [] → s.boot.inReset = some r → r.stage
     = .verify → s.stage = 6 → Ends .processorRelease s (fun t => { s with boot := { s.boot with inReset := none, loader := decide (s.get .rstc 0 F.RSTC_STRAPS_BOOT_SRC = 3 ∧ s.get .rstc 0 F.RSTC_STRAPS_CLK_MODE ≠ 3) } }
     = t)) ∧
  (∀ (s : State) (agent slab : Nat), s.runs = true → s.mayWrite agent .mgmt slab F.MGMT_CTL_HOST_READY → isMgmt agent = true → Ends (.hostReady agent
     slab) s (fun t => { s with boot := { s.boot with hostReady := true } } = t)) ∧
  (∀ (s : State), s.runs = true → s.bit .mod 0 F.MOD_READY_READY = false → s.boot.hostReady = true → s.boot.released = true → s.boot.inReset = none →
     s.boot.filled = true → s.boot.seamUp = true ∨ s.boot.absent ≠ [] → s.restState = 0 → Ends .readyRise s (fun t => t.get .mod 0 F.MOD_READY_READY = 1 ∧
     { s with boot := { s.boot with readyAt := s.now } }.OnlyRegs t [bitAddr .mod 0 F.MOD_READY_READY]))
end

