-- ==== Sys2Proof/Laws/Maps.lean ====
section
/-! SUPPORT. Sparse stores: what a read gives after a write, and that every operation keeps the canonical form. -/

namespace Sys2Proof.Machine

/-- Every key of a store lies above `k`. -/
def keysAbove {α : Type} (k : Nat) (m : SMap α) : Prop := ∀ p ∈ m, k < p.1

theorem keysRising_cons {α : Type} (k : Nat) (v : α) (m : SMap α) :
    keysRising ((k, v) :: m) = true ↔ keysAbove k m ∧ keysRising m = true := by
  induction m generalizing k v with
  | nil => simp [keysRising, keysAbove]
  | cons p r ih =>
    obtain ⟨l, w⟩ := p
    constructor
    · intro h
      have h1 : k < l ∧ keysRising ((l, w) :: r) = true := by simpa [keysRising] using h
      refine ⟨?_, h1.2⟩
      have h2 := ((ih l w).1 h1.2).1
      intro q hq
      rcases List.mem_cons.1 hq with rfl | hq
      · exact h1.1
      · exact Nat.lt_trans h1.1 (h2 q hq)
    · rintro ⟨h1, h2⟩
      have : k < l := h1 (l, w) (by simp)
      simp [keysRising, this, h2]

/-- A key below every listed one reads the default. -/
theorem sget_above {α : Type} (d : α) (m : SMap α) (a : Nat) (h : keysAbove a m) : sget d m a = d := by
  induction m with
  | nil => rfl
  | cons p r ih =>
    have h1 : a < p.1 := h p (by simp)
    have h2 : keysAbove a r := fun q hq => h q (by simp [hq])
    simp only [sget, ih h2]
    rw [if_neg (by omega)]

theorem keysAbove_sput {α : Type} (m : SMap α) (k a : Nat) (v : α) (h : keysAbove k m) (ha : k < a) : keysAbove k (sput m a v) := by
  induction m with
  | nil => intro p hp; simp [sput] at hp; subst hp; exact ha
  | cons q r ih =>
    have h1 : k < q.1 := h q (by simp)
    have h2 : keysAbove k r := fun p hp => h p (by simp [hp])
    intro p hp
    simp only [sput] at hp
    split at hp
    · rcases List.mem_cons.1 hp with rfl | hp
      · exact ha
      · exact h p hp
    · split at hp
      · rcases List.mem_cons.1 hp with rfl | hp
        · exact ha
        · exact h2 p hp
      · rcases List.mem_cons.1 hp with rfl | hp
        · exact h1
        · exact ih h2 p hp

/-- Putting a value keeps the keys rising. -/
theorem keysRising_sput {α : Type} (m : SMap α) (a : Nat) (v : α) (h : keysRising m = true) : keysRising (sput m a v) = true := by
  induction m with
  | nil => rfl
  | cons q r ih =>
    obtain ⟨k, w⟩ := q
    have h1 := (keysRising_cons k w r).1 h
    simp only [sput]
    split
    · rename_i hlt
      refine (keysRising_cons _ _ _).2 ⟨?_, h⟩
      intro p hp
      rcases List.mem_cons.1 hp with rfl | hp
      · exact hlt
      · exact Nat.lt_trans hlt (h1.1 p hp)
    · split
      · rename_i heq
        exact (keysRising_cons _ _ _).2 ⟨fun p hp => heq ▸ h1.1 p hp, h1.2⟩
      · rename_i h2 h3
        exact (keysRising_cons _ _ _).2 ⟨keysAbove_sput r k a v h1.1 (by omega), ih h1.2⟩

/-- Filtering keeps the keys rising. -/
theorem keysRising_filter {α : Type} (m : SMap α) (f : Nat × α → Bool) (h : keysRising m = true) : keysRising (m.filter f) = true := by
  induction m with
  | nil => rfl
  | cons q r ih =>
    obtain ⟨k, w⟩ := q
    have h1 := (keysRising_cons k w r).1 h
    simp only [List.filter_cons]
    split
    · exact (keysRising_cons _ _ _).2 ⟨fun p hp => h1.1 p (List.mem_of_mem_filter hp), ih h1.2⟩
    · exact ih h1.2

/-- A key that was put reads its value. -/
@[simp] theorem sget_sput_same {α : Type} (d : α) (m : SMap α) (a : Nat) (v : α) : sget d (sput m a v) a = v := by
  induction m with
  | nil => simp [sput, sget]
  | cons q r ih =>
    simp only [sput]
    split
    · simp [sget]
    · split
      · simp [sget]
      · rename_i h; simp [sget, h, ih]

/-- Every other key reads as before. -/
theorem sget_sput_other {α : Type} (d : α) (m : SMap α) (a b : Nat) (v : α) (h : b ≠ a) : sget d (sput m a v) b = sget d m b := by
  induction m with
  | nil => simp [sput, sget, h]
  | cons q r ih =>
    simp only [sput]
    split
    · simp [sget, h]
    · split
      · rename_i heq; subst heq; simp [sget, h]
      · simp [sget, ih]

/-- Filtering by key keeps the values of the keys that stay. -/
theorem sget_filter {α : Type} (d : α) (m : SMap α) (f : Nat → Bool) (b : Nat) :
    sget d (m.filter (fun p => f p.1)) b = if f b then sget d m b else d := by
  induction m with
  | nil => simp [sget]
  | cons q r ih =>
    obtain ⟨k, w⟩ := q
    simp only [List.filter_cons]
    by_cases hk : f k = true
    · simp only [hk, if_true, sget, ih]
      by_cases hb : b = k
      · subst hb; simp [hk]
      · simp [hb]
    · simp only [hk, if_false, Bool.false_eq_true, sget, ih]
      by_cases hb : b = k
      · subst hb; simp [hk]
      · simp [hb]

theorem sget_sdel {α : Type} (d : α) (m : SMap α) (a b : Nat) :
    sget d (sdel m a) b = if b = a then d else sget d m b := by
  unfold sdel
  induction m with
  | nil => simp [sget]
  | cons q r ih =>
    obtain ⟨k, w⟩ := q
    simp only [List.filter_cons]
    by_cases hk : k = a
    · subst hk
      simp only [ne_eq, not_true_eq_false, decide_false, Bool.false_eq_true, if_false, sget, ih]
      by_cases hb : b = k <;> simp [hb]
    · simp only [ne_eq, hk, not_false_eq_true, decide_true, if_true, sget, ih]
      by_cases hb : b = k
      · subst hb; simp [hk]
      · simp [hb]

/-- Read after write: the same key gives the value written. -/
@[simp] theorem sget_sset_same {α : Type} [DecidableEq α] (d : α) (m : SMap α) (a : Nat) (v : α) : sget d (sset d m a v) a = v := by
  unfold sset
  split
  · rename_i h; simp [sget_sdel, h]
  · simp

/-- Read after write: every other key reads as before. -/
theorem sget_sset_other {α : Type} [DecidableEq α] (d : α) (m : SMap α) (a b : Nat) (v : α) (h : b ≠ a) :
    sget d (sset d m a v) b = sget d m b := by
  unfold sset
  split
  · simp [sget_sdel, h]
  · exact sget_sput_other d m a b v h

/-- The canonical form, as a property. -/
theorem swf_iff {α : Type} [DecidableEq α] (d : α) (m : SMap α) : swf d m = true ↔ keysRising m = true ∧ ∀ p ∈ m, p.2 ≠ d := by
  simp [swf]

/-- Filtering keeps the canonical form. -/
theorem swf_filter {α : Type} [DecidableEq α] (d : α) (m : SMap α) (f : Nat × α → Bool) (h : swf d m = true) : swf d (m.filter f) = true := by
  rw [swf_iff] at h ⊢
  exact ⟨keysRising_filter m f h.1, fun p hp => h.2 p (List.mem_of_mem_filter hp)⟩

theorem mem_sput {α : Type} (m : SMap α) (a : Nat) (v : α) (p : Nat × α) (h : p ∈ sput m a v) : p = (a, v) ∨ p ∈ m := by
  induction m with
  | nil => left; simpa [sput] using h
  | cons q r ih =>
    simp only [sput] at h
    split at h
    · simpa using h
    · split at h
      · rcases List.mem_cons.1 h with h | h
        · exact .inl h
        · exact .inr (by simp [h])
      · rcases List.mem_cons.1 h with h | h
        · exact .inr (by simp [h])
        · rcases ih h with h | h
          · exact .inl h
          · exact .inr (by simp [h])

/-- A write keeps the canonical form. -/
theorem swf_sset {α : Type} [DecidableEq α] (d : α) (m : SMap α) (a : Nat) (v : α) (h : swf d m = true) : swf d (sset d m a v) = true := by
  unfold sset
  split
  · exact swf_filter d m _ h
  · rename_i hv
    rw [swf_iff] at h ⊢
    refine ⟨keysRising_sput m a v h.1, fun p hp => ?_⟩
    rcases mem_sput m a v p hp with rfl | hp
    · exact hv
    · exact h.2 p hp

/-- Removing a key keeps the canonical form. -/
theorem swf_sdel {α : Type} [DecidableEq α] (d : α) (m : SMap α) (a : Nat) (h : swf d m = true) : swf d (sdel m a) = true := swf_filter d m _ h

/-- Removing a range of keys keeps the canonical form. -/
theorem swf_sdropRange {α : Type} [DecidableEq α] (d : α) (m : SMap α) (lo hi : Nat) (h : swf d m = true) : swf d (sdropRange m lo hi) = true :=
  swf_filter d m _ h

end Sys2Proof.Machine
end

