-- ==== Sys2Proof/Laws/State.lean ====
section
/-! SUPPORT. One lemma a field an update, and reading a register field after a write: what later proofs cite instead of unfolding an update. -/

namespace Sys2Proof.Machine

/-! ### Writing a register field -/

@[simp] theorem put_tb (s : State) (b : Block) (n : Nat) (f : Fld) (v i : Nat) : (s.put b n f v i).tb = s.tb := rfl
@[simp] theorem put_staged (s : State) (b : Block) (n : Nat) (f : Fld) (v i : Nat) : (s.put b n f v i).staged = s.staged := rfl
@[simp] theorem put_actDue (s : State) (b : Block) (n : Nat) (f : Fld) (v i : Nat) : (s.put b n f v i).actDue = s.actDue := rfl
@[simp] theorem put_blockResets (s : State) (b : Block) (n : Nat) (f : Fld) (v i : Nat) : (s.put b n f v i).blockResets = s.blockResets := rfl
@[simp] theorem put_closedWork (s : State) (b : Block) (n : Nat) (f : Fld) (v i : Nat) : (s.put b n f v i).closedWork = s.closedWork := rfl
@[simp] theorem put_tier (s : State) (b : Block) (n : Nat) (f : Fld) (v i : Nat) : (s.put b n f v i).tier = s.tier := rfl
@[simp] theorem put_media (s : State) (b : Block) (n : Nat) (f : Fld) (v i : Nat) : (s.put b n f v i).media = s.media := rfl
@[simp] theorem put_dipts (s : State) (b : Block) (n : Nat) (f : Fld) (v i : Nat) : (s.put b n f v i).dipts = s.dipts := rfl
@[simp] theorem put_veins (s : State) (b : Block) (n : Nat) (f : Fld) (v i : Nat) : (s.put b n f v i).veins = s.veins := rfl
@[simp] theorem put_chans (s : State) (b : Block) (n : Nat) (f : Fld) (v i : Nat) : (s.put b n f v i).chans = s.chans := rfl
@[simp] theorem put_vq (s : State) (b : Block) (n : Nat) (f : Fld) (v i : Nat) : (s.put b n f v i).vq = s.vq := rfl
@[simp] theorem put_crypto (s : State) (b : Block) (n : Nat) (f : Fld) (v i : Nat) : (s.put b n f v i).crypto = s.crypto := rfl
@[simp] theorem put_ports (s : State) (b : Block) (n : Nat) (f : Fld) (v i : Nat) : (s.put b n f v i).ports = s.ports := rfl
@[simp] theorem put_home (s : State) (b : Block) (n : Nat) (f : Fld) (v i : Nat) : (s.put b n f v i).home = s.home := rfl
@[simp] theorem put_hub (s : State) (b : Block) (n : Nat) (f : Fld) (v i : Nat) : (s.put b n f v i).hub = s.hub := rfl
@[simp] theorem put_regu (s : State) (b : Block) (n : Nat) (f : Fld) (v i : Nat) : (s.put b n f v i).regu = s.regu := rfl
@[simp] theorem put_faults (s : State) (b : Block) (n : Nat) (f : Fld) (v i : Nat) : (s.put b n f v i).faults = s.faults := rfl
@[simp] theorem put_codec (s : State) (b : Block) (n : Nat) (f : Fld) (v i : Nat) : (s.put b n f v i).codec = s.codec := rfl
@[simp] theorem put_query (s : State) (b : Block) (n : Nat) (f : Fld) (v i : Nat) : (s.put b n f v i).query = s.query := rfl
@[simp] theorem put_ring (s : State) (b : Block) (n : Nat) (f : Fld) (v i : Nat) : (s.put b n f v i).ring = s.ring := rfl
@[simp] theorem put_energy (s : State) (b : Block) (n : Nat) (f : Fld) (v i : Nat) : (s.put b n f v i).energy = s.energy := rfl
@[simp] theorem put_rest (s : State) (b : Block) (n : Nat) (f : Fld) (v i : Nat) : (s.put b n f v i).rest = s.rest := rfl
@[simp] theorem put_secure (s : State) (b : Block) (n : Nat) (f : Fld) (v i : Nat) : (s.put b n f v i).secure = s.secure := rfl
@[simp] theorem put_sup (s : State) (b : Block) (n : Nat) (f : Fld) (v i : Nat) : (s.put b n f v i).sup = s.sup := rfl
@[simp] theorem put_boot (s : State) (b : Block) (n : Nat) (f : Fld) (v i : Nat) : (s.put b n f v i).boot = s.boot := rfl
@[simp] theorem put_out (s : State) (b : Block) (n : Nat) (f : Fld) (v i : Nat) : (s.put b n f v i).out = s.out := rfl
@[simp] theorem put_draws (s : State) (b : Block) (n : Nat) (f : Fld) (v i : Nat) : (s.put b n f v i).draws = s.draws := rfl
@[simp] theorem put_pending (s : State) (b : Block) (n : Nat) (f : Fld) (v i : Nat) : (s.put b n f v i).pending = s.pending := rfl
@[simp] theorem putP_tb (s : State) (p : Nat) (f : Fld) (v i : Nat) : (s.putP p f v i).tb = s.tb := rfl
@[simp] theorem putP_staged (s : State) (p : Nat) (f : Fld) (v i : Nat) : (s.putP p f v i).staged = s.staged := rfl
@[simp] theorem putP_actDue (s : State) (p : Nat) (f : Fld) (v i : Nat) : (s.putP p f v i).actDue = s.actDue := rfl
@[simp] theorem putP_blockResets (s : State) (p : Nat) (f : Fld) (v i : Nat) : (s.putP p f v i).blockResets = s.blockResets := rfl
@[simp] theorem putP_closedWork (s : State) (p : Nat) (f : Fld) (v i : Nat) : (s.putP p f v i).closedWork = s.closedWork := rfl
@[simp] theorem putP_tier (s : State) (p : Nat) (f : Fld) (v i : Nat) : (s.putP p f v i).tier = s.tier := rfl
@[simp] theorem putP_media (s : State) (p : Nat) (f : Fld) (v i : Nat) : (s.putP p f v i).media = s.media := rfl
@[simp] theorem putP_dipts (s : State) (p : Nat) (f : Fld) (v i : Nat) : (s.putP p f v i).dipts = s.dipts := rfl
@[simp] theorem putP_veins (s : State) (p : Nat) (f : Fld) (v i : Nat) : (s.putP p f v i).veins = s.veins := rfl
@[simp] theorem putP_chans (s : State) (p : Nat) (f : Fld) (v i : Nat) : (s.putP p f v i).chans = s.chans := rfl
@[simp] theorem putP_vq (s : State) (p : Nat) (f : Fld) (v i : Nat) : (s.putP p f v i).vq = s.vq := rfl
@[simp] theorem putP_crypto (s : State) (p : Nat) (f : Fld) (v i : Nat) : (s.putP p f v i).crypto = s.crypto := rfl
@[simp] theorem putP_ports (s : State) (p : Nat) (f : Fld) (v i : Nat) : (s.putP p f v i).ports = s.ports := rfl
@[simp] theorem putP_home (s : State) (p : Nat) (f : Fld) (v i : Nat) : (s.putP p f v i).home = s.home := rfl
@[simp] theorem putP_hub (s : State) (p : Nat) (f : Fld) (v i : Nat) : (s.putP p f v i).hub = s.hub := rfl
@[simp] theorem putP_regu (s : State) (p : Nat) (f : Fld) (v i : Nat) : (s.putP p f v i).regu = s.regu := rfl
@[simp] theorem putP_faults (s : State) (p : Nat) (f : Fld) (v i : Nat) : (s.putP p f v i).faults = s.faults := rfl
@[simp] theorem putP_codec (s : State) (p : Nat) (f : Fld) (v i : Nat) : (s.putP p f v i).codec = s.codec := rfl
@[simp] theorem putP_query (s : State) (p : Nat) (f : Fld) (v i : Nat) : (s.putP p f v i).query = s.query := rfl
@[simp] theorem putP_ring (s : State) (p : Nat) (f : Fld) (v i : Nat) : (s.putP p f v i).ring = s.ring := rfl
@[simp] theorem putP_energy (s : State) (p : Nat) (f : Fld) (v i : Nat) : (s.putP p f v i).energy = s.energy := rfl
@[simp] theorem putP_rest (s : State) (p : Nat) (f : Fld) (v i : Nat) : (s.putP p f v i).rest = s.rest := rfl
@[simp] theorem putP_secure (s : State) (p : Nat) (f : Fld) (v i : Nat) : (s.putP p f v i).secure = s.secure := rfl
@[simp] theorem putP_sup (s : State) (p : Nat) (f : Fld) (v i : Nat) : (s.putP p f v i).sup = s.sup := rfl
@[simp] theorem putP_boot (s : State) (p : Nat) (f : Fld) (v i : Nat) : (s.putP p f v i).boot = s.boot := rfl
@[simp] theorem putP_out (s : State) (p : Nat) (f : Fld) (v i : Nat) : (s.putP p f v i).out = s.out := rfl
@[simp] theorem putP_draws (s : State) (p : Nat) (f : Fld) (v i : Nat) : (s.putP p f v i).draws = s.draws := rfl
@[simp] theorem putP_pending (s : State) (p : Nat) (f : Fld) (v i : Nat) : (s.putP p f v i).pending = s.pending := rfl
@[simp] theorem putS_tb (s : State) (b : Block) (n : Nat) (f : Fld) (v i : Nat) : (s.putS b n f v i).tb = s.tb := rfl
@[simp] theorem putS_regs (s : State) (b : Block) (n : Nat) (f : Fld) (v i : Nat) : (s.putS b n f v i).regs = s.regs := rfl
@[simp] theorem putS_actDue (s : State) (b : Block) (n : Nat) (f : Fld) (v i : Nat) : (s.putS b n f v i).actDue = s.actDue := rfl
@[simp] theorem putS_blockResets (s : State) (b : Block) (n : Nat) (f : Fld) (v i : Nat) : (s.putS b n f v i).blockResets = s.blockResets := rfl
@[simp] theorem putS_closedWork (s : State) (b : Block) (n : Nat) (f : Fld) (v i : Nat) : (s.putS b n f v i).closedWork = s.closedWork := rfl
@[simp] theorem putS_tier (s : State) (b : Block) (n : Nat) (f : Fld) (v i : Nat) : (s.putS b n f v i).tier = s.tier := rfl
@[simp] theorem putS_media (s : State) (b : Block) (n : Nat) (f : Fld) (v i : Nat) : (s.putS b n f v i).media = s.media := rfl
@[simp] theorem putS_dipts (s : State) (b : Block) (n : Nat) (f : Fld) (v i : Nat) : (s.putS b n f v i).dipts = s.dipts := rfl
@[simp] theorem putS_veins (s : State) (b : Block) (n : Nat) (f : Fld) (v i : Nat) : (s.putS b n f v i).veins = s.veins := rfl
@[simp] theorem putS_chans (s : State) (b : Block) (n : Nat) (f : Fld) (v i : Nat) : (s.putS b n f v i).chans = s.chans := rfl
@[simp] theorem putS_vq (s : State) (b : Block) (n : Nat) (f : Fld) (v i : Nat) : (s.putS b n f v i).vq = s.vq := rfl
@[simp] theorem putS_crypto (s : State) (b : Block) (n : Nat) (f : Fld) (v i : Nat) : (s.putS b n f v i).crypto = s.crypto := rfl
@[simp] theorem putS_ports (s : State) (b : Block) (n : Nat) (f : Fld) (v i : Nat) : (s.putS b n f v i).ports = s.ports := rfl
@[simp] theorem putS_home (s : State) (b : Block) (n : Nat) (f : Fld) (v i : Nat) : (s.putS b n f v i).home = s.home := rfl
@[simp] theorem putS_hub (s : State) (b : Block) (n : Nat) (f : Fld) (v i : Nat) : (s.putS b n f v i).hub = s.hub := rfl
@[simp] theorem putS_regu (s : State) (b : Block) (n : Nat) (f : Fld) (v i : Nat) : (s.putS b n f v i).regu = s.regu := rfl
@[simp] theorem putS_faults (s : State) (b : Block) (n : Nat) (f : Fld) (v i : Nat) : (s.putS b n f v i).faults = s.faults := rfl
@[simp] theorem putS_codec (s : State) (b : Block) (n : Nat) (f : Fld) (v i : Nat) : (s.putS b n f v i).codec = s.codec := rfl
@[simp] theorem putS_query (s : State) (b : Block) (n : Nat) (f : Fld) (v i : Nat) : (s.putS b n f v i).query = s.query := rfl
@[simp] theorem putS_ring (s : State) (b : Block) (n : Nat) (f : Fld) (v i : Nat) : (s.putS b n f v i).ring = s.ring := rfl
@[simp] theorem putS_energy (s : State) (b : Block) (n : Nat) (f : Fld) (v i : Nat) : (s.putS b n f v i).energy = s.energy := rfl
@[simp] theorem putS_rest (s : State) (b : Block) (n : Nat) (f : Fld) (v i : Nat) : (s.putS b n f v i).rest = s.rest := rfl
@[simp] theorem putS_secure (s : State) (b : Block) (n : Nat) (f : Fld) (v i : Nat) : (s.putS b n f v i).secure = s.secure := rfl
@[simp] theorem putS_sup (s : State) (b : Block) (n : Nat) (f : Fld) (v i : Nat) : (s.putS b n f v i).sup = s.sup := rfl
@[simp] theorem putS_boot (s : State) (b : Block) (n : Nat) (f : Fld) (v i : Nat) : (s.putS b n f v i).boot = s.boot := rfl
@[simp] theorem putS_out (s : State) (b : Block) (n : Nat) (f : Fld) (v i : Nat) : (s.putS b n f v i).out = s.out := rfl
@[simp] theorem putS_draws (s : State) (b : Block) (n : Nat) (f : Fld) (v i : Nat) : (s.putS b n f v i).draws = s.draws := rfl
@[simp] theorem putS_pending (s : State) (b : Block) (n : Nat) (f : Fld) (v i : Nat) : (s.putS b n f v i).pending = s.pending := rfl
@[simp] theorem bump_tb (s : State) (b : Block) (n : Nat) (f : Fld) (k i : Nat) : (s.bump b n f k i).tb = s.tb := rfl
@[simp] theorem bump_staged (s : State) (b : Block) (n : Nat) (f : Fld) (k i : Nat) : (s.bump b n f k i).staged = s.staged := rfl
@[simp] theorem bump_actDue (s : State) (b : Block) (n : Nat) (f : Fld) (k i : Nat) : (s.bump b n f k i).actDue = s.actDue := rfl
@[simp] theorem bump_blockResets (s : State) (b : Block) (n : Nat) (f : Fld) (k i : Nat) : (s.bump b n f k i).blockResets = s.blockResets := rfl
@[simp] theorem bump_closedWork (s : State) (b : Block) (n : Nat) (f : Fld) (k i : Nat) : (s.bump b n f k i).closedWork = s.closedWork := rfl
@[simp] theorem bump_tier (s : State) (b : Block) (n : Nat) (f : Fld) (k i : Nat) : (s.bump b n f k i).tier = s.tier := rfl
@[simp] theorem bump_media (s : State) (b : Block) (n : Nat) (f : Fld) (k i : Nat) : (s.bump b n f k i).media = s.media := rfl
@[simp] theorem bump_dipts (s : State) (b : Block) (n : Nat) (f : Fld) (k i : Nat) : (s.bump b n f k i).dipts = s.dipts := rfl
@[simp] theorem bump_veins (s : State) (b : Block) (n : Nat) (f : Fld) (k i : Nat) : (s.bump b n f k i).veins = s.veins := rfl
@[simp] theorem bump_chans (s : State) (b : Block) (n : Nat) (f : Fld) (k i : Nat) : (s.bump b n f k i).chans = s.chans := rfl
@[simp] theorem bump_vq (s : State) (b : Block) (n : Nat) (f : Fld) (k i : Nat) : (s.bump b n f k i).vq = s.vq := rfl
@[simp] theorem bump_crypto (s : State) (b : Block) (n : Nat) (f : Fld) (k i : Nat) : (s.bump b n f k i).crypto = s.crypto := rfl
@[simp] theorem bump_ports (s : State) (b : Block) (n : Nat) (f : Fld) (k i : Nat) : (s.bump b n f k i).ports = s.ports := rfl
@[simp] theorem bump_home (s : State) (b : Block) (n : Nat) (f : Fld) (k i : Nat) : (s.bump b n f k i).home = s.home := rfl
@[simp] theorem bump_hub (s : State) (b : Block) (n : Nat) (f : Fld) (k i : Nat) : (s.bump b n f k i).hub = s.hub := rfl
@[simp] theorem bump_regu (s : State) (b : Block) (n : Nat) (f : Fld) (k i : Nat) : (s.bump b n f k i).regu = s.regu := rfl
@[simp] theorem bump_faults (s : State) (b : Block) (n : Nat) (f : Fld) (k i : Nat) : (s.bump b n f k i).faults = s.faults := rfl
@[simp] theorem bump_codec (s : State) (b : Block) (n : Nat) (f : Fld) (k i : Nat) : (s.bump b n f k i).codec = s.codec := rfl
@[simp] theorem bump_query (s : State) (b : Block) (n : Nat) (f : Fld) (k i : Nat) : (s.bump b n f k i).query = s.query := rfl
@[simp] theorem bump_ring (s : State) (b : Block) (n : Nat) (f : Fld) (k i : Nat) : (s.bump b n f k i).ring = s.ring := rfl
@[simp] theorem bump_energy (s : State) (b : Block) (n : Nat) (f : Fld) (k i : Nat) : (s.bump b n f k i).energy = s.energy := rfl
@[simp] theorem bump_rest (s : State) (b : Block) (n : Nat) (f : Fld) (k i : Nat) : (s.bump b n f k i).rest = s.rest := rfl
@[simp] theorem bump_secure (s : State) (b : Block) (n : Nat) (f : Fld) (k i : Nat) : (s.bump b n f k i).secure = s.secure := rfl
@[simp] theorem bump_sup (s : State) (b : Block) (n : Nat) (f : Fld) (k i : Nat) : (s.bump b n f k i).sup = s.sup := rfl
@[simp] theorem bump_boot (s : State) (b : Block) (n : Nat) (f : Fld) (k i : Nat) : (s.bump b n f k i).boot = s.boot := rfl
@[simp] theorem bump_out (s : State) (b : Block) (n : Nat) (f : Fld) (k i : Nat) : (s.bump b n f k i).out = s.out := rfl
@[simp] theorem bump_draws (s : State) (b : Block) (n : Nat) (f : Fld) (k i : Nat) : (s.bump b n f k i).draws = s.draws := rfl
@[simp] theorem bump_pending (s : State) (b : Block) (n : Nat) (f : Fld) (k i : Nat) : (s.bump b n f k i).pending = s.pending := rfl

/-! ### Messages and free values -/

@[simp] theorem emit_tb (s : State) (m : Msg) : (s.emit m).tb = s.tb := rfl
@[simp] theorem emit_regs (s : State) (m : Msg) : (s.emit m).regs = s.regs := rfl
@[simp] theorem emit_staged (s : State) (m : Msg) : (s.emit m).staged = s.staged := rfl
@[simp] theorem emit_actDue (s : State) (m : Msg) : (s.emit m).actDue = s.actDue := rfl
@[simp] theorem emit_blockResets (s : State) (m : Msg) : (s.emit m).blockResets = s.blockResets := rfl
@[simp] theorem emit_closedWork (s : State) (m : Msg) : (s.emit m).closedWork = s.closedWork := rfl
@[simp] theorem emit_tier (s : State) (m : Msg) : (s.emit m).tier = s.tier := rfl
@[simp] theorem emit_media (s : State) (m : Msg) : (s.emit m).media = s.media := rfl
@[simp] theorem emit_dipts (s : State) (m : Msg) : (s.emit m).dipts = s.dipts := rfl
@[simp] theorem emit_veins (s : State) (m : Msg) : (s.emit m).veins = s.veins := rfl
@[simp] theorem emit_chans (s : State) (m : Msg) : (s.emit m).chans = s.chans := rfl
@[simp] theorem emit_vq (s : State) (m : Msg) : (s.emit m).vq = s.vq := rfl
@[simp] theorem emit_crypto (s : State) (m : Msg) : (s.emit m).crypto = s.crypto := rfl
@[simp] theorem emit_ports (s : State) (m : Msg) : (s.emit m).ports = s.ports := rfl
@[simp] theorem emit_home (s : State) (m : Msg) : (s.emit m).home = s.home := rfl
@[simp] theorem emit_hub (s : State) (m : Msg) : (s.emit m).hub = s.hub := rfl
@[simp] theorem emit_regu (s : State) (m : Msg) : (s.emit m).regu = s.regu := rfl
@[simp] theorem emit_faults (s : State) (m : Msg) : (s.emit m).faults = s.faults := rfl
@[simp] theorem emit_codec (s : State) (m : Msg) : (s.emit m).codec = s.codec := rfl
@[simp] theorem emit_query (s : State) (m : Msg) : (s.emit m).query = s.query := rfl
@[simp] theorem emit_ring (s : State) (m : Msg) : (s.emit m).ring = s.ring := rfl
@[simp] theorem emit_energy (s : State) (m : Msg) : (s.emit m).energy = s.energy := rfl
@[simp] theorem emit_rest (s : State) (m : Msg) : (s.emit m).rest = s.rest := rfl
@[simp] theorem emit_secure (s : State) (m : Msg) : (s.emit m).secure = s.secure := rfl
@[simp] theorem emit_sup (s : State) (m : Msg) : (s.emit m).sup = s.sup := rfl
@[simp] theorem emit_boot (s : State) (m : Msg) : (s.emit m).boot = s.boot := rfl
@[simp] theorem emit_draws (s : State) (m : Msg) : (s.emit m).draws = s.draws := rfl
@[simp] theorem emit_pending (s : State) (m : Msg) : (s.emit m).pending = s.pending := rfl
@[simp] theorem emit_out (s : State) (m : Msg) : (s.emit m).out = s.out ++ [m] := rfl
@[simp] theorem draw_tb (s : State) (w : Nat) : (s.draw w).2.tb = s.tb := rfl
@[simp] theorem draw_regs (s : State) (w : Nat) : (s.draw w).2.regs = s.regs := rfl
@[simp] theorem draw_staged (s : State) (w : Nat) : (s.draw w).2.staged = s.staged := rfl
@[simp] theorem draw_actDue (s : State) (w : Nat) : (s.draw w).2.actDue = s.actDue := rfl
@[simp] theorem draw_blockResets (s : State) (w : Nat) : (s.draw w).2.blockResets = s.blockResets := rfl
@[simp] theorem draw_closedWork (s : State) (w : Nat) : (s.draw w).2.closedWork = s.closedWork := rfl
@[simp] theorem draw_tier (s : State) (w : Nat) : (s.draw w).2.tier = s.tier := rfl
@[simp] theorem draw_media (s : State) (w : Nat) : (s.draw w).2.media = s.media := rfl
@[simp] theorem draw_dipts (s : State) (w : Nat) : (s.draw w).2.dipts = s.dipts := rfl
@[simp] theorem draw_veins (s : State) (w : Nat) : (s.draw w).2.veins = s.veins := rfl
@[simp] theorem draw_chans (s : State) (w : Nat) : (s.draw w).2.chans = s.chans := rfl
@[simp] theorem draw_vq (s : State) (w : Nat) : (s.draw w).2.vq = s.vq := rfl
@[simp] theorem draw_crypto (s : State) (w : Nat) : (s.draw w).2.crypto = s.crypto := rfl
@[simp] theorem draw_ports (s : State) (w : Nat) : (s.draw w).2.ports = s.ports := rfl
@[simp] theorem draw_home (s : State) (w : Nat) : (s.draw w).2.home = s.home := rfl
@[simp] theorem draw_hub (s : State) (w : Nat) : (s.draw w).2.hub = s.hub := rfl
@[simp] theorem draw_regu (s : State) (w : Nat) : (s.draw w).2.regu = s.regu := rfl
@[simp] theorem draw_faults (s : State) (w : Nat) : (s.draw w).2.faults = s.faults := rfl
@[simp] theorem draw_codec (s : State) (w : Nat) : (s.draw w).2.codec = s.codec := rfl
@[simp] theorem draw_query (s : State) (w : Nat) : (s.draw w).2.query = s.query := rfl
@[simp] theorem draw_ring (s : State) (w : Nat) : (s.draw w).2.ring = s.ring := rfl
@[simp] theorem draw_energy (s : State) (w : Nat) : (s.draw w).2.energy = s.energy := rfl
@[simp] theorem draw_rest (s : State) (w : Nat) : (s.draw w).2.rest = s.rest := rfl
@[simp] theorem draw_secure (s : State) (w : Nat) : (s.draw w).2.secure = s.secure := rfl
@[simp] theorem draw_sup (s : State) (w : Nat) : (s.draw w).2.sup = s.sup := rfl
@[simp] theorem draw_boot (s : State) (w : Nat) : (s.draw w).2.boot = s.boot := rfl
@[simp] theorem draw_out (s : State) (w : Nat) : (s.draw w).2.out = s.out := rfl
@[simp] theorem draw_pending (s : State) (w : Nat) : (s.draw w).2.pending = s.pending := rfl

/-! ### What an event leaves alone -/

@[simp] theorem within_regs (t s : State) : (t.within s).regs = t.regs := rfl
@[simp] theorem within_staged (t s : State) : (t.within s).staged = t.staged := rfl
@[simp] theorem within_actDue (t s : State) : (t.within s).actDue = t.actDue := rfl
@[simp] theorem within_blockResets (t s : State) : (t.within s).blockResets = t.blockResets := rfl
@[simp] theorem within_closedWork (t s : State) : (t.within s).closedWork = t.closedWork := rfl
@[simp] theorem within_tier (t s : State) : (t.within s).tier = t.tier := rfl
@[simp] theorem within_media (t s : State) : (t.within s).media = t.media := rfl
@[simp] theorem within_dipts (t s : State) : (t.within s).dipts = t.dipts := rfl
@[simp] theorem within_veins (t s : State) : (t.within s).veins = t.veins := rfl
@[simp] theorem within_chans (t s : State) : (t.within s).chans = t.chans := rfl
@[simp] theorem within_vq (t s : State) : (t.within s).vq = t.vq := rfl
@[simp] theorem within_crypto (t s : State) : (t.within s).crypto = t.crypto := rfl
@[simp] theorem within_ports (t s : State) : (t.within s).ports = t.ports := rfl
@[simp] theorem within_home (t s : State) : (t.within s).home = t.home := rfl
@[simp] theorem within_hub (t s : State) : (t.within s).hub = t.hub := rfl
@[simp] theorem within_regu (t s : State) : (t.within s).regu = t.regu := rfl
@[simp] theorem within_faults (t s : State) : (t.within s).faults = t.faults := rfl
@[simp] theorem within_codec (t s : State) : (t.within s).codec = t.codec := rfl
@[simp] theorem within_query (t s : State) : (t.within s).query = t.query := rfl
@[simp] theorem within_ring (t s : State) : (t.within s).ring = t.ring := rfl
@[simp] theorem within_energy (t s : State) : (t.within s).energy = t.energy := rfl
@[simp] theorem within_rest (t s : State) : (t.within s).rest = t.rest := rfl
@[simp] theorem within_secure (t s : State) : (t.within s).secure = t.secure := rfl
@[simp] theorem within_out (t s : State) : (t.within s).out = t.out := rfl
@[simp] theorem within_draws (t s : State) : (t.within s).draws = t.draws := rfl
@[simp] theorem within_sup (t s : State) : (t.within s).sup = s.sup := rfl
@[simp] theorem within_pending (t s : State) : (t.within s).pending = s.pending := rfl
@[simp] theorem within_stroke (t s : State) : (t.within s).tb.stroke = s.tb.stroke := rfl
@[simp] theorem within_phase (t s : State) : (t.within s).tb.phase = s.tb.phase := rfl
@[simp] theorem within_len (t s : State) : (t.within s).tb.len = s.tb.len := rfl
@[simp] theorem within_elapsed (t s : State) : (t.within s).tb.elapsed = s.tb.elapsed := rfl
@[simp] theorem within_powered (t s : State) : (t.within s).boot.powered = s.boot.powered := rfl
@[simp] theorem within_adopt (t s : State) : (t.within s).tb.adopt = t.tb.adopt := rfl
@[simp] theorem within_latches (t s : State) : (t.within s).tb.latches = t.tb.latches := rfl
@[simp] theorem within_layerDue (t s : State) : (t.within s).tb.layerDue = t.tb.layerDue := rfl
@[simp] theorem within_sittingDue (t s : State) : (t.within s).tb.sittingDue = t.tb.sittingDue := rfl
@[simp] theorem within_edgeOpen (t s : State) : (t.within s).tb.edgeOpen = t.tb.edgeOpen := rfl
@[simp] theorem within_hotSeen (t s : State) : (t.within s).tb.hotSeen = t.tb.hotSeen := rfl
@[simp] theorem within_hot (t s : State) : (t.within s).tb.hot = t.tb.hot := rfl
@[simp] theorem within_hotBad (t s : State) : (t.within s).tb.hotBad = t.tb.hotBad := rfl
@[simp] theorem within_hotWhole (t s : State) : (t.within s).tb.hotWhole = t.tb.hotWhole := rfl
@[simp] theorem within_boot_inReset (t s : State) : (t.within s).boot.inReset = t.boot.inReset := rfl
@[simp] theorem within_boot_requests (t s : State) : (t.within s).boot.requests = t.boot.requests := rfl
@[simp] theorem within_boot_slabReset (t s : State) : (t.within s).boot.slabReset = t.boot.slabReset := rfl
@[simp] theorem within_boot_absent (t s : State) : (t.within s).boot.absent = t.boot.absent := rfl
@[simp] theorem within_boot_hbMiss (t s : State) : (t.within s).boot.hbMiss = t.boot.hbMiss := rfl
@[simp] theorem within_boot_clkLost (t s : State) : (t.within s).boot.clkLost = t.boot.clkLost := rfl
@[simp] theorem within_boot_returning (t s : State) : (t.within s).boot.returning = t.boot.returning := rfl
@[simp] theorem within_boot_flash (t s : State) : (t.within s).boot.flash = t.boot.flash := rfl
@[simp] theorem within_boot_accepted (t s : State) : (t.within s).boot.accepted = t.boot.accepted := rfl
@[simp] theorem within_boot_slot (t s : State) : (t.within s).boot.slot = t.boot.slot := rfl
@[simp] theorem within_boot_pendTried (t s : State) : (t.within s).boot.pendTried = t.boot.pendTried := rfl
@[simp] theorem within_boot_tried (t s : State) : (t.within s).boot.tried = t.boot.tried := rfl
@[simp] theorem within_boot_digests (t s : State) : (t.within s).boot.digests = t.boot.digests := rfl
@[simp] theorem within_boot_staging (t s : State) : (t.within s).boot.staging = t.boot.staging := rfl
@[simp] theorem within_boot_stagedLen (t s : State) : (t.within s).boot.stagedLen = t.boot.stagedLen := rfl
@[simp] theorem within_boot_drawn (t s : State) : (t.within s).boot.drawn = t.boot.drawn := rfl
@[simp] theorem within_boot_loader (t s : State) : (t.within s).boot.loader = t.boot.loader := rfl
@[simp] theorem within_boot_released (t s : State) : (t.within s).boot.released = t.boot.released := rfl
@[simp] theorem within_boot_hostReady (t s : State) : (t.within s).boot.hostReady = t.boot.hostReady := rfl
@[simp] theorem within_boot_readyAt (t s : State) : (t.within s).boot.readyAt = t.boot.readyAt := rfl
@[simp] theorem within_boot_trained (t s : State) : (t.within s).boot.trained = t.boot.trained := rfl
@[simp] theorem within_boot_warmLeft (t s : State) : (t.within s).boot.warmLeft = t.boot.warmLeft := rfl
@[simp] theorem within_boot_filled (t s : State) : (t.within s).boot.filled = t.boot.filled := rfl
@[simp] theorem within_boot_seamUp (t s : State) : (t.within s).boot.seamUp = t.boot.seamUp := rfl
@[simp] theorem within_boot_straps (t s : State) : (t.within s).boot.straps = t.boot.straps := rfl
@[simp] theorem within_boot_roleOvr (t s : State) : (t.within s).boot.roleOvr = t.boot.roleOvr := rfl
@[simp] theorem within_boot_refPresent (t s : State) : (t.within s).boot.refPresent = t.boot.refPresent := rfl
@[simp] theorem within_boot_sysRst (t s : State) : (t.within s).boot.sysRst = t.boot.sysRst := rfl
@[simp] theorem within_boot_gates (t s : State) : (t.within s).boot.gates = t.boot.gates := rfl
@[simp] theorem within_boot_offAsk (t s : State) : (t.within s).boot.offAsk = t.boot.offAsk := rfl
@[simp] theorem within_boot_stopped (t s : State) : (t.within s).boot.stopped = t.boot.stopped := rfl
@[simp] theorem within_boot_coldCount (t s : State) : (t.within s).boot.coldCount = t.boot.coldCount := rfl
@[simp] theorem within_boot_grade (t s : State) : (t.within s).boot.grade = t.boot.grade := rfl
@[simp] theorem cutAsked_tb (t s : State) : (t.cutAsked s).tb = t.tb := by
  unfold State.cutAsked; split <;> rfl
@[simp] theorem cutAsked_regs (t s : State) : (t.cutAsked s).regs = t.regs := by
  unfold State.cutAsked; split <;> rfl
@[simp] theorem cutAsked_staged (t s : State) : (t.cutAsked s).staged = t.staged := by
  unfold State.cutAsked; split <;> rfl
@[simp] theorem cutAsked_actDue (t s : State) : (t.cutAsked s).actDue = t.actDue := by
  unfold State.cutAsked; split <;> rfl
@[simp] theorem cutAsked_blockResets (t s : State) : (t.cutAsked s).blockResets = t.blockResets := by
  unfold State.cutAsked; split <;> rfl
@[simp] theorem cutAsked_closedWork (t s : State) : (t.cutAsked s).closedWork = t.closedWork := by
  unfold State.cutAsked; split <;> rfl
@[simp] theorem cutAsked_tier (t s : State) : (t.cutAsked s).tier = t.tier := by
  unfold State.cutAsked; split <;> rfl
@[simp] theorem cutAsked_media (t s : State) : (t.cutAsked s).media = t.media := by
  unfold State.cutAsked; split <;> rfl
@[simp] theorem cutAsked_dipts (t s : State) : (t.cutAsked s).dipts = t.dipts := by
  unfold State.cutAsked; split <;> rfl
@[simp] theorem cutAsked_veins (t s : State) : (t.cutAsked s).veins = t.veins := by
  unfold State.cutAsked; split <;> rfl
@[simp] theorem cutAsked_chans (t s : State) : (t.cutAsked s).chans = t.chans := by
  unfold State.cutAsked; split <;> rfl
@[simp] theorem cutAsked_vq (t s : State) : (t.cutAsked s).vq = t.vq := by
  unfold State.cutAsked; split <;> rfl
@[simp] theorem cutAsked_crypto (t s : State) : (t.cutAsked s).crypto = t.crypto := by
  unfold State.cutAsked; split <;> rfl
@[simp] theorem cutAsked_ports (t s : State) : (t.cutAsked s).ports = t.ports := by
  unfold State.cutAsked; split <;> rfl
@[simp] theorem cutAsked_home (t s : State) : (t.cutAsked s).home = t.home := by
  unfold State.cutAsked; split <;> rfl
@[simp] theorem cutAsked_hub (t s : State) : (t.cutAsked s).hub = t.hub := by
  unfold State.cutAsked; split <;> rfl
@[simp] theorem cutAsked_regu (t s : State) : (t.cutAsked s).regu = t.regu := by
  unfold State.cutAsked; split <;> rfl
@[simp] theorem cutAsked_faults (t s : State) : (t.cutAsked s).faults = t.faults := by
  unfold State.cutAsked; split <;> rfl
@[simp] theorem cutAsked_codec (t s : State) : (t.cutAsked s).codec = t.codec := by
  unfold State.cutAsked; split <;> rfl
@[simp] theorem cutAsked_query (t s : State) : (t.cutAsked s).query = t.query := by
  unfold State.cutAsked; split <;> rfl
@[simp] theorem cutAsked_ring (t s : State) : (t.cutAsked s).ring = t.ring := by
  unfold State.cutAsked; split <;> rfl
@[simp] theorem cutAsked_energy (t s : State) : (t.cutAsked s).energy = t.energy := by
  unfold State.cutAsked; split <;> rfl
@[simp] theorem cutAsked_rest (t s : State) : (t.cutAsked s).rest = t.rest := by
  unfold State.cutAsked; split <;> rfl
@[simp] theorem cutAsked_secure (t s : State) : (t.cutAsked s).secure = t.secure := by
  unfold State.cutAsked; split <;> rfl
@[simp] theorem cutAsked_out (t s : State) : (t.cutAsked s).out = t.out := by
  unfold State.cutAsked; split <;> rfl
@[simp] theorem cutAsked_draws (t s : State) : (t.cutAsked s).draws = t.draws := by
  unfold State.cutAsked; split <;> rfl
@[simp] theorem cutAsked_pending (t s : State) : (t.cutAsked s).pending = t.pending := by
  unfold State.cutAsked; split <;> rfl

/-- A command that does not write PSUP_CTL.POWER_OFF leaves the power alone. -/
theorem cutAsked_idle (t s : State) (h : t.boot.offAsk = s.boot.offAsk) : t.cutAsked s = t := by
  unfold State.cutAsked
  rw [h]
  cases hs : s.boot.offAsk <;> simp <;> rw [← hs, ← h]

@[simp] theorem cutAsked_boot_slabReset (t s : State) : (t.cutAsked s).boot.slabReset = t.boot.slabReset := by
  unfold State.cutAsked; split <;> rfl
@[simp] theorem cutAsked_boot_absent (t s : State) : (t.cutAsked s).boot.absent = t.boot.absent := by
  unfold State.cutAsked; split <;> rfl
@[simp] theorem cutAsked_boot_hbMiss (t s : State) : (t.cutAsked s).boot.hbMiss = t.boot.hbMiss := by
  unfold State.cutAsked; split <;> rfl
@[simp] theorem cutAsked_boot_clkLost (t s : State) : (t.cutAsked s).boot.clkLost = t.boot.clkLost := by
  unfold State.cutAsked; split <;> rfl
@[simp] theorem cutAsked_boot_returning (t s : State) : (t.cutAsked s).boot.returning = t.boot.returning := by
  unfold State.cutAsked; split <;> rfl
@[simp] theorem cutAsked_boot_flash (t s : State) : (t.cutAsked s).boot.flash = t.boot.flash := by
  unfold State.cutAsked; split <;> rfl
@[simp] theorem cutAsked_boot_accepted (t s : State) : (t.cutAsked s).boot.accepted = t.boot.accepted := by
  unfold State.cutAsked; split <;> rfl
@[simp] theorem cutAsked_boot_slot (t s : State) : (t.cutAsked s).boot.slot = t.boot.slot := by
  unfold State.cutAsked; split <;> rfl
@[simp] theorem cutAsked_boot_pendTried (t s : State) : (t.cutAsked s).boot.pendTried = t.boot.pendTried := by
  unfold State.cutAsked; split <;> rfl
@[simp] theorem cutAsked_boot_tried (t s : State) : (t.cutAsked s).boot.tried = t.boot.tried := by
  unfold State.cutAsked; split <;> rfl
@[simp] theorem cutAsked_boot_digests (t s : State) : (t.cutAsked s).boot.digests = t.boot.digests := by
  unfold State.cutAsked; split <;> rfl
@[simp] theorem cutAsked_boot_staging (t s : State) : (t.cutAsked s).boot.staging = t.boot.staging := by
  unfold State.cutAsked; split <;> rfl
@[simp] theorem cutAsked_boot_stagedLen (t s : State) : (t.cutAsked s).boot.stagedLen = t.boot.stagedLen := by
  unfold State.cutAsked; split <;> rfl
@[simp] theorem cutAsked_boot_drawn (t s : State) : (t.cutAsked s).boot.drawn = t.boot.drawn := by
  unfold State.cutAsked; split <;> rfl
@[simp] theorem cutAsked_boot_loader (t s : State) : (t.cutAsked s).boot.loader = t.boot.loader := by
  unfold State.cutAsked; split <;> rfl
@[simp] theorem cutAsked_boot_released (t s : State) : (t.cutAsked s).boot.released = t.boot.released := by
  unfold State.cutAsked; split <;> rfl
@[simp] theorem cutAsked_boot_hostReady (t s : State) : (t.cutAsked s).boot.hostReady = t.boot.hostReady := by
  unfold State.cutAsked; split <;> rfl
@[simp] theorem cutAsked_boot_readyAt (t s : State) : (t.cutAsked s).boot.readyAt = t.boot.readyAt := by
  unfold State.cutAsked; split <;> rfl
@[simp] theorem cutAsked_boot_trained (t s : State) : (t.cutAsked s).boot.trained = t.boot.trained := by
  unfold State.cutAsked; split <;> rfl
@[simp] theorem cutAsked_boot_warmLeft (t s : State) : (t.cutAsked s).boot.warmLeft = t.boot.warmLeft := by
  unfold State.cutAsked; split <;> rfl
@[simp] theorem cutAsked_boot_filled (t s : State) : (t.cutAsked s).boot.filled = t.boot.filled := by
  unfold State.cutAsked; split <;> rfl
@[simp] theorem cutAsked_boot_seamUp (t s : State) : (t.cutAsked s).boot.seamUp = t.boot.seamUp := by
  unfold State.cutAsked; split <;> rfl
@[simp] theorem cutAsked_boot_straps (t s : State) : (t.cutAsked s).boot.straps = t.boot.straps := by
  unfold State.cutAsked; split <;> rfl
@[simp] theorem cutAsked_boot_roleOvr (t s : State) : (t.cutAsked s).boot.roleOvr = t.boot.roleOvr := by
  unfold State.cutAsked; split <;> rfl
@[simp] theorem cutAsked_boot_refPresent (t s : State) : (t.cutAsked s).boot.refPresent = t.boot.refPresent := by
  unfold State.cutAsked; split <;> rfl
@[simp] theorem cutAsked_boot_sysRst (t s : State) : (t.cutAsked s).boot.sysRst = t.boot.sysRst := by
  unfold State.cutAsked; split <;> rfl
@[simp] theorem cutAsked_boot_gates (t s : State) : (t.cutAsked s).boot.gates = t.boot.gates := by
  unfold State.cutAsked; split <;> rfl
@[simp] theorem cutAsked_boot_stopped (t s : State) : (t.cutAsked s).boot.stopped = t.boot.stopped := by
  unfold State.cutAsked; split <;> rfl
@[simp] theorem cutAsked_boot_coldCount (t s : State) : (t.cutAsked s).boot.coldCount = t.boot.coldCount := by
  unfold State.cutAsked; split <;> rfl
@[simp] theorem cutAsked_boot_grade (t s : State) : (t.cutAsked s).boot.grade = t.boot.grade := by
  unfold State.cutAsked; split <;> rfl

/-! ### Reading a register field after a write -/

theorem xor_xor_self (a b : Nat) : (a ^^^ b) ^^^ b = a := by rw [Nat.xor_assoc, Nat.xor_self, Nat.xor_zero]

/-- Read after write of the same field. -/
@[simp] theorem fread_fwrite_same (m : SMap Nat) (p : Nat) (f : Fld) (i v : Nat) : fread (fwrite m p f i v) p f i = v % 2 ^ f.w := by
  simp [fread, fwrite]

/-- A write leaves every other field as it was. -/
theorem fread_fwrite_other (m : SMap Nat) (p q : Nat) (f g : Fld) (i j v : Nat) (h : fkey q g j ≠ fkey p f i) :
    fread (fwrite m p f i v) q g j = fread m q g j := by
  simp [fread, fwrite, sget_sset_other _ _ _ _ _ h]

theorem get_eq (s : State) (b : Block) (n : Nat) (f : Fld) (i : Nat) : s.get b n f i = fread s.regs (pg b n) f i := rfl

@[simp] theorem get_put_same (s : State) (b : Block) (n : Nat) (f : Fld) (v i : Nat) : (s.put b n f v i).get b n f i = v % 2 ^ f.w := by
  simp [State.get, State.put, State.getP, State.putP]

theorem get_put_other (s : State) (b c : Block) (n m : Nat) (f g : Fld) (v i j : Nat) (h : fkey (pg c m) g j ≠ fkey (pg b n) f i) :
    (s.put b n f v i).get c m g j = s.get c m g j := by
  simp [State.get, State.put, State.getP, State.putP, fread_fwrite_other _ _ _ _ _ _ _ _ h]

theorem getP_putP_other (s : State) (p q : Nat) (f g : Fld) (v i j : Nat) (h : fkey q g j ≠ fkey p f i) :
    (s.putP p f v i).getP q g j = s.getP q g j := by
  simp [State.getP, State.putP, fread_fwrite_other _ _ _ _ _ _ _ _ h]

/-- A state with the same registers shows the same fields. -/
theorem get_congr (s t : State) (h : t.regs = s.regs) (b : Block) (n : Nat) (f : Fld) (i : Nat) : t.get b n f i = s.get b n f i := by
  simp [State.get, State.getP, h]

@[simp] theorem get_within (t s : State) (b : Block) (n : Nat) (f : Fld) (i : Nat) : (t.within s).get b n f i = t.get b n f i := rfl
@[simp] theorem get_emit (s : State) (m : Msg) (b : Block) (n : Nat) (f : Fld) (i : Nat) : (s.emit m).get b n f i = s.get b n f i := rfl
@[simp] theorem get_cutAsked (t s : State) (b : Block) (n : Nat) (f : Fld) (i : Nat) : (t.cutAsked s).get b n f i = t.get b n f i :=
  get_congr _ _ (cutAsked_regs t s) b n f i

/-! ### Interrupts -/

@[simp] theorem intRise_regs (o n : State) (p : Nat) : (intRise o n p).regs = n.regs := by
  unfold intRise; split <;> rfl

/-- Raising interrupts of a page changes no field outside its HDR_INT_STATUS. -/
theorem getP_setInts (s : State) (p mask q : Nat) (g : Fld) (j : Nat)
    (h : fkey q g j < 8 * (p + 0x14) ∨ 8 * (p + 0x14) + 32 ≤ fkey q g j) : (s.setInts p mask).getP q g j = s.getP q g j := by
  have e (f : Fld) (hf : f.off = 0x14) (hl : f.lo < 32) : fkey q g j ≠ fkey p f 0 := by
    unfold fkey at *; rw [hf]; omega
  unfold State.setInts
  simp only
  have hr (a b : State) (r : Nat) : (intRise a b r).getP q g j = b.getP q g j := by simp [State.getP]
  rw [hr]
  have k (c : Bool) (t : State) (f : Fld) (v : Nat) (hf : f.off = 0x14) (hl : f.lo < 32) :
      (if c = true then t.putP p f v else t).getP q g j = t.getP q g j := by
    split
    · exact getP_putP_other _ _ _ _ _ _ _ _ (e f hf hl)
    · rfl
  have k5 (t : State) : (if mask / 0x10000 = 0 then t else t.putP p F.HDR_INT_STATUS_INT_BLOCK
      (t.getP p F.HDR_INT_STATUS_INT_BLOCK ||| (mask / 0x10000))).getP q g j = t.getP q g j := by
    split
    · rfl
    · exact getP_putP_other _ _ _ _ _ _ _ _ (e _ rfl (by decide))
  rw [k5, k _ _ _ _ rfl (by decide), k _ _ _ _ rfl (by decide), k _ _ _ _ rfl (by decide), k _ _ _ _ rfl (by decide)]

theorem get_raise (s : State) (b c : Block) (n m bit : Nat) (g : Fld) (j : Nat)
    (h : fkey (pg c m) g j < 8 * (pg b n + 0x14) ∨ 8 * (pg b n + 0x14) + 32 ≤ fkey (pg c m) g j) :
    (s.raise b n bit).get c m g j = s.get c m g j := getP_setInts s (pg b n) (2 ^ bit) (pg c m) g j h

@[simp] theorem intRise_tb (o n : State) (p : Nat) : (intRise o n p).tb = n.tb := by
  unfold intRise; split <;> rfl
@[simp] theorem setInts_tb (s : State) (p m : Nat) : (s.setInts p m).tb = s.tb := by
  unfold State.setInts; simp only [intRise_tb]; split <;> (try simp only [putP_tb]) <;> (repeat (first | split | rfl | simp only [putP_tb]))
@[simp] theorem raise_tb (s : State) (b : Block) (n k : Nat) : (s.raise b n k).tb = s.tb := setInts_tb _ _ _
@[simp] theorem intRise_staged (o n : State) (p : Nat) : (intRise o n p).staged = n.staged := by
  unfold intRise; split <;> rfl
@[simp] theorem setInts_staged (s : State) (p m : Nat) : (s.setInts p m).staged = s.staged := by
  unfold State.setInts; simp only [intRise_staged]; split <;> (try simp only [putP_staged]) <;> (repeat (first | split | rfl | simp only [putP_staged]))
@[simp] theorem raise_staged (s : State) (b : Block) (n k : Nat) : (s.raise b n k).staged = s.staged := setInts_staged _ _ _
@[simp] theorem intRise_actDue (o n : State) (p : Nat) : (intRise o n p).actDue = n.actDue := by
  unfold intRise; split <;> rfl
@[simp] theorem setInts_actDue (s : State) (p m : Nat) : (s.setInts p m).actDue = s.actDue := by
  unfold State.setInts; simp only [intRise_actDue]; split <;> (try simp only [putP_actDue]) <;> (repeat (first | split | rfl | simp only [putP_actDue]))
@[simp] theorem raise_actDue (s : State) (b : Block) (n k : Nat) : (s.raise b n k).actDue = s.actDue := setInts_actDue _ _ _
@[simp] theorem intRise_blockResets (o n : State) (p : Nat) : (intRise o n p).blockResets = n.blockResets := by
  unfold intRise; split <;> rfl
@[simp] theorem setInts_blockResets (s : State) (p m : Nat) : (s.setInts p m).blockResets = s.blockResets := by
  unfold State.setInts; simp only [intRise_blockResets]; split <;> (try simp only [putP_blockResets]) <;> (repeat (first | split | rfl | simp only [putP_blockResets]))
@[simp] theorem raise_blockResets (s : State) (b : Block) (n k : Nat) : (s.raise b n k).blockResets = s.blockResets := setInts_blockResets _ _ _
@[simp] theorem intRise_closedWork (o n : State) (p : Nat) : (intRise o n p).closedWork = n.closedWork := by
  unfold intRise; split <;> rfl
@[simp] theorem setInts_closedWork (s : State) (p m : Nat) : (s.setInts p m).closedWork = s.closedWork := by
  unfold State.setInts; simp only [intRise_closedWork]; split <;> (try simp only [putP_closedWork]) <;> (repeat (first | split | rfl | simp only [putP_closedWork]))
@[simp] theorem raise_closedWork (s : State) (b : Block) (n k : Nat) : (s.raise b n k).closedWork = s.closedWork := setInts_closedWork _ _ _
@[simp] theorem intRise_tier (o n : State) (p : Nat) : (intRise o n p).tier = n.tier := by
  unfold intRise; split <;> rfl
@[simp] theorem setInts_tier (s : State) (p m : Nat) : (s.setInts p m).tier = s.tier := by
  unfold State.setInts; simp only [intRise_tier]; split <;> (try simp only [putP_tier]) <;> (repeat (first | split | rfl | simp only [putP_tier]))
@[simp] theorem raise_tier (s : State) (b : Block) (n k : Nat) : (s.raise b n k).tier = s.tier := setInts_tier _ _ _
@[simp] theorem intRise_media (o n : State) (p : Nat) : (intRise o n p).media = n.media := by
  unfold intRise; split <;> rfl
@[simp] theorem setInts_media (s : State) (p m : Nat) : (s.setInts p m).media = s.media := by
  unfold State.setInts; simp only [intRise_media]; split <;> (try simp only [putP_media]) <;> (repeat (first | split | rfl | simp only [putP_media]))
@[simp] theorem raise_media (s : State) (b : Block) (n k : Nat) : (s.raise b n k).media = s.media := setInts_media _ _ _
@[simp] theorem intRise_dipts (o n : State) (p : Nat) : (intRise o n p).dipts = n.dipts := by
  unfold intRise; split <;> rfl
@[simp] theorem setInts_dipts (s : State) (p m : Nat) : (s.setInts p m).dipts = s.dipts := by
  unfold State.setInts; simp only [intRise_dipts]; split <;> (try simp only [putP_dipts]) <;> (repeat (first | split | rfl | simp only [putP_dipts]))
@[simp] theorem raise_dipts (s : State) (b : Block) (n k : Nat) : (s.raise b n k).dipts = s.dipts := setInts_dipts _ _ _
@[simp] theorem intRise_veins (o n : State) (p : Nat) : (intRise o n p).veins = n.veins := by
  unfold intRise; split <;> rfl
@[simp] theorem setInts_veins (s : State) (p m : Nat) : (s.setInts p m).veins = s.veins := by
  unfold State.setInts; simp only [intRise_veins]; split <;> (try simp only [putP_veins]) <;> (repeat (first | split | rfl | simp only [putP_veins]))
@[simp] theorem raise_veins (s : State) (b : Block) (n k : Nat) : (s.raise b n k).veins = s.veins := setInts_veins _ _ _
@[simp] theorem intRise_chans (o n : State) (p : Nat) : (intRise o n p).chans = n.chans := by
  unfold intRise; split <;> rfl
@[simp] theorem setInts_chans (s : State) (p m : Nat) : (s.setInts p m).chans = s.chans := by
  unfold State.setInts; simp only [intRise_chans]; split <;> (try simp only [putP_chans]) <;> (repeat (first | split | rfl | simp only [putP_chans]))
@[simp] theorem raise_chans (s : State) (b : Block) (n k : Nat) : (s.raise b n k).chans = s.chans := setInts_chans _ _ _
@[simp] theorem intRise_vq (o n : State) (p : Nat) : (intRise o n p).vq = n.vq := by
  unfold intRise; split <;> rfl
@[simp] theorem setInts_vq (s : State) (p m : Nat) : (s.setInts p m).vq = s.vq := by
  unfold State.setInts; simp only [intRise_vq]; split <;> (try simp only [putP_vq]) <;> (repeat (first | split | rfl | simp only [putP_vq]))
@[simp] theorem raise_vq (s : State) (b : Block) (n k : Nat) : (s.raise b n k).vq = s.vq := setInts_vq _ _ _
@[simp] theorem intRise_crypto (o n : State) (p : Nat) : (intRise o n p).crypto = n.crypto := by
  unfold intRise; split <;> rfl
@[simp] theorem setInts_crypto (s : State) (p m : Nat) : (s.setInts p m).crypto = s.crypto := by
  unfold State.setInts; simp only [intRise_crypto]; split <;> (try simp only [putP_crypto]) <;> (repeat (first | split | rfl | simp only [putP_crypto]))
@[simp] theorem raise_crypto (s : State) (b : Block) (n k : Nat) : (s.raise b n k).crypto = s.crypto := setInts_crypto _ _ _
@[simp] theorem intRise_ports (o n : State) (p : Nat) : (intRise o n p).ports = n.ports := by
  unfold intRise; split <;> rfl
@[simp] theorem setInts_ports (s : State) (p m : Nat) : (s.setInts p m).ports = s.ports := by
  unfold State.setInts; simp only [intRise_ports]; split <;> (try simp only [putP_ports]) <;> (repeat (first | split | rfl | simp only [putP_ports]))
@[simp] theorem raise_ports (s : State) (b : Block) (n k : Nat) : (s.raise b n k).ports = s.ports := setInts_ports _ _ _
@[simp] theorem intRise_home (o n : State) (p : Nat) : (intRise o n p).home = n.home := by
  unfold intRise; split <;> rfl
@[simp] theorem setInts_home (s : State) (p m : Nat) : (s.setInts p m).home = s.home := by
  unfold State.setInts; simp only [intRise_home]; split <;> (try simp only [putP_home]) <;> (repeat (first | split | rfl | simp only [putP_home]))
@[simp] theorem raise_home (s : State) (b : Block) (n k : Nat) : (s.raise b n k).home = s.home := setInts_home _ _ _
@[simp] theorem intRise_hub (o n : State) (p : Nat) : (intRise o n p).hub = n.hub := by
  unfold intRise; split <;> rfl
@[simp] theorem setInts_hub (s : State) (p m : Nat) : (s.setInts p m).hub = s.hub := by
  unfold State.setInts; simp only [intRise_hub]; split <;> (try simp only [putP_hub]) <;> (repeat (first | split | rfl | simp only [putP_hub]))
@[simp] theorem raise_hub (s : State) (b : Block) (n k : Nat) : (s.raise b n k).hub = s.hub := setInts_hub _ _ _
@[simp] theorem intRise_regu (o n : State) (p : Nat) : (intRise o n p).regu = n.regu := by
  unfold intRise; split <;> rfl
@[simp] theorem setInts_regu (s : State) (p m : Nat) : (s.setInts p m).regu = s.regu := by
  unfold State.setInts; simp only [intRise_regu]; split <;> (try simp only [putP_regu]) <;> (repeat (first | split | rfl | simp only [putP_regu]))
@[simp] theorem raise_regu (s : State) (b : Block) (n k : Nat) : (s.raise b n k).regu = s.regu := setInts_regu _ _ _
@[simp] theorem intRise_faults (o n : State) (p : Nat) : (intRise o n p).faults = n.faults := by
  unfold intRise; split <;> rfl
@[simp] theorem setInts_faults (s : State) (p m : Nat) : (s.setInts p m).faults = s.faults := by
  unfold State.setInts; simp only [intRise_faults]; split <;> (try simp only [putP_faults]) <;> (repeat (first | split | rfl | simp only [putP_faults]))
@[simp] theorem raise_faults (s : State) (b : Block) (n k : Nat) : (s.raise b n k).faults = s.faults := setInts_faults _ _ _
@[simp] theorem intRise_codec (o n : State) (p : Nat) : (intRise o n p).codec = n.codec := by
  unfold intRise; split <;> rfl
@[simp] theorem setInts_codec (s : State) (p m : Nat) : (s.setInts p m).codec = s.codec := by
  unfold State.setInts; simp only [intRise_codec]; split <;> (try simp only [putP_codec]) <;> (repeat (first | split | rfl | simp only [putP_codec]))
@[simp] theorem raise_codec (s : State) (b : Block) (n k : Nat) : (s.raise b n k).codec = s.codec := setInts_codec _ _ _
@[simp] theorem intRise_query (o n : State) (p : Nat) : (intRise o n p).query = n.query := by
  unfold intRise; split <;> rfl
@[simp] theorem setInts_query (s : State) (p m : Nat) : (s.setInts p m).query = s.query := by
  unfold State.setInts; simp only [intRise_query]; split <;> (try simp only [putP_query]) <;> (repeat (first | split | rfl | simp only [putP_query]))
@[simp] theorem raise_query (s : State) (b : Block) (n k : Nat) : (s.raise b n k).query = s.query := setInts_query _ _ _
@[simp] theorem intRise_ring (o n : State) (p : Nat) : (intRise o n p).ring = n.ring := by
  unfold intRise; split <;> rfl
@[simp] theorem setInts_ring (s : State) (p m : Nat) : (s.setInts p m).ring = s.ring := by
  unfold State.setInts; simp only [intRise_ring]; split <;> (try simp only [putP_ring]) <;> (repeat (first | split | rfl | simp only [putP_ring]))
@[simp] theorem raise_ring (s : State) (b : Block) (n k : Nat) : (s.raise b n k).ring = s.ring := setInts_ring _ _ _
@[simp] theorem intRise_energy (o n : State) (p : Nat) : (intRise o n p).energy = n.energy := by
  unfold intRise; split <;> rfl
@[simp] theorem setInts_energy (s : State) (p m : Nat) : (s.setInts p m).energy = s.energy := by
  unfold State.setInts; simp only [intRise_energy]; split <;> (try simp only [putP_energy]) <;> (repeat (first | split | rfl | simp only [putP_energy]))
@[simp] theorem raise_energy (s : State) (b : Block) (n k : Nat) : (s.raise b n k).energy = s.energy := setInts_energy _ _ _
@[simp] theorem intRise_rest (o n : State) (p : Nat) : (intRise o n p).rest = n.rest := by
  unfold intRise; split <;> rfl
@[simp] theorem setInts_rest (s : State) (p m : Nat) : (s.setInts p m).rest = s.rest := by
  unfold State.setInts; simp only [intRise_rest]; split <;> (try simp only [putP_rest]) <;> (repeat (first | split | rfl | simp only [putP_rest]))
@[simp] theorem raise_rest (s : State) (b : Block) (n k : Nat) : (s.raise b n k).rest = s.rest := setInts_rest _ _ _
@[simp] theorem intRise_secure (o n : State) (p : Nat) : (intRise o n p).secure = n.secure := by
  unfold intRise; split <;> rfl
@[simp] theorem setInts_secure (s : State) (p m : Nat) : (s.setInts p m).secure = s.secure := by
  unfold State.setInts; simp only [intRise_secure]; split <;> (try simp only [putP_secure]) <;> (repeat (first | split | rfl | simp only [putP_secure]))
@[simp] theorem raise_secure (s : State) (b : Block) (n k : Nat) : (s.raise b n k).secure = s.secure := setInts_secure _ _ _
@[simp] theorem intRise_sup (o n : State) (p : Nat) : (intRise o n p).sup = n.sup := by
  unfold intRise; split <;> rfl
@[simp] theorem setInts_sup (s : State) (p m : Nat) : (s.setInts p m).sup = s.sup := by
  unfold State.setInts; simp only [intRise_sup]; split <;> (try simp only [putP_sup]) <;> (repeat (first | split | rfl | simp only [putP_sup]))
@[simp] theorem raise_sup (s : State) (b : Block) (n k : Nat) : (s.raise b n k).sup = s.sup := setInts_sup _ _ _
@[simp] theorem intRise_boot (o n : State) (p : Nat) : (intRise o n p).boot = n.boot := by
  unfold intRise; split <;> rfl
@[simp] theorem setInts_boot (s : State) (p m : Nat) : (s.setInts p m).boot = s.boot := by
  unfold State.setInts; simp only [intRise_boot]; split <;> (try simp only [putP_boot]) <;> (repeat (first | split | rfl | simp only [putP_boot]))
@[simp] theorem raise_boot (s : State) (b : Block) (n k : Nat) : (s.raise b n k).boot = s.boot := setInts_boot _ _ _
@[simp] theorem intRise_draws (o n : State) (p : Nat) : (intRise o n p).draws = n.draws := by
  unfold intRise; split <;> rfl
@[simp] theorem setInts_draws (s : State) (p m : Nat) : (s.setInts p m).draws = s.draws := by
  unfold State.setInts; simp only [intRise_draws]; split <;> (try simp only [putP_draws]) <;> (repeat (first | split | rfl | simp only [putP_draws]))
@[simp] theorem raise_draws (s : State) (b : Block) (n k : Nat) : (s.raise b n k).draws = s.draws := setInts_draws _ _ _
@[simp] theorem intRise_pending (o n : State) (p : Nat) : (intRise o n p).pending = n.pending := by
  unfold intRise; split <;> rfl
@[simp] theorem setInts_pending (s : State) (p m : Nat) : (s.setInts p m).pending = s.pending := by
  unfold State.setInts; simp only [intRise_pending]; split <;> (try simp only [putP_pending]) <;> (repeat (first | split | rfl | simp only [putP_pending]))
@[simp] theorem raise_pending (s : State) (b : Block) (n k : Nat) : (s.raise b n k).pending = s.pending := setInts_pending _ _ _

end Sys2Proof.Machine
end

