-- ==== Sys2Proof/Laws/Frames.lean ====
section
/-! SUPPORT. Frames: which register fields an operation touches, and how a frame is built operation by operation. -/

namespace Sys2Proof.Machine

theorem OnlyRegs.out {s t : State} {l : List Nat} (h : s.OnlyRegs t l) : s.OnlyRegsOut t l := by
  refine ⟨?_, ?_, h.2⟩
  · have := h.1
    rw [State.mk.injEq] at this ⊢
    simp_all only [true_and, and_self]
  · have := congrArg State.out h.1
    rw [show t.out = s.out from this]

theorem onlyRegs_refl (s : State) (l : List Nat) : s.OnlyRegs s l := ⟨rfl, fun _ _ => rfl⟩
theorem onlyOut_refl (s : State) (l : List Nat) : s.OnlyRegsOut s l := ⟨rfl, List.prefix_rfl, fun _ _ => rfl⟩

/-- A write of a listed field keeps a frame. -/
theorem onlyRegs_put {s t : State} {l : List Nat} (h : s.OnlyRegs t l) (b : Block) (n : Nat) (f : Fld) (v i : Nat)
    (hk : bitAddr b n f i ∈ l) : s.OnlyRegs (t.put b n f v i) l := by
  refine ⟨h.1, fun k hkk => ?_⟩
  rw [← h.2 k hkk]
  have hne : k ≠ bitAddr b n f i := fun e => hkk (e ▸ hk)
  exact sget_sset_other _ _ _ _ _ hne
theorem onlyOut_put {s t : State} {l : List Nat} (h : s.OnlyRegsOut t l) (b : Block) (n : Nat) (f : Fld) (v i : Nat)
    (hk : bitAddr b n f i ∈ l) : s.OnlyRegsOut (t.put b n f v i) l := by
  refine ⟨h.1, h.2.1, fun k hkk => ?_⟩
  rw [← h.2.2 k hkk]
  have hne : k ≠ bitAddr b n f i := fun e => hkk (e ▸ hk)
  exact sget_sset_other _ _ _ _ _ hne
theorem onlyOut_putP {s t : State} {l : List Nat} (h : s.OnlyRegsOut t l) (p : Nat) (f : Fld) (v i : Nat)
    (hk : fkey p f i ∈ l) : s.OnlyRegsOut (t.putP p f v i) l := by
  refine ⟨h.1, h.2.1, fun k hkk => ?_⟩
  rw [← h.2.2 k hkk]
  have hne : k ≠ fkey p f i := fun e => hkk (e ▸ hk)
  exact sget_sset_other _ _ _ _ _ hne
theorem onlyOut_emit {s t : State} {l : List Nat} (h : s.OnlyRegsOut t l) (m : Msg) : s.OnlyRegsOut (t.emit m) l :=
  ⟨h.1, h.2.1.trans (List.prefix_append _ _), h.2.2⟩
theorem onlyOut_intRise {s t : State} {l : List Nat} (h : s.OnlyRegsOut t l) (o : State) (p : Nat) : s.OnlyRegsOut (intRise o t p) l := by
  unfold intRise
  split
  · exact onlyOut_emit h _
  · exact h
/-- Interrupt bits change HDR_INT_STATUS of their page alone. -/
theorem onlyOut_setInts {s t : State} {l : List Nat} (h : s.OnlyRegsOut t l) (b : Block) (n mask : Nat) (hk : ∀ k ∈ intAddrs b n, k ∈ l) :
    s.OnlyRegsOut (t.setInts (pg b n) mask) l := by
  have e : ∀ f ∈ [F.HDR_INT_STATUS_INT_ERROR, F.HDR_INT_STATUS_INT_COMMIT_DONE, F.HDR_INT_STATUS_INT_RESET_DONE, F.HDR_INT_STATUS_INT_LOST_ARB,
   F.HDR_INT_STATUS_INT_BLOCK], fkey (pg b n) f 0 ∈ l := fun f hf => hk _ (List.mem_map_of_mem hf)
  unfold State.setInts
  apply onlyOut_intRise
  have k0 := e _ (List.mem_cons_self ..)
  have k1 := e F.HDR_INT_STATUS_INT_COMMIT_DONE (by simp)
  have k2 := e F.HDR_INT_STATUS_INT_RESET_DONE (by simp)
  have k3 := e F.HDR_INT_STATUS_INT_LOST_ARB (by simp)
  have k4 := e F.HDR_INT_STATUS_INT_BLOCK (by simp)
  have bit (c : Bool) (u : State) (f : Fld) (hf : fkey (pg b n) f 0 ∈ l) (hu : s.OnlyRegsOut u l) :
      s.OnlyRegsOut (if c then u.putP (pg b n) f 1 else u) l := by
    split
    · exact onlyOut_putP hu _ _ _ _ hf
    · exact hu
  have h4 := bit (mask.testBit 3) _ _ k3 (bit (mask.testBit 2) _ _ k2 (bit (mask.testBit 1) _ _ k1 (bit (mask.testBit 0) _ _ k0 h)))
  revert h4
  generalize (if mask.testBit 3 = true then _ else _ : State) = u
  intro h4
  split
  · exact h4
  · exact onlyOut_putP h4 _ _ _ _ k4
theorem onlyOut_raise {s t : State} {l : List Nat} (h : s.OnlyRegsOut t l) (b : Block) (n bit : Nat) (hk : ∀ k ∈ intAddrs b n, k ∈ l) :
    s.OnlyRegsOut (t.raise b n bit) l := onlyOut_setInts h b n _ hk

/-! ### What a raised interrupt reads -/

theorem raise_commitDone_eq (s : State) (b : Block) (n : Nat) :
    s.raise b n 1 = intRise s (s.put b n F.HDR_INT_STATUS_INT_COMMIT_DONE 1) (pg b n) := rfl
@[simp] theorem raise_commitDone (s : State) (b : Block) (n : Nat) : (s.raise b n 1).get b n F.HDR_INT_STATUS_INT_COMMIT_DONE = 1 := by
  rw [raise_commitDone_eq, get_congr _ _ (intRise_regs _ _ _), get_put_same]
  rfl
theorem raise_resetDone_eq (s : State) (b : Block) (n : Nat) :
    s.raise b n 2 = intRise s (s.put b n F.HDR_INT_STATUS_INT_RESET_DONE 1) (pg b n) := rfl
@[simp] theorem raise_resetDone (s : State) (b : Block) (n : Nat) : (s.raise b n 2).get b n F.HDR_INT_STATUS_INT_RESET_DONE = 1 := by
  rw [raise_resetDone_eq, get_congr _ _ (intRise_regs _ _ _), get_put_same]
  rfl
theorem raise_lostArb_eq (s : State) (b : Block) (n : Nat) :
    s.raise b n 3 = intRise s (s.put b n F.HDR_INT_STATUS_INT_LOST_ARB 1) (pg b n) := rfl
@[simp] theorem raise_lostArb (s : State) (b : Block) (n : Nat) : (s.raise b n 3).get b n F.HDR_INT_STATUS_INT_LOST_ARB = 1 := by
  rw [raise_lostArb_eq, get_congr _ _ (intRise_regs _ _ _), get_put_same]
  rfl
/-- An interrupt of the block's own, 0 to 15. -/
theorem raise_block (s : State) (b : Block) (n k : Nat) (hk : k < 16) :
    (s.raise b n (16 + k)).get b n F.HDR_INT_STATUS_INT_BLOCK = (s.get b n F.HDR_INT_STATUS_INT_BLOCK ||| 2 ^ k) % 2 ^ 16 := by
  have hd : 2 ^ (16 + k) / 0x10000 = 2 ^ k := by rw [Nat.pow_add]; exact Nat.mul_div_cancel_left _ (by decide)
  have hb (j : Nat) (hj : j < 16) : (2 ^ (16 + k)).testBit j = false := by
    rw [Nat.testBit_two_pow]; simp; omega
  have hz : 2 ^ k ≠ 0 := by positivity
  simp only [State.raise, State.setInts, hd, hb 0 (by decide), hb 1 (by decide), hb 2 (by decide), hb 3 (by decide), hz, if_false,
    Bool.false_eq_true]
  show (intRise _ _ _).getP (pg b n) F.HDR_INT_STATUS_INT_BLOCK = _
  simp only [State.getP, intRise_regs, State.putP, fread_fwrite_same]
  rfl

theorem within_same {s u : State} (h1 : u.tb = s.tb) (h2 : u.sup = s.sup) (h3 : u.boot.powered = s.boot.powered) (h4 : u.pending = s.pending) :
    u.within s = u := by
  unfold State.within State.pin
  rw [← h1, ← h2, ← h3, ← h4]

/-- An event of the hub whose effect touches registers alone touches nothing else. -/
theorem onlyOut_hub {s u : State} {l : List Nat} (h : s.OnlyRegsOut u l) : s.OnlyRegsOut ((u.within s).cutAsked s) l := by
  have e := h.1
  have h1 : u.tb = s.tb := by
    have := congrArg State.tb e
    exact this
  have h2 : u.sup = s.sup := by
    have := congrArg State.sup e
    exact this
  have h3 : u.boot = s.boot := by
    have := congrArg State.boot e
    exact this
  have h4 : u.pending = s.pending := by
    have := congrArg State.pending e
    exact this
  rw [within_same h1 h2 (by rw [h3]) h4, cutAsked_idle _ _ (by rw [h3])]
  exact h
theorem onlyRegs_hub {s u : State} {l : List Nat} (h : s.OnlyRegs u l) : s.OnlyRegs ((u.within s).cutAsked s) l := by
  have e := h.1
  have h1 : u.tb = s.tb := by
    have := congrArg State.tb e
    exact this
  have h2 : u.sup = s.sup := by
    have := congrArg State.sup e
    exact this
  have h3 : u.boot = s.boot := by
    have := congrArg State.boot e
    exact this
  have h4 : u.pending = s.pending := by
    have := congrArg State.pending e
    exact this
  rw [within_same h1 h2 (by rw [h3]) h4, cutAsked_idle _ _ (by rw [h3])]
  exact h

/-- With no edge open nothing is to be caught up. -/
theorem caughtUp_of_runs {s : State} (h : s.runs = true) : s.caughtUp = s := by
  simp only [State.runs, Bool.and_eq_true, Bool.not_eq_true'] at h
  simp [State.caughtUp, h.2]
/-- An event of the hub while the hub is live and no edge is open. -/
theorem hub_of_runs {s : State} {f : State → State} (h : s.runs = true) : hub s f = .next (((f s).within s).cutAsked s) := by
  have hl : s.live = true := by simp only [State.runs, Bool.and_eq_true] at h; exact h.1
  simp only [hub, caughtUp_of_runs h, if_pos hl]
/-- An event of the hub while the hub is live and no edge is open. -/
theorem ends_hub {i : Instr} {s : State} {f : State → State} {P : State → Prop} (he : exec i s = hub s f) (hr : s.runs = true)
    (hp : P (((f s).within s).cutAsked s)) : Ends i s P := ⟨_, by rw [he, hub_of_runs hr], hp⟩
/-- A register write that no rule drops. -/
theorem fieldWrite_ok {s : State} {a : Nat} {b : Block} {n i : Nat} {f : Fld} (h : s.mayWrite a b n f i) (g : State → State) :
    s.fieldWrite a b n f g i = g s := by
  unfold State.fieldWrite State.writeBy
  rw [h]

end Sys2Proof.Machine
end

