-- ==== Sys2Proof/Tests/Slice0.lean ====
section
/-! SUPPORT. Ill-formed commands that are refused, small steps, and a witness of the hypotheses of every statement. -/

namespace Sys2Proof.Tests

open Sys2Proof Sys2Proof.Machine

/-- A frame, a report and an error pattern within their widths. -/
def goodFrame : Frame := { ty := 0, vc := 0, dst := 0, dir := 0, src := 0, hops := 0, tag := 0 }
def goodErr : LineErr := { idx := 0 }
def badErr : LineErr := { idx := 1024 }
def badFrame : Frame := { goodFrame with vc := 4 }
def badRep : Rep := { cls := 256 }

/-- One command with the operand outside its range, for each check of `Instr.wellFormed`: each is refused. -/
theorem test_ill_formed_1 :
    ([.tmbStrokeRead 256, .hostRead 16 0 0 0, .hostRead 0 (2 ^ 52) 0 0, .hostRead 0 0 3 0, .hostRead 0 0 0 4825, .hostWrite 0 0 0 0 0 0 false badErr, .mediaReadReturn 0 [badErr] [], .bisnpResponse 0 (2 ^ 29) 0 0 none] : List Instr).all (fun i => !i.wellFormed) = true := by decide
theorem test_ill_formed_2 :
    ([.bisnpResponse 0 0 64 0 none, .bisnpResponse 0 0 0 8 none, .commit 0 .dprt 2 0, .commit 0 .dprt 0 16, .intForce 0 .dprt 0 (2 ^ 32), .registerPageWrite 0 (2 ^ 24) 1 none, .registerPageWrite 0 0 3 none, .registerPageWrite 0 0 1 (some 256)] : List Instr).all (fun i => !i.wellFormed) = true := by decide
theorem test_ill_formed_3 :
    ([.pmapReadEntry 0 2, .rowBufferTimeout 16, .mr4Poll 128 0 [], .mr4Poll 0 8 [], .veinSlotGrant 0 8 [], .codecDecodeDone 0 8, .ofldDoorbell 0 0 8 0, .ofldDoorbell 0 0 0 4096] : List Instr).all (fun i => !i.wellFormed) = true := by decide
theorem test_ill_formed_4 :
    ([.ofldCqHead 0 0 0 4096, .diptRetire 0 8 0 0, .diptRetire 0 0 0 2, .slabAbsent 0 8, .keysUnwrap 0 0 16, .treeLineEvict 9 0 0, .treeLineEvict 0 9 0, .linkUp 0 17 0 false false] : List Instr).all (fun i => !i.wellFormed) = true := by decide
theorem test_ill_formed_5 :
    ([.linkUp 0 0 8 false false, .hdmCommit 0 0 0 0 16 0 0 0 false false, .hdmCommit 0 0 0 0 0 16 0 0 false false, .hdmCommit 0 0 0 0 0 0 16 0 false false, .portIrqRearm 0 8 0, .portIrqRearm 0 0 4, .getEventRecords 0 8, .transferFw 0 256 0 []] : List Instr).all (fun i => !i.wellFormed) = true := by decide
theorem test_ill_formed_6 :
    ([.activateFw 0 0 256, .registerRead 0 (2 ^ 32) 0, .intRds 18 0 0 0 0, .intRds 0 0 0 16384 0, .intRds 0 0 0 0 4, .invalAck 2 0 0 0 none, .farAtomic 16 0 0 0 0 [] [], .farAtomic 0 0 0 0 0 (List.replicate 4097 0) []] : List Instr).all (fun i => !i.wellFormed) = true := by decide +kernel
theorem test_ill_formed_7 :
    ([.victimRecallDone 0 (2 ^ 35), .chunkDrain 0 0 (2 ^ 29), .hcacInvalSetWay 0 0 (2 ^ 15) 0, .hcacInvalSetWay 0 0 0 16, .qgthCqHead 0 0 4 0, .ringSideUp 2 0 0 0 0 false false, .ringSideUp 0 0 256 0 0 false false, .ringSideUp 0 0 0 4 0 false false] : List Instr).all (fun i => !i.wellFormed) = true := by decide
theorem test_ill_formed_8 :
    ([.lskp 0 0 3, .lstrk 0 0 0 120 false false false 0 0, .lstrk 0 0 0 0 false false false 256 0, .lecho 0 0 (2 ^ 16), .lechoReply 0 0 0 (2 ^ 48), .flitReceive 0 0 4096 0 false false false 0 0 [], .flitReceive 0 0 0 4096 false false false 0 0 [], .flitReceive 0 0 0 0 false false false 4 0 []] : List Instr).all (fun i => !i.wellFormed) = true := by decide
theorem test_ill_formed_9 :
    ([.flitReceive 0 0 0 0 false false false 0 64 [], .stroke 0 0 badFrame, .spliceHalfStart 0 2, .ringRequestRetry (2 ^ 16), .ringRevive 0 0 4, .sensorConversion 12 0 0, .sensorConversion 0 (2 ^ 16) 0, .sensorConversion 0 0 4] : List Instr).all (fun i => !i.wellFormed) = true := by decide
theorem test_ill_formed_10 :
    ([.wakeEvent 256, .getMeas 256 0, .mbxAssign 0 18 false, .keyCreate 0 0 256 0 false, .keyCreate 0 0 0 (2 ^ 16) false, .debugOpen 0 256 0, .spdmGetMeasurements 256 0, .spdmGetMeasurements 0 (2 ^ 256)] : List Instr).all (fun i => !i.wellFormed) = true := by decide
theorem test_ill_formed_11 :
    ([.powerReq 0 0 4, .wdogEnable 0 0 (2 ^ 16), .errorReport [badRep], .wireBroken 256 0 0 0, .wireBroken 0 256 0 0, .wireBroken 0 0 256 0, .wireBroken 0 0 0 193, .fltAck 0 256 0 false] : List Instr).all (fun i => !i.wellFormed) = true := by decide
theorem test_ill_formed_12 :
    ([.fltAck 0 0 (2 ^ 16) false, .seamReplay 0 18, .inputOutOfRange false 256, .railSequenceFault 8 0, .powerOnReset (4, 0, 0) false, .bootVerifyDone 0 0 false, .clockLost 40, .clkcGate 0 10] : List Instr).all (fun i => !i.wellFormed) = true := by decide

/-- A page that has been committed: OPEN 0. -/
def closedPage : State := State.reset.put .dprt 0 F.HDR_STATUS_OPEN 0
/-- A commit that is at its activation point. -/
def duePage : State := { State.reset.putS .dprt 0 F.DPRT_SCRUB_CTL_RATE 5 with actDue := [pg .dprt 0] }
/-- A block-level reset that is under way. -/
def resettingPage : State := { (State.reset.put .hcac 0 F.HDR_CTL_ENABLE 1).put .hcac 0 F.HDR_STATUS_WRITE_IGNORED 1 with blockResets := [pg .hcac 0] }
/-- The supervisor in LIMIT. -/
def limitState : State := { State.reset with sup := { State.reset.sup with st := .limit, timerRun := true, pg := false } }
/-- The switch has just closed. -/
def rampState : State := { State.reset with sup := { State.reset.sup with st := .ramp, pg := false, pgOnce := false, step := 0, rails := 0, released := false } }
/-- The rail sequence in progress at a step. -/
def stepState (n : Nat) : State := { State.reset with sup := { State.reset.sup with step := n, rails := 0x3F, released := false } }
/-- Five faults have been counted. -/
def sixthState : State := { State.reset with sup := { State.reset.sup with count := 5 } }
/-- The switch is open and waits for the enable. -/
def waitState : State := { State.reset with sup := { State.reset.sup.openSwitch with st := .waitEn, en := false } }
/-- The auxiliary rail is down. -/
def darkState : State := { State.reset with sup := { State.reset.sup.openSwitch with st := .off, auxUp := false } }
/-- Latched off, the cool-down over. -/
def latchedState : State := { State.reset with sup := { State.reset.sup.openSwitch with st := .latched, en := false, count := 6 } }
/-- In the cool-down after a fault. -/
def coolState : State := { State.reset with sup := { State.reset.sup.openSwitch with st := .cool, mem := { valid := true, coolLeft := 500 } } }
/-- A module that runs: no reset in progress, the processors released. -/
def runState : State := { State.reset with boot := { State.reset.boot with inReset := none, released := true, trained := true, filled := true, seamUp := true } }
/-- Stroke 64 has begun. -/
def layerState : State := { runState with tb := { runState.tb with stroke := 64, elapsed := 64, layerDue := true, hotSeen := true } }
/-- The last stroke of Layer 0 runs. -/
def edgeState : State := { runState with tb := { runState.tb with stroke := 63, elapsed := 63 } }
/-- Stroke 2,048 has begun. -/
def sittingState : State := { runState with tb := { runState.tb with stroke := 2048, elapsed := 2048, layerDue := true, sittingDue := true, hotBad := true } }
/-- The fabric number 4096 waits for the edge in progress. -/
def adoptState : State := { runState with tb := { runState.tb with stroke := 7, elapsed := 7, phase := 3, adopt := some (7, 4096) } }
/-- A waking module (REST_STATUS.STATE 5). -/
def wakingState : State := runState.put .rest 0 F.REST_STATUS_STATE 5
/-- Page 0 is hot in frame 5 of Diptych 0. -/
def hotPage : State := { runState with tier := { runState.tier with pmap := [(0, { st := .hot, vein := 0, loc := 5, ctx := 1 })] } }
/-- Page 0 is deep: one granule at granule 7 of Vein 0. -/
def deepPage : State := { runState with tier := { runState.tier with pmap := [(0, { st := .deep, vein := 0, loc := 7, gm1 := 0, ctx := 1, heat := 3 })]
                                                                     rows := [(1, [some 0, none, none, none, none, none, none])] } }
/-- A row buffer of Vein 2 opened at stroke 0, and it is stroke 100. -/
def rowBufState : State := { runState with tb := { runState.tb with stroke := 100 }
                                           tier := { runState.tier with rowBufs := [{ vein := 2, row := 9, slots := [(0, 0)], first := 0 }] } }
/-- A demotion of page 0 whose rows are written. -/
def demoted : State := { runState with tier := { runState.tier with
  pmap := [(0, { st := .moving, vein := 0, loc := 5, ctx := 1 })]
  moves := [{ page := 0, kind := .demote, src := .hot, vein := 3, loc := 14, image := List.replicate 512 0, encoded := true, rowsWritten := true, paid := true }] } }
/-- A write of page 9 has been held since stroke 0, and it is stroke 3,000. -/
def exhaustedState : State := { runState with tb := { runState.tb with stroke := 3000 }
                                              tier := { runState.tier with exhausted := [(9, 0, false)] } }
/-- A forwarded read of a page on a donor that is away. -/
def fetchState : State := { runState with tb := { runState.tb with stroke := 100 }
                                          ring := { runState.ring with fetches := [{ page := 0, tag := 4, handle := 1, donor := 77, id := 5, stamp := 0 }] } }
/-- A HOT_SHARE commit whose chunks are empty. -/
def shareState : State := (runState.putS .tier 0 F.TIER_HOT_HOT_SHARE 204).put .tier 0 F.HDR_STATUS_COMMIT_PENDING 1
/-- A training run that passes on every lane. -/
def goodLane : LaneSweep := { rd := [[(30, 50)], [(4, 60)], [(10, 40), (70, 90)]], wl := [(2, 127)], wr := [(4, 60)] }
def goodTrain : ChanTrain := { first := { lanes := List.replicate 4 goodLane, ca := [[[(0, 20)]], [[(0, 20)]]] } }
/-- The time of a poll. -/
def pollState : State := { runState with tb := { runState.tb with phase := 170 } }
/-- Cold training is under way. -/
def trainState : State := { (runState.put .mgmt 0 F.MGMT_BOOT_STATUS_STAGE 1) with boot := { runState.boot with trained := false } }
/-- Vein 3 waits for its warm check. -/
def warmState : State := { runState with boot := { runState.boot with warmLeft := [3] } }
/-- Channel 9 owes seven refreshes and more. -/
def debtState : State := { runState with chans := [(9, { debtOn := true, owed := 515 })] }
/-- One access is queued for channel offset 3 of Vein 2, which is open. -/
def queueState : State := { runState with vq := [{ vein := 2, ofs := 3, level := 2 }] }
/-- Attach point 0 has filled its ingress buffer. -/
def panicState : State := { (runState.put .vein 5 F.VEIN_PANIC_CTL_PANIC_MASK 1).put .vein 5 F.VEIN_PANIC_CTL_PANIC_ON 6 with
  regu := { runState.regu with held := List.replicate 512 { id := 0, kind := .read, who := .host 0, page := 0 } } }
/-- A ready module: the link of attach point 0 up, decoder 0 from address 0, alias 0 with context 1. -/
def hostState : State := { ((((((runState.put .mod 0 F.MOD_READY_READY 1).put .port 0 F.PORT_LINK_UP 1).put .port 0 F.PORT_LINK_MEM_EN 1).put
  .port 0 F.PORT_ALIAS_VALID 1).put .port 0 F.PORT_ALIAS_KEY_CTX 1).put .tier 0 F.TIER_CAP_STATIC_CAP 16).put .regu 0 F.REGU_CTL_HOLD_EN 0 with
    ports := { runState.ports with hdm := [(0, { base := 0, size := 2 ^ 38, committed := true })] }
    crypto := { runState.crypto with ctxs := [(1, { valid := true })] } }
/-- What a hot read waits for: line 1 of frame 5 of Diptych 0, holding 5. -/
def mediaNeed : Need := { idx := 1, key := 77, snap := { sealedIn := { plain := 5, name := 9 } }, want := { plain := 0, name := 9 } }
/-- A host read of a hot page at its Vein. -/
def mediaRd : Rd := { req := { id := 3, kind := .read, who := .host 0, page := 0, line := 1, ctx := 1 }, st := .media, vein := some 0
                      loc := { st := .hot, vein := 0, loc := 5, ctx := 1 }, needs := [mediaNeed] }
/-- The read is at its Vein. -/
def mediaState : State := { hotPage with home := { hotPage.home with reads := [mediaRd] } }
/-- The read is ready. -/
def readyState : State := { hotPage with home := { hotPage.home with reads := [{ mediaRd with st := .ready, needs := [], data := 5 }] } }
/-- A deep line has been released before its verdict. -/
def lateState : State := { hotPage with home := { hotPage.home with late := [{ mediaRd with st := .ready, loc := { mediaRd.loc with st := .deep } }] } }
/-- A discard recalls a line from attach points 3 and 5. -/
def snoopState : State := { hotPage with home := { hotPage.home with
  waiting := [{ req := { id := 4, kind := .discard, who := .mgmt 0, page := 1, line := 1 }, awaiting := [.host 3, .host 5] }] } }
/-- A coded image: every byte of the page is 0xFF. -/
def onesImage : List Byte :=
  [213, 1, 20, 0, 19, 254, 193, 37, 16, 48, 17, 48, 18, 48, 19, 48, 255, 255, 255, 255]

/-- A read of a page whose image is at hand: every byte of the page is 0xFF. -/
def decodeRd : Rd := { mediaRd with st := .decode, needs := [], image := onesImage, loc := { st := .deep, vein := 0, loc := 7, gm1 := 0, ctx := 1 } }
/-- Its decode runs on lane 0. -/
def decodeState : State := { runState with codec := { runState.codec with lanes := [(0, some { level := 4, id := 3 })] }
                                           home := { runState.home with reads := [decodeRd] } }
/-- The encode of page 0, whose lines are all held as zero, runs on lane 0. -/
def encodeState : State := { hotPage with
  codec := { hotPage.codec with lanes := [(0, some { level := 7, id := encodeId 0 })] }
  tier := { hotPage.tier with pmap := [(0, { st := .moving, vein := 0, loc := 5, ctx := 1, heat := 2 })], moves := [{ page := 0, kind := .demote, src := .hot, paid := true }] }
  hub := { hotPage.hub with vlb := (List.range 8).map (fun o => { vein := 0, ofs := o, chunk := 5, page := 0, zeros := List.range 8 }) } }
/-- A descriptor: operation, flags, source and destination in host memory with their lengths. -/
def descLine (op flags src srcLen dst dstLen : Nat) : Line := lineOf (leBytes 1 op ++ leBytes 1 flags ++ leBytes 6 0 ++ leBytes 8 src ++ leBytes 4 srcLen ++
  leBytes 4 3 ++ leBytes 8 dst ++ leBytes 4 dstLen ++ leBytes 28 0)
def noopDesc : Line := descLine 0 0 0 0 0 0
def deflateDesc : Line := descLine 1 12 0 4 0x10000 64
def inflateDesc : Line := descLine 2 12 0 4 0x10000 64
def encodeDesc : Line := descLine 3 0 0 4096 0x10000 4112
def decodeDesc : Line := descLine 4 0 0 20 0x10000 4096
/-- The encoding of a page whose every byte is 1. -/
def codedOnes : List Byte :=
  [213, 1, 20, 0, 127, 107, 24, 66, 16, 48, 17, 48, 18, 48, 19, 48, 1, 1, 1, 1]

/-- Host memory as the jobs read it. -/
def offEnv : JobEnv := { host := [(0, [1, 2, 3, 4])] }
def encEnv : JobEnv := { host := [(0, List.replicate 4096 1)] }
def decEnv : JobEnv := { host := [(0, codedOnes)] }
/-- Queue 0 of Slab 0's offload engine holds one descriptor, held in the line buffer. -/
def offState (d : Line) : State := { (((((hostState.put .ofld 0 F.OFLD_QUEUE_EN_ENABLE 1).put .ofld 0 F.OFLD_SQ_CTL_LOG2_SIZE 3).put .ofld 0 F.OFLD_SQ_CTL_KEY_CTX 1).put
  .ofld 0 F.OFLD_SQ_TAIL_TAIL 1).put .ofld 0 F.OFLD_SQ_BASE_PAGE 2) with
    hub := { hostState.hub with slots := [{ slab := 0, page := 2, runahead := false, ctx := 1, lines := [{ line := 0, data := d, mask := fullMask }] }] }
    ports := { hostState.ports with att := [(0, { bme := true })] } }
/-- A job with 40 output bytes for the host, none written. -/
def offloadJob : OJob := { id := 2, slab := 0, q := 0, desc := lineBytes deflateDesc, out := List.replicate 40 9, inTotal := 4 }
/-- Its last step runs on lane 9. -/
def stepOffload : State := { offState noopDesc with codec := { runState.codec with lanes := [(9, some { level := 5, offload := true, id := 2 })], jobs := [offloadJob] } }
/-- The job has finished; its completion queue lies in the held page. -/
def doneOffload : State := { (offState noopDesc).put .ofld 0 F.OFLD_CQ_BASE_PAGE 2 with codec := { runState.codec with jobs := [{ offloadJob with ended := some 0 }] }, tb := { (offState noopDesc).tb with stroke := 1 } }
/-- Queue 0 is enabled and empty. -/
def idleOffload : State := (offState noopDesc).put .ofld 0 F.OFLD_SQ_TAIL_TAIL 0
/-- Vein 2 may scrub. -/
def scrubState : State := (runState.put .dprt 0 F.DPRT_SCRUB_CTL_SCRUB_EN 1).put .ledg 0 F.LEDG_GRANT_MISC_SCRUB_LINES_S0 16
/-- Diptych 2 has finished its relocation. -/
def relocState : State := { runState with dipts := [(2, { st := .retiring, reloc := true })] }
/-- Slab 1 has lost its clocks. -/
def lossState : State := { runState with boot := { runState.boot with clkLost := [1] } }
/-- A read has been held for an absent Vein since stroke 0, and it is stroke 64. -/
def heldReadState : State := { hotPage with home := { hotPage.home with reads := [{ mediaRd with st := .held }] }
                                            tb := { hotPage.tb with stroke := 64, elapsed := 64 } }
/-- Slab 1 is absent and out of its reset. -/
def returnState : State := { runState with boot := { runState.boot with absent := [1], seamUp := false } }
/-- Diptych 2 has one stale frame. -/
def resyncState : State := { runState with dipts := [(2, { st := .resync, stale := [5] })] }
/-- The module is trained and not filled. -/
def unfilledState : State := { runState with boot := { runState.boot with filled := false } }
/-- One dirty leaf line is cached. -/
def evictState : State := { runState with crypto := { runState.crypto with cache := [{ dipt := 3, level := 0, index := 17, dirty := true }, { dipt := 3, level := 1, index := 2 }] } }
/-- A ledger line is lost. -/
def lossLedger : State := { runState with crypto := { runState.crypto with losses := [{ dipt := 8, level := 0, index := 4, ledger := true }] } }
/-- Context 5 is selected, context 6 valid. -/
def keyState : State := { runState.put .keys 0 F.KEYS_SEL_CTX 5 with crypto := { runState.crypto with ctxs := [(6, { valid := true })] } }
/-- Context 6 drains after its erase. -/
def eraseState : State := { runState with crypto := { runState.crypto with ctxs := [(6, { mask := 3 })], erasing := [(6, 0)] } }
/-- Engine 3 holds line 2 of page 1, a zero page, in a given state. -/
def ownedState (st0 : IState) (dirty : Bool) : State := { hostState with home := { hostState.home with
  dir := [(dirKey (homeOf 1) (dirSetOf (hlOf 1 2)) 0, { ist := st0, iowner := 3, tag := dirTagOf (hlOf 1 2) })]
  icache := [{ owner := 3, page := 1, line := 2, dirty := dirty, data := 5, ctx := 1 }] } }
/-- A discard recalls a line from engine 3 and attach point 5. -/
def ackState : State := { runState with home := { runState.home with
  waiting := [{ req := { id := 4, kind := .discard, who := .mgmt 0, page := 1, line := 2 }, awaiting := [.owner 3, .host 5] }]
  icache := [{ owner := 3, page := 1, line := 2, data := 5, ctx := 1 }] } }
/-- A directory victim whose holders have answered. -/
def victimState : State := { runState with home := { runState.home with
  waiting := [{ req := { id := 4, kind := .snoopRead, who := .mover 0, page := pageOfHl 0 130, line := 2 }, victim := true }]
  victims := [{ slab := 0, hl := 130, ent := { hst := .s, hosts := 1 } }] } }
/-- Attach point 3 departs; an entry of Slab 0 names it. -/
def sweepState : State := { (runState.put .home 0 F.HOME_STATUS_DEPARTED 8).put .home 0 F.HOME_STATUS_SWEEPING 1 with home := { runState.home with
  departing := [(3, 0)], dir := [(5, { hst := .s, hosts := 9 }), (21, { hst := .a, hosts := 8 })] } }
/-- A read waits for an unknown region. -/
def unknownState : State := { hostState with home := { hostState.home with unknown := [regionKey 1]
                                                                           regionWait := [{ id := 4, kind := .read, who := .host 0, page := 1, line := 2 }] } }
/-- Slab 0 acts for the home of Slab 1, which may take it back. -/
def actingState : State := { runState.put .home 0 F.HOME_STATUS_ACTING 1 with home := { runState.home with handback := true } }
/-- One entry of Slab 0's Hub Cache. -/
def cachedState : State := { runState with hub := { runState.hub with ents := [(hcKey 0 5 3, some { name := 40, page := 9 })] } }
/-- A prefetch of line 3 of the hot page 0 is under way, and the line is stored. -/
def prefetchState : State := { hotPage with
  hub := { hotPage.hub with prefetch := [(0, 0, 3, false)] }
  media := { hotPage.media with lines := [(hotPage.hotKey 8 5 3, some { sealedIn := hotPage.bindHot 0 5 3 0 1 7 })] } }
/-- A run-ahead slot of page 0 with sub-blocks 1 to 3 left. -/
def aheadSlot : HlbSlot := { slab := 0, page := 0, runahead := true, ctx := 1, image := onesImage, left := [1, 2, 3], ready := true }
/-- The run-ahead fill is under way. -/
def aheadState : State := { deepPage with hub := { deepPage.hub with slots := [aheadSlot] } }
/-- One warning stands in the log of attach point 0. -/
def eventState : State := { hostState with ports := { hostState.ports with att := [(0, { logs := [{ log := 1, handle := 1 }, { log := 2, handle := 2 }] })] } }
/-- Page 0 is hot in frame 5 of Diptych 0, with a link up. -/
def poisonState : State := { hostState with tier := { hostState.tier with pmap := [(0, { st := .hot, vein := 0, loc := 5, ctx := 1 })] } }
/-- A scan of page 0 was begun at stroke 0, and it is stroke 100. -/
def scanState : State := { poisonState with ports := { poisonState.ports with scan := some (0, 0, 1, 0) }, tb := { poisonState.tb with stroke := 100, elapsed := 100 } }
/-- Capacity beyond the static part may be offered. -/
def offerState : State := (hostState.put .tier 0 F.TIER_CAP_LOGICAL_CAP 64).put .tier 0 F.TIER_CAP_STATIC_CAP 16
/-- An offer stands; an extent has been accepted. -/
def offeredState : State := { offerState with tier := { offerState.tier with offers := [(0, (16, 1), 0)] } }
def extentState : State := { offerState with tier := { offerState.tier with extents := [(16, 1)] } }
/-- The offer is old. -/
def lateOfferState : State := { offeredState with tb := { offeredState.tb with stroke := 2048000, elapsed := 2048000 } }
/-- Host 0 may write. -/
def grantState : State := hostState.put .mod 0 F.MOD_HOST_GRANT_GRANT 2
/-- Host memory of attach point 0 may be written, and engine 2 works under key context 1. -/
def queryHost : State := { hostState.put .qeng 2 F.QENG_SQ_CTL_KEY_CTX 1 with ports := { hostState.ports with att := [(0, { bme := true })] } }
/-- Ring 2 of Slab 0 holds one descriptor, of zeros, in page 1, and the module is ready. -/
def querySub : State := ((((queryHost.put .qeng 2 F.QENG_CTL_ENABLE 1).put .qeng 2 F.QENG_SQ_CTL_LOG2_SIZE 3).put .qeng 2 F.QENG_SQ_TAIL_TAIL 1).put .qeng 2 F.QENG_SQ_BASE_PAGE 1)
/-- A descriptor of engine work: operation, flags, atomic mode, rows and output space. -/
def workDesc (op flags atomic rows outLen : Nat) : List Byte :=
  leBytes 1 op ++ leBytes 1 flags ++ leBytes 1 atomic ++ leBytes 5 7 ++ leBytes 16 5 ++ leBytes 16 rows ++ leBytes 8 0x9000 ++ leBytes 8 outLen ++ leBytes 72 0
/-- A kernel with no terms, no columns to project and no keys: probe mode and EMPTY_KEY; its table of 16 entries is in page 0. -/
def workKernel (mode empty : Nat) : List Byte :=
  leBytes 6 0 ++ leBytes 1 (16 * mode) ++ leBytes 33 0 ++ leBytes 1 4 ++ leBytes 1 3 ++ leBytes 6 0 ++ leBytes 8 empty ++ leBytes 72 0 ++ leBytes 16 0 ++ leBytes 16 2 ++ leBytes 32 0
/-- A job of engine 2. -/
def workJob (op flags atomic rows mode empty : Nat) : QJob := { desc := workDesc op flags atomic rows 64, kernel := workKernel mode empty }
/-- Engine 2 runs a job. -/
def workState (j : QJob) : State := { queryHost with query := { queryHost.query with jobs := [(2, some j)] } }
/-- Engine 2 holds a clean line and its flush runs. -/
def flushState : State := { runState with
  query := { runState.query with flushing := [2] }
  home := { runState.home with icache := [{ owner := 2, page := 1, line := 2, data := 5, ctx := 1 }]
                               dir := [(dirKey (homeOf 1) (dirSetOf (hlOf 1 2)) 0, { ist := .e, iowner := 2, tag := dirTagOf (hlOf 1 2) })] } }
/-- A worker that is member 1 of its pod's ring of two under head 0.0.0; both sides of pair A are up. -/
def memberState : State := { ((((((((runState.put .lode 0 F.LODE_STATE_STATE_A 4).put .lode 0 F.LODE_ID_FABRIC_ADDR 1).put .lode 0 F.LODE_ID_ADDR_VALID 1).put .lode 0 F.LODE_RING_POSITION 1).put
  .ring 0 F.RING_LINK_UP 1).put .ring 1 F.RING_LINK_UP 1).put .lode 0 F.LODE_STATE_TIMING_PORT 1).put .lode 0 F.LODE_STATE_TIMING_SIDE 1) with
    tb := { runState.tb with stroke := 5000 }
    ring := { runState.ring with pairs := [(0, { order := [0, 1], orderIdx := some 1, present := 3 })] } }
/-- A pod manager that heads a ring of two. -/
def headState : State := { (((((runState.put .lode 0 F.LODE_ID_ROLE 1).put .lode 0 F.LODE_STATE_STATE_A 0xA).put .lode 0 F.LODE_ID_ADDR_VALID 1).put .ring 0 F.RING_LINK_UP 1).put .ring 1 F.RING_LINK_UP 1) with
    tb := { runState.tb with stroke := 5000 }
    ring := { runState.ring with pairs := [(0, { order := [0, 1], orderIdx := some 0, held := [(1, 7)], enumTag := some 3 })] } }
/-- A frame sent last, whose flit awaits its acknowledgement. -/
def sentFrame : Sent := { last := 0, flits := 1, frame := { ty := 7, vc := 1, src := 1 } }
/-- A member whose fabric command key is installed; the command asks for code 1 to 4 of a module at 0.0.1. -/
def keyedState : State := { memberState with secure := { memberState.secure with fabricKey := some 9 } }
/-- The first 56 bytes of a command: code, target, issuer 0.0.0, issue stroke 4,990, window 100, sequence 7, the serial, the deadline. -/
def cmdHead (code : Nat) : List Byte :=
  leBytes 2 code ++ leBytes 3 1 ++ leBytes 3 0 ++ leBytes 6 4990 ++ leBytes 2 100 ++ leBytes 4 7
def cmdBody (code : Nat) : List Byte := cmdHead code ++ leBytes 8 Config.serial.toNat ++ (leBytes 4 3 ++ leBytes 24 0)
/-- A command frame with its MAC. -/
def cmdFrame (code : Nat) : Frame := { ty := 0x0C, vc := 1, dst := 1, tag := 6, payload := cmdBody code ++ leBytes 8 (aesCmac 9 (cmdBody code ++ leBytes 8 keyedState.fabricId)).toNat }
/-- The first 120 bytes of a key transfer to context 5 under key-encryption key 2, and its frame with the MAC. -/
def xferBody : List Byte := leBytes 2 5 ++ leBytes 2 1 ++ leBytes 2 0xFF ++ leBytes 2 2 ++ leBytes 6 4990 ++ leBytes 2 1 ++ List.replicate 104 3
def xferBare : Frame := { ty := 0x0A, vc := 1, dst := 1, tag := 6, payload := List.replicate 128 0 }
def xferFrame : Frame := { xferBare with payload := xferBody ++ leBytes 8 (aesCmac 9 ((headerBytes xferBare ++ xferBody) ++ leBytes 8 keyedState.fabricId)).toNat }
/-- A donor whose pool holds one row. -/
def donorState : State := { memberState with tier := { memberState.tier with pool := [1] } }
/-- A borrower that spills page 0 to the donor at 5. -/
def lendeeState (h : Option Nat) : State := { memberState with
  tier := { memberState.tier with pmap := [(0, { st := .moving, vein := 0, loc := 7, gm1 := 0, ctx := 1, heat := 3 })]
                                  rows := [(1, [some 0, none, none, none, none, none, none])]
                                  moves := [{ page := 0, kind := .spill, src := .deep, vein := 0, paid := true, donor := 5, image := List.replicate 512 0 }] }
  ring := { memberState.ring with spills := [{ page := 0, tag := 3, donor := 5, granules := 1, handle := h }] } }
/-- A head at its division's stroke of the Sitting. -/
def divideState : State := ((headState.put .ledg 0 F.LEDG_USED_INPUT_USED 100).put .ledg 0 F.LEDG_NEW_REQ_REQ 40).put .lode 0 F.LODE_ID_ROLE 3 |> fun u => { u with tb := { u.tb with stroke := 2064 } }
/-- The module drains before a Rest. -/
def drainState : State := runState.put .rest 0 F.REST_STATUS_STATE 3
/-- The last stroke of a Sketch sample in Rest. -/
def sampleState : State := { ((runState.put .rest 0 F.REST_STATUS_STATE 4).put .rest 0 F.REST_CFG_SKETCH_EN 1).put .rest 0 F.REST_CFG_SKETCH_PERIOD 4 with tb := { runState.tb with stroke := 3 } }
/-- A hand-over of a block to the secure world is at a stage. -/
def handState (st : HoStage) (b : Nat) : State := { runState with secure := { runState.secure with handover := some { block := b, toSecure := true, stage := st } } }
/-- Engine 2 works through the time its hand-over allows. -/
def busyHand : State := { workState (workJob 0 0 0 0 0 0) with secure := { runState.secure with handover := some { block := 2, toSecure := true, stage := .handing } }, tb := { runState.tb with stroke := 65536 } }
/-- The second offload block is the secure world's. -/
def secureBlock : State := runState.put .ofld 1 F.HDR_OWNER_WORLD 1
/-- A power request on it is deferred. -/
def askedPwr : PwrReq := { block := 17, action := 2, agent := 1, stamp := 0 }
def askedBlock : State := { secureBlock with secure := { secureBlock.secure with pwr := [askedPwr] } }
/-- Every rail is up and the hub's reset waits to be released. -/
def releaseState : State := { State.reset with sup := { State.reset.sup with step := 7, released := false }, boot := { State.reset.boot with powered := false, inReset := none } }
/-- A warm reset flushes. -/
def warmRun : State := { runState with boot := { runState.boot with inReset := some { cold := false, cause := 4, start := 0, stage := .flush } } }
/-- The images are verified up to a stage, and the memory is filled. -/
def verifyState (n : Nat) : State := { (State.reset.put .mgmt 0 F.MGMT_BOOT_STATUS_STAGE n).put .mgmt 1 F.MGMT_BOOT_STATUS_STAGE n with
  boot := { State.reset.boot with trained := true, filled := true, inReset := some { cold := true, cause := 1, start := 0 } } }

/-- Reading bytes one after another succeeds where every one is there. -/
theorem mapM_some_of (f : Nat → Option Byte) (g : Nat → Byte) (xs : List Nat) (h : ∀ i ∈ xs, f i = some (g i)) : xs.mapM f = some (xs.map g) := by
  induction xs with
  | nil => rfl
  | cons a l ih => simp [List.mapM_cons, h a (by simp), ih (fun i hi => h i (by simp [hi]))]

theorem host_bytes_of (s : State) (env : JobEnv) (bs : List Byte) (a addr len : Nat) (h0 : env.host = [(0, bs)]) (hf : env.hostFail = false)
    (h1 : s.hostOpen a = true) (h2 : addr + len ≤ bs.length) :
    s.hostBytes env a addr len = some ((List.range len).map (fun i => bs.getD (addr + i) 0)) := by
  rw [State.hostBytes, h1, hf]
  exact mapM_some_of _ _ _ (fun i hi => by
    have h3 : addr + i < bs.length := Nat.lt_of_lt_of_le (Nat.add_lt_add_left (List.mem_range.mp hi) _) h2
    simp [envByte, h0, h3])

theorem read_hot_page_of (s : State) (page : Nat) (l : Line) (h : ∀ i ∈ List.range 64, s.readHotLine page (s.entry page) i = (some l, s)) :
    s.readHotPage page = (some ((List.range 64).flatMap (fun _ => lineBytes l)), s) := by
  have key : ∀ (xs : List Nat) (acc : List Byte), (∀ i ∈ xs, s.readHotLine page (s.entry page) i = (some l, s)) →
      xs.foldl (fun (acc : Option (List Byte) × State) i => match acc.1 with
        | none => acc
        | some bs =>
          let x := acc.2.readHotLine page (s.entry page) i
          (x.1.map (fun l => bs ++ lineBytes l), x.2)) (some acc, s) = (some (acc ++ xs.flatMap (fun _ => lineBytes l)), s) := by
    intro xs
    induction xs with
    | nil => intro acc _; simp
    | cons a t ih =>
      intro acc ha
      rw [List.foldl_cons]
      simp only [ha a (by simp)]
      rw [show Option.map (fun l => acc ++ lineBytes l) (some l) = some (acc ++ lineBytes l) from rfl, ih _ (fun i hi => ha i (by simp [hi]))]
      simp
  exact key (List.range 64) [] h

/-- The check of a page of one byte, its running value forced at every step. -/
def crcGo (p : BitVec 32) (b : Byte) : Nat → BitVec 32 → BitVec 32
  | 0, c => c
  | n + 1, c => if c.toNat = c.toNat then crcGo p b n (crcByte p c b) else 0

theorem crc_go (p : BitVec 32) (b : Byte) (n : Nat) : ∀ c, (List.replicate n b).foldl (crcByte p) c = crcGo p b n c := by
  induction n with
  | zero => intro c; rfl
  | succ n ih => intro c; simp [List.replicate_succ, crcGo, ih]

theorem ones_page : decodeAll codedOnes = .ok (List.replicate 4096 1) := by
  have h0 : decodeSubOf codedOnes 0 = some (List.replicate 1024 1) := by decide +kernel
  have h1 : decodeSubOf codedOnes 1 = some (List.replicate 1024 1) := by decide +kernel
  have h2 : decodeSubOf codedOnes 2 = some (List.replicate 1024 1) := by decide +kernel
  have h3 : decodeSubOf codedOnes 3 = some (List.replicate 1024 1) := by decide +kernel
  have hm (f : Nat → Option (List Byte)) (l : List Byte) (a0 : f 0 = some l) (a1 : f 1 = some l) (a2 : f 2 = some l) (a3 : f 3 = some l) :
      (List.range 4).mapM f = some [l, l, l, l] := by
    rw [show List.range 4 = [0, 1, 2, 3] from rfl]
    simp [List.mapM_cons, a0, a1, a2, a3]
  have hf (n : Nat) (b : Byte) : [List.replicate n b, List.replicate n b, List.replicate n b, List.replicate n b].flatten = List.replicate (n + (n + (n + n))) b := by
    simp [List.replicate_append_replicate]
  have hc (n : Nat) (b : Byte) : crc32c (List.replicate n b) = (~~~(crcGo 0x82F63B78#32 b n 0xFFFFFFFF#32)).toNat := by
    rw [crc32c, crc32, crc_go]
  have hd (im : List Byte) (ps : List (List Byte)) (page : List Byte) (x1 : (List.range 4).mapM (decodeSubOf im) = some ps) (x2 : ps.flatten = page)
      (x3 : crc32c page = fieldB im 4 4) : decodeAll im = .ok page := by
    rw [decodeAll, x1]
    simp only [x2, x3, if_true]
  exact hd _ _ _ (hm _ _ h0 h1 h2 h3) (hf 1024 1) ((hc 4096 1).trans (by decide +kernel))

theorem ones_external : decodeExternal codedOnes 20 = .ok (List.replicate 4096 1) := by
  have hd (im : List Byte) (n : Nat) (x : Except DecErr (List Byte)) (a1 : headOk im = true) (a2 : ¬ n < fieldB im 2 2 % 8192) (a3 : (fieldB im 1 1).testBit 4 = false)
      (a4 : ¬ (fieldB im 2 2 % 8192 < 17 ∨ 3584 < fieldB im 2 2 % 8192)) (a5 : codedOk im (fieldB im 2 2 % 8192) = true) (h : decodeAll im = x) : decodeExternal im n = x := by
    simp only [not_or] at a4
    simp [decodeExternal, a1, a2, a3, a4, a5, h]
  exact hd _ _ _ (by decide) (by decide) (by decide) (by decide) (by decide +kernel) ones_page

theorem le_nat_bytes (n v : Nat) : leNat (leBytes n v) = v % 256 ^ n := by
  induction n generalizing v with
  | zero => simp [leBytes, leNat, Nat.mod_one]
  | succ n ih =>
    have h : leNat (leBytes (n + 1) v) = v % 256 + 256 * leNat (leBytes n (v / 256)) := by simp [leBytes, leNat]
    rw [h, ih, Nat.pow_succ, Nat.mul_comm (256 ^ n) 256, Nat.mod_mul]

theorem le_bytes_length (n v : Nat) : (leBytes n v).length = n := by
  induction n generalizing v with
  | zero => rfl
  | succ n ih => simp [leBytes, ih]

/-- A field that stands between two byte strings. -/
theorem slice_mid (a m b : List Byte) : sliceB (a ++ (m ++ b)) a.length m.length = m := by
  apply List.ext_getElem
  · simp [sliceB]
  · intro i h1 h2
    have h3 : i < m.length := h2
    simp [sliceB, List.getD_eq_getElem?_getD, List.getElem?_append, h3]

theorem field_mid (a b : List Byte) (n v i : Nat) (hi : i = a.length) : fieldB (a ++ (leBytes n v ++ b)) i n = v % 256 ^ n := by
  have h := slice_mid a (leBytes n v) b
  rw [le_bytes_length] at h
  rw [fieldB, hi, h, le_nat_bytes]

theorem fabric_mac_of (s : State) (body : List Byte) (h : s.secure.fabricKey = some 9) (hl : body.length = 56) :
    s.fabricMac (sliceB (body ++ leBytes 8 (aesCmac 9 (body ++ leBytes 8 s.fabricId)).toNat) 0 56)
      (fieldB (body ++ leBytes 8 (aesCmac 9 (body ++ leBytes 8 s.fabricId)).toNat) 56 8) = true := by
  have h1 := slice_mid [] body (leBytes 8 (aesCmac 9 (body ++ leBytes 8 s.fabricId)).toNat)
  rw [hl] at h1
  have h2 := field_mid body [] 8 (aesCmac 9 (body ++ leBytes 8 s.fabricId)).toNat 56 hl.symm
  rw [List.append_nil] at h2
  rw [List.nil_append, List.length_nil] at h1
  rw [State.fabricMac, h, h1, h2]
  simp

/-- The checks of a command but for its MAC and its serial. -/
def cmdRest (s : State) (b : List Byte) : Bool :=
  let code := fieldB b 0 1
  let win := fieldB b 14 2
  let evac := s.bit .lode 0 F.LODE_EVAC_EVAC
  fieldB b 2 3 % 2 ^ 18 = s.addr && s.isAncestor (fieldB b 5 3 % 2 ^ 18) && !(win = 0 || 2048 < win || win ≤ strokesSince (BitVec.ofNat 48 (fieldB b 8 6)) s.now) &&
    !(fieldB b 16 4 < sget 0 s.ring.cmdSeq (fieldB b 5 3 % 2 ^ 18)) && !((code = 4 && !evac) || (code = 3 && evac)) && code ∈ [1, 2, 3, 4]

theorem cmd_status_of (s : State) (b : List Byte) (h1 : s.fabricMac (sliceB b 0 56) (fieldB b 56 8) = true) (h2 : fieldB b 20 8 = Config.serial.toNat)
    (h3 : cmdRest s b = true) : s.cmdStatus b = 0 := by
  simp only [cmdRest, Bool.and_eq_true, Bool.not_eq_true', decide_eq_true_eq] at h3
  obtain ⟨⟨⟨⟨⟨a1, a2⟩, a3⟩, a4⟩, a5⟩, a6⟩ := h3
  rw [State.cmdStatus]
  simp only [h1, h2, a1, a2, a3, a5, a6]
  simp_all

theorem cmd_passes (s : State) (code : Nat) (h1 : s.secure.fabricKey = some 9) (h2 : s.fabricId = keyedState.fabricId)
    (h3 : cmdRest s (cmdFrame code).payload = true) : s.cmdStatus (cmdFrame code).payload = 0 := by
  refine cmd_status_of s _ ?_ ?_ h3
  · have h := fabric_mac_of s (cmdBody code) h1 (by simp [cmdBody, cmdHead, le_bytes_length])
    rw [h2] at h
    exact h
  · have h := field_mid (cmdHead code) (leBytes 4 3 ++ leBytes 24 0 ++ leBytes 8 (aesCmac 9 (cmdBody code ++ leBytes 8 keyedState.fabricId)).toNat) 8 Config.serial.toNat 20
      (by simp [cmdHead, le_bytes_length])
    rw [show (cmdFrame code).payload = cmdHead code ++ (leBytes 8 Config.serial.toNat ++ (leBytes 4 3 ++ leBytes 24 0 ++ leBytes 8 (aesCmac 9 (cmdBody code ++ leBytes 8 keyedState.fabricId)).toNat)) from by
      simp [cmdFrame, cmdBody, List.append_assoc], h]
    exact Nat.mod_eq_of_lt Config.serial.isLt

/-- The worked example of chapter 09: the home, set, tag and census region of line 41 of page 0x2000001. -/
theorem test_home_example : homeOf 0x2000001 = 1 ∧ hlOf 0x2000001 41 = 0x40000029 ∧ dirSetOf 0x40000029 = 0x1029 ∧
    dirTagOf 0x40000029 = 0x1000 ∧ regionOf 0x2000001 = 32768 := by decide +kernel
/-- The worked encode of chapter 05: sub-block 0 takes five bytes. -/
theorem test_strata_example :
    encodeSub 1 ((List.range 1024).map (fun i => if i % 4 = 0 then 0x93#8 else 0#8)) = (0, [0x7E, 0x12, 0xC0, 0xCB, 0x37]) := by
  decide +kernel
/-- No row of the table gives bits. -/
theorem test_no_words : decodeTableWord 32 0 = none := by decide
/-- The release of the power-on reset: the hub is live, the queue empty, the switch closed (R577). -/
theorem test_reset : State.reset.live = true ∧ State.reset.pending = [] ∧ State.reset.sup.switchOn = true := by decide +kernel
/-- The supervisor after a step. -/
def supAfter (s : State) : Option Sup := match step s with
  | .next t => some t.sup
  | .fault _ => none
  | .refused _ => none
/-- R567: FAULT_TIMER in LIMIT opens the switch and counts a fault. -/
theorem test_fault_timer : (supAfter { limitState with pending := [.faultTimerExpire 200] }).map (fun u => (u.st, u.switchOn, u.count)) = some (.cool, false, 1) := by
  decide +kernel
/-- The nine bytes of "123456789", over which a CRC's check value is taken. -/
def nine : List Byte := [0x31, 0x32, 0x33, 0x34, 0x35, 0x36, 0x37, 0x38, 0x39]
/-- The check values of the ring's CRCs (R433, R438, R440). -/
theorem test_crc_check_values : crcSet nine = 0xF4#8 ∧ crcHeader nine = 0x29B1#16 ∧ crcFlit nine = 0x995DC9BBDF1939FA#64 := by decide +kernel
/-- FIPS 180-4's example: SHA-384 of "abc". -/
theorem test_sha384_abc : sha384 [0x61, 0x62, 0x63] = 0xa725c834a1ecba5823cce7a12b078680ed5bff435a608b1a63d1de0eab322c270750c69a693da0b58b5ea3453f7500cb#384 := by decide +kernel
/-- The check value of the page CRC (R162). -/
theorem test_crc32c_check_value : crc32c nine = 0xE3069283 := by decide +kernel

theorem test_witness_invariant_kept : (∃ (s t : State), (s.Inv) ∧ (step s = .next t)) :=
   -- clause 1
   ⟨State.reset, State.reset.tick, ⟨by decide, rfl⟩⟩
theorem test_witness_control_conflict : (∃ (s : State) (agent n ctl : Nat) (b : Block), (s.runs = true) ∧ (s.mayWrite agent b n F.HDR_CTL_COMMIT) ∧ (ctl.testBit 2 = true ∨ ctl.testBit 3 = true)) ∧
    (∃ (s : State) (agent n ctl : Nat) (b : Block), (s.runs = true) ∧ (s.mayWrite agent b n F.HDR_CTL_UNLOCK) ∧ (ctl.testBit 1 = true ∨ ctl.testBit 3 = true)) ∧
    (∃ (s : State) (agent n ctl : Nat) (b : Block), (s.runs = true) ∧ (s.mayWrite agent b n F.HDR_CTL_BLOCK_RESET) ∧ (ctl.testBit 1 = true ∨ ctl.testBit 2 = true)) :=
  ⟨-- clause 1
   ⟨State.reset, 1, 0, 5, Block.dprt, by decide⟩,
   -- clause 2
   ⟨State.reset, 1, 0, 3, Block.dprt, by decide⟩,
   -- clause 3
   ⟨State.reset, 1, 0, 2, Block.dprt, by decide⟩⟩
theorem test_witness_queue_front : (∃ (s : State) (i : Instr) (r : List Instr), (s.pending = i :: r)) ∧
    (∃ (s : State), (s.pending = []) ∧ (s.tb.edgeOpen = false)) :=
  ⟨-- clause 1
   ⟨{ State.reset with pending := [Instr.fillDone] }, Instr.fillDone, ([] : List Instr), by decide⟩,
   -- clause 2
   ⟨State.reset, by decide⟩⟩
theorem test_witness_stroke_edges : (∃ (s : State), (s.timeRuns = true) ∧ (s.tb.edgeOpen = false) ∧ (s.tb.adopt = none) ∧ (s.tb.layerDue = false)) ∧
    (∃ (s : State), (s.live = true) ∧ (s.tb.edgeOpen = false) ∧ (s.tb.adopt = none) ∧ (s.tb.layerDue = false) ∧ (s.actDue = []) ∧ ((s.tb.stroke + 1).toNat % 64 = 0)) ∧
    (∃ (s : State), (s.live = true) ∧ (s.tb.edgeOpen = false) ∧ (s.tb.adopt = none) ∧ (s.tb.layerDue = false) ∧ (s.actDue = []) ∧ ((s.tb.stroke + 1).toNat % 64 = 0) ∧ (s.boot.seamUp = true) ∧ (s.boot.absent = []) ∧ (s.restState ≠ 4) ∧ (s.get .clkc 0 F.CLKC_STATUS_LOCKED = 1)) :=
  ⟨-- clause 1
   ⟨runState, by decide⟩,
   -- clause 2
   ⟨edgeState, by decide⟩,
   -- clause 3
   ⟨edgeState.put .clkc 0 F.CLKC_STATUS_LOCKED 1, by decide⟩⟩
theorem test_witness_boundaries : (∃ (s : State), (s.live = true) ∧ (s.tb.layerDue = true)) ∧
    (∃ (s : State) (n : Stroke), (s.live = true) ∧ (s.tb.layerDue = true) ∧ (s.tb.adopt = some (s.now, n))) ∧
    (∃ (s : State), (s.live = true) ∧ (s.tb.layerDue = true) ∧ (s.tb.sittingDue = true)) :=
  ⟨-- clause 1
   ⟨layerState, by decide⟩,
   -- clause 2
   ⟨{ layerState with tb := { layerState.tb with edgeOpen := true, adopt := some (64, 4096) } }, (4096 : Stroke), by decide⟩,
   -- clause 3
   ⟨sittingState, by decide⟩⟩
theorem test_witness_timebase_reads : (∃ (s : State) (agent : Nat), (s.runs = true) ∧ (s.dropCause agent (pg .tmb 0 + F.TMB_STROKE_LO_STROKE_LO.off) 4 false = none)) ∧
    (∃ (s : State) (n : Stroke), (s.live = true) ∧ (s.tb.adopt = some (s.now, n)) ∧ (s.tb.layerDue = false) ∧ (n.toNat % 64 = 0)) ∧
    (∃ (s : State) (n : Stroke), (s.live = true) ∧ (s.tb.adopt = some (s.now, n)) ∧ (s.tb.layerDue = false) ∧ (s.tb.edgeOpen = false)) :=
  ⟨-- clause 1
   ⟨runState, 1, by decide⟩,
   -- clause 2
   ⟨{ adoptState with tb := { adoptState.tb with edgeOpen := true } }, (4096 : Stroke), by decide⟩,
   -- clause 3
   ⟨adoptState, (4096 : Stroke), by decide⟩⟩
theorem test_witness_header_commands : (∃ (s : State) (agent n ctl : Nat) (b : Block), (s.runs = true) ∧ (s.mayWrite agent b n F.HDR_CTL_COMMIT) ∧ (ctl < 2) ∧ (b ∈ [Block.vein, .chan, .dprt, .home, .hcac, .ring, .seam, .lode, .ledg, .rest, .codc, .dipt, .cryp]) ∧ (s.bit b n F.HDR_STATUS_OPEN = true) ∧ (s.bit b n F.HDR_STATUS_COMMIT_PENDING = false) ∧ ((s.commitCheck b n).1 = 0)) ∧
    (∃ (s : State) (agent n ctl : Nat) (b : Block), (s.runs = true) ∧ (s.mayWrite agent b n F.HDR_CTL_UNLOCK) ∧ (ctl < 2) ∧ (capHasCommit b = true) ∧ (s.bit b n F.HDR_STATUS_OPEN = false) ∧ (s.bit b n F.HDR_STATUS_COMMIT_PENDING = false) ∧ (s.bit b n F.HDR_LOCK_STICKY = false)) ∧
    (∃ (s : State) (agent n ctl : Nat) (b : Block), (s.runs = true) ∧ (s.mayWrite agent b n F.HDR_CTL_BLOCK_RESET) ∧ (ctl < 2) ∧ (capResetOk b = true) ∧ ((s.put b n F.HDR_CTL_ENABLE ctl).blockIdle b n = true)) ∧
    (∃ (s : State) (agent n : Nat) (b : Block), (s.runs = true) ∧ (s.mayWrite agent b n F.HDR_LOCK_STICKY) ∧ (s.bit b n F.HDR_LOCK_STICKY = false)) ∧
    (∃ (s : State) (agent n ctl : Nat) (b : Block), (s.runs = true) ∧ (s.mayWrite agent b n F.HDR_CTL_BLOCK_RESET) ∧ (ctl < 2) ∧ (capResetOk b = false)) ∧
    (∃ (s : State) (agent n ctl : Nat) (b : Block), (s.runs = true) ∧ (s.mayWrite agent b n F.HDR_CTL_COMMIT) ∧ (ctl < 2) ∧ (b ∈ [Block.ofld, .qeng]) ∧ (isSecp agent = true) ∧ (s.world b n = 0)) :=
  ⟨-- clause 1
   ⟨State.reset, 1, 0, 1, .dprt, by decide⟩,
   -- clause 2
   ⟨closedPage, 1, 0, 1, .dprt, by decide⟩,
   -- clause 3
   ⟨State.reset, 1, 0, 1, .hcac, by decide⟩,
   -- clause 4
   ⟨State.reset, 3, 0, .dprt, by decide⟩,
   -- clause 5
   ⟨State.reset, 1, 0, 1, .dprt, by decide⟩,
   -- clause 6
   ⟨State.reset, 3, 0, 1, .qeng, by decide⟩⟩
theorem test_witness_interrupt_force : (∃ (s : State) (agent n : Nat) (b : Block), (s.runs = true) ∧ (s.mayWrite agent b n F.HDR_INT_FORCE_INT_SET)) :=
   -- clause 1
   ⟨State.reset, 1, 0, .dprt, by decide⟩
theorem test_witness_commit_activation : (∃ (s : State) (b : Block) (n : Nat), (s.runs = true) ∧ (pg b n ∈ s.actDue) ∧ (swf 0 s.staged = true) ∧ (b ∈ [Block.vein, .chan, .dprt, .home, .hcac, .ring, .seam, .lode, .ledg, .rest, .codc, .dipt, .cryp])) :=
   -- clause 1
   ⟨duePage, .dprt, 0, by decide⟩
theorem test_witness_block_reset_done : (∃ (s : State) (b : Block) (n : Nat), (s.runs = true) ∧ (pg b n ∈ s.blockResets) ∧ (b ∈ [Block.qgth, .hcac, .codc]) ∧ (s.handReset b n = false) ∧ (s.get b n F.HDR_STATUS_COMMIT_PENDING = 0) ∧ (s.bit b n F.HDR_LOCK_STICKY = false) ∧ (s.closedWork = []) ∧ (s.codec.waiting = [])) ∧
    (∃ (s : State) (agent slab q tail : Nat), (s.runs = true) ∧ (s.mayWrite agent .ofld slab F.OFLD_SQ_TAIL_TAIL q) ∧ (s.blockClosed .ofld slab = true) ∧ (tail < 4096)) :=
  ⟨-- clause 1
   ⟨resettingPage, .hcac, 0, by decide⟩,
   -- clause 2
   ⟨{ State.reset with blockResets := [pg .ofld 0] }, 1, 0, 2, 3, by decide⟩⟩
theorem test_witness_plain_register_write : (∃ (s : State) (agent offset value n o : Nat) (b : Block), (s.runs = true) ∧ (s.dropCause agent offset 4 true = none) ∧ (blockAt offset = some (b, n, o)) ∧ (0x100 ≤ o) ∧ ((if b.perSlab then s.slabAction agent b n o (value % 2 ^ 32) else s.moduleAction agent b n o (value % 2 ^ 32)) = none)) :=
   -- clause 1
   ⟨State.reset, 1, (pg .dprt 0 + F.DPRT_SCRUB_CTL_RATE.off), 5, 0, F.DPRT_SCRUB_CTL_RATE.off, Block.dprt, by decide⟩
theorem test_witness_dropped_access : (∃ (s : State) (agent offset c : Nat), (s.runs = true) ∧ (s.dropCause agent offset 4 true = some c)) ∧
    (∃ (s : State) (agent : Nat), (s.runs = true) ∧ (s.mayWrite agent .mod 0 F.MOD_DENIED_STAT_CLEAR)) :=
  ⟨-- clause 1
   ⟨State.reset, 16, (pg .secp 0 + 0x100), 1, by decide⟩,
   -- clause 2
   ⟨State.reset, 1, by decide⟩⟩
theorem test_witness_page_map_commands : (∃ (s : State) (agent slab page : Nat), (s.runs = true) ∧ (s.mayWrite agent .pmap slab F.PMAP_CMD_OP) ∧ (s.bit .pmap slab F.PMAP_CMD_STATUS_BUSY = false) ∧ (s.get .pmap slab F.PMAP_PAGE_PAGE = page) ∧ (s.pageExists page = true) ∧ (s.homeSlab page = slab) ∧ (s.quiet) ∧ ((s.entry page).st ≠ .spilled)) ∧
    (∃ (s : State) (agent slab page : Nat), (s.runs = true) ∧ (s.mayWrite agent .pmap slab F.PMAP_CMD_OP) ∧ (s.bit .pmap slab F.PMAP_CMD_STATUS_BUSY = false) ∧ (s.get .pmap slab F.PMAP_PAGE_PAGE = page) ∧ (s.pageExists page = true) ∧ (s.homeSlab page = slab) ∧ (s.quiet) ∧ ((s.entry page).st = .hot ∨ (s.entry page).st = .zero) ∧ ((s.entry page).pinned = false) ∧ (s.pinnedOf (if (s.entry page).st = .hot then (s.entry page).vein else page % 8) + 1 ≤ s.framesOf (if (s.entry page).st = .hot then (s.entry page).vein else page % 8) - 256 * s.get .tier 0 F.TIER_FREE_FREE_HIGH)) ∧
    (∃ (s : State) (agent slab page : Nat), (s.runs = true) ∧ (s.mayWrite agent .pmap slab F.PMAP_CMD_OP) ∧ (s.bit .pmap slab F.PMAP_CMD_STATUS_BUSY = false) ∧ (s.get .pmap slab F.PMAP_PAGE_PAGE = page) ∧ (s.pageExists page = true) ∧ (s.homeSlab page = slab) ∧ (s.quiet) ∧ ((s.entry page).st ≠ .unmapped)) ∧
    (∃ (s : State) (agent slab page : Nat), (s.runs = true) ∧ (s.mayWrite agent .pmap slab F.PMAP_CMD_OP) ∧ (s.bit .pmap slab F.PMAP_CMD_STATUS_BUSY = false) ∧ (s.get .pmap slab F.PMAP_PAGE_PAGE = page) ∧ (s.pageExists page = true) ∧ (s.homeSlab page = slab) ∧ (s.quiet) ∧ ((s.entry page).st ≠ .unmapped) ∧ (∀ i < 64, (s.dirOf page i).unused = true)) :=
  ⟨-- clause 1
   ⟨hotPage, 1, 0, 0, by decide⟩,
   -- clause 2
   ⟨hotPage, 1, 0, 0, by decide⟩,
   -- clause 3
   ⟨hotPage, 1, 0, 0, by decide⟩,
   -- clause 4
   ⟨hotPage, 1, 0, 0, by decide⟩⟩
theorem test_witness_tier_movement : (∃ (s : State) (vein : Nat) (b : RowBuf), (s.runs = true) ∧ (s.rowBuf vein = some b) ∧ (64 ≤ strokesSince b.first s.now) ∧ (b.ret = s.retOfs vein) ∧ (s.tier.moves = [])) ∧
    (∃ (s : State) (page : Nat) (m : Move), (s.runs = true) ∧ (s.tier.moves = [m]) ∧ (m.page = page) ∧ (m.kind = .demote) ∧ (m.src = .hot) ∧ (m.rowsWritten = true) ∧ (s.tier.deferredPins = []) ∧ (s.hub.slots = []) ∧ (s.quiet) ∧ (s.blockResets = [])) ∧
    (∃ (s : State), (s.runs = true) ∧ (s.bit .tier 0 F.HDR_STATUS_COMMIT_PENDING = true) ∧ (s.shareChanges = true) ∧ (s.donateChanges = false) ∧ (s.shareReady = true) ∧ (swf 0 s.staged = true)) :=
  ⟨-- clause 1
   ⟨rowBufState, 2, { vein := 2, row := 9, slots := [(0, 0)], first := 0 }, by decide⟩,
   -- clause 2
   ⟨demoted, 0, { page := 0, kind := .demote, src := .hot, vein := 3, loc := 14, image := List.replicate 512 0, encoded := true, rowsWritten := true, paid := true }, by decide +kernel⟩,
   -- clause 4
   ⟨shareState, by decide⟩⟩
theorem test_witness_held_writes_and_reads : (∃ (s : State) (page : Nat) (t0 : Stroke), (s.runs = true) ∧ (s.tier.exhausted = [(page, t0, false)]) ∧ (2048 ≤ strokesSince t0 s.now)) ∧
    (∃ (s : State) (id : Nat) (x : SpillFetch), (s.runs = true) ∧ (s.ring.fetches = [x]) ∧ (x.id = id) ∧ (x.isRecall = false) ∧ (s.donorAbsent x.donor = true) ∧ (64 ≤ strokesSince x.stamp s.now) ∧ (s.quiet)) :=
  ⟨-- clause 1
   ⟨exhaustedState, 9, (0 : Stroke), by decide⟩,
   -- clause 2
   ⟨fetchState, 5, { page := 0, tag := 4, handle := 1, donor := 77, id := 5, stamp := 0 }, by decide⟩⟩
theorem test_witness_channel_training : (∃ (s : State) (base : ChanTrain), (s.runs = true) ∧ (s.boot.trained = false) ∧ (s.get .mgmt s.primary F.MGMT_BOOT_STATUS_STAGE ≠ 0) ∧ (∀ c < 128, s.bit .chan c F.HDR_STATUS_COMMIT_PENDING = false) ∧ (∀ c < 128, s.trainFails c (trainEyes base.first) = false)) ∧
    (∃ (s : State) (vein : Nat), (s.runs = true) ∧ (vein < 16) ∧ (vein ∈ s.boot.warmLeft) ∧ (∀ o < 8, s.bit .chan (chanOf vein o) F.HDR_STATUS_COMMIT_PENDING = false)) :=
  ⟨-- clause 1
   ⟨trainState, goodTrain, by decide +kernel⟩,
   -- clause 2
   ⟨warmState, 3, by decide⟩⟩
theorem test_witness_refresh_and_polls : (∃ (s : State) (chan code : Nat), (s.runs = true) ∧ (chan < 128) ∧ (code ≤ 3) ∧ (s.closed (chan / 8) (chan % 8) = true) ∧ (s.veinOk (chan / 8) = true) ∧ (s.bit .chan chan F.CHAN_STATUS_RETIRED = false) ∧ (s.get .rest 0 F.REST_STATUS_STATE ≠ 4) ∧ (161 ≤ s.tb.phase) ∧ ((s.chanSt chan).polled ≠ some s.now)) ∧
    (∃ (s : State) (chan : Nat), (s.runs = true) ∧ (chan < 128) ∧ (s.closed (chan / 8) (chan % 8) = true) ∧ (s.veinOk (chan / 8) = true) ∧ (s.bit .chan chan F.CHAN_STATUS_RETIRED = false) ∧ (s.get .rest 0 F.REST_STATUS_STATE ≠ 4) ∧ (161 ≤ s.tb.phase) ∧ ((s.chanSt chan).polled ≠ some s.now)) ∧
    (∃ (s : State) (chan : Nat), (s.runs = true) ∧ (chan < 128) ∧ (s.veinOk (chan / 8) = true) ∧ (s.debtFull chan = true) ∧ (chan % 8 ∉ (s.veinSt (chan / 8)).forcedNext)) :=
  ⟨-- clause 1
   ⟨pollState, 0, 2, by decide⟩,
   -- clause 2
   ⟨pollState, 0, by decide⟩,
   -- clause 3
   ⟨debtState, 9, by decide⟩⟩
theorem test_witness_slots_and_panic : (∃ (s : State) (vein ofs : Nat) (a : VAcc), (s.runs = true) ∧ (s.vq = [a]) ∧ (a.vein = vein) ∧ (a.ofs = ofs) ∧ (a.steer = false) ∧ (a.count = 1) ∧ (s.chanOpen vein ofs = true) ∧ (s.slotsOf vein ofs < s.dataSlots vein) ∧ (s.hub.wrHeld = []) ∧ (s.hub.accHeld = [])) ∧
    (∃ (s : State) (a lvl : Nat), (s.runs = true) ∧ (s.hasAttach a = true) ∧ (lvl = min 7 (s.ingress a * 8 / s.ingressSize a))) :=
  ⟨-- clause 1
   ⟨queueState, 2, 3, { vein := 2, ofs := 3, level := 2 }, by decide⟩,
   -- clause 2
   ⟨panicState, 0, 7, by decide +kernel⟩⟩
theorem test_witness_codec_lanes : (∃ (s : State) (slab lane a : Nat) (w : LaneWork) (rd : Rd) (sub : List Byte), (s.runs = true) ∧ (sget none s.codec.lanes (16 * slab + lane) = some w) ∧ (w.offload = false) ∧ (w.id < 2 ^ 32) ∧ (s.codec.waiting = []) ∧ (s.home.reads = [rd]) ∧ (s.home.queue = []) ∧ (s.home.senders = []) ∧ (s.home.waiting = []) ∧ (rd.req.id = w.id) ∧ (rd.req.who = .host a) ∧ (rd.st = .decode) ∧ (rd.merge = none) ∧ (rd.poison = 0) ∧ (memHeadOk rd.image (rd.loc.gm1 + 1) = true) ∧ (decodeSubOf rd.image (rd.req.line / 16) = some sub) ∧ (s.blockResets = []) ∧ (s.ring.freeing = [])) ∧
    (∃ (s : State) (page sl n : Nat) (m : Move) (bytes : List Byte), ((s.freeLane sl n).readHotPage page = (some bytes, s.freeLane sl n)) ∧ (s.runs = true) ∧ ((List.range 2).findSome? (fun x => (s.laneOf x (encodeId page) false).map (fun y => (x, y))) = some (sl, n)) ∧ (s.home.queue = []) ∧ (s.home.senders = []) ∧ (s.home.waiting = []) ∧ (s.home.reads = []) ∧ (s.codec.waiting = []) ∧ (s.tier.moves = [m]) ∧ (m.page = page) ∧ (m.kind = .demote) ∧ (m.src = .hot) ∧ (m.image = []) ∧ (s.hub.slots = []) ∧ (s.tier.deferredPins = []) ∧ (s.freeLane sl n = { s with codec := (s.freeLane sl n).codec }) ∧ (bytes.all (fun b => b = 0) = true) ∧ (s.blockResets = []) ∧ (s.ring.freeing = [])) ∧
    (∃ (s : State) (slab lane : Nat) (w : LaneWork) (j : OJob), (s.runs = true) ∧ (sget none s.codec.lanes (16 * slab + lane) = some w) ∧ (w.offload = true) ∧ (s.codec.waiting = []) ∧ (s.codec.jobs = [j]) ∧ (j.id = w.id) ∧ (j.slab = slab) ∧ (j.ended = none) ∧ (j.aborted = false) ∧ (j.stepsDone + 1 = j.steps) ∧ (oList j.desc = false) ∧ (oDstHost j.desc = true) ∧ (oUseCtx j.desc = false) ∧ (s.hostOpen (s.get .ofld slab F.OFLD_SQ_CTL_ATTACH j.q) = true) ∧ (j.written < j.out.length) ∧ (j.out.length ≤ oDstLen j.desc) ∧ (s.home.queue = []) ∧ (s.home.senders = []) ∧ (s.home.waiting = []) ∧ (s.blockResets = []) ∧ (s.ring.freeing = [])) :=
  ⟨-- clause 1
   ⟨decodeState, 0, 0, 0, { level := 4, id := 3 }, decodeRd, (List.replicate 1024 (255 : Byte)), by decide +kernel⟩,
   -- clause 2
   ⟨encodeState, 0, 0, 0, { page := 0, kind := .demote, src := .hot, paid := true }, ((List.range 64).flatMap (fun _ => lineBytes 0)), read_hot_page_of _ _ _ (by decide +kernel), by decide +kernel⟩,
   -- clause 3
   ⟨stepOffload, 0, 9, { level := 5, offload := true, id := 2 }, offloadJob, by decide +kernel⟩⟩
theorem test_witness_offload_jobs : (∃ (s : State) (slab q page line : Nat) (x : HeldLine) (d : List Byte), (s.runs = true) ∧ (s.oEnabled slab q = true) ∧ (s.oWaiting slab q ≠ 0) ∧ (s.bit .ofld slab F.OFLD_Q_STATUS_FULL_STALL q = false) ∧ (s.query.throttled = false) ∧ (s.boot.stopped = []) ∧ (s.codec.jobs = []) ∧ (s.oEntry slab q (s.get .ofld slab F.OFLD_SQ_HEAD_HEAD q) = (page, line)) ∧ (s.refusedBy (s.jobReq (.codec slab) (s.oKey slab q) page line .snoopRead) = none) ∧ ((s.dirOf page line).unused = true) ∧ (s.heldLine page line = some x) ∧ (x.poison = 0) ∧ (x.mask = fullMask) ∧ (d = lineBytes x.data) ∧ (oUseCtx d = false) ∧ (oFlag d 6 = false) ∧ (oList d = false) ∧ (oBad d [(oDstHost d, oDst d, oDstLen d)] = none) ∧ (s.home.queue = []) ∧ (s.home.senders = []) ∧ (s.home.waiting = []) ∧ (oOp d = 0) ∧ (s.blockResets = []) ∧ (s.ring.freeing = [])) ∧
    (∃ (s : State) (slab q page line : Nat) (x : HeldLine) (d : List Byte) (env : JobEnv) (l : List Byte) (p : Plan), (p = planDeflate (oEffort d) (oLast d) false { valid := true, wrap := oWrap d, op := 1, check := checkInit (oWrap d) } l (oDstLen d)) ∧ (s.runs = true) ∧ (s.oEnabled slab q = true) ∧ (s.oWaiting slab q ≠ 0) ∧ (s.bit .ofld slab F.OFLD_Q_STATUS_FULL_STALL q = false) ∧ (s.query.throttled = false) ∧ (s.boot.stopped = []) ∧ (s.codec.jobs = []) ∧ (s.oEntry slab q (s.get .ofld slab F.OFLD_SQ_HEAD_HEAD q) = (page, line)) ∧ (s.refusedBy (s.jobReq (.codec slab) (s.oKey slab q) page line .snoopRead) = none) ∧ ((s.dirOf page line).unused = true) ∧ (s.heldLine page line = some x) ∧ (x.poison = 0) ∧ (x.mask = fullMask) ∧ (d = lineBytes x.data) ∧ (oUseCtx d = false) ∧ (oFlag d 6 = false) ∧ (oList d = false) ∧ (oBad d [(oDstHost d, oDst d, oDstLen d)] = none) ∧ (s.home.queue = []) ∧ (s.home.senders = []) ∧ (s.home.waiting = []) ∧ (oOp d = 1) ∧ (oSrcHost d = true) ∧ (s.hostBytes env (s.get .ofld slab F.OFLD_SQ_CTL_ATTACH q) (oSrc d) (oSrcLen d) = some l) ∧ (s.blockResets = []) ∧ (s.ring.freeing = [])) ∧
    (∃ (s : State) (slab q page line : Nat) (x : HeldLine) (d : List Byte) (env : JobEnv) (l : List Byte) (p : Plan), (s.runs = true) ∧ (s.oEnabled slab q = true) ∧ (s.oWaiting slab q ≠ 0) ∧ (s.bit .ofld slab F.OFLD_Q_STATUS_FULL_STALL q = false) ∧ (s.query.throttled = false) ∧ (s.boot.stopped = []) ∧ (s.codec.jobs = []) ∧ (s.oEntry slab q (s.get .ofld slab F.OFLD_SQ_HEAD_HEAD q) = (page, line)) ∧ (s.refusedBy (s.jobReq (.codec slab) (s.oKey slab q) page line .snoopRead) = none) ∧ ((s.dirOf page line).unused = true) ∧ (s.heldLine page line = some x) ∧ (x.poison = 0) ∧ (x.mask = fullMask) ∧ (d = lineBytes x.data) ∧ (oUseCtx d = false) ∧ (oFlag d 6 = false) ∧ (oList d = false) ∧ (oBad d [(oDstHost d, oDst d, oDstLen d)] = none) ∧ (s.home.queue = []) ∧ (s.home.senders = []) ∧ (s.home.waiting = []) ∧ (oOp d = 2) ∧ (oSrcHost d = true) ∧ (s.hostBytes env (s.get .ofld slab F.OFLD_SQ_CTL_ATTACH q) (oSrc d) (oSrcLen d) = some l) ∧ (p = planInflate (oLast d) false { valid := true, wrap := oWrap d, op := 2, check := checkInit (oWrap d) } l (oDstLen d)) ∧ (s.blockResets = []) ∧ (s.ring.freeing = [])) ∧
    (∃ (s : State) (slab q page line : Nat) (x : HeldLine) (d : List Byte) (env : JobEnv) (l : List Byte), (s.hostBytes env (s.get .ofld slab F.OFLD_SQ_CTL_ATTACH q) (oSrc d) (oSrcLen d) = some l) ∧ (s.runs = true) ∧ (s.oEnabled slab q = true) ∧ (s.oWaiting slab q ≠ 0) ∧ (s.bit .ofld slab F.OFLD_Q_STATUS_FULL_STALL q = false) ∧ (s.query.throttled = false) ∧ (s.boot.stopped = []) ∧ (s.codec.jobs = []) ∧ (s.oEntry slab q (s.get .ofld slab F.OFLD_SQ_HEAD_HEAD q) = (page, line)) ∧ (s.refusedBy (s.jobReq (.codec slab) (s.oKey slab q) page line .snoopRead) = none) ∧ ((s.dirOf page line).unused = true) ∧ (s.heldLine page line = some x) ∧ (x.poison = 0) ∧ (x.mask = fullMask) ∧ (d = lineBytes x.data) ∧ (oUseCtx d = false) ∧ (oFlag d 6 = false) ∧ (oList d = false) ∧ (oBad d [(oDstHost d, oDst d, oDstLen d)] = none) ∧ (s.home.queue = []) ∧ (s.home.senders = []) ∧ (s.home.waiting = []) ∧ (oOp d = 3) ∧ (oSrcHost d = true) ∧ (env.selfFail = false) ∧ (s.bit .dprt slab F.DPRT_FLIP_CTL_ARM = false) ∧ (s.blockResets = []) ∧ (s.ring.freeing = [])) ∧
    (∃ (s : State) (slab q page line : Nat) (x : HeldLine) (d : List Byte) (env : JobEnv) (l pg0 : List Byte), (decodeExternal l (oSrcLen d) = .ok pg0) ∧ (s.runs = true) ∧ (s.oEnabled slab q = true) ∧ (s.oWaiting slab q ≠ 0) ∧ (s.bit .ofld slab F.OFLD_Q_STATUS_FULL_STALL q = false) ∧ (s.query.throttled = false) ∧ (s.boot.stopped = []) ∧ (s.codec.jobs = []) ∧ (s.oEntry slab q (s.get .ofld slab F.OFLD_SQ_HEAD_HEAD q) = (page, line)) ∧ (s.refusedBy (s.jobReq (.codec slab) (s.oKey slab q) page line .snoopRead) = none) ∧ ((s.dirOf page line).unused = true) ∧ (s.heldLine page line = some x) ∧ (x.poison = 0) ∧ (x.mask = fullMask) ∧ (d = lineBytes x.data) ∧ (oUseCtx d = false) ∧ (oFlag d 6 = false) ∧ (oList d = false) ∧ (oBad d [(oDstHost d, oDst d, oDstLen d)] = none) ∧ (s.home.queue = []) ∧ (s.home.senders = []) ∧ (s.home.waiting = []) ∧ (oOp d = 4) ∧ (oSrcHost d = true) ∧ (s.hostBytes env (s.get .ofld slab F.OFLD_SQ_CTL_ATTACH q) (oSrc d) (oSrcLen d) = some l) ∧ (s.blockResets = []) ∧ (s.ring.freeing = [])) :=
  ⟨-- clause 1
   ⟨(offState noopDesc), 0, 0, 2, 0, { line := 0, data := noopDesc, mask := fullMask }, (lineBytes noopDesc), by decide +kernel⟩,
   -- clause 2
   ⟨(offState deflateDesc), 0, 0, 2, 0, { line := 0, data := deflateDesc, mask := fullMask }, (lineBytes deflateDesc), offEnv, [1, 2, 3, 4], (planDeflate (oEffort (lineBytes deflateDesc)) (oLast (lineBytes deflateDesc)) false { valid := true, wrap := oWrap (lineBytes deflateDesc), op := 1, check := checkInit (oWrap (lineBytes deflateDesc)) } [1, 2, 3, 4] (oDstLen (lineBytes deflateDesc))), rfl, by decide +kernel⟩,
   -- clause 3
   ⟨(offState inflateDesc), 0, 0, 2, 0, { line := 0, data := inflateDesc, mask := fullMask }, (lineBytes inflateDesc), offEnv, [1, 2, 3, 4], (planInflate true false { valid := true, wrap := 0, op := 2, check := checkInit 0 } [1, 2, 3, 4] 64), by decide +kernel⟩,
   -- clause 4
   ⟨(offState encodeDesc), 0, 0, 2, 0, { line := 0, data := encodeDesc, mask := fullMask }, (lineBytes encodeDesc), encEnv, ((List.range (oSrcLen (lineBytes encodeDesc))).map (fun i => (List.replicate 4096 (1 : Byte)).getD (oSrc (lineBytes encodeDesc) + i) 0)), host_bytes_of _ _ (List.replicate 4096 1) _ _ _ rfl rfl (by decide) (by decide +kernel), by decide +kernel⟩,
   -- clause 5
   ⟨(offState decodeDesc), 0, 0, 2, 0, { line := 0, data := decodeDesc, mask := fullMask }, (lineBytes decodeDesc), decEnv, codedOnes, (List.replicate 4096 1), by rw [show oSrcLen (lineBytes decodeDesc) = 20 from by decide +kernel]; exact ones_external, by decide +kernel⟩⟩
theorem test_witness_offload_queues : (∃ (s : State) (agent slab q tail : Nat), (s.runs = true) ∧ (s.mayWrite agent .ofld slab F.OFLD_SQ_TAIL_TAIL q) ∧ (s.oEnabled slab q = true) ∧ (tail < s.oSize slab q) ∧ (tail < 4096) ∧ (s.oWaiting slab q + (tail + s.oSize slab q - s.get .ofld slab F.OFLD_SQ_TAIL_TAIL q % s.oSize slab q) % s.oSize slab q ≤ s.oSize slab q - 1) ∧ (s.blockClosed .ofld slab = false)) ∧
    (∃ (s : State) (slab q cqp cql : Nat) (j : OJob) (t0 : Stroke), (s.runs = true) ∧ (s.codec.jobs = [j]) ∧ (j.slab = slab) ∧ (j.q = q) ∧ (j.ended = some t0) ∧ (t0 ≠ s.now) ∧ (s.codec.held = []) ∧ (s.ocqFull slab q = false) ∧ (s.home.queue = []) ∧ (s.home.senders = []) ∧ (s.home.waiting = []) ∧ (s.refusedBy { s.jobReq (.codec slab) (s.oKey slab q) cqp cql .write with mask := fullMask } = none) ∧ (s.get .ofld slab F.OFLD_CQ_BASE_PAGE q = cqp) ∧ (cql = s.get .ofld slab F.OFLD_CQ_TAIL_TAIL q / 2) ∧ (cql < 64) ∧ ((s.entry cqp).st = .zero) ∧ ((s.slotOf cqp).isSome = true) ∧ (s.noRoom = false) ∧ (s.tier.lostLines = []) ∧ (s.ring.freeing = [])) ∧
    (∃ (s : State) (agent slab q head : Nat), (s.runs = true) ∧ (s.mayWrite agent .ofld slab F.OFLD_CQ_HEAD_HEAD q) ∧ (head < 4096) ∧ (s.codec.held = []) ∧ (s.home.queue = []) ∧ (s.home.senders = []) ∧ (s.home.waiting = []) ∧ (s.ring.freeing = [])) ∧
    (∃ (s : State) (agent slab : Nat), (s.runs = true) ∧ (s.mayWrite agent .ofld slab F.OFLD_QUEUE_EN_ENABLE) ∧ (s.codec.jobs = []) ∧ (∀ q < 8, s.oWaiting slab q = 0) ∧ (s.home.queue = []) ∧ (s.home.senders = []) ∧ (s.home.waiting = []) ∧ (s.blockResets = []) ∧ (s.ring.freeing = [])) :=
  ⟨-- clause 1
   ⟨offState noopDesc, 1, 0, 0, 3, by decide⟩,
   -- clause 2
   ⟨doneOffload, 0, 0, 2, 0, { offloadJob with ended := some 0 }, (0 : Stroke), by decide +kernel⟩,
   -- clause 3
   ⟨offState noopDesc, 1, 0, 0, 1, by decide⟩,
   -- clause 4
   ⟨idleOffload, 1, 0, by decide⟩⟩
theorem test_witness_scrub_and_retirement : (∃ (s : State) (vein n : Nat), (s.runs = true) ∧ (s.bit .dprt (slabOfVein vein) F.DPRT_SCRUB_CTL_SCRUB_EN = true) ∧ (sget 0 s.media.scrubUsed vein < s.scrubRate vein) ∧ (s.veinOk vein = true) ∧ (s.working = true) ∧ (n = sget 0 s.media.scrubPos vein) ∧ (n / 64 < s.hotH) ∧ (s.hotH ≤ dataChunks) ∧ (n + 1 < passLines) ∧ (s.retOfs vein = none) ∧ (s.pageInFrame (vein % 8) (n / 64) = none) ∧ ((s.stored (mediaKey vein (n % 8) (n / 64) (n / 8 % 8))).err = 0) ∧ ((s.stored (mediaKey vein (n % 8) (n / 64) (n / 8 % 8))).marker = false)) ∧
    (∃ (s : State) (agent slab value : Nat), (s.runs = true) ∧ (s.mayWrite agent .dprt slab F.DPRT_FLIP_CTL_ARM) ∧ (s.bit .dprt slab F.DPRT_FLIP_CTL_ARM = false) ∧ (value.testBit 0 = true) ∧ (bits value 2 2 = 0 ∨ bits value 2 2 = 1 ∨ bits value 2 2 = 2) ∧ (bits value 2 2 = 0 → bits value 4 4 ≤ 8 ∧ bits value 8 2 ≠ 0) ∧ (bits value 2 2 = 1 → bits value 4 4 ≤ 7)) ∧
    (∃ (s : State) (agent k ofs side : Nat), (s.runs = true) ∧ (s.mayWrite agent .dipt k F.DIPT_RETIRE_GO) ∧ (k < 8) ∧ (ofs < 8) ∧ (side < 2) ∧ ((s.dipt k).st = .paired) ∧ (s.retOfs (k + 8 * side) = none) ∧ (∀ j < 8, j ≠ k → (s.dipt j).st ≠ .resync ∧ (s.dipt j).st ≠ .retiring)) ∧
    (∃ (s : State) (k : Nat), (s.runs = true) ∧ ((s.dipt k).reloc = true) ∧ (s.relocLeft k = 0)) :=
  ⟨-- clause 1
   ⟨scrubState, 2, 0, by decide +kernel⟩,
   -- clause 2
   ⟨runState, 1, 0, 0x30305, by decide⟩,
   -- clause 3
   ⟨runState, 1, 2, 3, 1, by decide⟩,
   -- clause 4
   ⟨relocState, 2, by decide⟩⟩
theorem test_witness_reservation_bytes : (∃ (j : Nat), (j < 8)) ∧
    (∃ (s : State) (ofs chunk j : Nat), (j < 8) ∧ (¬ (s.hotH ≤ chunk ∧ (chunk - s.hotH) % 8 = ofs))) ∧
    (∃ (j : Nat), (j < 8)) :=
  ⟨-- clause 1
   ⟨1, by decide⟩,
   -- clause 2
   ⟨runState, 0, 0, 1, by decide⟩,
   -- clause 3
   ⟨1, by decide⟩⟩
theorem test_witness_slab_absence : (∃ (s : State) (slab : Nat), (s.runs = true) ∧ (slab < 2) ∧ (s.boot.clkLost = [slab]) ∧ (s.boot.hbMiss.1 < 2) ∧ (s.boot.hbMiss.2 < 2) ∧ (s.boot.absent = [])) ∧
    (∃ (s : State) (page a : Nat) (rd : Rd), (s.runs = true) ∧ (s.home.reads = [rd]) ∧ (s.home.queue = []) ∧ (s.home.senders = []) ∧ (s.home.waiting = []) ∧ (s.tier.moves = []) ∧ (rd.st = .held) ∧ (rd.req.page = page) ∧ (rd.req.who = .host a) ∧ (64 ≤ strokesSince rd.req.stamp s.now) ∧ (strokeLe rd.req.stamp s.now = true) ∧ (s.ring.freeing = [])) ∧
    (∃ (s : State) (d : Nat), (s.runs = true) ∧ (d < 2) ∧ (s.boot.absent = [d]) ∧ (s.boot.returning = none) ∧ (s.boot.slabReset = []) ∧ (s.boot.warmLeft = []) ∧ (d ∉ s.boot.clkLost) ∧ (s.boot.inReset = none)) ∧
    (∃ (s : State) (k f side : Nat), (s.runs = true) ∧ (k < 8) ∧ ((s.dipt k).st = .resync) ∧ (s.working = true) ∧ ((s.dipt k).stale = [f]) ∧ ((s.dipt k).behind = []) ∧ (side = s.get .dipt k F.DIPT_STATUS_SIDE) ∧ (side < 2) ∧ (s.veinOk k = true) ∧ (s.veinOk (k + 8) = true) ∧ (s.retOfs k = none) ∧ (s.retOfs (k + 8) = none) ∧ (∀ i < 64, (s.stored (s.hotKey (k + 8 * side) f i)).err = 0)) ∧
    (∃ (s : State), (s.runs = true) ∧ (s.boot.filled = false) ∧ (s.boot.trained = true) ∧ (s.boot.warmLeft = [])) :=
  ⟨-- clause 1
   ⟨lossState, 1, by decide⟩,
   -- clause 2
   ⟨heldReadState, 0, 0, { mediaRd with st := .held }, by decide +kernel⟩,
   -- clause 3
   ⟨returnState, 1, by decide⟩,
   -- clause 4
   ⟨resyncState, 2, 5, 0, by decide +kernel⟩,
   -- clause 5
   ⟨unfilledState, by decide⟩⟩
theorem test_witness_tree_maintenance : (∃ (s : State) (dipt level index : Nat) (was : Bool), (s.runs = true) ∧ (level < 6) ∧ (s.crypto.cache = [{ dipt := dipt, level := level, index := index, dirty := true }, { dipt := dipt, level := level + 1, index := index / 8, dirty := was }]) ∧ (sget 0 s.crypto.nodes (nodeKey dipt (level + 1) (index / 8) (index % 8)) < 0xFFFFFFFFFFFFFF)) ∧
    (∃ (s : State) (index : Nat), (s.runs = true) ∧ (s.crypto.losses = [{ dipt := 8, level := 0, index := index, ledger := true }]) ∧ (sget 0 s.crypto.nodes (nodeKey 8 1 (index / 8) (index % 8)) < 0xFFFFFFFFFFFFFF)) :=
  ⟨-- clause 1
   ⟨evictState, 3, 0, 17, false, by decide⟩,
   -- clause 2
   ⟨lossLedger, 4, by decide⟩⟩
theorem test_witness_key_store : (∃ (s : State) (agent slab c : Nat), (s.runs = true) ∧ (s.mayWrite agent .keys slab F.KEYS_CMD_OP) ∧ (c = s.keysSel slab) ∧ (c ≠ 0) ∧ (s.bit .keys slab F.KEYS_STATUS_BUSY = false) ∧ (s.ctxBusy c = false)) ∧
    (∃ (s : State) (agent slab c : Nat), (s.runs = true) ∧ (s.mayWrite agent .keys slab F.KEYS_CMD_OP) ∧ (c = s.keysSel slab) ∧ (c ≠ 0) ∧ (s.bit .keys slab F.KEYS_STATUS_BUSY = false) ∧ (s.ctxBusy c = false)) ∧
    (∃ (s : State) (agent slab c : Nat), (s.runs = true) ∧ (s.mayWrite agent .keys slab F.KEYS_CMD_OP) ∧ (c = s.keysSel slab) ∧ (c ≠ 0) ∧ (s.bit .keys slab F.KEYS_STATUS_BUSY = false) ∧ (s.ctxBusy c = false)) ∧
    (∃ (s : State) (agent slab c : Nat), (s.runs = true) ∧ (s.mayWrite agent .keys slab F.KEYS_CMD_OP) ∧ (c = s.keysSel slab) ∧ (c ≠ 0) ∧ (s.bit .keys slab F.KEYS_STATUS_BUSY = false) ∧ ((s.ctx c).valid = true)) ∧
    (∃ (s : State) (agent slab c : Nat), (s.runs = true) ∧ (s.mayWrite agent .keys slab F.KEYS_CMD_OP) ∧ (c = s.keysSel slab) ∧ (c ≠ 0) ∧ (s.bit .keys slab F.KEYS_STATUS_BUSY = false) ∧ ((s.ctx c).valid = true)) ∧
    (∃ (s : State) (agent slab c : Nat), (s.runs = true) ∧ (s.mayWrite agent .keys slab F.KEYS_CMD_OP) ∧ (c = s.keysSel slab) ∧ (c ≠ 0) ∧ (s.bit .keys slab F.KEYS_STATUS_BUSY = false)) ∧
    (∃ (s : State) (slab c : Nat), (s.runs = true) ∧ (s.crypto.erasing = [(c, slab)]) ∧ (s.ctxInUse c = false) ∧ (swf {} s.crypto.ctxs = true)) :=
  ⟨-- clause 1
   ⟨keyState, 3, 0, 5, by decide⟩,
   -- clause 2
   ⟨keyState, 3, 0, 5, by decide⟩,
   -- clause 3
   ⟨keyState, 3, 0, 5, by decide⟩,
   -- clause 4
   ⟨(keyState.put .keys 0 F.KEYS_SEL_CTX 6), 3, 0, 6, by decide⟩,
   -- clause 5
   ⟨(keyState.put .keys 0 F.KEYS_SEL_CTX 6), 3, 0, 6, by decide⟩,
   -- clause 6
   ⟨keyState, 3, 0, 5, by decide⟩,
   -- clause 7
   ⟨eraseState, 0, 6, by decide⟩⟩
theorem test_witness_host_accesses : (∃ (s : State) (a hpa at10 c : Nat) (h : HostAddr), (s.runs = true) ∧ (s.linkUp a = true) ∧ (s.link a F.PORT_LINK_MEM_EN = 1) ∧ ((at10 + 24) / 25 < s.tb.len) ∧ ((s.portRefuses a).2 = false) ∧ (s.hostDecode a hpa = some h) ∧ (s.aliasCtx a h.entry = some c) ∧ (c ≠ 0) ∧ ((s.ctx c).valid = true) ∧ ((s.ctx c).mask.testBit a = true) ∧ ((s.ctx c).prot = false) ∧ ((s.entry h.page).st = .zero) ∧ (s.quiet) ∧ (s.regu.held = []) ∧ (s.hub.slots = []) ∧ (s.tier.lostLines = []) ∧ (s.tier.badImages = []) ∧ (s.bit .regu 0 F.REGU_CTL_HOLD_EN = false) ∧ ((s.dirOf h.page h.line).unused = true) ∧ (s.blockClosed .port (portOf a) = false)) ∧
    (∃ (s : State) (a hpa at10 c k f : Nat) (h : HostAddr), (s.runs = true) ∧ (s.linkUp a = true) ∧ (s.link a F.PORT_LINK_MEM_EN = 1) ∧ ((at10 + 24) / 25 < s.tb.len) ∧ ((s.portRefuses a).2 = false) ∧ (s.hostDecode a hpa = some h) ∧ (s.aliasCtx a h.entry = some c) ∧ (c ≠ 0) ∧ ((s.ctx c).valid = true) ∧ ((s.ctx c).mask.testBit a = true) ∧ ((s.ctx c).prot = false) ∧ ((s.entry h.page).st = .zero) ∧ (s.quiet) ∧ (s.regu.held = []) ∧ (s.hub.slots = []) ∧ (s.tier.lostLines = []) ∧ (s.tier.badImages = []) ∧ (s.bit .regu 0 F.REGU_CTL_HOLD_EN = false) ∧ ((s.dirOf h.page h.line).unused = true) ∧ (s.findFrame h.page = some (k, f)) ∧ (s.vq = []) ∧ (s.hub.wrHeld = []) ∧ (s.hub.accHeld = []) ∧ (s.tier.sweeping = []) ∧ (s.blockClosed .port (portOf a) = false)) :=
  ⟨-- clause 1
   ⟨hostState, 0, 0x1040, 0, 1, { entry := 0, page := 1, line := 1 }, by decide⟩,
   -- clause 2
   ⟨hostState, 0, 0x1040, 0, 1, 1, 0, { entry := 0, page := 1, line := 1 }, by decide⟩⟩
theorem test_witness_read_return_and_egress : (∃ (s s1 : State) (id a : Nat) (rd : Rd) (n : Need) (l : Line), (s.runs = true) ∧ (s.home.reads = [rd]) ∧ (s.home.queue = []) ∧ (s.home.senders = []) ∧ (s.home.waiting = []) ∧ (s.ring.freeing = []) ∧ (s.vq = []) ∧ (s.hub.accHeld = []) ∧ (rd.req.id = id) ∧ (rd.req.who = .host a) ∧ (rd.st = .media) ∧ (rd.loc.st = .hot) ∧ (rd.needs = [n]) ∧ (rd.fill = false) ∧ (rd.merge = none) ∧ (rd.poison = 0) ∧ (s.tier.lostLines = []) ∧ (s.underLoss rd.loc.vein rd.loc.loc = false) ∧ (s.takeLine rd n [] (s.partner (rd.vein.getD 0) rd.loc.loc n.idx) = (.good l n.snap, s1)) ∧ ({ s with media := s1.media, veins := s1.veins, crypto := s1.crypto, regs := s1.regs } = s1) ∧ (s.blockResets = [])) ∧
    (∃ (s : State) (id a : Nat) (rd : Rd), (s.runs = true) ∧ (s.home.reads = [rd]) ∧ (s.home.queue = []) ∧ (s.home.senders = []) ∧ (s.home.waiting = []) ∧ (s.ring.freeing = []) ∧ (rd.req.id = id) ∧ (rd.req.who = .host a) ∧ (rd.st = .ready)) ∧
    (∃ (s : State) (id a : Nat) (rd : Rd), (s.runs = true) ∧ (s.home.late = [rd]) ∧ (rd.req.id = id) ∧ (rd.req.who = .host a) ∧ (rd.loc.st ≠ .hot) ∧ (s.home.queue = []) ∧ (s.home.senders = []) ∧ (s.home.waiting = []) ∧ (s.ring.freeing = [])) ∧
    (∃ (s : State) (a page line : Nat) (w : Waiting), (s.runs = true) ∧ (s.home.waiting = [w]) ∧ (s.home.queue = []) ∧ (s.home.senders = []) ∧ (s.ring.freeing = []) ∧ (w.req.page = page) ∧ (w.req.line = line) ∧ (Holder.host a ∈ w.awaiting) ∧ (w.unsent = []) ∧ (w.victim = true ∨ w.awaiting.filter (· ≠ Holder.host a) ≠ [])) :=
  ⟨-- clause 1
   ⟨mediaState, (mediaState.takeLine mediaRd mediaNeed [] (mediaState.partner (mediaRd.vein.getD 0) mediaRd.loc.loc mediaNeed.idx)).2, 3, 0, mediaRd, mediaNeed, (5 : Line), by decide +kernel⟩,
   -- clause 2
   ⟨readyState, 3, 0, { mediaRd with st := .ready, needs := [], data := 5 }, by decide +kernel⟩,
   -- clause 3
   ⟨lateState, 3, 0, { mediaRd with st := .ready, loc := { mediaRd.loc with st := .deep } }, by decide +kernel⟩,
   -- clause 4
   ⟨snoopState, 3, 1, 1, { req := { id := 4, kind := .discard, who := .mgmt 0, page := 1, line := 1 }, awaiting := [.host 3, .host 5] }, by decide +kernel⟩⟩
theorem test_witness_port_links : (∃ (s : State) (a width speed : Nat), (s.runs = true) ∧ (s.mayTrain a = true) ∧ (s.linkUp a = false) ∧ (speed < 8) ∧ ((if s.bit .port (portOf a) F.PORT_CFG_SPLIT then 2 else 3) ≤ width) ∧ (s.plainPcie = false) ∧ (a ∉ s.home.departNext) ∧ (s.home.departing = []) ∧ (s.link a F.PORT_LINK_DEGRADED = 0)) ∧
    (∃ (s : State) (a : Nat), (s.runs = true) ∧ (s.linkUp a = true) ∧ (s.home.queue = []) ∧ (s.home.senders = []) ∧ (s.home.waiting = []) ∧ (s.ring.freeing = [])) ∧
    (∃ (s : State) (a : Nat), (s.runs = true) ∧ (s.hasAttach a = true) ∧ (s.linkUp a = true) ∧ (s.bit .port (portOf a) F.HDR_STATUS_COMMIT_PENDING = false) ∧ (s.home.queue = []) ∧ (s.home.senders = []) ∧ (s.home.waiting = []) ∧ (s.ring.freeing = [])) ∧
    (∃ (s : State) (a : Nat), (s.runs = true) ∧ (s.linkUp a = true) ∧ (s.bit .port (portOf a) F.HDR_STATUS_COMMIT_PENDING = false) ∧ (s.home.queue = []) ∧ (s.home.senders = []) ∧ (s.home.waiting = []) ∧ (s.ring.freeing = [])) ∧
    (∃ (s : State) (a : Nat), (s.runs = true) ∧ (s.linkUp a = true) ∧ (s.home.queue = []) ∧ (s.home.senders = []) ∧ (s.home.waiting = []) ∧ (s.ring.freeing = [])) ∧
    (∃ (s : State) (a : Nat), (s.runs = true) ∧ (s.linkUp a = true)) :=
  ⟨-- clause 1
   ⟨runState, 2, 3, 5, by decide⟩,
   -- clause 2
   ⟨hostState, 0, by decide⟩,
   -- clause 3
   ⟨hostState, 0, by decide⟩,
   -- clause 4
   ⟨hostState, 0, by decide⟩,
   -- clause 5
   ⟨hostState, 0, by decide⟩,
   -- clause 6
   ⟨hostState, 0, by decide⟩⟩
theorem test_witness_port_decoders_and_streams : (∃ (s : State) (a j base size ways gran pos skip : Nat) (lock : Bool) (x : HdmDec), (s.runs = true) ∧ (s.linkUp a = true) ∧ (j < (s.decNums a).length) ∧ ((s.hdmAhead.dec (portOf a) ((s.decNums a).getD j 8)).committed = false) ∧ (x = { base := base, size := size, ways := ways, gran := gran, pos := pos, skip := skip, committed := true, lock := lock }) ∧ (s.hdmAhead.hdmOk a j x = true)) ∧
    (∃ (s : State) (a : Nat), (s.runs = true) ∧ (s.linkUp a = true) ∧ (s.link a F.PORT_LINK_IDE_SECURE = 1)) ∧
    (∃ (s : State) (a : Nat), (s.runs = true) ∧ (s.linkUp a = true) ∧ (s.boot.released = true) ∧ (s.link a F.PORT_LINK_FLIT256 = 1)) ∧
    (∃ (s : State) (agent port : Nat), (s.runs = true) ∧ (s.mayWrite agent .port port F.PORT_IRQ_REARM_REARM_0)) :=
  ⟨-- clause 1
   ⟨(runState.put .port 1 F.PORT_LINK_UP 1).put .tier 0 F.TIER_CAP_LOGICAL_CAP 16, 2, 0, 0, 0x40000000, 1, 256, 0, 0, false, { base := 0, size := 0x40000000, ways := 1, gran := 256, pos := 0, skip := 0, committed := true, lock := false }, by decide⟩,
   -- clause 2
   ⟨hostState.put .port 0 F.PORT_LINK_IDE_SECURE 1, 0, by decide⟩,
   -- clause 3
   ⟨hostState.put .port 0 F.PORT_LINK_FLIT256 1, 0, by decide⟩,
   -- clause 4
   ⟨runState, 1, 0, by decide⟩⟩
theorem test_witness_mailbox_events : (∃ (s : State) (a log : Nat) (n first last : Nat), (s.runs = true) ∧ (a = 16 ∨ s.linkUp a = true) ∧ (s.mboxBusy a = false) ∧ (log ≤ 4) ∧ (sget (0, 0, 0) (s.att a).overflow log = (n, first, last))) ∧
    (∃ (s : State) (a log : Nat), (s.runs = true) ∧ (a = 16 ∨ s.linkUp a = true) ∧ (s.mboxBusy a = false) ∧ (log ≤ 4) ∧ (s.logOf a log ≠ []) ∧ (keysRising (s.att a).overflow = true)) ∧
    (∃ (s : State) (a : Nat), (s.runs = true) ∧ (a = 16 ∨ s.linkUp a = true) ∧ (s.mboxBusy a = false)) ∧
    (∃ (s : State) (a : Nat), (s.runs = true) ∧ (a = 16 ∨ s.linkUp a = true) ∧ (s.mboxBusy a = false)) :=
  ⟨-- clause 1
   ⟨eventState, 0, 1, 0, 0, 0, by decide⟩,
   -- clause 2
   ⟨eventState, 0, 1, by decide⟩,
   -- clause 3
   ⟨hostState, 0, by decide⟩,
   -- clause 4
   ⟨hostState, 0, by decide⟩⟩
theorem test_witness_mailbox_status : (∃ (s : State) (a : Nat), (s.runs = true) ∧ (a = 16 ∨ s.linkUp a = true) ∧ (s.mboxBusy a = false)) ∧
    (∃ (s : State) (a value : Nat), (s.runs = true) ∧ (a = 16 ∨ s.linkUp a = true) ∧ (s.mboxBusy a = false) ∧ (value < 2 ^ 64)) ∧
    (∃ (s : State) (a : Nat), (s.runs = true) ∧ (a = 16 ∨ s.linkUp a = true) ∧ (s.mboxBusy a = false)) ∧
    (∃ (s : State) (a : Nat), (s.runs = true) ∧ (a = 16 ∨ s.linkUp a = true) ∧ (s.mboxBusy a = false)) ∧
    (∃ (s : State) (a : Nat), (s.runs = true) ∧ (a = 16 ∨ s.linkUp a = true) ∧ (s.mboxBusy a = false)) ∧
    (∃ (s : State) (a ofs n : Nat), (s.runs = true) ∧ (a = 16 ∨ s.linkUp a = true) ∧ (s.mboxBusy a = false) ∧ (ofs + n ≤ 4 * mboxOpcodes.length)) ∧
    (∃ (s : State) (a : Nat), (s.runs = true) ∧ (a = 16 ∨ s.linkUp a = true) ∧ (s.mboxBusy a = false)) ∧
    (∃ (s : State) (a : Nat), (s.runs = true) ∧ (a = 16 ∨ s.linkUp a = true) ∧ (s.mboxBusy a = false)) ∧
    (∃ (s : State) (a : Nat), (s.runs = true) ∧ (a = 16 ∨ s.linkUp a = true) ∧ (s.mboxBusy a = false)) ∧
    (∃ (s : State) (a : Nat), (s.runs = true) ∧ (a = 16 ∨ s.linkUp a = true) ∧ (s.mboxBusy a = false)) ∧
    (∃ (s : State) (a : Nat), (s.runs = true) ∧ (a = 16 ∨ s.linkUp a = true) ∧ (s.mboxBusy a = false)) :=
  ⟨-- clause 1
   ⟨hostState, 0, by decide⟩,
   -- clause 2
   ⟨hostState, 0, 77, by decide⟩,
   -- clause 3
   ⟨hostState, 0, by decide⟩,
   -- clause 4
   ⟨hostState, 0, by decide⟩,
   -- clause 5
   ⟨hostState, 0, by decide⟩,
   -- clause 6
   ⟨hostState, 0, 4, 8, by decide⟩,
   -- clause 7
   ⟨hostState, 0, by decide⟩,
   -- clause 8
   ⟨hostState, 0, by decide⟩,
   -- clause 9
   ⟨hostState, 0, by decide⟩,
   -- clause 10
   ⟨hostState, 0, by decide⟩,
   -- clause 11
   ⟨hostState, 0, by decide⟩⟩
theorem test_witness_mailbox_media : (∃ (s : State) (a dpa len : Nat) (l : List PoisonEnt), (s.runs = true) ∧ (a = 16 ∨ s.linkUp a = true) ∧ (s.mboxBusy a = false) ∧ (s.ports.poisonOverflow = none) ∧ (l = s.ports.poisonList.filter (fun x => x.within dpa len))) ∧
    (∃ (s : State) (a dpa page line : Nat) (e : PEntry), (s.runs = true) ∧ (a = 16 ∨ s.linkUp a = true) ∧ (s.mboxBusy a = false) ∧ (page = dpa / 4096) ∧ (line = dpa % 4096 / 64) ∧ (s.entry page = e) ∧ (e.st = .hot) ∧ (s.quiet) ∧ (s.home.dir = []) ∧ (s.home.icache = []) ∧ (s.hub.slots = []) ∧ (s.hub.prefetch = []) ∧ (s.hub.wrHeld = []) ∧ (s.vq = []) ∧ (s.tier.lostLines = []) ∧ (s.underLoss e.vein e.loc = false) ∧ ((s.dipt e.vein).behind = [])) ∧
    (∃ (s : State) (a dpa page line : Nat) (e : PEntry), (s.runs = true) ∧ (a = 16 ∨ s.linkUp a = true) ∧ (s.mboxBusy a = false) ∧ (page = dpa / 4096) ∧ (line = dpa % 4096 / 64) ∧ (s.entry page = e) ∧ (e.st = .hot) ∧ (s.quiet) ∧ (s.home.dir = []) ∧ (s.home.icache = []) ∧ (s.hub.slots = []) ∧ (s.hub.prefetch = []) ∧ (s.hub.wrHeld = []) ∧ (s.vq = []) ∧ (s.tier.lostLines = []) ∧ (s.underLoss e.vein e.loc = false) ∧ ((s.dipt e.vein).behind = [])) ∧
    (∃ (s : State) (a : Nat), (s.runs = true) ∧ (a = 16 ∨ s.linkUp a = true) ∧ (s.mboxBusy a = false)) ∧
    (∃ (s : State) (a : Nat), (s.runs = true) ∧ (a = 16 ∨ s.linkUp a = true) ∧ (s.mboxBusy a = false) ∧ (s.ports.scan = none)) ∧
    (∃ (s : State) (a first n : Nat) (t0 : Stroke), (s.runs = true) ∧ (s.ports.scan = some (a, first, n, t0)) ∧ (s.scanTime first n ≤ strokesSince t0 s.now)) ∧
    (∃ (s : State) (a : Nat), (s.runs = true) ∧ (a = 16 ∨ s.linkUp a = true) ∧ (s.mboxBusy a = false) ∧ (s.ports.scan = none)) :=
  ⟨-- clause 1
   ⟨hostState, 0, 0, 4096, ([] : List PoisonEnt), by decide⟩,
   -- clause 2
   ⟨poisonState, 16, 0x00C0, 0, 3, { st := .hot, vein := 0, loc := 5, ctx := 1 }, by decide⟩,
   -- clause 3
   ⟨poisonState, 16, 0x00C0, 0, 3, { st := .hot, vein := 0, loc := 5, ctx := 1 }, by decide⟩,
   -- clause 4
   ⟨hostState, 0, by decide⟩,
   -- clause 5
   ⟨hostState, 0, by decide⟩,
   -- clause 6
   ⟨scanState, 0, 0, 1, (0 : Stroke), by decide⟩,
   -- clause 7
   ⟨hostState, 0, by decide⟩⟩
theorem test_witness_mailbox_capacity_and_firmware : (∃ (s : State) (a first n : Nat), (s.runs = true) ∧ (s.hasAttach a = true) ∧ (s.boot.released = true) ∧ (s.mayOffer (first, n) = true)) ∧
    (∃ (s : State) (a sit : Nat) (x : Nat × Nat), (s.runs = true) ∧ (a = 16 ∨ s.linkUp a = true) ∧ (s.mboxBusy a = false) ∧ (s.tier.offers = [(a, x, sit)]) ∧ (x.2 ≠ 0)) ∧
    (∃ (s : State) (a : Nat) (x : Nat × Nat), (s.runs = true) ∧ (a = 16 ∨ s.linkUp a = true) ∧ (s.mboxBusy a = false) ∧ (s.tier.extents = [x]) ∧ (x.2 ≠ 0) ∧ (s.touchedPages (x.1 * 65536) (x.2 * 65536) = [])) ∧
    (∃ (s : State) (a sit : Nat) (x : Nat × Nat), (s.runs = true) ∧ (s.tier.offers = [(a, x, sit)]) ∧ (s.get .port (portOf a) F.PORT_DC_CTL_OFFER_TIMEOUT ≤ sittingOf s.now - sit)) ∧
    (∃ (s : State) (a : Nat), (s.runs = true) ∧ (a = 16 ∨ s.linkUp a = true) ∧ (s.mboxBusy a = false)) ∧
    (∃ (s : State) (a ofs : Nat) (data : List Byte), (s.runs = true) ∧ (a = 16 ∨ s.linkUp a = true) ∧ (s.mboxBusy a = false) ∧ (s.stage ≠ 3) ∧ (s.stage ≠ 6) ∧ (s.ports.fwOwner = none) ∧ (ofs + data.length ≤ 0x800000)) ∧
    (∃ (s : State) (a slot : Nat), (s.runs = true) ∧ (a = 16 ∨ s.linkUp a = true) ∧ (s.mboxBusy a = false) ∧ (s.stage ≠ 3) ∧ (s.stage ≠ 6) ∧ (s.ports.fwOwner = none) ∧ (slot = 1 ∨ slot = 2)) ∧
    (∃ (s : State) (a ofs v : Nat) (u : State), (s.runs = true) ∧ (a = 16 ∨ s.linkUp a = true) ∧ (s.mboxBusy a = false) ∧ (ofs % 4 = 0) ∧ (ofs < 2 ^ 24) ∧ (s.narrowRead (mboxAgent a) ofs 4 = (v, u)) ∧ (s.dropCause (mboxAgent a) ofs 4 false = none)) ∧
    (∃ (s u : State) (a ofs w : Nat), (s.runs = true) ∧ (a = 16 ∨ s.linkUp a = true) ∧ (s.mboxBusy a = false) ∧ (ofs % 4 = 0) ∧ (ofs < 2 ^ 24) ∧ (s.dropCause (mboxAgent a) ofs 4 true = none) ∧ (s.writeAt (mboxAgent a) ofs w = (false, u))) :=
  ⟨-- clause 1
   ⟨offerState, 0, 16, 1, by decide⟩,
   -- clause 2
   ⟨offeredState, 0, 0, (16, 1), by decide⟩,
   -- clause 3
   ⟨extentState, 0, (16, 1), by decide⟩,
   -- clause 4
   ⟨lateOfferState, 0, 0, (16, 1), by decide⟩,
   -- clause 5
   ⟨hostState, 0, by decide⟩,
   -- clause 6
   ⟨hostState, 0, 16, [1, 2, 3], by decide⟩,
   -- clause 7
   ⟨hostState, 0, 2, by decide⟩,
   -- clause 8
   ⟨hostState, 0, 0, (hostState.narrowRead 0x10 0 4).1, (hostState.narrowRead 0x10 0 4).2, by decide +kernel⟩,
   -- clause 9
   ⟨grantState, (grantState.writeAt 0x10 (pg .regu 0 + F.REGU_CTL_HOLD_EN.off) 3).2, 0, pg .regu 0 + F.REGU_CTL_HOLD_EN.off, 3, by decide +kernel⟩⟩
theorem test_witness_internal_caches : (∃ (s : State) (o page line c : Nat), (s.runs = true) ∧ (o < 16) ∧ (line < 64) ∧ ((s.entry page).st = .zero) ∧ (c ≠ 0) ∧ ((s.ctx c).valid = true) ∧ ((s.ctx c).prot = false) ∧ (s.quiet) ∧ (s.hub.slots = []) ∧ (s.tier.lostLines = []) ∧ (s.tier.badImages = []) ∧ (s.home.dir = []) ∧ (s.home.icache = [])) ∧
    (∃ (s : State) (o page line c : Nat), (s.runs = true) ∧ (o < 16) ∧ (line < 64) ∧ ((s.entry page).st = .zero) ∧ (c ≠ 0) ∧ ((s.ctx c).valid = true) ∧ ((s.ctx c).prot = false) ∧ (s.quiet) ∧ (s.hub.slots = []) ∧ (s.tier.lostLines = []) ∧ (s.tier.badImages = []) ∧ (s.home.dir = []) ∧ (s.home.icache = [])) ∧
    (∃ (s : State) (o page line c : Nat), (s.runs = true) ∧ (o < 16) ∧ (line < 64) ∧ ((s.entry page).st = .zero) ∧ (c ≠ 0) ∧ ((s.ctx c).valid = true) ∧ ((s.ctx c).prot = false) ∧ (s.quiet) ∧ (s.hub.slots = []) ∧ (s.tier.lostLines = []) ∧ (s.tier.badImages = []) ∧ (s.home.dir = []) ∧ (s.home.icache = [])) ∧
    (∃ (s : State) (o page line c : Nat), (s.runs = true) ∧ (o < 16) ∧ (line < 64) ∧ ((s.entry page).st = .zero) ∧ (c ≠ 0) ∧ ((s.ctx c).valid = true) ∧ ((s.ctx c).prot = false) ∧ (s.quiet) ∧ (s.hub.slots = []) ∧ (s.tier.lostLines = []) ∧ (s.tier.badImages = []) ∧ (s.home.dir = []) ∧ (s.home.icache = [])) ∧
    (∃ (s : State) (o page line c : Nat), (s.runs = true) ∧ (o < 16) ∧ (line < 64) ∧ ((s.entry page).st = .zero) ∧ (c ≠ 0) ∧ ((s.ctx c).valid = true) ∧ ((s.ctx c).prot = false) ∧ (s.quiet) ∧ (s.hub.slots = []) ∧ (s.tier.lostLines = []) ∧ (s.tier.badImages = []) ∧ (s.home.dir = []) ∧ (s.home.icache = []) ∧ (s.home.atomicHeld = [])) ∧
    (∃ (s : State) (o page line c : Nat) (e : DirEnt) (x : ICLine), (s.runs = true) ∧ (o < 16) ∧ (line < 64) ∧ ((s.entry page).st = .zero) ∧ (c ≠ 0) ∧ ((s.ctx c).valid = true) ∧ ((s.ctx c).prot = false) ∧ (s.quiet) ∧ (s.hub.slots = []) ∧ (s.tier.lostLines = []) ∧ (s.dirOf page line = e) ∧ (e.hst = .i) ∧ (e.ist = .m) ∧ (e.iowner = o) ∧ (s.home.icache = [x]) ∧ (x.owner = o) ∧ (x.page = page) ∧ (x.line = line)) ∧
    (∃ (s : State) (o page line c : Nat) (e : DirEnt) (x : ICLine), (s.runs = true) ∧ (o < 16) ∧ (line < 64) ∧ ((s.entry page).st = .zero) ∧ (c ≠ 0) ∧ ((s.ctx c).valid = true) ∧ ((s.ctx c).prot = false) ∧ (s.quiet) ∧ (s.hub.slots = []) ∧ (s.dirOf page line = e) ∧ (e.hst = .i) ∧ (e.ist = .e) ∧ (e.iowner = o) ∧ (s.home.icache = [x]) ∧ (x.owner = o) ∧ (x.page = page) ∧ (x.line = line)) :=
  ⟨-- clause 1
   ⟨hostState, 3, 1, 2, 1, by decide⟩,
   -- clause 2
   ⟨hostState, 3, 1, 2, 1, by decide⟩,
   -- clause 3
   ⟨hostState, 3, 1, 2, 1, by decide⟩,
   -- clause 4
   ⟨hostState, 3, 1, 2, 1, by decide⟩,
   -- clause 5
   ⟨hostState, 3, 1, 2, 1, by decide⟩,
   -- clause 6
   ⟨ownedState IState.m true, 3, 1, 2, 1, ((ownedState IState.m true).dirOf 1 2), { owner := 3, page := 1, line := 2, dirty := true, data := 5, ctx := 1 }, by decide +kernel⟩,
   -- clause 7
   ⟨ownedState IState.e false, 3, 1, 2, 1, ((ownedState IState.e false).dirOf 1 2), { owner := 3, page := 1, line := 2, data := 5, ctx := 1 }, by decide +kernel⟩⟩
theorem test_witness_recalls_and_departures : (∃ (s : State) (o page line : Nat) (w : Waiting), (s.runs = true) ∧ (o < 16) ∧ (s.home.waiting = [w]) ∧ (s.home.queue = []) ∧ (s.home.senders = []) ∧ (w.req.page = page) ∧ (w.req.line = line) ∧ (w.req.kind = .discard) ∧ (w.req.owner ≠ some o) ∧ (w.victim = false) ∧ (w.unsent = []) ∧ (Holder.owner o ∈ w.awaiting) ∧ (w.awaiting.filter (· ≠ Holder.owner o) ≠ []) ∧ ((s.rawDir page line).dirty = false) ∧ (s.ring.freeing = [])) ∧
    (∃ (s : State) (slab hl : Nat) (w : Waiting), (s.runs = true) ∧ (s.home.waiting = [w]) ∧ (s.home.queue = []) ∧ (s.home.senders = []) ∧ (w.victim = true) ∧ (w.req.page = pageOfHl slab hl) ∧ (w.req.line = hl % 64) ∧ (w.awaiting = []) ∧ (s.ring.freeing = [])) ∧
    (∃ (s : State) (a n : Nat), (s.runs = true) ∧ (a < 16) ∧ (s.home.departing = [(a, n)]) ∧ ((s.att a).memWait = false) ∧ (s.home.queue = []) ∧ (s.home.senders = []) ∧ (s.home.waiting = []) ∧ (s.ring.freeing = [])) ∧
    (∃ (s : State) (r : HReq), (s.runs = true) ∧ (s.home.resolving = none) ∧ (s.home.regionWait = [r]) ∧ (s.home.icache = [])) ∧
    (∃ (s : State) (key : Nat), (s.runs = true) ∧ (s.home.resolving = some key) ∧ (s.home.regionWait = []) ∧ (key < 1048576)) ∧
    (∃ (s : State) (d : Nat), (s.runs = true) ∧ (s.actingHome = some d) ∧ (s.home.handback = true) ∧ (s.bit .home d F.HOME_STATUS_HANDBACK = false)) ∧
    (∃ (s : State) (d : Nat), (s.runs = true) ∧ (s.actingHome = some d) ∧ (s.bit .home d F.HOME_STATUS_HANDBACK = true)) ∧
    (∃ (s : State) (agent slab line page : Nat), (s.runs = true) ∧ (s.mayWrite agent .home slab F.HOME_DIRQ_CTL_LINE) ∧ (line < 64) ∧ (slab < 2) ∧ (s.bit .home slab F.HOME_DIRQ_STATUS_BUSY = false) ∧ (s.get .home slab F.HOME_DIRQ_PAGE_PAGE = page) ∧ (s.homeSlab page = slab) ∧ (s.quiet) ∧ (s.home.dir = [])) :=
  ⟨-- clause 1
   ⟨ackState, 3, 1, 2, { req := { id := 4, kind := .discard, who := .mgmt 0, page := 1, line := 2 }, awaiting := [.owner 3, .host 5] }, by decide +kernel⟩,
   -- clause 2
   ⟨victimState, 0, 130, { req := { id := 4, kind := .snoopRead, who := .mover 0, page := pageOfHl 0 130, line := 2 }, victim := true }, by decide +kernel⟩,
   -- clause 3
   ⟨sweepState, 3, 0, by decide⟩,
   -- clause 4
   ⟨unknownState, { id := 4, kind := .read, who := .host 0, page := 1, line := 2 }, by decide +kernel⟩,
   -- clause 5
   ⟨{ runState with home := { runState.home with resolving := some 7, unknown := [7, 9] } }, 7, by decide⟩,
   -- clause 6
   ⟨actingState, 0, by decide⟩,
   -- clause 7
   ⟨actingState.put .home 0 F.HOME_STATUS_HANDBACK 1, 0, by decide⟩,
   -- clause 8
   ⟨runState, 1, 0, 3, 0, by decide⟩⟩
theorem test_witness_hub_cache_commands : (∃ (s : State) (agent slab page : Nat), (s.runs = true) ∧ (s.mayWrite agent .hcac slab F.HCAC_CMD_OP) ∧ (slab < 2) ∧ (s.bit .hcac slab F.HCAC_CMD_STATUS_BUSY = false) ∧ (isSecp agent = false) ∧ (s.get .hcac slab F.HCAC_CMD_PAGE_PAGE = page) ∧ (s.pageExists page = true) ∧ (s.homeSlab page = slab) ∧ (s.quiet) ∧ (s.blockClosed .hcac slab = false)) ∧
    (∃ (s : State) (agent slab page : Nat), (s.runs = true) ∧ (s.mayWrite agent .hcac slab F.HCAC_CMD_OP) ∧ (slab < 2) ∧ (s.bit .hcac slab F.HCAC_CMD_STATUS_BUSY = false) ∧ (isSecp agent = false) ∧ (s.get .hcac slab F.HCAC_CMD_PAGE_PAGE = page) ∧ (s.pageExists page = true) ∧ (s.homeSlab page = slab) ∧ (s.quiet) ∧ (s.blockClosed .hcac slab = false)) ∧
    (∃ (s : State) (agent slab page : Nat), (s.runs = true) ∧ (s.mayWrite agent .hcac slab F.HCAC_CMD_OP) ∧ (slab < 2) ∧ (s.bit .hcac slab F.HCAC_CMD_STATUS_BUSY = false) ∧ (isSecp agent = false) ∧ (s.get .hcac slab F.HCAC_CMD_PAGE_PAGE = page) ∧ (s.pageExists page = true) ∧ (s.homeSlab page = slab) ∧ (s.quiet) ∧ (s.blockClosed .hcac slab = false)) ∧
    (∃ (s : State) (agent slab set way : Nat), (s.runs = true) ∧ (s.mayWrite agent .hcac slab F.HCAC_CMD_OP) ∧ (slab < 2) ∧ (s.bit .hcac slab F.HCAC_CMD_STATUS_BUSY = false) ∧ (set < 32768) ∧ (way < 16) ∧ (way < 16 - s.secureWays slab ∨ isSecp agent = true) ∧ (swf none s.hub.ents = true) ∧ (s.blockClosed .hcac slab = false)) ∧
    (∃ (s : State) (agent slab : Nat), (s.runs = true) ∧ (s.mayWrite agent .hcac slab F.HCAC_CMD_OP) ∧ (slab < 2) ∧ (s.bit .hcac slab F.HCAC_CMD_STATUS_BUSY = false) ∧ (s.blockClosed .hcac slab = false)) ∧
    (∃ (s : State) (slab agent : Nat), (s.runs = true) ∧ (slab < 2) ∧ (s.hub.cmds = [(slab, 5, 0, agent)]) ∧ (isSecp agent = true)) ∧
    (∃ (s : State) (agent slab ways : Nat), (s.runs = true) ∧ (isSecp agent = true) ∧ (s.mayWrite agent .hcac slab F.HCAC_PART_SECURE_WAYS) ∧ (s.bit .hcac slab F.HCAC_PART_REPART_BUSY = false) ∧ (ways ≠ s.get .hcac slab F.HCAC_PART_SECURE_WAYS)) ∧
    (∃ (s : State) (slab ways : Nat), (s.runs = true) ∧ (s.hub.repart = [(slab, ways)]) ∧ (ways < 16)) :=
  ⟨-- clause 1
   ⟨runState, 1, 0, 0, by decide⟩,
   -- clause 2
   ⟨runState, 1, 0, 0, by decide⟩,
   -- clause 3
   ⟨runState, 1, 0, 0, by decide⟩,
   -- clause 4
   ⟨cachedState, 1, 0, 5, 3, by decide⟩,
   -- clause 5
   ⟨runState, 1, 0, by decide⟩,
   -- clause 6
   ⟨{ cachedState with hub := { cachedState.hub with cmds := [(0, 5, 0, 3)] } }, 0, 3, by decide⟩,
   -- clause 7
   ⟨runState, 3, 0, 4, by decide⟩,
   -- clause 8
   ⟨{ cachedState with hub := { cachedState.hub with repart := [(0, 4)] } }, 0, 4, by decide⟩⟩
theorem test_witness_hub_cache_fills : (∃ (s : State) (page line sl v way : Nat) (sec : Bool) (e : PEntry), (s.runs = true) ∧ (s.hub.prefetch = [(sl, page, line, sec)]) ∧ (s.hub.dirtied = []) ∧ (s.entry page = e) ∧ (e.st = .hot) ∧ (s.pickCopy e.vein e.loc { id := 0, kind := .snoopRead, who := .host 0, page := page, line := line } = some v) ∧ ((s.stored (s.hotKey v e.loc line)).err = 0) ∧ ((s.stored (s.hotKey v e.loc line)).marker = false) ∧ (s.media.resv = []) ∧ (s.get .vein v F.VEIN_STATUS_CHAN_RETIRED = 0) ∧ (macOk (s.stored (s.hotKey v e.loc line)) 0 (s.bindHot e.vein e.loc line page e.ctx 0) = true) ∧ (s.hcHas sl (hotName e.vein e.loc line) = false) ∧ ((s.partWays sl sec).find? (fun w => (s.hcEnt sl (hcSet (hotName e.vein e.loc line)) w).isNone) = some way)) ∧
    (∃ (s : State) (page j : Nat) (rest : List Nat) (x : HlbSlot) (sub : List Byte), (s.runs = true) ∧ (s.hub.slots = [x]) ∧ (x.page = page) ∧ (x.runahead = true) ∧ (x.ready = true) ∧ (x.left = j :: rest) ∧ (s.wstampOf page = x.ws) ∧ (memHeadOk x.image ((s.entry page).gm1 + 1) = true) ∧ (decodeSubOf x.image j = some sub)) ∧
    (∃ (s : State), (s.runs = true)) :=
  ⟨-- clause 1
   ⟨prefetchState, 0, 3, 0, 8, 0, false, { st := .hot, vein := 0, loc := 5, ctx := 1 }, by decide +kernel⟩,
   -- clause 2
   ⟨aheadState, 0, 1, [2, 3], aheadSlot, (List.replicate 1024 (255 : Byte)), by decide +kernel⟩,
   -- clause 3
   ⟨encodeState, by decide⟩⟩
theorem test_witness_query_operations : (∃ (s : State) (q : Nat) (env : JobEnv) (d : List Byte) (u : State), (s.runs = true) ∧ (s.qMayFetch q = true) ∧ (s.qSize q ≤ 4096) ∧ (s.jobBytes env (.engine q) (s.qKey q) (s.get .qeng q F.QENG_SQ_BASE_PAGE * 4096 + 128 * s.get .qeng q F.QENG_SQ_HEAD_HEAD) 128 = ((d, none), u)) ∧ (qOp d = 0) ∧ (descBad d = none) ∧ (u.home.queue = []) ∧ (u.home.senders = []) ∧ (u.home.waiting = []) ∧ (s.blockClosed .qeng q = false)) ∧
    (∃ (s : State) (q n : Nat) (env : JobEnv) (j : QJob), (s.runs = true) ∧ (s.qjob q = some j) ∧ (j.result = none) ∧ (s.query.throttled = false) ∧ (env.rows = none) ∧ (qFlag j.desc 4 = false) ∧ (kTerms j.kernel = 0) ∧ (qOp j.desc = 1) ∧ (qRows j.desc = n) ∧ (0 < n) ∧ (j.rowsDone = 0) ∧ (j.passed = 0) ∧ (j.sel = []) ∧ (s.hostOpen (s.qAttach q) = true) ∧ (qFlag j.desc 6 = true) ∧ (env.hostFail = false) ∧ (s.home.queue = []) ∧ (s.home.senders = []) ∧ (s.home.waiting = []) ∧ (s.blockClosed .qeng q = false) ∧ (s.ring.freeing = [])) ∧
    (∃ (s : State) (q : Nat) (env : JobEnv) (j : QJob), (s.runs = true) ∧ (s.qjob q = some j) ∧ (j.result = none) ∧ (s.query.throttled = false) ∧ (env.rows = none) ∧ (qFlag j.desc 4 = false) ∧ (kTerms j.kernel = 0) ∧ (qRows j.desc = j.rowsDone + 1) ∧ (j.lastHost = none) ∧ (qOp j.desc = 2) ∧ (kProj j.kernel = 0) ∧ (qFlag j.desc 2 = true) ∧ (qFlag j.desc 3 = false) ∧ (j.outBytes + 8 ≤ qOutLen j.desc) ∧ (s.hostOpen (s.qAttach q) = true) ∧ (qFlag j.desc 6 = true) ∧ (env.hostFail = false) ∧ (s.home.queue = []) ∧ (s.home.senders = []) ∧ (s.home.waiting = []) ∧ (s.blockClosed .qeng q = false) ∧ (s.ring.freeing = [])) ∧
    (∃ (s : State) (q : Nat) (env : JobEnv) (j : QJob) (rid : Nat) (u : State), (s.runs = true) ∧ (s.qjob q = some j) ∧ (j.result = none) ∧ (s.query.throttled = false) ∧ (env.rows = none) ∧ (qFlag j.desc 4 = false) ∧ (kTerms j.kernel = 0) ∧ (qRows j.desc = j.rowsDone + 1) ∧ (j.lastHost = none) ∧ (qOp j.desc = 3) ∧ (s.qCell env q j.desc j.kernel 0 (qStart j.desc + j.rowsDone) = (.ok (some rid), u)) ∧ (kLimit j.kernel ≤ rid) ∧ (u.home.queue = []) ∧ (u.home.senders = []) ∧ (u.home.waiting = []) ∧ (s.blockClosed .qeng q = false)) ∧
    (∃ (s : State) (q : Nat) (env : JobEnv) (j : QJob) (lim : Bool) (y : QJob) (u : State), (s.runs = true) ∧ (s.qjob q = some j) ∧ (j.result = none) ∧ (s.query.throttled = false) ∧ (env.rows = none) ∧ (qFlag j.desc 4 = false) ∧ (kTerms j.kernel = 0) ∧ (qRows j.desc = j.rowsDone + 1) ∧ (j.lastHost = none) ∧ (qOp j.desc = 4) ∧ (kKeys j.kernel = 0) ∧ (kProj j.kernel = 0) ∧ (kMode j.kernel = 2) ∧ (qFlag j.desc 2 = true) ∧ (qFlag j.desc 3 = false) ∧ (State.qProbe env q 0 (kProbeMax j.kernel) (hashSlot 0 (kLog j.kernel)) s j = (.ok ([], lim), y, u)) ∧ (j.outBytes + 8 ≤ qOutLen j.desc) ∧ (u.hostOpen (u.qAttach q) = true) ∧ (qFlag j.desc 6 = true) ∧ (env.hostFail = false) ∧ (u.home.queue = []) ∧ (u.home.senders = []) ∧ (u.home.waiting = []) ∧ (s.blockClosed .qeng q = false)) ∧
    (∃ (s : State) (q : Nat) (env : JobEnv) (j : QJob) (y : QJob) (u : State), (s.runs = true) ∧ (s.qjob q = some j) ∧ (j.result = none) ∧ (s.query.throttled = false) ∧ (env.rows = none) ∧ (qFlag j.desc 4 = false) ∧ (kTerms j.kernel = 0) ∧ (qRows j.desc = j.rowsDone + 1) ∧ (j.lastHost = none) ∧ (qOp j.desc = 5) ∧ (kKeys j.kernel = 0) ∧ (kAgg j.kernel = 0) ∧ (qFlag j.desc 5 = false) ∧ (State.qPlace env q 0 (valOf []) (kProbeMax j.kernel) (hashSlot 0 (kLog j.kernel)) s j = (y, u, true)) ∧ (y.result = none) ∧ (u.home.queue = []) ∧ (u.home.senders = []) ∧ (u.home.waiting = []) ∧ (s.blockClosed .qeng q = false)) :=
  ⟨-- clause 1
   ⟨querySub, 2, {}, (List.replicate 128 0), (querySub.jobBytes {} (.engine 2) 1 4096 128).2, by decide +kernel⟩,
   -- clause 2
   ⟨(workState (workJob 1 0x40 0 9 0 0)), 2, 9, {}, (workJob 1 0x40 0 9 0 0), by decide +kernel⟩,
   -- clause 3
   ⟨(workState (workJob 2 0x44 0 1 0 0)), 2, {}, (workJob 2 0x44 0 1 0 0), by decide +kernel⟩,
   -- clause 4
   ⟨(workState (workJob 3 0x40 0 1 0 0)), 2, {}, (workJob 3 0x40 0 1 0 0), 0, ((workState (workJob 3 0x40 0 1 0 0)).qCell {} 2 (workDesc 3 0x40 0 1 64) (workKernel 0 0) 0 5).2, by decide +kernel⟩,
   -- clause 5
   ⟨(workState (workJob 4 0x44 0 1 2 0)), 2, {}, (workJob 4 0x44 0 1 2 0), false, (State.qProbe {} 2 0 3 (hashSlot 0 4) (workState (workJob 4 0x44 0 1 2 0)) (workJob 4 0x44 0 1 2 0)).2.1, (State.qProbe {} 2 0 3 (hashSlot 0 4) (workState (workJob 4 0x44 0 1 2 0)) (workJob 4 0x44 0 1 2 0)).2.2, by decide +kernel⟩,
   -- clause 6
   ⟨(workState (workJob 5 0 2 1 0 0)), 2, {}, (workJob 5 0 2 1 0 0), (State.qPlace {} 2 0 (valOf []) 3 (hashSlot 0 4) (workState (workJob 5 0 2 1 0 0)) (workJob 5 0 2 1 0 0)).1, (State.qPlace {} 2 0 (valOf []) 3 (hashSlot 0 4) (workState (workJob 5 0 2 1 0 0)) (workJob 5 0 2 1 0 0)).2.1, by decide +kernel⟩⟩
theorem test_witness_query_control : (∃ (s : State) (agent q tail : Nat), (s.runs = true) ∧ (s.mayWrite agent .qeng q F.QENG_SQ_TAIL_TAIL) ∧ (s.bit .qeng q F.QENG_CTL_ENABLE = true) ∧ (tail < s.qSize q) ∧ (tail < 4096) ∧ (s.qWaiting q + (tail + s.qSize q - s.get .qeng q F.QENG_SQ_TAIL_TAIL % s.qSize q) % s.qSize q ≤ s.qSize q - 1) ∧ (s.blockClosed .qeng q = false)) ∧
    (∃ (s : State) (agent q : Nat), (s.runs = true) ∧ (s.mayWrite agent .qeng q F.QENG_SQ_TAIL_TAIL) ∧ (s.bit .qeng q F.QENG_CTL_ENABLE = false) ∧ (s.blockClosed .qeng q = false)) ∧
    (∃ (s : State) (q st : Nat) (j : QJob), (s.runs = true) ∧ (s.qjob q = some j) ∧ (j.result = some st) ∧ (s.qHeld q < 3)) ∧
    (∃ (s : State) (agent slab c head : Nat), (s.runs = true) ∧ (c < 4) ∧ (s.mayWrite agent .qgth slab F.QGTH_CQ_HEAD_HEAD c) ∧ (head < 4096) ∧ (s.slotRecs slab = []) ∧ (s.home.queue = []) ∧ (s.home.senders = []) ∧ (s.home.waiting = []) ∧ (s.ring.freeing = [])) ∧
    (∃ (s : State) (agent q value : Nat) (j : QJob), (s.runs = true) ∧ (s.mayWrite agent .qeng q F.QENG_CTL_ENABLE) ∧ (value.testBit 1 = true) ∧ (value.testBit 2 = false) ∧ (s.qjob q = some j) ∧ (j.result = none) ∧ (qOp j.desc ≠ 1) ∧ (qOp j.desc ≠ 5) ∧ (j.lastHost = none) ∧ (s.home.queue = []) ∧ (s.home.senders = []) ∧ (s.home.waiting = []) ∧ (s.ring.freeing = [])) ∧
    (∃ (s : State) (agent q : Nat), (s.runs = true) ∧ (s.mayWrite agent .qeng q F.QENG_CTL_ENABLE) ∧ (s.qjob q = none)) ∧
    (∃ (s : State) (q : Nat) (x : ICLine), (s.runs = true) ∧ (q ∈ s.query.flushing) ∧ (s.home.icache = [x]) ∧ (x.owner = q) ∧ (x.dirty = false) ∧ (s.home.queue = []) ∧ (s.home.senders = []) ∧ (s.home.waiting = []) ∧ (s.ring.freeing = [])) ∧
    (∃ (s : State), (s.runs = true) ∧ (s.grantLeft .query = false)) :=
  ⟨-- clause 1
   ⟨querySub, 1, 2, 3, by decide⟩,
   -- clause 2
   ⟨runState, 1, 2, by decide⟩,
   -- clause 3
   ⟨(workState { workJob 2 0 0 1 0 0 with result := some 0 }), 2, 0, { workJob 2 0 0 1 0 0 with result := some 0 }, by decide +kernel⟩,
   -- clause 4
   ⟨runState, 1, 0, 1, 3, by decide⟩,
   -- clause 5
   ⟨(workState (workJob 2 0 0 4 0 0)), 1, 2, 2, (workJob 2 0 0 4 0 0), by decide +kernel⟩,
   -- clause 6
   ⟨runState, 1, 2, by decide⟩,
   -- clause 7
   ⟨flushState, 2, { owner := 2, page := 1, line := 2, data := 5, ctx := 1 }, by decide +kernel⟩,
   -- clause 8
   ⟨{ runState with energy := { runState.energy with spent := [(0, 2 ^ 60), (1, 2 ^ 60), (2, 2 ^ 60), (3, 2 ^ 60), (4, 2 ^ 60)] } }, by decide⟩⟩
theorem test_witness_ring_links : (∃ (s : State) (p sd : Nat), (s.runs = true) ∧ (p < 2) ∧ (sd < 2)) ∧
    (∃ (s : State) (p sd : Nat), (s.runs = true) ∧ (s.sideUp p sd = true)) ∧
    (∃ (s : State) (p sd ta t4 : Nat), (s.runs = true) ∧ (s.sideUp p sd = true) ∧ ((s.side p sd).echo = true) ∧ ((t4 - ta + 1) / 2 < 2 ^ 16)) ∧
    (∃ (s : State) (p sd : Nat) (txOfs : Nat) (tr e : Int), (s.runs = true) ∧ (s.sideUp p sd = true) ∧ (s.isUpstream p sd = true) ∧ (s.pairState p = 4) ∧ (0 ≤ tr) ∧ (e = (txOfs : Int) + (s.ringGet p sd F.RING_DELAY_DELAY : Int) - tr)) ∧
    (∃ (s : State) (p sd : Nat), (s.runs = true) ∧ (s.sideUp p sd = true) ∧ (s.ringGet p sd F.RING_LINK_WRAP = 1)) ∧
    (∃ (s : State) (p sd : Nat) (w : Stroke), (s.runs = true) ∧ (p < 2) ∧ (sd < 2) ∧ ((s.pair p).window = some w) ∧ (s.pairState p = 2) ∧ ((s.pair p).opened = [1 - sd]) ∧ (strokesSince (halfStart w sd) s.now < 4)) ∧
    (∃ (s : State) (p sd position : Nat), (s.runs = true) ∧ (s.ringGet p sd F.RING_LINK_CELL_OPEN = 1) ∧ (s.ringGet p sd F.RING_LINK_PERM_DOWN = 0) ∧ (s.ringGet p sd F.RING_LINK_WRAP = 0) ∧ (s.side p sd = {}) ∧ (s.sideUp p sd = false) ∧ (s.pairState p = 9) ∧ (position < 64) ∧ (s.ring.egress = [])) ∧
    (∃ (s : State) (p sd fseq : Nat) (slots : List Nat), (s.runs = true) ∧ (s.sideTakes p sd = true) ∧ (fseq < 4096) ∧ (fseq = (s.side p sd).rxSeq) ∧ ((s.pair p).probing = []) ∧ (s.ring.egress = []) ∧ (slots.getD 4 0 = 0)) ∧
    (∃ (s : State) (p sd fseq crVc : Nat), (s.runs = true) ∧ (s.sideTakes p sd = true) ∧ (fseq < 4096) ∧ (fseq = (s.side p sd).rxSeq) ∧ ((s.pair p).probing = []) ∧ (s.ring.egress = []) ∧ (crVc < 4)) ∧
    (∃ (s : State) (p sd : Nat), (s.runs = true) ∧ (s.sideTakes p sd = true) ∧ ((s.side p sd).nak = false)) ∧
    (∃ (s : State) (p sd : Nat) (r : Sent), (s.runs = true) ∧ (s.sideUp p sd = true) ∧ ((s.side p sd).replay = [r]) ∧ (min 0xFFFF (s.ringGet p sd F.RING_BUCKET_LEVEL + 256 * s.get .ring (slabOfSide sd) F.RING_BUCKET_CFG_W_TIMEOUT) < 256 * s.get .ring (slabOfSide sd) F.RING_BUCKET_CFG_THRESH)) ∧
    (∃ (s : State) (p sd : Nat), (s.runs = true) ∧ (s.sideUp p sd = true) ∧ (p < 2) ∧ (sd < 2) ∧ (cellOpenIn (s.pairState p) = true) ∧ (s.ringGet p sd F.RING_LINK_WRAP = 0) ∧ (s.isUpstream p sd = false) ∧ (s.ring.egress = []) ∧ ((s.side p sd).replay = [])) :=
  ⟨-- clause 1
   ⟨memberState, 0, 0, by decide⟩,
   -- clause 2
   ⟨memberState, 0, 0, by decide⟩,
   -- clause 3
   ⟨{ memberState with ring := { memberState.ring with sides := [(0, { echo := true })] } }, 0, 0, 700, 1000, by decide⟩,
   -- clause 4
   ⟨memberState, 0, 1, 3, (1 : Int), (2 : Int), by decide⟩,
   -- clause 5
   ⟨(memberState.ringPut 0 0 F.RING_LINK_WRAP 1), 0, 0, by decide⟩,
   -- clause 6
   ⟨{ (runState.put .lode 0 F.LODE_STATE_STATE_A 2) with ring := { runState.ring with pairs := [(0, { window := some 0, opened := [1] })] } }, 0, 0, (0 : Stroke), by decide⟩,
   -- clause 7
   ⟨((runState.put .lode 0 F.LODE_STATE_STATE_A 9).ringPut 0 0 F.RING_LINK_CELL_OPEN 1), 0, 0, 3, by decide⟩,
   -- clause 8
   ⟨{ memberState with ring := { memberState.ring with sides := [(0, { replay := [sentFrame] })] } }, 0, 0, 0, [0, 1, 0, 0], by decide⟩,
   -- clause 9
   ⟨memberState, 0, 0, 0, 0, by decide⟩,
   -- clause 10
   ⟨memberState, 0, 0, by decide⟩,
   -- clause 11
   ⟨{ memberState with ring := { memberState.ring with sides := [(0, { replay := [sentFrame] })] } }, 0, 0, sentFrame, by decide⟩,
   -- clause 12
   ⟨memberState, 0, 0, by decide⟩⟩
theorem test_witness_lane_coding : (∃ (flit : List Byte), (flit.length = 128)) ∧
    (∃ (blocks : Nat → BitVec 2 × List Byte) (l : Nat), (l < 8) ∧ ((blocks l).1 ≠ 1)) ∧
    (∃ (l : List Byte), (l.length = 14)) ∧
    (∃ (f : Frame) (n : Nat), (f.wellFormed = true) ∧ (f.payload.length = 16 * n) ∧ (n < 64)) :=
  ⟨-- clause 1
   ⟨(List.replicate 128 0x5A), by decide +kernel⟩,
   -- clause 2
   ⟨(fun _ => (3, [])), 2, by decide⟩,
   -- clause 3
   ⟨(List.replicate 14 0x1E), by decide⟩,
   -- clause 4
   ⟨{ ty := 0x13, vc := 2, dst := 70, dir := 1, wrapped := true, src := 0x3FFFF, hops := 63, tag := 0xBEEF, arg := 0xFFFFFFFF, payload := List.replicate 1008 3 }, 63, by decide +kernel⟩⟩
theorem test_witness_ring_membership : (∃ (s : State) (p : Nat), (s.runs = true) ∧ (s.pairState p = 1)) ∧
    (∃ (s : State) (p sd : Nat) (f : Frame), (s.runs = true) ∧ (s.sideTakes p sd = true) ∧ (s.isHead p = true) ∧ (f.src = s.addr) ∧ (f.arg < 4)) ∧
    (∃ (s : State) (p sd : Nat) (f : Frame), (s.runs = true) ∧ (s.sideTakes p sd = true) ∧ (s.pairState p = 9 ∨ s.pairState p = 0xA) ∧ ((s.pair p).enumTag = some f.tag) ∧ ((s.pair p).counted = none) ∧ ((s.pair p).joins.length + 1 < f.arg) ∧ (f.arg < 128)) ∧
    (∃ (s : State) (p sd : Nat), (s.runs = true) ∧ (s.sideTakes p sd = true) ∧ (s.isHead p = true) ∧ ((s.pair p).enumTag ≠ none) ∧ ((s.pair p).counted = none) ∧ ((s.pair p).joins = [])) ∧
    (∃ (s : State) (p sd : Nat) (f : Frame), (s.runs = true) ∧ (s.sideTakes p sd = true) ∧ (p < 2) ∧ (s.pairState p = 3) ∧ ((s.pair p).joinTag = some f.tag) ∧ (f.arg.testBit 6 = false)) ∧
    (∃ (s : State) (p sd : Nat) (f : Frame) (order : List Nat), (s.runs = true) ∧ (s.sideTakes p sd = true) ∧ (f.bcast = false) ∧ (f.dst = s.addr) ∧ (s.bit .lode 0 F.LODE_ID_ADDR_VALID = true) ∧ (s.resting = false) ∧ (p < 2) ∧ (f.src = s.addr ∨ f.bcast = false) ∧ (s.isMember p = true) ∧ (order = ((List.range 64).map (fun k => fieldB f.payload k 1)).takeWhile (· ≠ 0xFF)) ∧ (s.tier.pmap = [])) ∧
    (∃ (s : State) (p : Nat) (b : Stroke), (s.runs = true) ∧ (p < 2) ∧ ((s.pair p).trainedAt = some b) ∧ (s.pairState p = 3) ∧ (4096 ≤ strokesSince b s.now)) ∧
    (∃ (s : State) (p : Nat) (b : Stroke), (s.runs = true) ∧ (p < 2) ∧ ((s.pair p).lastStrokeFrame = some b) ∧ (s.pairState p = 4) ∧ (64 ≤ strokesSince b s.now)) ∧
    (∃ (s : State) (p : Nat), (s.runs = true) ∧ (p < 2) ∧ (s.pairState p = 1) ∧ (s.bit .lode 0 F.LODE_CTL_JOIN_EN = true) ∧ (p = 0 ∨ s.role = 0)) ∧
    (∃ (s : State) (p : Nat), (s.runs = true) ∧ (p < 2) ∧ (s.pairState p = 1) ∧ (4096 ≤ strokesSince (s.pair p).heard s.now)) ∧
    (∃ (s : State) (agent : Nat), (s.runs = true) ∧ (s.mayWrite agent .lode 0 F.LODE_REJOIN_GO) ∧ (s.pairState 0 = 8) ∧ (s.pairState 1 ≠ 8) ∧ (s.pairState 1 ≠ 5)) :=
  ⟨-- clause 1
   ⟨(runState.put .lode 0 F.LODE_STATE_STATE_A 1), 0, by decide⟩,
   -- clause 2
   ⟨headState, 0, 0, { ty := 2, arg := 1, payload := List.replicate 512 3 }, by decide⟩,
   -- clause 3
   ⟨headState, 0, 0, { ty := 3, vc := 1, tag := 3, arg := 2, bcast := true }, by decide⟩,
   -- clause 4
   ⟨headState, 0, 0, by decide⟩,
   -- clause 5
   ⟨{ (memberState.put .lode 0 F.LODE_STATE_STATE_A 3) with ring := { memberState.ring with pairs := [(0, { joinTag := some 8 })] } }, 0, 0, { ty := 5, vc := 1, src := 128, tag := 8, arg := 5 }, by decide⟩,
   -- clause 6
   ⟨memberState, 0, 0, { ty := 6, vc := 1, dst := 1, arg := 0x7F0004, payload := [0, 1, 5] ++ List.replicate 61 255 }, [0, 1, 5], by decide⟩,
   -- clause 7
   ⟨{ (memberState.put .lode 0 F.LODE_STATE_STATE_A 3) with ring := { memberState.ring with pairs := [(0, { trainedAt := some 8 })] } }, 0, (8 : Stroke), by decide⟩,
   -- clause 8
   ⟨{ memberState with ring := { memberState.ring with pairs := [(0, { lastStrokeFrame := some 8 })] } }, 0, (8 : Stroke), by decide⟩,
   -- clause 9
   ⟨((runState.put .lode 0 F.LODE_STATE_STATE_A 1).put .lode 0 F.LODE_CTL_JOIN_EN 1), 0, by decide⟩,
   -- clause 10
   ⟨(memberState.put .lode 0 F.LODE_STATE_STATE_A 1), 0, by decide⟩,
   -- clause 11
   ⟨((memberState.put .lode 0 F.LODE_STATE_STATE_A 8).put .lode 0 F.LODE_STATE_STATE_B 0xF), 1, by decide⟩⟩
theorem test_witness_ring_commands : (∃ (s : State) (p sd q rs : Nat) (f : Frame) (drop : Nat) (ws : List Nat) (u : State), (s.runs = true) ∧ (s.sideTakes p sd = true) ∧ (f.bcast = false) ∧ (f.dst = s.addr) ∧ (s.bit .lode 0 F.LODE_ID_ADDR_VALID = true) ∧ (s.resting = false) ∧ (s.fromManager f = true) ∧ (State.readRun 9 (bits f.arg 24 4 + 1) (f.arg % 2 ^ 24) 0 (s.freeSlots p sd f) = (drop, ws, u)) ∧ (ws.length ≤ 16) ∧ (q = u.pairFor f.src) ∧ (rs = (u.pair q).routeSide (u.posOn q f.src)) ∧ (u.sideUp q rs = true) ∧ (u.ringGet q rs F.RING_LINK_WRAP = 0) ∧ (u.ring.egress = []) ∧ ((u.side q rs).replay = []) ∧ ((u.pair q).paused = []) ∧ (16 ≤ (u.side q rs).credits.getD 2 0)) ∧
    (∃ (s : State) (p sd q rs : Nat) (f : Frame) (drop : Nat) (u : State), (s.runs = true) ∧ (s.sideTakes p sd = true) ∧ (f.bcast = false) ∧ (f.dst = s.addr) ∧ (s.bit .lode 0 F.LODE_ID_ADDR_VALID = true) ∧ (s.resting = false) ∧ (s.fromManager f = true) ∧ (State.writeRun 9 ((List.range (bits f.arg 24 4 + 1)).map (fun i => fieldB f.payload (4 * i) 4)) (f.arg % 2 ^ 24) 0 (s.freeSlots p sd f) = (drop, u)) ∧ (q = u.pairFor f.src) ∧ (rs = (u.pair q).routeSide (u.posOn q f.src)) ∧ (u.sideUp q rs = true) ∧ (u.ringGet q rs F.RING_LINK_WRAP = 0) ∧ (u.ring.egress = []) ∧ ((u.side q rs).replay = []) ∧ ((u.pair q).paused = []) ∧ (16 ≤ (u.side q rs).credits.getD 2 0)) ∧
    (∃ (s : State) (p sd : Nat) (f : Frame) (r : Req1), (s.runs = true) ∧ (s.sideTakes p sd = true) ∧ (f.bcast = false) ∧ (f.dst = s.addr) ∧ (s.bit .lode 0 F.LODE_ID_ADDR_VALID = true) ∧ (s.resting = false) ∧ (s.ring.reqs = [r]) ∧ (r.tag = f.tag) ∧ (r.frame.ty = 7) ∧ (r.frame.arg < 2 ^ 24)) ∧
    (∃ (s : State) (p sd : Nat) (f : Frame), (s.runs = true) ∧ (s.sideTakes p sd = true) ∧ (f.bcast = false) ∧ (f.dst = s.addr) ∧ (s.bit .lode 0 F.LODE_ID_ADDR_VALID = true) ∧ (s.resting = false) ∧ (s.ring.reqs = [])) ∧
    (∃ (s : State) (p sd : Nat) (f : Frame), (s.runs = true) ∧ (s.sideTakes p sd = true) ∧ (f.bcast = false) ∧ (f.dst = s.addr) ∧ (s.bit .lode 0 F.LODE_ID_ADDR_VALID = true) ∧ (s.resting = false) ∧ (s.ring.reqs = [])) ∧
    (∃ (s : State) (p sd : Nat) (f : Frame) (c : Nat), (s.runs = true) ∧ (s.sideTakes p sd = true) ∧ (f.bcast = false) ∧ (f.dst = s.addr) ∧ (s.bit .lode 0 F.LODE_ID_ADDR_VALID = true) ∧ (s.resting = false) ∧ (s.isAncestor f.src = true) ∧ (strokesSince (BitVec.ofNat 48 (fieldB f.payload 8 6)) s.now < 2048) ∧ (sget none s.ring.keyXfer f.src = none) ∧ (s.fabricMac (headerBytes f ++ sliceB f.payload 0 120) (fieldB f.payload 120 8) = true) ∧ (c = fieldB f.payload 0 2 % 16384) ∧ (c ≠ 0) ∧ (s.ctxBusy c = false)) ∧
    (∃ (s : State) (p sd q rs : Nat) (f : Frame), (s.cmdStatus f.payload = 0) ∧ (s.runs = true) ∧ (s.sideTakes p sd = true) ∧ (f.bcast = false) ∧ (f.dst = s.addr) ∧ (s.bit .lode 0 F.LODE_ID_ADDR_VALID = true) ∧ (s.resting = false) ∧ (fieldB f.payload 0 1 = 1) ∧ (q = s.pairFor f.src) ∧ (rs = (s.pair q).routeSide (s.posOn q f.src)) ∧ (s.sideUp q rs = true) ∧ (s.ringGet q rs F.RING_LINK_WRAP = 0) ∧ (s.ring.egress = []) ∧ ((s.side q rs).replay = []) ∧ ((s.pair q).paused = []) ∧ (16 ≤ (s.side q rs).credits.getD 2 0)) ∧
    (∃ (s : State) (p sd q rs : Nat) (f : Frame), (s.cmdStatus f.payload = 0) ∧ (s.runs = true) ∧ (s.sideTakes p sd = true) ∧ (f.bcast = false) ∧ (f.dst = s.addr) ∧ (s.bit .lode 0 F.LODE_ID_ADDR_VALID = true) ∧ (s.resting = false) ∧ (fieldB f.payload 0 1 = 2) ∧ (q = s.pairFor f.src) ∧ (rs = (s.pair q).routeSide (s.posOn q f.src)) ∧ (s.sideUp q rs = true) ∧ (s.ringGet q rs F.RING_LINK_WRAP = 0) ∧ (s.ring.egress = []) ∧ ((s.side q rs).replay = []) ∧ ((s.pair q).paused = []) ∧ (16 ≤ (s.side q rs).credits.getD 2 0)) ∧
    (∃ (s : State) (p sd q rs : Nat) (f : Frame), (s.cmdStatus f.payload = 0) ∧ (s.runs = true) ∧ (s.sideTakes p sd = true) ∧ (f.bcast = false) ∧ (f.dst = s.addr) ∧ (s.bit .lode 0 F.LODE_ID_ADDR_VALID = true) ∧ (s.resting = false) ∧ (fieldB f.payload 0 1 = 3) ∧ (s.tier.lent = []) ∧ (∀ x ∈ s.tier.pmap, x.2.st ≠ .spilled) ∧ (q = s.pairFor f.src) ∧ (rs = (s.pair q).routeSide (s.posOn q f.src)) ∧ (s.sideUp q rs = true) ∧ (s.ringGet q rs F.RING_LINK_WRAP = 0) ∧ (s.ring.egress = []) ∧ ((s.side q rs).replay = []) ∧ ((s.pair q).paused = []) ∧ (16 ≤ (s.side q rs).credits.getD 2 0)) ∧
    (∃ (s : State) (p sd q rs : Nat) (f : Frame), (s.cmdStatus f.payload = 0) ∧ (s.runs = true) ∧ (s.sideTakes p sd = true) ∧ (f.bcast = false) ∧ (f.dst = s.addr) ∧ (s.bit .lode 0 F.LODE_ID_ADDR_VALID = true) ∧ (s.resting = false) ∧ (fieldB f.payload 0 1 = 4) ∧ (q = s.pairFor f.src) ∧ (rs = (s.pair q).routeSide (s.posOn q f.src)) ∧ (s.sideUp q rs = true) ∧ (s.ringGet q rs F.RING_LINK_WRAP = 0) ∧ (s.ring.egress = []) ∧ ((s.side q rs).replay = []) ∧ ((s.pair q).paused = []) ∧ (16 ≤ (s.side q rs).credits.getD 2 0)) :=
  ⟨-- clause 1
   ⟨memberState, 0, 0, 0, 1, { ty := 7, vc := 1, dst := 1, src := 0, tag := 3, arg := 0 }, (State.readRun 9 1 0 0 (memberState.freeSlots 0 0 { ty := 7, vc := 1, dst := 1, src := 0, tag := 3, arg := 0 })).1, (State.readRun 9 1 0 0 (memberState.freeSlots 0 0 { ty := 7, vc := 1, dst := 1, src := 0, tag := 3, arg := 0 })).2.1, (State.readRun 9 1 0 0 (memberState.freeSlots 0 0 { ty := 7, vc := 1, dst := 1, src := 0, tag := 3, arg := 0 })).2.2, by decide +kernel⟩,
   -- clause 2
   ⟨memberState, 0, 0, 0, 1, { ty := 8, vc := 1, dst := 1, src := 0, tag := 3, arg := pg .regu 0 + F.REGU_CTL_HOLD_EN.off, payload := leBytes 16 1 }, (State.writeRun 9 [1] (pg .regu 0 + F.REGU_CTL_HOLD_EN.off) 0 (memberState.freeSlots 0 0 { ty := 8, vc := 1, dst := 1, src := 0, tag := 3, arg := pg .regu 0 + F.REGU_CTL_HOLD_EN.off, payload := leBytes 16 1 })).1, (State.writeRun 9 [1] (pg .regu 0 + F.REGU_CTL_HOLD_EN.off) 0 (memberState.freeSlots 0 0 { ty := 8, vc := 1, dst := 1, src := 0, tag := 3, arg := pg .regu 0 + F.REGU_CTL_HOLD_EN.off, payload := leBytes 16 1 })).2, by decide +kernel⟩,
   -- clause 3
   ⟨{ memberState with ring := { memberState.ring with reqs := [{ tag := 4, frame := { ty := 7, vc := 1, arg := 16 }, pair := 0, side := 1, sent := 4990 }] } }, 0, 0, { ty := 9, vc := 2, dst := 1, tag := 4, payload := leBytes 16 77 }, { tag := 4, frame := { ty := 7, vc := 1, arg := 16 }, pair := 0, side := 1, sent := 4990 }, by decide⟩,
   -- clause 4
   ⟨memberState, 0, 0, { ty := 0x0B, vc := 2, dst := 1, tag := 4, arg := 3 }, by decide⟩,
   -- clause 5
   ⟨memberState, 0, 0, { ty := 0x0D, vc := 2, dst := 1, tag := 4, arg := 3 }, by decide⟩,
   -- clause 6
   ⟨keyedState, 0, 0, xferFrame, 5, by decide +kernel⟩,
   -- clause 7
   ⟨keyedState, 0, 0, 0, 1, (cmdFrame 1), cmd_passes _ _ rfl rfl (by decide +kernel), by decide +kernel⟩,
   -- clause 8
   ⟨keyedState, 0, 0, 0, 1, (cmdFrame 2), cmd_passes _ _ rfl rfl (by decide +kernel), by decide +kernel⟩,
   -- clause 9
   ⟨keyedState, 0, 0, 0, 1, (cmdFrame 3), cmd_passes _ _ rfl rfl (by decide +kernel), by decide +kernel⟩,
   -- clause 10
   ⟨(keyedState.put .lode 0 F.LODE_EVAC_EVAC 1), 0, 0, 0, 1, (cmdFrame 4), cmd_passes _ _ rfl rfl (by decide +kernel), by decide +kernel⟩⟩
theorem test_witness_ring_events : (∃ (s : State) (p sd : Nat), (s.runs = true) ∧ (64 ≤ s.ring.holdoverCount) ∧ (p = s.get .lode 0 F.LODE_STATE_TIMING_PORT - 1) ∧ (sd = s.get .lode 0 F.LODE_STATE_TIMING_SIDE) ∧ (sd < 2) ∧ (s.sideUp p (1 - sd) = true)) ∧
    (∃ (s : State) (p dir : Nat) (w : Stroke), (s.runs = true) ∧ (dir < 2) ∧ ((s.pair p).window = some w) ∧ (s.isMember p = true) ∧ (s.now = halfStart w dir) ∧ (s.sideUp p (1 - dir) = true) ∧ ((s.side p (1 - dir)).replay = []) ∧ ((s.pair p).probing = [])) ∧
    (∃ (s : State) (tag : Nat) (r : Req1), (s.runs = true) ∧ (s.ring.reqs = [r]) ∧ (r.tag = tag) ∧ (r.retried = false) ∧ (8 ≤ strokesSince r.sent s.now) ∧ (s.sideUp r.pair (1 - r.side) = true) ∧ (s.ringGet r.pair (1 - r.side) F.RING_LINK_WRAP = 0) ∧ (s.ring.egress = []) ∧ ((s.side r.pair (1 - r.side)).replay = []) ∧ ((s.pair r.pair).paused = []) ∧ (r.frame.payload = []) ∧ (r.frame.vc = 1) ∧ (r.frame.ty ≠ 0x15) ∧ (1 ≤ (s.side r.pair (1 - r.side)).credits.getD 1 0)) ∧
    (∃ (s : State) (tag : Nat) (r : Req1), (s.runs = true) ∧ (s.ring.reqs = [r]) ∧ (r.tag = tag) ∧ (64 ≤ strokesSince r.sent s.now) ∧ (r.frame.ty = 7)) ∧
    (∃ (s : State) (agent slab p : Nat), (s.runs = true) ∧ (slab < 2) ∧ (p < 2) ∧ (s.mayWrite agent .ring slab F.RING_CTL_REVIVE_0)) ∧
    (∃ (s : State), (s.runs = true) ∧ (s.bit .lode 0 F.LODE_EVAC_EVAC = true) ∧ (s.tier.lent = []) ∧ (s.countPages .spilled = 0) ∧ (s.tier.moves = []) ∧ (s.pairState 0 ≠ 7) ∧ (s.pairState 1 ≠ 7)) ∧
    (∃ (s : State), (s.runs = true) ∧ (s.bit .lode 0 F.LODE_EVAC_EVAC = true) ∧ (s.ring.evacLeft = some 0) ∧ (s.pairState 0 ≠ 7) ∧ (s.pairState 1 ≠ 7)) :=
  ⟨-- clause 1
   ⟨{ memberState with ring := { memberState.ring with holdoverCount := 64 } }, 0, 1, by decide⟩,
   -- clause 2
   ⟨{ memberState with ring := { memberState.ring with pairs := [(0, { window := some 4996 })] } }, 0, 1, (4996 : Stroke), by decide⟩,
   -- clause 3
   ⟨{ memberState with ring := { memberState.ring with reqs := [{ tag := 4, frame := { ty := 7, vc := 1, arg := 16 }, pair := 0, side := 1, sent := 4992 }] } }, 4, { tag := 4, frame := { ty := 7, vc := 1, arg := 16 }, pair := 0, side := 1, sent := 4992 }, by decide⟩,
   -- clause 4
   ⟨{ memberState with ring := { memberState.ring with reqs := [{ tag := 4, frame := { ty := 7, vc := 1, arg := 16 }, pair := 0, side := 1, sent := 4936 }] } }, 4, { tag := 4, frame := { ty := 7, vc := 1, arg := 16 }, pair := 0, side := 1, sent := 4936 }, by decide⟩,
   -- clause 5
   ⟨((memberState.put .ring 1 F.RING_LINK_PERM_DOWN 1 1).put .ring 1 F.RING_BUCKET_LEVEL 99 1), 1, 1, 1, by decide⟩,
   -- clause 6
   ⟨(runState.put .lode 0 F.LODE_EVAC_EVAC 1), by decide⟩,
   -- clause 7
   ⟨{ (runState.put .lode 0 F.LODE_EVAC_EVAC 1) with ring := { runState.ring with evacLeft := some 0 } }, by decide⟩⟩
theorem test_witness_ring_spill : (∃ (s : State) (p sd q rs : Nat) (f : Frame) (g : Nat), (s.runs = true) ∧ (s.sideTakes p sd = true) ∧ (f.bcast = false) ∧ (f.dst = s.addr) ∧ (s.bit .lode 0 F.LODE_ID_ADDR_VALID = true) ∧ (s.resting = false) ∧ (g = f.arg % 8 + 1) ∧ (s.mayGrant g = true) ∧ (g ≤ s.poolFree) ∧ (s.handleUsed s.ring.nextHandle = false) ∧ (s.ring.nextHandle < 2 ^ 22) ∧ (q = s.pairFor f.src) ∧ (rs = (s.pair q).routeSide (s.posOn q f.src)) ∧ (s.sideUp q rs = true) ∧ (s.ringGet q rs F.RING_LINK_WRAP = 0) ∧ (s.ring.egress = []) ∧ ((s.side q rs).replay = []) ∧ ((s.pair q).paused = []) ∧ (16 ≤ (s.side q rs).credits.getD 2 0)) ∧
    (∃ (s : State) (p sd : Nat) (f : Frame) (j : SpillJob) (m : Move), (s.runs = true) ∧ (s.sideTakes p sd = true) ∧ (f.bcast = false) ∧ (f.dst = s.addr) ∧ (s.bit .lode 0 F.LODE_ID_ADDR_VALID = true) ∧ (s.resting = false) ∧ (s.ring.spills = [j]) ∧ (j.tag = f.tag) ∧ (j.donor = f.src) ∧ (j.handle = none) ∧ (f.arg < 2 ^ 22) ∧ (sget false s.crypto.ledgerUse f.arg = false) ∧ (s.moveOf j.page = some m)) ∧
    (∃ (s : State) (p sd : Nat) (f : Frame) (x : Granted), (s.runs = true) ∧ (s.sideTakes p sd = true) ∧ (f.bcast = false) ∧ (f.dst = s.addr) ∧ (s.bit .lode 0 F.LODE_ID_ADDR_VALID = true) ∧ (s.resting = false) ∧ (s.ring.granted = [x]) ∧ (x.handle = f.arg % 2 ^ 22) ∧ (x.borrower = f.src) ∧ (x.granules = 1) ∧ (x.got = []) ∧ (bits f.arg 22 3 = 0) ∧ (s.bit .tier 0 F.HDR_STATUS_COMMIT_PENDING = false)) ∧
    (∃ (s : State) (p sd : Nat) (f : Frame) (j : SpillJob) (m : Move), (s.runs = true) ∧ (s.sideTakes p sd = true) ∧ (f.bcast = false) ∧ (f.dst = s.addr) ∧ (s.bit .lode 0 F.LODE_ID_ADDR_VALID = true) ∧ (s.resting = false) ∧ (s.ring.spills = [j]) ∧ (j.handle = some (f.arg % 2 ^ 22)) ∧ (j.donor = f.src) ∧ (s.tier.moves = [m]) ∧ (m.page = j.page) ∧ (m.kind = .spill) ∧ (m.src = .deep) ∧ (s.hub.slots = []) ∧ (s.tier.deferredPins = []) ∧ (s.home.reads = []) ∧ (s.home.queue = []) ∧ (s.home.senders = []) ∧ (s.home.waiting = []) ∧ (s.ring.freeing = [])) ∧
    (∃ (s : State) (p sd q rs : Nat) (f : Frame) (x : Lent) (d : List Byte), (s.runs = true) ∧ (s.sideTakes p sd = true) ∧ (f.bcast = false) ∧ (f.dst = s.addr) ∧ (s.bit .lode 0 F.LODE_ID_ADDR_VALID = true) ∧ (s.resting = false) ∧ (s.tier.lent = [x]) ∧ (x.handle = f.arg % 2 ^ 22) ∧ (x.borrower = f.src) ∧ (x.granules = 1) ∧ (x.data = [d]) ∧ (d.length ≤ 640) ∧ (f.arg.testBit 22 = false) ∧ (q = s.pairFor f.src) ∧ (rs = (s.pair q).routeSide (s.posOn q f.src)) ∧ (s.sideUp q rs = true) ∧ (s.ringGet q rs F.RING_LINK_WRAP = 0) ∧ (s.ring.egress = []) ∧ ((s.side q rs).replay = []) ∧ ((s.pair q).paused = []) ∧ (64 ≤ (s.side q rs).credits.getD 2 0)) ∧
    (∃ (s : State) (p sd : Nat) (f : Frame) (x : SpillFetch), (s.runs = true) ∧ (s.sideTakes p sd = true) ∧ (f.bcast = false) ∧ (f.dst = s.addr) ∧ (s.bit .lode 0 F.LODE_ID_ADDR_VALID = true) ∧ (s.resting = false) ∧ (s.ring.fetches = [x]) ∧ (x.tag = f.tag) ∧ (x.donor = f.src) ∧ (x.handle = f.arg % 2 ^ 22) ∧ (x.got = []) ∧ (bits f.arg 25 3 = 1)) ∧
    (∃ (s : State) (p sd : Nat) (f : Frame) (x : Lent), (s.runs = true) ∧ (s.sideTakes p sd = true) ∧ (f.bcast = false) ∧ (f.dst = s.addr) ∧ (s.bit .lode 0 F.LODE_ID_ADDR_VALID = true) ∧ (s.resting = false) ∧ (s.tier.lent = [x]) ∧ (x.handle = f.arg % 2 ^ 22) ∧ (x.borrower = f.src) ∧ (s.ring.granted = []) ∧ (s.ring.declined = [])) ∧
    (∃ (s : State) (p sd : Nat) (f : Frame) (x : Granted), (s.runs = true) ∧ (s.sideTakes p sd = true) ∧ (f.bcast = false) ∧ (f.dst = s.addr) ∧ (s.bit .lode 0 F.LODE_ID_ADDR_VALID = true) ∧ (s.resting = false) ∧ (s.ring.granted = [x]) ∧ (x.handle = f.arg % 2 ^ 22) ∧ (x.borrower = f.src)) ∧
    (∃ (s : State) (p sd : Nat) (f : Frame) (page : Nat) (e : PEntry), (s.runs = true) ∧ (s.sideTakes p sd = true) ∧ (f.bcast = false) ∧ (f.dst = s.addr) ∧ (s.bit .lode 0 F.LODE_ID_ADDR_VALID = true) ∧ (s.resting = false) ∧ (s.tier.pmap = [(page, e)]) ∧ (e.st = .spilled) ∧ (e.handle = f.arg % 2 ^ 22) ∧ (e.donor = f.src) ∧ (s.tier.moves = [])) :=
  ⟨-- clause 1
   ⟨donorState, 0, 0, 0, 1, { ty := 0x10, vc := 1, dst := 1, src := 5, tag := 3, arg := 1 }, 2, by decide⟩,
   -- clause 2
   ⟨lendeeState none, 0, 0, { ty := 0x11, vc := 2, dst := 1, src := 5, tag := 3, arg := 12 }, { page := 0, tag := 3, donor := 5, granules := 1 }, { page := 0, kind := .spill, src := .deep, vein := 0, paid := true, donor := 5, image := List.replicate 512 0 }, by decide +kernel⟩,
   -- clause 3
   ⟨{ donorState with ring := { donorState.ring with granted := [{ handle := 4, borrower := 5, granules := 1, tag := 3 }] } }, 0, 0, { ty := 0x12, vc := 3, dst := 1, src := 5, tag := 3, arg := 4, payload := List.replicate 576 7 }, { handle := 4, borrower := 5, granules := 1, tag := 3 }, by decide⟩,
   -- clause 4
   ⟨lendeeState (some 12), 0, 0, { ty := 0x13, vc := 2, dst := 1, src := 5, tag := 3, arg := 12 }, { page := 0, tag := 3, donor := 5, granules := 1, handle := some 12 }, { page := 0, kind := .spill, src := .deep, vein := 0, paid := true, donor := 5, image := List.replicate 512 0 }, by decide +kernel⟩,
   -- clause 5
   ⟨{ donorState with tier := { donorState.tier with lent := [{ handle := 4, borrower := 5, granules := 1, data := [List.replicate 576 7] }] } }, 0, 0, 0, 1, { ty := 0x14, vc := 1, dst := 1, src := 5, tag := 3, arg := 4 }, { handle := 4, borrower := 5, granules := 1, data := [List.replicate 576 7] }, (List.replicate 576 7), by decide +kernel⟩,
   -- clause 6
   ⟨{ memberState with ring := { memberState.ring with fetches := [{ page := 0, tag := 3, handle := 4, donor := 5, id := 7, stamp := 4999 }] } }, 0, 0, { ty := 0x15, vc := 2, dst := 1, src := 5, tag := 3, arg := spillArg 4 1 2, payload := List.replicate 576 7 }, { page := 0, tag := 3, handle := 4, donor := 5, id := 7, stamp := 4999 }, by decide⟩,
   -- clause 7
   ⟨{ donorState with tier := { donorState.tier with lent := [{ handle := 4, borrower := 5, granules := 1 }] } }, 0, 0, { ty := 0x16, vc := 1, dst := 1, src := 5, tag := 0, arg := 4 }, { handle := 4, borrower := 5, granules := 1 }, by decide⟩,
   -- clause 8
   ⟨{ donorState with ring := { donorState.ring with granted := [{ handle := 4, borrower := 5, granules := 1, tag := 3 }] } }, 0, 0, { ty := 0x17, vc := 1, dst := 1, src := 5, tag := 3, arg := 4 }, { handle := 4, borrower := 5, granules := 1, tag := 3 }, by decide⟩,
   -- clause 9
   ⟨{ memberState with tier := { memberState.tier with pmap := [(3, { st := .spilled, handle := 4, donor := 5, ctx := 1 })] } }, 0, 0, { ty := 0x18, vc := 1, dst := 1, src := 5, arg := 4 }, 3, { st := .spilled, handle := 4, donor := 5, ctx := 1 }, by decide⟩⟩
theorem test_witness_rest_and_meters : (∃ (s : State) (m a b : Nat) (k : BitVec 64), (s.runs = true) ∧ (s.isHead 0 = true) ∧ (s.now.toNat % 2048 = 16 + 96 * s.divideDepth) ∧ (s.ring.divided = false) ∧ ((s.pair 0).held = [(m, k)]) ∧ (0 < m) ∧ (m < 64) ∧ (a = min 0xFFFFFFFE (s.get .ledg 0 F.LEDG_USED_INPUT_USED + s.get .ledg 0 F.LEDG_DEFICIT_DEFICIT)) ∧ (b = (match sfind (s.pair 0).reports m with | some e => if (fieldB e 1 1).testBit 0 then min 0xFFFFFFFE (fieldB e 4 4 + fieldB e 8 4) else s.get .ledg 0 F.LEDG_NEW_REQ_REQ | none => s.get .ledg 0 F.LEDG_NEW_REQ_REQ))) ∧
    (∃ (s : State) (ch reading : Nat), (s.runs = true) ∧ (ch ≤ 12) ∧ (reading < 2 ^ 32) ∧ (s.energy.request = some ch)) ∧
    (∃ (s : State) (ch reading prev : Nat), (s.runs = true) ∧ (reading < 2 ^ 32) ∧ (ch = (if s.restState = 4 then 0 else meterCh s.now)) ∧ (ch < 9) ∧ (prev = (sget none s.energy.last ch).getD s.energy.opened)) ∧
    (∃ (s : State) (reading : Nat), (s.runs = true) ∧ (reading < 2 ^ 32) ∧ (s.restState ≠ 4) ∧ (meterCh s.now = 9)) ∧
    (∃ (s : State) (agent ch : Nat), (s.runs = true) ∧ (s.mayWrite agent .ledg 0 F.LEDG_SENSOR_REQ_GO) ∧ (s.bit .ledg 0 F.LEDG_STATUS_REQ_BUSY = false) ∧ (ch ≤ 12)) ∧
    (∃ (s : State) (agent : Nat), (s.runs = true) ∧ (s.mayWrite agent .rest 0 F.REST_CTL_ENTER) ∧ (s.restState = 0) ∧ (s.restCheck = none) ∧ (s.pwrOf 31 = none)) ∧
    (∃ (s : State) (agent reason who unit : Nat), (s.runs = true) ∧ (s.mayWrite agent .rest 0 F.REST_CTL_ENTER) ∧ (s.restState = 0) ∧ (s.restCheck = some (reason, who, unit))) ∧
    (∃ (s : State), (s.runs = true) ∧ (s.restState = 3) ∧ (s.busyBlock = none) ∧ (strokesSince s.rest.drainFrom s.now ≤ s.drainMax)) ∧
    (∃ (s : State) (b : Block) (n : Nat), (s.runs = true) ∧ (s.restState = 3) ∧ (s.rest.entering = false) ∧ (s.drainMax ≤ strokesSince s.rest.drainFrom s.now) ∧ (s.busyBlock = some (b, n))) ∧
    (∃ (s : State) (readings : List Nat), (s.runs = true) ∧ (s.restState = 4) ∧ (s.bit .rest 0 F.REST_CFG_SKETCH_EN = true) ∧ (s.now.toNat % max 1 (s.get .rest 0 F.REST_CFG_SKETCH_PERIOD) = 3) ∧ (readings.length = 8) ∧ (∀ n < 8, s.crosses n (readings.getD n 0) = false) ∧ (s.ring.wakeLatch = false)) ∧
    (∃ (s : State) (readings : List Nat) (n : Nat), (s.runs = true) ∧ (s.restState = 4) ∧ (s.bit .rest 0 F.REST_CFG_SKETCH_EN = true) ∧ (s.now.toNat % max 1 (s.get .rest 0 F.REST_CFG_SKETCH_PERIOD) = 3) ∧ (readings.length = 8) ∧ ((List.range 8).find? (fun i => s.crosses i (readings.getD i 0)) = some n)) ∧
    (∃ (s : State) (readings : List Nat), (s.runs = true) ∧ (s.restState = 4) ∧ (s.bit .rest 0 F.REST_CFG_SKETCH_EN = true) ∧ (s.now.toNat % max 1 (s.get .rest 0 F.REST_CFG_SKETCH_PERIOD) = 3) ∧ (readings.length = 8) ∧ (∀ n < 8, s.crosses n (readings.getD n 0) = false) ∧ (s.ring.wakeLatch = true)) ∧
    (∃ (s : State) (waker : Nat), (s.runs = true) ∧ (isHost waker = true ∨ waker ∈ [0x08, 0x43, 0x46]) ∧ (s.restState = 4)) ∧
    (∃ (s : State) (waker : Nat), (s.runs = true) ∧ (isHost waker = true ∨ waker ∈ [0x08, 0x43, 0x46]) ∧ (1 ≤ s.restState) ∧ (s.restState ≤ 3)) ∧
    (∃ (s : State), (s.runs = true) ∧ (s.restState = 5)) :=
  ⟨-- clause 1
   ⟨divideState, 1, 100, 40, 7, by decide⟩,
   -- clause 2
   ⟨{ runState with energy := { runState.energy with request := some 12 } }, 12, 0xFFFFFFFF, by decide⟩,
   -- clause 3
   ⟨pollState, 0, 0x00300040, 0, by decide⟩,
   -- clause 4
   ⟨{ runState with tb := { runState.tb with stroke := 11 } }, 0x190, by decide⟩,
   -- clause 5
   ⟨runState, 1, 12, by decide⟩,
   -- clause 6
   ⟨runState, 1, by decide⟩,
   -- clause 7
   ⟨{ runState with dipts := [(2, { st := .solo })] }, 1, 2, 0x4C, 2, by decide⟩,
   -- clause 8
   ⟨drainState, by decide⟩,
   -- clause 9
   ⟨{ drainState with energy := { drainState.energy with request := some 3 }, tb := { drainState.tb with stroke := 65536 } }, .ledg, 0, by decide⟩,
   -- clause 10
   ⟨sampleState, ([40000, 0, 0, 0, 0, 0, 0, 0] : List Nat), by decide⟩,
   -- clause 11
   ⟨sampleState, ([40000, 0, 0, 0, 0, 0, 0, 1520] : List Nat), 7, by decide⟩,
   -- clause 12
   ⟨{ sampleState with ring := { sampleState.ring with wakeLatch := true } }, ([40000, 0, 0, 0, 0, 0, 0, 0] : List Nat), by decide⟩,
   -- clause 13
   ⟨sampleState, 0x1F, by decide⟩,
   -- clause 14
   ⟨drainState, 8, by decide⟩,
   -- clause 15
   ⟨wakingState, by decide⟩⟩
theorem test_witness_secure_services : (∃ (s : State) (slot : Nat), (s.runs = true) ∧ (s.procUp = true) ∧ (slot < 8)) ∧
    (∃ (s : State) (slot : Nat), (s.runs = true) ∧ (s.procUp = true) ∧ (8 ≤ slot)) ∧
    (∃ (s : State) (slot : Nat), (s.runs = true) ∧ (s.procUp = true) ∧ (5 ≤ slot) ∧ (slot < 8)) ∧
    (∃ (s : State) (slot : Nat), (s.runs = true) ∧ (s.procUp = true) ∧ (slot < 5 ∨ 8 ≤ slot)) ∧
    (∃ (s : State) (block : Nat), (s.runs = true) ∧ (s.procUp = true) ∧ (s.bit .own 0 F.OWN_CMD_STATUS_BUSY = false) ∧ (block ≤ 17) ∧ (s.present (ownSlab block) = true) ∧ (s.ownWorld block ≠ 1)) ∧
    (∃ (s : State) (block : Nat), (s.runs = true) ∧ (s.procUp = true) ∧ (s.bit .own 0 F.OWN_CMD_STATUS_BUSY = false) ∧ (block ≤ 17) ∧ (s.present (ownSlab block) = true) ∧ (s.ownWorld block ≠ 0)) ∧
    (∃ (s : State), (s.runs = true) ∧ (s.procUp = true)) ∧
    (∃ (s : State), (s.runs = true) ∧ (s.procUp = true)) ∧
    (∃ (s : State) (ctx mask : Nat), (s.runs = true) ∧ (s.procUp = true) ∧ (s.bit .keys s.primary F.KEYS_STATUS_BUSY = false) ∧ (0 < ctx) ∧ (ctx < 2 ^ 14) ∧ (mask < 2 ^ 16) ∧ (s.ctxBusy ctx = false)) ∧
    (∃ (s : State), (s.runs = true) ∧ (s.procUp = true)) ∧
    (∃ (s : State) (ctx : Nat), (s.runs = true) ∧ (s.procUp = true) ∧ (s.bit .keys s.primary F.KEYS_STATUS_BUSY = false) ∧ (0 < ctx) ∧ (ctx < 2 ^ 14) ∧ ((s.ctx ctx).valid = true)) ∧
    (∃ (s : State), (s.runs = true) ∧ (s.procUp = true)) ∧
    (∃ (s : State), (s.runs = true) ∧ (s.procUp = true)) ∧
    (∃ (s : State), (s.runs = true) ∧ (s.procUp = true)) ∧
    (∃ (s : State) (half first : BitVec 384) (n : BitVec 64) (ok : Bool), (ok = verifySig 1 (leBytes 8 Config.serial.toNat ++ leBytes 8 n.toNat) (leBytes 48 first.toNat ++ leBytes 48 half.toNat)) ∧ (s.runs = true) ∧ (s.procUp = true) ∧ (s.secure.nonce = some n) ∧ (s.secure.part0 = some first)) ∧
    (∃ (s : State) (part : Nat), (s.runs = true) ∧ (s.procUp = true) ∧ (2 ≤ part)) ∧
    (∃ (s : State), (s.runs = true) ∧ (s.procUp = true) ∧ (s.secure.nonce = none ∨ s.secure.part0 = none)) ∧
    (∃ (s : State) (agent slab : Nat), (s.runs = true) ∧ (s.mayWrite agent .secp slab F.SECP_DEBUG_OPEN) ∧ (s.secure.debugAuth = true)) ∧
    (∃ (s : State) (agent slab : Nat), (s.runs = true) ∧ (s.mayWrite agent .secp slab F.SECP_DEBUG_OPEN) ∧ (s.secure.debugAuth = false)) ∧
    (∃ (s : State) (agent slab slot : Nat) (digest : BitVec 384), (s.runs = true) ∧ (s.mayWrite agent .secp slab F.SECP_MEAS_SEL_EXTEND) ∧ (slab < 2) ∧ (slot < 8) ∧ (digest = BitVec.ofNat 384 (leNat ((List.range 12).flatMap (fun w => leBytes 4 (s.get .secp slab F.SECP_MEAS_IN_DIGEST w)))))) ∧
    (∃ (s : State) (index : Nat) (vs : List (BitVec 384)), (s.runs = true) ∧ (s.procUp = true) ∧ (vs = (if index = 0xFF then (List.range 8).map s.measSlot else if 1 ≤ index && index ≤ 8 then [s.measSlot (index - 1)] else []))) ∧
    (∃ (s : State) (id : Nat), (s.runs = true) ∧ (s.procUp = true) ∧ (id ≤ 15)) ∧
    (∃ (s : State), (s.runs = true) ∧ (s.procUp = true)) :=
  ⟨-- clause 1
   ⟨runState, 4, by decide⟩,
   -- clause 2
   ⟨runState, 8, by decide⟩,
   -- clause 3
   ⟨runState, 5, by decide⟩,
   -- clause 4
   ⟨runState, 4, by decide⟩,
   -- clause 5
   ⟨runState, 17, by decide⟩,
   -- clause 6
   ⟨(runState.put .ofld 1 F.HDR_OWNER_WORLD 1), 17, by decide⟩,
   -- clause 7
   ⟨runState, by decide⟩,
   -- clause 8
   ⟨runState, by decide⟩,
   -- clause 9
   ⟨keyState, 5, 0xFFFF, by decide⟩,
   -- clause 10
   ⟨keyState, by decide⟩,
   -- clause 11
   ⟨keyState, 6, by decide⟩,
   -- clause 12
   ⟨keyState, by decide⟩,
   -- clause 13
   ⟨runState, by decide⟩,
   -- clause 14
   ⟨runState, by decide⟩,
   -- clause 15
   ⟨{ runState with secure := { runState.secure with nonce := some 5, part0 := some 9 } }, (9 : BitVec 384), (9 : BitVec 384), (5 : BitVec 64), (verifySig 1 (leBytes 8 Config.serial.toNat ++ leBytes 8 (5 : BitVec 64).toNat) (leBytes 48 (9 : BitVec 384).toNat ++ leBytes 48 (9 : BitVec 384).toNat)), rfl, by decide +kernel⟩,
   -- clause 16
   ⟨runState, 2, by decide⟩,
   -- clause 17
   ⟨runState, by decide⟩,
   -- clause 18
   ⟨{ runState with secure := { runState.secure with debugAuth := true } }, 3, 0, by decide⟩,
   -- clause 19
   ⟨runState, 3, 1, by decide⟩,
   -- clause 20
   ⟨(runState.put .secp 0 F.SECP_MEAS_IN_DIGEST 7 11), 3, 0, 7, 0x70000000000000000000000000000000000000000000000000000000000000000000000000000000000000000#384, by decide⟩,
   -- clause 21
   ⟨runState, 8, [runState.measSlot 7], by decide⟩,
   -- clause 22
   ⟨runState, 15, by decide⟩,
   -- clause 23
   ⟨runState, by decide⟩⟩
theorem test_witness_hand_overs_and_power : (∃ (s : State) (agent block : Nat) (toSecure : Bool), (s.runs = true) ∧ (s.mayWrite agent .own 0 F.OWN_CMD_GO) ∧ (s.bit .own 0 F.OWN_CMD_STATUS_BUSY = false) ∧ (block ≤ 17) ∧ (s.present (ownSlab block) = true) ∧ (s.ownWorld block ≠ b2n toSecure)) ∧
    (∃ (s : State) (agent block : Nat), (s.runs = true) ∧ (s.mayWrite agent .own 0 F.OWN_CMD_GO) ∧ (s.bit .own 0 F.OWN_CMD_STATUS_BUSY = false) ∧ (17 < block)) ∧
    (∃ (s : State) (agent block : Nat) (toSecure : Bool), (s.runs = true) ∧ (s.mayWrite agent .own 0 F.OWN_CMD_GO) ∧ (s.bit .own 0 F.OWN_CMD_STATUS_BUSY = false) ∧ (block ≤ 17) ∧ (s.present (ownSlab block) = true) ∧ (s.ownWorld block = b2n toSecure)) ∧
    (∃ (s : State) (h : Handover), (s.runs = true) ∧ (s.secure.handover = some h) ∧ (h.stage = .handing) ∧ (s.ownIdle h.block = true) ∧ (strokesSince h.edge s.now ≤ s.handMax)) ∧
    (∃ (s : State) (h : Handover), (s.runs = true) ∧ (s.secure.handover = some h) ∧ (h.stage = .handing) ∧ (s.ownIdle h.block = false) ∧ (s.handMax ≤ strokesSince h.edge s.now)) ∧
    (∃ (s : State) (h : Handover), (s.runs = true) ∧ (s.secure.handover = some h) ∧ (h.stage = .flushing)) ∧
    (∃ (s : State) (h : Handover), (s.runs = true) ∧ (s.secure.handover = some h) ∧ (h.stage = .resetting) ∧ (pg (ownBlock h.block).1 (ownBlock h.block).2 ∉ s.blockResets)) ∧
    (∃ (s : State) (agent block action : Nat), (s.runs = true) ∧ (block ≤ 17) ∧ (isSecp agent = false) ∧ (action = 1 ∨ action = 2) ∧ (s.ownWorld block ≠ 0) ∧ (s.present (ownSlab block) = true) ∧ (s.pwrOf block = none)) ∧
    (∃ (s : State) (agent block action : Nat) (p : PwrReq), (s.runs = true) ∧ (block ≤ 17) ∧ (isSecp agent = false) ∧ (action = 1 ∨ action = 2) ∧ (s.ownWorld block ≠ 0) ∧ (s.present (ownSlab block) = true) ∧ (s.pwrOf block = some p)) ∧
    (∃ (s : State) (agent block : Nat) (p : PwrReq), (s.runs = true) ∧ (s.mayWrite agent .own 0 F.OWN_PWR_ANSWER_GO) ∧ (s.pwrOf block = some p) ∧ (p.granted = false) ∧ (s.pwrAge p < s.deferMax)) ∧
    (∃ (s : State) (agent block : Nat) (p : PwrReq), (s.runs = true) ∧ (s.mayWrite agent .own 0 F.OWN_PWR_ANSWER_GO) ∧ (s.pwrOf block = some p) ∧ (p.granted = false) ∧ (s.pwrAge p < s.deferMax) ∧ (block ≤ 17) ∧ (s.gateOn block = none)) ∧
    (∃ (s : State) (agent : Nat) (p : PwrReq), (s.runs = true) ∧ (s.mayWrite agent .own 0 F.OWN_PWR_ANSWER_GO) ∧ (s.pwrOf 31 = some p) ∧ (p.granted = false) ∧ (s.pwrAge p < s.deferMax)) ∧
    (∃ (s : State) (block : Nat) (p : PwrReq), (s.runs = true) ∧ (s.pwrOf block = some p) ∧ (p.granted = false) ∧ (s.deferMax ≤ s.pwrAge p) ∧ (block ≤ 17) ∧ (s.gateOn block = none)) ∧
    (∃ (s : State) (agent slab period : Nat), (s.runs = true) ∧ (s.mayWrite agent .secp slab F.SECP_WDOG_CTL_ENABLE) ∧ (slab < 2) ∧ (period < 256)) ∧
    (∃ (s : State) (agent slab : Nat), (s.runs = true) ∧ (s.mayWrite agent .secp slab F.SECP_WDOG_KICK_KICK)) ∧
    (∃ (s : State) (l : Nat × Nat), (s.runs = true) ∧ (s.secure.wdogDue = true) ∧ (s.wireOk { cls := 0x1B, block := Block.id .secp, inst := s.primary, loc := locOf .secp s.primary } = true) ∧ (l = (s.nextSeq, 3))) ∧
    (∃ (s : State), (s.runs = true) ∧ (s.secure.mirroring = true) ∧ (s.boot.absent = [])) :=
  ⟨-- clause 1
   ⟨runState, 3, 17, true, by decide⟩,
   -- clause 2
   ⟨runState, 3, 18, by decide⟩,
   -- clause 3
   ⟨runState, 3, 0, false, by decide⟩,
   -- clause 4
   ⟨(handState .handing 17), { block := 17, toSecure := true, stage := .handing }, by decide⟩,
   -- clause 5
   ⟨busyHand, { block := 2, toSecure := true, stage := .handing }, by decide⟩,
   -- clause 6
   ⟨(handState .flushing 17), { block := 17, toSecure := true, stage := .flushing }, by decide⟩,
   -- clause 7
   ⟨(handState .resetting 15), { block := 15, toSecure := true, stage := .resetting }, by decide⟩,
   -- clause 8
   ⟨secureBlock, 1, 17, 2, by decide⟩,
   -- clause 9
   ⟨askedBlock, 1, 17, 2, askedPwr, by decide⟩,
   -- clause 10
   ⟨askedBlock, 3, 17, askedPwr, by decide⟩,
   -- clause 11
   ⟨askedBlock, 3, 17, askedPwr, by decide⟩,
   -- clause 12
   ⟨{ runState.put .rest 0 F.REST_STATUS_STATE 2 with secure := { runState.secure with pwr := [{ askedPwr with block := 31, action := 3 }] } }, 3, { askedPwr with block := 31, action := 3 }, by decide⟩,
   -- clause 13
   ⟨{ secureBlock with secure := { secureBlock.secure with pwr := [{ askedPwr with sittings := 255 }] } }, 17, { askedPwr with sittings := 255 }, by decide⟩,
   -- clause 14
   ⟨runState, 3, 1, 255, by decide⟩,
   -- clause 15
   ⟨(runState.put .secp 0 F.SECP_WDOG_STATUS_ELAPSED 3), 3, 1, by decide⟩,
   -- clause 16
   ⟨{ runState with secure := { runState.secure with wdogDue := true } }, (0, 3), by decide⟩,
   -- clause 17
   ⟨{ runState with secure := { runState.secure with mirroring := true } }, by decide⟩⟩
theorem test_witness_switch_and_power_good : (∃ (s : State), (s.sup.st = .ramp ∨ s.sup.st = .on)) ∧
    (∃ (s : State), (s.sup.st = .limit)) ∧
    (∃ (s : State), (s.sup.st = .ramp) ∧ (s.sup.switchOn = true) ∧ (s.sup.inputOk = true) ∧ (s.sup.timerRun = false)) ∧
    (∃ (s : State), (s.sup.st.closed = true) ∧ (1 ≤ s.sup.step) ∧ (s.sup.step ≤ 6)) :=
  ⟨-- clause 1
   ⟨State.reset, by decide⟩,
   -- clause 2
   ⟨limitState, by decide⟩,
   -- clause 3
   ⟨rampState, by decide⟩,
   -- clause 4
   ⟨stepState 6, by decide⟩⟩
theorem test_witness_front_end_faults : (∃ (s : State), (s.sup.st = .limit)) ∧
    (∃ (s : State), (s.sup.st.closed = true)) ∧
    (∃ (s : State), (s.sup.st.closed = true) ∧ (0 < s.sup.step)) ∧
    (∃ (s : State), (s.sup.auxUp = true) ∧ (s.sup.switchOn = false) ∧ (s.sup.st ≠ .fetFault)) ∧
    (∃ (s : State), (s.sup.st.closed = true)) :=
  ⟨-- clause 1
   ⟨limitState, by decide⟩,
   -- clause 2
   ⟨sixthState, by decide⟩,
   -- clause 3
   ⟨State.reset, by decide⟩,
   -- clause 4
   ⟨waitState, by decide⟩,
   -- clause 5
   ⟨State.reset, by decide⟩⟩
theorem test_witness_supervisor_states : (∃ (s : State), (s.sup.auxUp = false) ∧ (s.sup.mem.fetBad = false) ∧ (s.sup.mem.latched = false) ∧ (s.sup.mem.coolLeft = 0) ∧ (s.sup.en = true)) ∧
    (∃ (s : State), (s.sup.st = .waitEn) ∧ (s.sup.inputOk = true)) ∧
    (∃ (s : State) (lowMs : Nat), (s.sup.st = .latched) ∧ (10 ≤ lowMs) ∧ (s.sup.inputOk = true)) ∧
    (∃ (s : State), (s.sup.st.closed = true)) ∧
    (∃ (s : State), (s.sup.auxUp = true) ∧ (s.sup.st = .waitEn) ∧ (s.sup.en = true)) ∧
    (∃ (s : State), (s.sup.st = .cool)) ∧
    (∃ (s : State), (s.sup.st = .on) ∧ (s.sup.pg = true) ∧ (s.sup.timerRun = false)) ∧
    (∃ (s : State), (s.sup.auxUp = false ∨ s.sup.st = .cool ∨ s.sup.st = .latched)) :=
  ⟨-- clause 1
   ⟨darkState, by decide⟩,
   -- clause 3
   ⟨waitState, by decide⟩,
   -- clause 4
   ⟨latchedState, 10, by decide⟩,
   -- clause 5
   ⟨State.reset, by decide⟩,
   -- clause 6
   ⟨{ waitState with sup := { waitState.sup with en := true, inputOk := false } }, by decide⟩,
   -- clause 7
   ⟨coolState, by decide⟩,
   -- clause 8
   ⟨{ State.reset with sup := { State.reset.sup with count := 3 } }, by decide⟩,
   -- clause 9
   ⟨coolState, by decide⟩⟩
theorem test_witness_faults_and_clocks : (∃ (s : State) (r : Rep) (lvl : Nat), (s.runs = true) ∧ (s.wireOk r = true) ∧ (r.checker = false) ∧ (isAlarmRep r = false) ∧ (r.cls ∉ [0x02, 0x03, 0x07, 0x14, 0x19]) ∧ (lvl = (if (sget none s.faults.pend r.cls).isSome then classBase r + 1 else classBase r)) ∧ (lvl ≤ 1) ∧ (s.home.queue = []) ∧ (s.home.senders = []) ∧ (s.home.waiting = []) ∧ (s.home.unknown = []) ∧ (s.ring.freeing = [])) ∧
    (∃ (s : State) (block inst loc : Nat) (b : Block), (s.runs = true) ∧ (blockOfId block = some b) ∧ (b ∉ [Block.chan, .port, .ring, .qeng, .ofld]) ∧ ((block, inst, loc) ∉ s.faults.broken) ∧ (inst < 256) ∧ (loc < 4) ∧ (s.home.queue = []) ∧ (s.home.senders = []) ∧ (s.home.waiting = []) ∧ (s.home.unknown = []) ∧ (s.ring.freeing = [])) ∧
    (∃ (s : State) (block n loc : Nat), (s.runs = true) ∧ (blockOfId block = some .chan) ∧ ((block, n, loc) ∉ s.faults.broken) ∧ (sget none s.faults.pend 0x1E = none) ∧ (s.retOfs (n / 8) = some (n % 8)) ∧ (n < 128) ∧ (s.home.queue = []) ∧ (s.home.senders = []) ∧ (s.home.waiting = []) ∧ (s.home.unknown = []) ∧ (s.ring.freeing = [])) ∧
    (∃ (s : State) (agent cls n l : Nat), (s.runs = true) ∧ (s.mayWrite agent .flt 0 F.FLT_ACK_CLASS) ∧ (sget none s.faults.pend cls = some (n, l))) ∧
    (∃ (s : State) (agent : Nat), (s.runs = true) ∧ (s.mayWrite agent .flt 0 F.FLT_ACK_CLASS)) ∧
    (∃ (s : State) (slab g lvl : Nat), (s.runs = true) ∧ (slab < 2) ∧ (g < 18) ∧ (lvl = min 0xFFFF (s.get .seam slab F.SEAM_BUCKET_LEVEL g + 256 * s.get .seam slab F.SEAM_BUCKET_CFG_W_CRC)) ∧ (lvl < 256 * s.get .seam slab F.SEAM_BUCKET_CFG_THRESH ∨ s.bit .seam slab F.SEAM_BUCKET_PERMANENT g = true)) ∧
    (∃ (s : State) (slab g lvl : Nat), (s.runs = true) ∧ (slab < 2) ∧ (g < 18) ∧ (lvl = min 0xFFFF (s.get .seam slab F.SEAM_BUCKET_LEVEL g + 256 * s.get .seam slab F.SEAM_BUCKET_CFG_W_CRC)) ∧ (256 * s.get .seam slab F.SEAM_BUCKET_CFG_THRESH ≤ lvl) ∧ (s.bit .seam slab F.SEAM_BUCKET_PERMANENT g = false) ∧ (s.faults.broken = [])) ∧
    (∃ (s : State) (slab g lvl : Nat), (s.runs = true) ∧ (slab < 2) ∧ (g < 18) ∧ (lvl = min 0xFFFF (s.get .seam slab F.SEAM_BUCKET_LEVEL g + 256 * s.get .seam slab F.SEAM_BUCKET_CFG_W_TIMEOUT)) ∧ (lvl < 256 * s.get .seam slab F.SEAM_BUCKET_CFG_THRESH ∨ s.bit .seam slab F.SEAM_BUCKET_PERMANENT g = true)) ∧
    (∃ (s : State) (slab g lvl : Nat), (s.runs = true) ∧ (slab < 2) ∧ (g < 18) ∧ (lvl = min 0xFFFF (s.get .seam slab F.SEAM_BUCKET_LEVEL g + 256 * s.get .seam slab F.SEAM_BUCKET_CFG_W_TIMEOUT)) ∧ (256 * s.get .seam slab F.SEAM_BUCKET_CFG_THRESH ≤ lvl) ∧ (s.bit .seam slab F.SEAM_BUCKET_PERMANENT g = false) ∧ (s.faults.broken = [])) ∧
    (∃ (s : State) (slab g lvl : Nat), (s.runs = true) ∧ (slab < 2) ∧ (g < 18) ∧ (lvl = min 0xFFFF (s.get .seam slab F.SEAM_BUCKET_LEVEL g + 256 * s.get .seam slab F.SEAM_BUCKET_CFG_W_LOCK)) ∧ (lvl < 256 * s.get .seam slab F.SEAM_BUCKET_CFG_THRESH ∨ s.bit .seam slab F.SEAM_BUCKET_PERMANENT g = true)) ∧
    (∃ (s : State) (slab g lvl : Nat), (s.runs = true) ∧ (slab < 2) ∧ (g < 18) ∧ (lvl = min 0xFFFF (s.get .seam slab F.SEAM_BUCKET_LEVEL g + 256 * s.get .seam slab F.SEAM_BUCKET_CFG_W_LOCK)) ∧ (256 * s.get .seam slab F.SEAM_BUCKET_CFG_THRESH ≤ lvl) ∧ (s.bit .seam slab F.SEAM_BUCKET_PERMANENT g = false) ∧ (s.faults.broken = [])) ∧
    (∃ (s : State) (domain : Nat), (s.runs = true) ∧ (0 ≤ domain) ∧ (domain < 19) ∧ ((gateOf 0 (domain - 0)).any (fun x => (s.get .clkc 0 F.CLKC_GATE_STATUS_GATED).testBit x) = false)) ∧
    (∃ (s : State) (domain : Nat), (s.runs = true) ∧ (19 ≤ domain) ∧ (domain < 38) ∧ ((gateOf 1 (domain - 19)).any (fun x => (s.get .clkc 0 F.CLKC_GATE_STATUS_GATED).testBit x) = false)) ∧
    (∃ (s : State), (s.runs = true)) ∧
    (∃ (s : State), (s.runs = true) ∧ (s.faults.broken = [])) ∧
    (∃ (s : State), (s.runs = true) ∧ (s.get .rstc 0 F.RSTC_STRAPS_CLK_MODE ≠ 0)) ∧
    (∃ (s : State), (s.runs = true) ∧ (s.get .rstc 0 F.RSTC_STRAPS_CLK_MODE = 0) ∧ (s.quiet) ∧ (s.home.regionWait = [])) ∧
    (∃ (s : State), (s.runs = true)) ∧
    (∃ (s : State) (agent target : Nat), (s.runs = true) ∧ (s.mayWrite agent .clkc 0 F.CLKC_GATE_GO) ∧ (target ≤ 9) ∧ (s.bit .clkc 0 F.CLKC_GATE_STATUS_BUSY = false) ∧ (s.domainIdle target = true) ∧ (target < 8 ∨ ∀ q ∈ domainEngines target, s.ownWorld q = 0)) ∧
    (∃ (s : State) (agent target : Nat), (s.runs = true) ∧ (s.mayWrite agent .clkc 0 F.CLKC_GATE_GO) ∧ (target ≤ 9) ∧ (s.bit .clkc 0 F.CLKC_GATE_STATUS_BUSY = false) ∧ (s.domainIdle target = false)) ∧
    (∃ (s : State) (agent target q : Nat), (s.runs = true) ∧ (s.mayWrite agent .clkc 0 F.CLKC_GATE_GO) ∧ (target ≤ 9) ∧ (s.bit .clkc 0 F.CLKC_GATE_STATUS_BUSY = false) ∧ (8 ≤ target) ∧ (s.domainIdle target = true) ∧ ((domainEngines target).filter (fun x => s.ownWorld x ≠ 0) = [q]) ∧ (s.pwrOf q = none)) ∧
    (∃ (s : State) (agent target : Nat), (s.runs = true) ∧ (s.mayWrite agent .clkc 0 F.CLKC_GATE_GO) ∧ (target ≤ 9) ∧ (s.bit .clkc 0 F.CLKC_GATE_STATUS_BUSY = false)) :=
  ⟨-- clause 1
   ⟨runState, { cls := 0x0D, block := Block.id .dprt, inst := 1, loc := 1, phase := 40 }, 1, by decide⟩,
   -- clause 2
   ⟨runState, (Block.id .dprt), 1, 1, .dprt, by decide⟩,
   -- clause 3
   ⟨((runState.put .dipt 2 F.DIPT_STATUS_RET_LO 1).put .dipt 2 F.DIPT_STATUS_RET_OFS_LO 3), (Block.id .chan), 19, 0, by decide⟩,
   -- clause 4
   ⟨{ runState with faults := { runState.faults with pend := [(9, some (4, 1))] } }, 1, 9, 4, 1, by decide⟩,
   -- clause 5
   ⟨{ runState with faults := { runState.faults with pend := [(9, some (4, 1))] } }, 1, by decide⟩,
   -- clause 6
   ⟨runState, 1, 17, (min 0xFFFF (runState.get .seam 1 F.SEAM_BUCKET_LEVEL 17 + 256 * runState.get .seam 1 F.SEAM_BUCKET_CFG_W_CRC)), by decide⟩,
   -- clause 7
   ⟨(runState.put .seam 1 F.SEAM_BUCKET_LEVEL 0xFF00 17), 1, 17, (min 0xFFFF ((runState.put .seam 1 F.SEAM_BUCKET_LEVEL 0xFF00 17).get .seam 1 F.SEAM_BUCKET_LEVEL 17 + 256 * (runState.put .seam 1 F.SEAM_BUCKET_LEVEL 0xFF00 17).get .seam 1 F.SEAM_BUCKET_CFG_W_CRC)), by decide⟩,
   -- clause 8
   ⟨runState, 1, 17, (min 0xFFFF (runState.get .seam 1 F.SEAM_BUCKET_LEVEL 17 + 256 * runState.get .seam 1 F.SEAM_BUCKET_CFG_W_TIMEOUT)), by decide⟩,
   -- clause 9
   ⟨(runState.put .seam 1 F.SEAM_BUCKET_LEVEL 0xFF00 17), 1, 17, (min 0xFFFF ((runState.put .seam 1 F.SEAM_BUCKET_LEVEL 0xFF00 17).get .seam 1 F.SEAM_BUCKET_LEVEL 17 + 256 * (runState.put .seam 1 F.SEAM_BUCKET_LEVEL 0xFF00 17).get .seam 1 F.SEAM_BUCKET_CFG_W_TIMEOUT)), by decide⟩,
   -- clause 10
   ⟨runState, 1, 17, (min 0xFFFF (runState.get .seam 1 F.SEAM_BUCKET_LEVEL 17 + 256 * runState.get .seam 1 F.SEAM_BUCKET_CFG_W_LOCK)), by decide⟩,
   -- clause 11
   ⟨(runState.put .seam 1 F.SEAM_BUCKET_LEVEL 0xFF00 17), 1, 17, (min 0xFFFF ((runState.put .seam 1 F.SEAM_BUCKET_LEVEL 0xFF00 17).get .seam 1 F.SEAM_BUCKET_LEVEL 17 + 256 * (runState.put .seam 1 F.SEAM_BUCKET_LEVEL 0xFF00 17).get .seam 1 F.SEAM_BUCKET_CFG_W_LOCK)), by decide⟩,
   -- clause 12
   ⟨runState, 18, by decide⟩,
   -- clause 13
   ⟨runState, 37, by decide⟩,
   -- clause 14
   ⟨runState, by decide⟩,
   -- clause 15
   ⟨runState, by decide⟩,
   -- clause 16
   ⟨(runState.put .rstc 0 F.RSTC_STRAPS_CLK_MODE 1), by decide⟩,
   -- clause 17
   ⟨(hostState.put .rstc 0 F.RSTC_STRAPS_CLK_MODE 0), by decide⟩,
   -- clause 18
   ⟨(runState.put .clkc 0 F.CLKC_STATUS_HOLDOVER 1), by decide⟩,
   -- clause 19
   ⟨runState, 1, 9, by decide⟩,
   -- clause 20
   ⟨hostState, 1, 0, by decide⟩,
   -- clause 21
   ⟨(runState.put .qeng 15 F.HDR_OWNER_WORLD 1), 1, 9, 15, by decide⟩,
   -- clause 22
   ⟨(runState.put .clkc 0 F.CLKC_GATE_STATUS_GATED 0x200), 1, 9, by decide⟩⟩
theorem test_witness_power_off_and_resets : (∃ (s : State) (agent : Nat), (s.runs = true) ∧ (s.mayWrite agent .psup 0 F.PSUP_CTL_POWER_OFF) ∧ (s.boot.offAsk = false) ∧ (s.sup.st.closed = true)) ∧
    (∃ (s : State) (straps : Straps) (ref : Bool), (s.sup.step = 7) ∧ (s.sup.released = false) ∧ (s.boot.sysRst = false) ∧ (straps.2.1 ≠ 0 ∨ ref = true) ∧ (straps.1 < 4) ∧ (straps.2.1 < 4) ∧ (straps.2.2 < 4)) ∧
    (∃ (s : State) (straps : Straps) (ref : Bool), (s.sup.step = 7) ∧ (s.sup.released = false) ∧ (s.boot.sysRst = true ∨ (straps.2.1 = 0 ∧ ref = false))) ∧
    (∃ (s : State), (s.boot.powered = true) ∧ (s.boot.sysRst = false)) ∧
    (∃ (s : State), (s.boot.powered = false ∨ s.boot.sysRst = true)) ∧
    (∃ (s : State), (s.boot.sysRst = true) ∧ (s.boot.inReset.any (fun r => r.pinHeld) = false)) ∧
    (∃ (s : State) (straps : Straps) (ref : Bool) (r : ResetRun), (s.boot.sysRst = true) ∧ (s.boot.powered = true) ∧ (s.boot.inReset = some r) ∧ (r.pinHeld = true) ∧ (straps.2.1 ≠ 0 ∨ ref = true) ∧ (straps.1 < 4) ∧ (straps.2.1 < 4) ∧ (straps.2.2 < 4)) ∧
    (∃ (s : State) (agent : Nat), (s.runs = true) ∧ (s.mayWrite agent .rstc 0 F.RSTC_CMD_OP)) ∧
    (∃ (s : State) (agent : Nat), (s.runs = true) ∧ (s.mayWrite agent .rstc 0 F.RSTC_CMD_OP)) ∧
    (∃ (s : State) (r : ResetRun), (s.runs = true) ∧ (s.boot.inReset = some r) ∧ (r.stage = .flush) ∧ (strokesSince r.start s.now ≤ s.flushMax) ∧ (s.flushAll.flushed = true)) ∧
    (∃ (s : State) (r : ResetRun), (s.runs = true) ∧ (s.boot.inReset = some r) ∧ (r.stage = .flush) ∧ (s.flushMax ≤ strokesSince r.start s.now) ∧ (s.boot.sysRst = false) ∧ (s.boot.straps.2.1 ≠ 0 ∨ s.boot.refPresent = true)) ∧
    (∃ (s : State) (slab : Nat) (x : SlabReset), (s.runs = true) ∧ (slab < 2) ∧ (s.boot.slabReset.find? (fun y => y.slab = slab) = some x) ∧ (16 ≤ strokesSince x.start s.now) ∧ (slab = 0 ∨ s.bit .rstc 0 F.RSTC_STATUS_S1_HELD = false)) :=
  ⟨-- clause 1
   ⟨runState, 1, by decide⟩,
   -- clause 2
   ⟨releaseState, ((0, 1, 3) : Straps), false, by decide⟩,
   -- clause 3
   ⟨releaseState, ((0, 0, 3) : Straps), false, by decide⟩,
   -- clause 4
   ⟨runState, by decide⟩,
   -- clause 5
   ⟨releaseState, by decide⟩,
   -- clause 6
   ⟨{ runState with boot := { runState.boot with sysRst := true } }, by decide⟩,
   -- clause 7
   ⟨{ runState with boot := { runState.boot with sysRst := true, inReset := some { cold := true, cause := 2, start := 0, pinHeld := true } } }, ((0, 1, 3) : Straps), false, { cold := true, cause := 2, start := 0, pinHeld := true }, by decide⟩,
   -- clause 8
   ⟨runState, 1, by decide⟩,
   -- clause 9
   ⟨runState, 1, by decide⟩,
   -- clause 10
   ⟨warmRun, { cold := false, cause := 4, start := 0, stage := .flush }, by decide⟩,
   -- clause 11
   ⟨{ warmRun with tb := { warmRun.tb with stroke := 65536 } }, { cold := false, cause := 4, start := 0, stage := .flush }, by decide⟩,
   -- clause 12
   ⟨{ runState with boot := { runState.boot with absent := [1], slabReset := [{ slab := 1, start := 0, cause := 4 }] }, tb := { runState.tb with stroke := 16 } }, 1, { slab := 1, start := 0, cause := 4 }, by decide⟩⟩
theorem test_witness_boot_to_ready : (∃ (s : State) (slab kind v : Nat) (err : Bool), (s.runs = true) ∧ (s.verifyDue slab kind = true) ∧ (v = s.partVerdict kind err) ∧ (v = 0 ∨ s.verifyCut = false)) ∧
    (∃ (s : State) (slab kind v : Nat) (err : Bool), (s.runs = true) ∧ (s.verifyDue slab kind = true) ∧ (v = s.partVerdict kind err) ∧ (v ≠ 0) ∧ (s.verifyCut = true) ∧ (s.boot.sysRst = false) ∧ (s.boot.straps.2.1 ≠ 0 ∨ s.boot.refPresent = true)) ∧
    (∃ (s : State) (agent : Nat) (words : List Nat) (a : Nat), (s.runs = true) ∧ (s.mayWrite agent .mgmt 0 F.MGMT_BOOT_DATA_DATA) ∧ (s.get .mgmt 0 F.MGMT_BOOT_STATUS_STAGE = 2) ∧ (words.length ≤ 16) ∧ (a = s.get .mgmt 0 F.MGMT_BOOT_ADDR_ADDR)) ∧
    (∃ (s : State) (agent : Nat), (s.runs = true) ∧ (s.mayWrite agent .mgmt 0 F.MGMT_BOOT_CTL_END) ∧ (s.get .mgmt 0 F.MGMT_BOOT_STATUS_STAGE = 2)) ∧
    (∃ (s : State) (r : ResetRun), (s.runs = true) ∧ (s.boot.trained = true) ∧ (s.boot.filled = true) ∧ (s.boot.warmLeft = []) ∧ (s.boot.inReset = some r) ∧ (r.stage = .verify) ∧ (s.stage = 4) ∧ (s.primary < 2)) ∧
    (∃ (s : State) (r : ResetRun), (s.runs = true) ∧ (s.boot.trained = true) ∧ (s.boot.filled = true) ∧ (s.boot.warmLeft = []) ∧ (s.boot.inReset = some r) ∧ (r.stage = .verify) ∧ (s.stage = 6)) ∧
    (∃ (s : State) (agent slab : Nat), (s.runs = true) ∧ (s.mayWrite agent .mgmt slab F.MGMT_CTL_HOST_READY) ∧ (isMgmt agent = true)) ∧
    (∃ (s : State), (s.runs = true) ∧ (s.bit .mod 0 F.MOD_READY_READY = false) ∧ (s.boot.hostReady = true) ∧ (s.boot.released = true) ∧ (s.boot.inReset = none) ∧ (s.boot.filled = true) ∧ (s.boot.seamUp = true ∨ s.boot.absent ≠ []) ∧ (s.restState = 0)) :=
  ⟨-- clause 1
   ⟨State.reset, 0, 1, 6, true, by decide⟩,
   -- clause 2
   ⟨{ State.reset with boot := { State.reset.boot with inReset := some { cold := false, cause := 4, start := 0 } } }, 0, 1, 6, true, by decide⟩,
   -- clause 3
   ⟨((runState.put .mgmt 0 F.MGMT_BOOT_STATUS_STAGE 2).put .mgmt 0 F.MGMT_BOOT_ADDR_ADDR 0x7FFFFC), 1, ([0x04030201, 0x08070605] : List Nat), 0x7FFFFC, by decide⟩,
   -- clause 4
   ⟨(runState.put .mgmt 0 F.MGMT_BOOT_STATUS_STAGE 2), 1, by decide⟩,
   -- clause 5
   ⟨(verifyState 4), { cold := true, cause := 1, start := 0 }, by decide⟩,
   -- clause 6
   ⟨(verifyState 6), { cold := true, cause := 1, start := 0 }, by decide⟩,
   -- clause 7
   ⟨runState, 1, 1, by decide⟩,
   -- clause 8
   ⟨{ runState with boot := { runState.boot with hostReady := true } }, by decide⟩⟩

end Sys2Proof.Tests
end

section
/-! PROOFS. The edge of a stroke (R24, R32): the interrupt of a missed heartbeat may leave as an in-band interrupt before the Layer boundary. -/

namespace Sys2Proof.Machine

/-- A command that answers `t` ends as `P` says if and only if `P` holds of `t`. -/
theorem ends_iff_of_exec {i : Instr} {s t : State} {P : State → Prop} (h : exec i s = .next t) : Ends i s P ↔ P t := by
  simp [Ends, h]

/-- STROKE_EDGE while the timebase runs. -/
theorem exec_strokeEdge {s : State} (h : s.timeRuns = true) (miss0 miss1 : Bool) :
    exec (.strokeEdge miss0 miss1) s = .next (s.strokeEdge miss0 miss1) := by
  show Host.Outcome.next (if s.timeRuns then s.strokeEdge miss0 miss1 else s) = _
  rw [if_pos h]

/-- The last stroke of a Layer, clocks locked and the Seam up. Slab 0's page enables the interrupt of a missed heartbeat, and FLT_IBI_BLOCKS names
the SLAB block, so that its interrupt also goes out in-band (R556). -/
def heartbeatIbi : State :=
  let s : State := { State.reset with boot := { State.reset.boot with inReset := none, seamUp := true }, tb := { stroke := 63, elapsed := 63 } }
  ((s.put .clkc 0 F.CLKC_STATUS_LOCKED 1).put .slab 0 F.HDR_INT_ENABLE_INT_EN (2 ^ 16)).put .flt 0 F.FLT_IBI_BLOCKS_BLOCK_MASK (2 ^ Block.slab.id)

/-- At the edge that opens the Layer, the judgement of a missed heartbeat sends the in-band interrupt at once. -/
theorem heartbeatIbi_strokeEdge_out : (heartbeatIbi.strokeEdge true false).out = [.ibi Block.slab.id] := by decide

/-- Refutes O9: where a Layer begins, its second clause keeps the log of messages as it was, but the heartbeat judged in that edge raises an interrupt
that FLT_IBI_BLOCKS sends out as an in-band interrupt (`heartbeatIbi`). -/
theorem not_strokeEdges : ¬ Obligations.StrokeEdges := by
  intro h
  obtain ⟨-, hlayer, -⟩ := h
  have he := hlayer heartbeatIbi true false (by decide) (by decide) (by decide) (by decide) (by decide) (by decide)
  rw [ends_iff_of_exec (exec_strokeEdge (by decide) true false)] at he
  obtain ⟨-, -, -, -, -, -, -, -, -, -, hout⟩ := he
  rw [heartbeatIbi_strokeEdge_out] at hout
  exact absurd hout (by decide)

end Sys2Proof.Machine
end

section
/-! The two boundaries. Their proofs are elaborated one after another, not side by side: each thread reserves a stack of 256 MB, and the tests of the
model, which the whole text is compiled with, leave little of the check's memory. This option is what elaborates a theorem in turn; nothing here has
section variables. -/
set_option deprecated.oldSectionVars true

section
/-! PROOFS. The clockwork of the hub: what a Layer's and a Sitting's boundary turn on. Its frame rules say of each operation of an edge that it leaves
the clockwork as it was. -/

namespace Sys2Proof.Machine

/-- The timebase but its read latches, the Layer whose budgets are open, the stroke at which the energy account opened, and the reset in progress. -/
abbrev Clockwork := Timebase × Nat × Nat × Option ResetRun
def State.clockwork (s : State) : Clockwork := ({ s.tb with latches := [] }, s.regu.layer, s.energy.opened, s.boot.inReset)

/-! ### Folds that keep a part of the state -/

/-- A fold keeps what each of its steps keeps. -/
theorem foldl_keeps {σ α γ : Type} (p : σ → γ) (f : σ → α → σ) (l : List α) (b : σ) (h : ∀ c, ∀ x ∈ l, p (f c x) = p c) :
    p (l.foldl f b) = p b :=
  List.foldlRecOn (motive := fun c => p c = p b) l f rfl (fun c hc x hx => (h c x hx).trans hc)
@[simp] theorem foldl_clockwork {α : Type} (f : State → α → State) (h : ∀ t x, (f t x).clockwork = t.clockwork) (l : List α) (s : State) :
    (l.foldl f s).clockwork = s.clockwork := foldl_keeps State.clockwork f l s (fun t x _ => h t x)
@[simp] theorem foldl_fst_clockwork {α β : Type} (f : State × β → α → State × β) (h : ∀ b x, (f b x).1.clockwork = b.1.clockwork)
    (l : List α) (b : State × β) : (l.foldl f b).1.clockwork = b.1.clockwork := foldl_keeps (fun c => c.1.clockwork) f l b (fun c x _ => h c x)
@[simp] theorem foldl_snd_clockwork {α β : Type} (f : β × State → α → β × State) (h : ∀ b x, (f b x).2.clockwork = b.2.clockwork)
    (l : List α) (b : β × State) : (l.foldl f b).2.clockwork = b.2.clockwork := foldl_keeps (fun c => c.2.clockwork) f l b (fun c x _ => h c x)
theorem foldl_snd_snd_clockwork {α β γ : Type} (f : β × γ × State → α → β × γ × State)
    (h : ∀ b x c, f b x = c → c.2.2.clockwork = b.2.2.clockwork) (l : List α) (b : β × γ × State) :
    (l.foldl f b).2.2.clockwork = b.2.2.clockwork := foldl_keeps (fun c => c.2.2.clockwork) f l b (fun c x _ => h c x _ rfl)
@[simp] theorem forN_clockwork (n : Nat) (f : State → Nat → State) (h : ∀ t x, (f t x).clockwork = t.clockwork) (s : State) :
    (s.forN n f).clockwork = s.clockwork := foldl_clockwork f h ..

/-! ### Updates of other fields. The bracketed `(rfl)` keeps a lemma out of `dsimp`, so that `simp` can discharge a fold's step with it. -/

@[simp] theorem clockwork_mk {tb regs staged actDue blockResets closedWork tier media dipts veins chans vq crypto ports home hub regu faults codec
    query ring energy rest secure sup boot out draws pending} :
    (State.mk tb regs staged actDue blockResets closedWork tier media dipts veins chans vq crypto ports home hub regu faults codec query
      ring energy rest secure sup boot out draws pending).clockwork = ({ tb with latches := [] }, regu.layer, energy.opened, boot.inReset) := (rfl)
@[simp] theorem clockwork_eta (s : State) : ((Timebase.mk s.tb.stroke s.tb.phase s.tb.len s.tb.elapsed s.tb.adopt [] s.tb.layerDue s.tb.sittingDue
    s.tb.edgeOpen s.tb.hotSeen s.tb.hot s.tb.hotBad s.tb.hotWhole, s.regu.layer, s.energy.opened, s.boot.inReset) : Clockwork) = s.clockwork := (rfl)
@[simp] theorem clockwork_ite (c : Prop) [Decidable c] (a b : State) :
    (if c then a else b).clockwork = if c then a.clockwork else b.clockwork := apply_ite ..
theorem clockwork_ring (s : State) (x : Ring) : { s with ring := x }.clockwork = s.clockwork := (rfl)
theorem clockwork_home (s : State) (x : Home) : { s with home := x }.clockwork = s.clockwork := (rfl)
theorem clockwork_tier (s : State) (x : Tier) : { s with tier := x }.clockwork = s.clockwork := (rfl)
theorem clockwork_secure (s : State) (x : Secure) : { s with secure := x }.clockwork = s.clockwork := (rfl)
theorem clockwork_actDue (s : State) (x : List Nat) : { s with actDue := x }.clockwork = s.clockwork := (rfl)
theorem clockwork_regu (s : State) (x : Regu) (h : x.layer = s.regu.layer) : { s with regu := x }.clockwork = s.clockwork := by
  simp only [clockwork_mk, h]
  rfl
theorem clockwork_energy (s : State) (x : Energy) :
    { s with energy := x }.clockwork = (s.clockwork.1, s.clockwork.2.1, x.opened, s.clockwork.2.2.2) := rfl
theorem clockwork_now {s t : State} (h : t.clockwork = s.clockwork) : t.now = s.now := congrArg (fun c => c.1.stroke) h

/-! ### Operations that only update other fields -/

@[simp] theorem putP_clockwork (s : State) (p : Nat) (f : Fld) (v i : Nat) : (s.putP p f v i).clockwork = s.clockwork := (rfl)
@[simp] theorem put_clockwork (s : State) (b : Block) (n : Nat) (f : Fld) (v i : Nat) : (s.put b n f v i).clockwork = s.clockwork := (rfl)
@[simp] theorem putS_clockwork (s : State) (b : Block) (n : Nat) (f : Fld) (v i : Nat) : (s.putS b n f v i).clockwork = s.clockwork := (rfl)
@[simp] theorem bump_clockwork (s : State) (b : Block) (n : Nat) (f : Fld) (k i : Nat) : (s.bump b n f k i).clockwork = s.clockwork := (rfl)
@[simp] theorem emit_clockwork (s : State) (m : Msg) : (s.emit m).clockwork = s.clockwork := (rfl)
@[simp] theorem draw_clockwork (s : State) (w : Nat) : (s.draw w).2.clockwork = s.clockwork := (rfl)
@[simp] theorem copyStaged_clockwork (s : State) (b : Block) (n : Nat) : (s.copyStaged b n).clockwork = s.clockwork := (rfl)
@[simp] theorem modAtt_clockwork (s : State) (a : Nat) (f : Attach → Attach) : (s.modAtt a f).clockwork = s.clockwork := (rfl)
@[simp] theorem setLink_clockwork (s : State) (a : Nat) (f : Fld) (v : Nat) : (s.setLink a f v).clockwork = s.clockwork := (rfl)
@[simp] theorem ack_clockwork (s : State) (cls seq : Nat) (all : Bool) : (s.ack cls seq all).clockwork = s.clockwork := (rfl)
@[simp] theorem denied_clockwork (s : State) (agent off cause : Nat) (write : Bool) :
    (s.denied agent off cause write).clockwork = s.clockwork := (rfl)
@[simp] theorem clearDenied_clockwork (s : State) : s.clearDenied.clockwork = s.clockwork := (rfl)
@[simp] theorem modSide_clockwork (s : State) (pair sd : Nat) (f : Side → Side) : (s.modSide pair sd f).clockwork = s.clockwork := (rfl)
@[simp] theorem modPair_clockwork (s : State) (p : Nat) (f : Pair → Pair) : (s.modPair p f).clockwork = s.clockwork := (rfl)
@[simp] theorem ringPut_clockwork (s : State) (pair sd : Nat) (f : Fld) (v : Nat) : (s.ringPut pair sd f v).clockwork = s.clockwork := (rfl)
@[simp] theorem ringDiscard_clockwork (s : State) (pair sd : Nat) : (s.ringDiscard pair sd).clockwork = s.clockwork := (rfl)
@[simp] theorem reqDone_clockwork (s : State) (tag : Nat) : (s.reqDone tag).clockwork = s.clockwork := (rfl)
@[simp] theorem setMove_clockwork (s : State) (m : Move) : (s.setMove m).clockwork = s.clockwork := (rfl)
@[simp] theorem dropMove_clockwork (s : State) (p : Nat) : (s.dropMove p).clockwork = s.clockwork := (rfl)
@[simp] theorem modDipt_clockwork (s : State) (k : Nat) (f : Dipt → Dipt) : (s.modDipt k f).clockwork = s.clockwork := (rfl)
@[simp] theorem freeGranules_clockwork (s : State) (v page : Nat) : (s.freeGranules v page).clockwork = s.clockwork := (rfl)
@[simp] theorem modVein_clockwork (s : State) (v : Nat) (f : VeinSt → VeinSt) : (s.modVein v f).clockwork = s.clockwork := (rfl)
@[simp] theorem metaSlot_clockwork (s : State) (v o : Nat) : (s.metaSlot v o).clockwork = s.clockwork := (rfl)
@[simp] theorem treeFetch_clockwork (s : State) (k level index : Nat) : (s.treeFetch k level index).clockwork = s.clockwork := (rfl)
@[simp] theorem treeStore_clockwork (s : State) (k level index : Nat) : (s.treeStore k level index).clockwork = s.clockwork := (rfl)
@[simp] theorem treePut_clockwork (s : State) (k level index : Nat) (dirty : Bool) : (s.treePut k level index dirty).clockwork = s.clockwork := (rfl)
@[simp] theorem setDeliverable_clockwork (s : State) (v : Nat) : (s.setDeliverable v).clockwork = s.clockwork := (rfl)
@[simp] theorem dropAccs_clockwork (s : State) (c : VAcc → Bool) : (s.dropAccs c).clockwork = s.clockwork := (rfl)
@[simp] theorem startReloc_clockwork (s : State) (v o : Nat) : (s.startReloc v o).clockwork = s.clockwork := (rfl)
@[simp] theorem putResv_clockwork (s : State) (key : Nat) (e : Codeword) : (s.putResv key e).clockwork = s.clockwork := (rfl)
@[simp] theorem unlistPoison_clockwork (s : State) (page : Nat) (c : Nat → Bool) : (s.unlistPoison page c).clockwork = s.clockwork := (rfl)
@[simp] theorem hcPut_clockwork (s : State) (slab set way : Nat) (e : Option HcEnt) : (s.hcPut slab set way e).clockwork = s.clockwork := (rfl)
@[simp] theorem hcTouch_clockwork (s : State) (slab set way : Nat) : (s.hcTouch slab set way).clockwork = s.clockwork := (rfl)
@[simp] theorem dropSlot_clockwork (s : State) (page : Nat) (runahead : Bool) : (s.dropSlot page runahead).clockwork = s.clockwork := (rfl)
@[simp] theorem putSlot_clockwork (s : State) (x : HlbSlot) : (s.putSlot x).clockwork = s.clockwork := (rfl)
@[simp] theorem holdLine_clockwork (s : State) (page line ctx : Nat) (data : Line) (mask : BitVec 64) (poison : Nat) :
    (s.holdLine page line ctx data mask poison).clockwork = s.clockwork := (rfl)
@[simp] theorem vlbData_clockwork (s : State) (k f i : Nat) : (s.vlbData k f i).clockwork = s.clockwork := (rfl)
@[simp] theorem modLeft_clockwork (s : State) (c : Nat) (f : ClassLeft → ClassLeft) : (s.modLeft c f).clockwork = s.clockwork := (rfl)
@[simp] theorem modOut_clockwork (s : State) (c home : Nat) (f : Nat → Nat) : (s.modOut c home f).clockwork = s.clockwork := (rfl)
@[simp] theorem readGone_clockwork (s : State) (c page : Nat) : (s.readGone c page).clockwork = s.clockwork := (rfl)
@[simp] theorem setLoads_clockwork (s : State) : s.setLoads.clockwork = s.clockwork := (rfl)
@[simp] theorem openTally_clockwork (s : State) : s.openTally.clockwork = s.clockwork := (rfl)
@[simp] theorem dirTouch_clockwork (s : State) (slab set way : Nat) : (s.dirTouch slab set way).clockwork = s.clockwork := (rfl)
@[simp] theorem setWay_clockwork (s : State) (slab set way : Nat) (e : DirEnt) : (s.setWay slab set way e).clockwork = s.clockwork := (rfl)
@[simp] theorem icDrop_clockwork (s : State) (o page line : Nat) : (s.icDrop o page line).clockwork = s.clockwork := (rfl)
@[simp] theorem icPut_clockwork (s : State) (c : ICLine) : (s.icPut c).clockwork = s.clockwork := (rfl)
@[simp] theorem predAdd_clockwork (s : State) (slab page line up down : Nat) : (s.predAdd slab page line up down).clockwork = s.clockwork := (rfl)
@[simp] theorem setRow_clockwork (s : State) (v r : Nat) (u : RowUse) : (s.setRow v r u).clockwork = s.clockwork := (rfl)
@[simp] theorem dropRd_clockwork (s : State) (id : Nat) : (s.dropRd id).clockwork = s.clockwork := (rfl)
@[simp] theorem newId_clockwork (s : State) : s.newId.2.clockwork = s.clockwork := (rfl)
@[simp] theorem askMarker_clockwork (s : State) (r : HReq) (code : Nat) : (s.askMarker r code).clockwork = s.clockwork := (rfl)
@[simp] theorem modWait_clockwork (s : State) (page line : Nat) (f : Waiting → Waiting) : (s.modWait page line f).clockwork = s.clockwork := (rfl)
@[simp] theorem internal_clockwork (s : State) (k : ReqKind) (o page line ctx : Nat) :
    (s.internal k o page line ctx).2.clockwork = s.clockwork := (rfl)
@[simp] theorem depart_clockwork (s : State) (a : Nat) : (s.depart a).clockwork = s.clockwork := (rfl)
@[simp] theorem clearDecoders_clockwork (s : State) (a : Nat) : (s.clearDecoders a).clockwork = s.clockwork := (rfl)
@[simp] theorem hdmAhead_clockwork (s : State) : s.hdmAhead.clockwork = s.clockwork := (rfl)
@[simp] theorem modChan_clockwork (s : State) (c : Nat) (f : ChanSt → ChanSt) : (s.modChan c f).clockwork = s.clockwork := (rfl)
@[simp] theorem setPlan_clockwork (s : State) (v p : Nat) : (s.setPlan v p).clockwork = s.clockwork := (rfl)
@[simp] theorem showDebt_clockwork (s : State) (c : Nat) : (s.showDebt c).clockwork = s.clockwork := (rfl)
@[simp] theorem refreshed_clockwork (s : State) (c : Nat) : (s.refreshed c).clockwork = s.clockwork := (rfl)
@[simp] theorem slotBegins_clockwork (s : State) (c : Nat) : (s.slotBegins c).clockwork = s.clockwork := (rfl)
@[simp] theorem setCtx_clockwork (s : State) (c : Nat) (k : KeyCtx) : (s.setCtx c k).clockwork = s.clockwork := (rfl)
@[simp] theorem setPairState_clockwork (s : State) (p v : Nat) : (s.setPairState p v).clockwork = s.clockwork := (rfl)
@[simp] theorem ringLeak_clockwork (s : State) : s.ringLeak.clockwork = s.clockwork := (rfl)
@[simp] theorem setAddr_clockwork (s : State) (p : Nat) : (s.setAddr p).clockwork = s.clockwork := (rfl)
@[simp] theorem newOrder_clockwork (s : State) (p : Nat) : (s.newOrder p).clockwork = s.clockwork := (rfl)
@[simp] theorem putEffort_clockwork (s : State) (e : Nat) : (s.putEffort e).clockwork = s.clockwork := (rfl)
@[simp] theorem grantItem_clockwork (s : State) (rem : Nat) (g q : Fld) (on : Bool) (share : Nat) :
    (s.grantItem rem g q on share).2.clockwork = s.clockwork := (rfl)
@[simp] theorem grantScrub_clockwork (s : State) (rem share : Nat) : (s.grantScrub rem share).2.clockwork = s.clockwork := (rfl)
@[simp] theorem setOJob_clockwork (s : State) (j : OJob) : (s.setOJob j).clockwork = s.clockwork := (rfl)
@[simp] theorem setOctx_clockwork (s : State) (n : Nat) (c : Ctx) : (s.setOctx n c).clockwork = s.clockwork := (rfl)
@[simp] theorem setQjob_clockwork (s : State) (q : Nat) (j : Option QJob) : (s.setQjob q j).clockwork = s.clockwork := (rfl)
@[simp] theorem putSecp_clockwork (s : State) (f : Fld) (v i : Nat) : (s.putSecp f v i).clockwork = s.clockwork := (rfl)
@[simp] theorem setOwn_clockwork (s : State) (b w : Nat) : (s.setOwn b w).clockwork = s.clockwork := (rfl)
@[simp] theorem setHand_clockwork (s : State) (h : Option Handover) : (s.setHand h).clockwork = s.clockwork := (rfl)
@[simp] theorem gateRefused_clockwork (s : State) (cause : Nat) : (s.gateRefused cause).clockwork = s.clockwork := (rfl)
@[simp] theorem pwrSitting_clockwork (s : State) : s.pwrSitting.clockwork = s.clockwork := (rfl)
@[simp] theorem readyFall_clockwork (s : State) : s.readyFall.clockwork = s.clockwork := (rfl)
@[simp] theorem askOff_clockwork (s : State) : s.askOff.clockwork = s.clockwork := (rfl)
@[simp] theorem recountOut_clockwork (s : State) : s.recountOut.clockwork = s.clockwork := (rfl)
@[simp] theorem putBoot_clockwork (s : State) (f : Fld) (v : Nat) : (s.putBoot f v).clockwork = s.clockwork := (rfl)
@[simp] theorem drawPrimer_clockwork (s : State) : s.drawPrimer.clockwork = s.clockwork := (rfl)
@[simp] theorem drawMeta_clockwork (s : State) : s.drawMeta.clockwork = s.clockwork := (rfl)
@[simp] theorem latchStraps_clockwork (s : State) : s.latchStraps.clockwork = s.clockwork := (rfl)
@[simp] theorem takeRole_clockwork (s : State) : s.takeRole.clockwork = s.clockwork := (rfl)
@[simp] theorem fillMemory_clockwork (s : State) : s.fillMemory.clockwork = s.clockwork := (rfl)
@[simp] theorem askReset_clockwork (s : State) (cold : Bool) (cause : Nat) : (s.askReset cold cause).clockwork = s.clockwork := (rfl)
@[simp] theorem bootWords_clockwork (s : State) (words : List Nat) : (s.bootWords words).clockwork = s.clockwork := (rfl)
@[simp] theorem reguActivate_clockwork (s : State) : s.reguActivate.clockwork = s.clockwork := (rfl)
@[simp] theorem ignored_clockwork (s : State) (b : Block) (n : Nat) : (s.ignored b n).clockwork = s.clockwork := (rfl)
@[simp] theorem reportSitting_clockwork (s : State) : s.reportSitting.clockwork = s.clockwork := (rfl)

/-! ### Interrupts and the energy plan of a Sitting -/

@[simp] theorem intRise_clockwork (old new : State) (p : Nat) : (intRise old new p).clockwork = new.clockwork := by
  unfold intRise
  split <;> rfl
@[simp] theorem setInts_clockwork (s : State) (p mask : Nat) : (s.setInts p mask).clockwork = s.clockwork := by unfold State.setInts; simp
@[simp] theorem raise_clockwork (s : State) (b : Block) (n bit : Nat) : (s.raise b n bit).clockwork = s.clockwork := by unfold State.raise; simp
@[simp] theorem grantEffort_clockwork (s : State) (rem share : Nat) : (s.grantEffort rem share).2.clockwork = s.clockwork := by
  unfold State.grantEffort
  split <;> simp
@[simp] theorem planSitting_clockwork (s : State) (share : Nat) : (s.planSitting share).clockwork = s.clockwork := by
  unfold State.planSitting
  extract_lets least B w changed s1 s2 fx floor fund short s3 s4 s5 rem recomp a b c d e f t free
  have h2 : s2.clockwork = s.clockwork := by
    simp only [s2, s1]
    split <;> simp
  have h4 : s4.clockwork = s2.clockwork := by
    simp only [s4, s3]
    split <;> simp
  have ht : t.clockwork = s4.clockwork := by simp [t, f, e, d, c, b, a, s5]
  exact (ht.trans h4).trans h2

/-! ### Operations of Ops.lean -/

@[simp] theorem lostArb_clockwork (s : State) (b : Block) (n : Nat) : (s.lostArb b n).clockwork = s.clockwork := by unfold State.lostArb; simp
@[simp] theorem reaches_clockwork (s : State) (b : Block) (n : Nat) (w : ResetWork) (f : State → State) (h : ∀ t, (f t).clockwork = t.clockwork) :
    (s.reaches b n w f).clockwork = s.clockwork := by
  simp [State.reaches, h]

/-! ### Operations of Energy.lean -/

@[simp] theorem spend_clockwork (s : State) (a : Account) (xs : List (Nat × Nat)) :
    (s.spend a xs).clockwork = s.clockwork := by unfold State.spend; simp

/-! ### Operations of Addr.lean -/

@[simp] theorem msix_clockwork (s : State) (a v : Nat) : (s.msix a v).clockwork = s.clockwork := by unfold State.msix; simp
@[simp] theorem logEvent_clockwork (s : State) (a : Nat) (e : EvRec) : (s.logEvent a e).clockwork = s.clockwork := by unfold State.logEvent; simp
@[simp] theorem logWhere_clockwork (s : State) (e : EvRec) (c : Nat → Bool) :
    (s.logWhere e c).clockwork = s.clockwork := by unfold State.logWhere; simp
@[simp] theorem vendorEvent_clockwork (s : State) (e : EvRec) : (s.vendorEvent e).clockwork = s.clockwork := by unfold State.vendorEvent; simp
@[simp] theorem enterViral_clockwork (s : State) (a cause seq : Nat) :
    (s.enterViral a cause seq).clockwork = s.clockwork := by unfold State.enterViral; simp

/-! ### Operations of Fault.lean -/

@[simp] theorem reportHosts_clockwork (s : State) (r : FRec) : (s.reportHosts r).clockwork = s.clockwork := by unfold State.reportHosts; simp
@[simp] theorem fatal_clockwork (s : State) (r : FRec) : (s.fatal r).clockwork = s.clockwork := by unfold State.fatal; simp
@[simp] theorem record_clockwork (s : State) (r : Rep) (dropped : Nat) : (s.record r dropped).clockwork = s.clockwork := by
  unfold State.record
  split <;> split <;> simp
@[simp] theorem fault_clockwork (s : State) (b : Block) (n cls : Nat) (r : Rep) :
    (s.fault b n cls r).clockwork = s.clockwork := by unfold State.fault; simp
@[simp] theorem alarmSwap_clockwork (s : State) (slab seq : Nat) : (s.alarmSwap slab seq).clockwork = s.clockwork := by
  unfold State.alarmSwap
  dsimp only
  repeat' split
  all_goals simp
@[simp] theorem alarmWrite_clockwork (s1 : State) (slab cls : Nat) (a : Alarm) (hq lvl : Nat) :
    (s1.alarmWrite slab cls a hq lvl).clockwork = s1.clockwork := by unfold State.alarmWrite; simp
@[simp] theorem alarm_clockwork (s : State) (slab cls : Nat) (a : Alarm) (unit : Nat) :
    (s.alarm slab cls a unit).clockwork = s.clockwork := by unfold State.alarm; simp
@[simp] theorem seamLeak_clockwork (s : State) : s.seamLeak.clockwork = s.clockwork := by unfold State.seamLeak; simp

/-! ### Operations of Access.lean -/

@[simp] theorem writeBy_clockwork (s : State) (agent off : Nat) (f : State → State) (h : ∀ t, (f t).clockwork = t.clockwork) :
    (s.writeBy agent off f).clockwork = s.clockwork := by
  unfold State.writeBy; split <;> simp [h]
@[simp] theorem fieldWrite_clockwork (s : State) (agent : Nat) (b : Block) (n : Nat) (f : Fld) (g : State → State) (i : Nat) (h : ∀ t,
    (g t).clockwork = t.clockwork) :
    (s.fieldWrite agent b n f g i).clockwork = s.clockwork := by
  simp [State.fieldWrite, h]
@[simp] theorem cmdDeniedClear_clockwork (s : State) (agent : Nat) :
    (s.cmdDeniedClear agent).clockwork = s.clockwork := by unfold State.cmdDeniedClear; simp
@[simp] theorem cmdFltAck_clockwork (s : State) (agent cls seq : Nat) (all : Bool) :
    (s.cmdFltAck agent cls seq all).clockwork = s.clockwork := by unfold State.cmdFltAck; simp

/-! ### Operations of RingSend.lean -/

theorem trySend_clockwork {s t : State} {x : Nat × Nat × Frame} (h : s.trySend x = some t) : t.clockwork = s.clockwork := by
  unfold State.trySend at h
  dsimp only at h
  split at h
  · obtain rfl := Option.some.inj h
    simp
  · cases h
@[simp] theorem drainEgress_clockwork (s : State) : s.drainEgress.clockwork = s.clockwork := by
  refine (clockwork_ring _ _).trans ((foldl_fst_clockwork _ (fun acc x => ?_) _ _).trans rfl)
  dsimp only
  split
  · rfl
  · split
    next h => exact trySend_clockwork h
    · rfl
@[simp] theorem bulkTake_clockwork (s : State) (slab level : Nat) : (s.bulkTake slab level).clockwork = s.clockwork := by unfold State.bulkTake; simp
@[simp] theorem bulkLost_clockwork (s : State) (sd : Nat) (f : Frame) : (s.bulkLost sd f).clockwork = s.clockwork := by unfold State.bulkLost; simp
@[simp] theorem sendOn_clockwork (s0 : State) (pair sd : Nat) (f : Frame) :
    (s0.sendOn pair sd f).clockwork = s0.clockwork := by unfold State.sendOn; simp
@[simp] theorem sendFrame_clockwork (s : State) (f : Frame) : (s.sendFrame f).clockwork = s.clockwork := by unfold State.sendFrame; simp
@[simp] theorem sendReq_clockwork (s : State) (ty dst arg : Nat) (payload : (List Byte)) :
    (s.sendReq ty dst arg payload).2.clockwork = s.clockwork := by unfold State.sendReq; simp
@[simp] theorem sendPlain_clockwork (s : State) (ty vc dst tag arg : Nat) (payload : (List Byte)) :
    (s.sendPlain ty vc dst tag arg payload).clockwork = s.clockwork := by unfold State.sendPlain; simp

/-! ### Operations of Tier.lean -/

@[simp] theorem setEntry_clockwork (s : State) (p : Nat) (e : PEntry) : (s.setEntry p e).clockwork = s.clockwork := clockwork_tier ..
@[simp] theorem warm_clockwork (s : State) (p : Nat) : (s.warm p).clockwork = s.clockwork := by unfold State.warm; simp
@[simp] theorem raiseCounter_clockwork (s : State) (k level index : Nat) :
    (s.raiseCounter k level index).clockwork = s.clockwork := by unfold State.raiseCounter; simp
@[simp] theorem treeTrim_clockwork (s : State) (owner : Nat) : (s.treeTrim owner).clockwork = s.clockwork := by
  unfold State.treeTrim
  dsimp only
  repeat' split
  all_goals simp
@[simp] theorem treeUse_clockwork (s : State) (k level index : Nat) (dirty : Bool) : (s.treeUse k level index dirty).clockwork = s.clockwork := by
  unfold State.treeUse
  split
  · simp
  · refine (forN_clockwork _ _ (fun t _ => ?_) _).trans <| (treePut_clockwork ..).trans <| foldl_clockwork _ (fun t j => ?_) _ _
    · simp
    · simp
@[simp] theorem dirtyTree_clockwork (s : State) (k level index : Nat) :
    (s.dirtyTree k level index).clockwork = s.clockwork := by unfold State.dirtyTree; simp
@[simp] theorem setLeaf_clockwork (s : State) (k p : Nat) (l : Leaf) : (s.setLeaf k p l).clockwork = s.clockwork := by unfold State.setLeaf; simp
@[simp] theorem bumpRow_clockwork (s : State) (v r : Nat) : (s.bumpRow v r).clockwork = s.clockwork := by unfold State.bumpRow; simp

/-! ### Operations of Store.lean -/

@[simp] theorem enqueue_clockwork (s : State) (a : VAcc) : (s.enqueue a).clockwork = s.clockwork := by unfold State.enqueue; simp
@[simp] theorem retryAccs_clockwork (s : State) : s.retryAccs.clockwork = s.clockwork := by unfold State.retryAccs; simp
@[simp] theorem offer_clockwork (s : State) (v o who n : Nat) (write : Bool) :
    (s.offer v o who n write).clockwork = s.clockwork := by unfold State.offer; simp
@[simp] theorem setDState_clockwork (s : State) (k : Nat) (d : DState) : (s.setDState k d).clockwork = s.clockwork := by unfold State.setDState; simp
@[simp] theorem retireChannel_clockwork (s : State) (v o : Nat) : (s.retireChannel v o).clockwork = s.clockwork := by
  unfold State.retireChannel
  split <;> simp
@[simp] theorem bucketAdd_clockwork (s : State) (v o w page line : Nat) (checker : Bool) :
    (s.bucketAdd v o w page line checker).clockwork = s.clockwork := by unfold State.bucketAdd; simp
@[simp] theorem corrected_clockwork (s : State) (v o n page line : Nat) :
    (s.corrected v o n page line).clockwork = s.clockwork := by unfold State.corrected; simp
@[simp] theorem uncorrectable_clockwork (s : State) (v o page line : Nat) (transient : Bool) :
    (s.uncorrectable v o page line transient).clockwork = s.clockwork := by unfold State.uncorrectable; simp
@[simp] theorem holdCheck_clockwork (s : State) (v ofs chunk : Nat) (mac : Bool) (word : Nat) (write : Bool) :
    (s.holdCheck v ofs chunk mac word write).clockwork = s.clockwork := by
  unfold State.holdCheck
  extract_lets same old c c1 s1 rest put
  have h1 : s1.clockwork = s.clockwork := by
    simp only [s1]
    split <;> simp
  have hput (t : State) (l : List CheckLine) : (put t l).clockwork = t.clockwork := (rfl)
  clear_value put s1
  split
  · rw [hput, h1]
  · split
    · rw [hput]
      split <;> simp [h1]
    · rw [hput, h1]
@[simp] theorem putStored_clockwork (s : State) (key : Nat) (x : Stored) : (s.putStored key x).clockwork = s.clockwork := by
  unfold State.putStored
  dsimp only
  repeat' split
  all_goals simp
@[simp] theorem rewrite_clockwork (s : State) (key : Nat) (w x : Stored) :
    (s.rewrite key w x).clockwork = s.clockwork := by unfold State.rewrite; simp
@[simp] theorem rebuildLine_clockwork (s : State) (v r l skip page line : Nat) (e : LineErr) :
    (s.rebuildLine v r l skip page line e).2.clockwork = s.clockwork := by
  refine foldl_snd_clockwork _ (fun acc p => ?_) _ _
  dsimp only
  repeat' split
  all_goals simp
@[simp] theorem readSecond_clockwork (s : State) (src : Second) (page line : Nat) (e : LineErr) :
    (s.readSecond src page line e).2.clockwork = s.clockwork := by
  unfold State.readSecond
  dsimp only
  repeat' split
  all_goals simp
@[simp] theorem fromSecond_clockwork (s : State) (key : Nat) (w x : Stored) (left : Nat) :
    (s.fromSecond key w x left).2.clockwork = s.clockwork := by unfold State.fromSecond; simp
@[simp] theorem fetch_clockwork (s0 : State) (key page line : Nat) (w : Stored) (e : LineErr) (src : Second) :
    (s0.fetch key page line w e src).2.clockwork = s0.clockwork := by
  unfold State.fetch
  extract_lets v o s first data fixed
  have hfixed (u : State) (y : Stored) (n : Nat) : (fixed u y n).clockwork = u.clockwork := rewrite_clockwork ..
  have hf : first.2.clockwork = s0.clockwork := by
    simp only [first]
    split <;> simp [s]
  clear_value first fixed
  rcases first with ⟨_ | ⟨x, left⟩, t⟩
  · have hx := readSecond_clockwork (t.uncorrectable v o page line false) src page line e
    dsimp only at hx ⊢
    generalize State.readSecond _ _ _ _ _ = y at hx ⊢
    simp only [uncorrectable_clockwork] at hx
    rcases y with ⟨_ | ⟨y, left⟩, u⟩
    · dsimp only at hf hx ⊢
      repeat' split
      all_goals simp [hfixed, hf, hx]
    · dsimp only at hf hx ⊢
      repeat' split
      all_goals simp [hfixed, hf, hx]
  · exact hf
@[simp] theorem readResv_clockwork (s : State) (key v o : Nat) (e0 e1 : Codeword) (second : State → Option Nat × State)
    (h : ∀ t, (second t).2.clockwork = t.clockwork) : (s.readResv key v o e0 e1 second).2.clockwork = s.clockwork := by
  have hx : (second (s.uncorrectable v o noPage 0 false)).2.clockwork = s.clockwork := by simp [h]
  unfold State.readResv
  generalize second _ = x at hx ⊢
  obtain ⟨y, t⟩ := x
  dsimp only
  repeat' split
  all_goals simp_all
@[simp] theorem readResvOnce_clockwork (s : State) (key v o : Nat) (e : Codeword) : (s.readResvOnce key v o e).2.clockwork = s.clockwork := by
  unfold State.readResvOnce
  split <;> simp
@[simp] theorem macSecond_clockwork (s : State) (src : Second) (e : Codeword) : (s.macSecond src e).2.clockwork = s.clockwork := by
  unfold State.macSecond
  split
  · simp
  · refine foldl_snd_clockwork _ (fun acc p => ?_) _ _
    dsimp only
    repeat' split
    all_goals simp
  · rfl
@[simp] theorem readMac_clockwork (s : State) (key : Nat) (e : LineErr) (src : Second) :
    (s.readMac key e src).2.clockwork = s.clockwork := by unfold State.readMac; simp [apply_ite Prod.snd]
@[simp] theorem fetchMac_clockwork (s : State) (key page line : Nat) (w : Stored) (e : LineErr) (src : Second) :
    (s.fetchMac key page line w e src).2.clockwork = s.clockwork := by
  unfold State.fetchMac
  extract_lets g
  have hg : g.2.clockwork = s.clockwork := by simp [g]
  have hm := readMac_clockwork g.2 key e src
  clear_value g
  generalize g.2.readMac key e src = x at hm ⊢
  rcases x with ⟨_ | _, t⟩ <;> dsimp only at hm ⊢ <;> split <;> simp_all
@[simp] theorem listPoison_clockwork (s : State) (page line code : Nat) (injected : Bool) :
    (s.listPoison page line code injected).clockwork = s.clockwork := by unfold State.listPoison; simp
@[simp] theorem flipFire_clockwork (s : State) (n : Nat) : (s.flipFire n).clockwork = s.clockwork := by unfold State.flipFire; simp
@[simp] theorem storeHot_clockwork (s : State) (k f i page ctx : Nat) (plain : Line) (marker : Bool) :
    (s.storeHot k f i page ctx plain marker).clockwork = s.clockwork := by
  unfold State.storeHot
  dsimp only
  repeat' split
  all_goals simp
@[simp] theorem noteMarker_clockwork (s : State) (k page line code : Nat) (injected : Bool) :
    (s.noteMarker k page line code injected).clockwork = s.clockwork := by unfold State.noteMarker; simp
@[simp] theorem writeFrame_clockwork (s0 : State) (k f page ctx : Nat) (fill : Nat → Fill) :
    (s0.writeFrame k f page ctx fill).clockwork = s0.clockwork := by
  refine (forN_clockwork _ _ (fun t i => ?_) _).trans (by simp)
  split <;> simp

/-! ### Operations of HubCache.lean -/

@[simp] theorem hcLookup_clockwork (s : State) (slab name : Nat) : (s.hcLookup slab name).2.clockwork = s.clockwork := by
  unfold State.hcLookup
  dsimp only
  repeat' split
  all_goals simp
@[simp] theorem hcInval_clockwork (s : State) (slab name : Nat) : (s.hcInval slab name).clockwork = s.clockwork := by
  unfold State.hcInval
  split <;> simp
@[simp] theorem hcSweep_clockwork (s : State) (slab : Nat) (c : Nat → Nat → HcEnt → Bool) (count : Bool) :
    (s.hcSweep slab c count).clockwork = s.clockwork := by unfold State.hcSweep; simp
@[simp] theorem hcInvalPage_clockwork (s : State) (page : Nat) (e : PEntry) (src : PState) :
    (s.hcInvalPage page e src).clockwork = s.clockwork := by unfold State.hcInvalPage; simp
@[simp] theorem vlbFrame_clockwork (s : State) (k f page : Nat) (zero : Nat → Bool) :
    (s.vlbFrame k f page zero).clockwork = s.clockwork := by unfold State.vlbFrame; simp
@[simp] theorem noticeVein_clockwork (s : State) (page : Nat) : (s.noticeVein page).clockwork = s.clockwork := by unfold State.noticeVein; simp
@[simp] theorem orderedWrite_clockwork (s : State) (page line : Nat) :
    (s.orderedWrite page line).clockwork = s.clockwork := by unfold State.orderedWrite; simp
@[simp] theorem hcUpdate_clockwork (s : State) (page k f i : Nat) (err : Codeword) : (s.hcUpdate page k f i err).clockwork = s.clockwork := by
  unfold State.hcUpdate
  dsimp only
  repeat' split
  all_goals simp
@[simp] theorem overflow_clockwork (s : State) (k f i page ctx : Nat) : (s.overflow k f i page ctx).clockwork = s.clockwork := by
  refine (forN_clockwork _ _ (fun t i => ?_) _).trans (by simp)
  split
  · rfl
  · refine foldl_clockwork _ (fun u v => ?_) _ _
    dsimp only
    split <;> simp
@[simp] theorem writeLine_clockwork (s : State) (k f i page ctx : Nat) (plain : Line) (poison : Nat) (injected : Bool) :
    (s.writeLine k f i page ctx plain poison injected).2.clockwork = s.clockwork := by
  unfold State.writeLine
  dsimp only
  repeat' split
  all_goals simp

/-! ### Operations of Regulate.lean -/

@[simp] theorem letIn_clockwork (s0 : State) (c page : Nat) (read : Bool) (stamp : Stroke) :
    (s0.letIn c page read stamp).2.clockwork = s0.clockwork := by unfold State.letIn; simp [apply_ite Prod.snd]
@[simp] theorem charge_clockwork (s0 : State) (cls : Option Nat) (stamp : Stroke) (n : Nat) : (s0.charge cls stamp n).clockwork = s0.clockwork := by
  unfold State.charge
  split <;> simp
@[simp] theorem closeTalliesIf_clockwork (s : State) (done : MissTally → Bool) :
    (s.closeTalliesIf done).clockwork = s.clockwork := by unfold State.closeTalliesIf; simp
@[simp] theorem closeTallies_clockwork (s : State) : s.closeTallies.clockwork = s.clockwork := by unfold State.closeTallies; simp

/-! ### Operations of Dir.lean -/

@[simp] theorem dirHit_clockwork (s : State) (page line : Nat) : (s.dirHit page line).clockwork = s.clockwork := by
  unfold State.dirHit
  split <;> simp
@[simp] theorem nearLeaves_clockwork (s : State) (c : ICLine) (recalled : Bool) :
    (s.nearLeaves c recalled).clockwork = s.clockwork := by unfold State.nearLeaves; simp
@[simp] theorem snoopHost_clockwork (s : State) (w : Waiting) (a : Nat) : (s.snoopHost w a).2.clockwork = s.clockwork := by
  unfold State.snoopHost
  split <;> simp
@[simp] theorem startRecall_clockwork (s : State) (w : Waiting) : (s.startRecall w).clockwork = s.clockwork := by
  refine (clockwork_home _ _).trans (foldl_snd_clockwork _ (fun acc h => ?_) _ _)
  split <;> simp
@[simp] theorem sendUnsent_clockwork (s : State) : s.sendUnsent.clockwork = s.clockwork := by
  refine (clockwork_home _ _).trans (foldl_snd_clockwork _ (fun acc w => ?_) _ _)
  refine foldl_snd_clockwork _ (fun b a => ?_) _ _
  split <;> simp
@[simp] theorem evict_clockwork (s : State) (slab set way : Nat) : (s.evict slab set way).clockwork = s.clockwork := by
  unfold State.evict
  dsimp only
  repeat' split
  all_goals simp
@[simp] theorem dirPut_clockwork (s : State) (page line : Nat) (e : DirEnt) : (s.dirPut page line e).clockwork = s.clockwork := by
  unfold State.dirPut
  dsimp only
  repeat' split
  all_goals simp

/-! ### Operations of Lanes.lean -/

@[simp] theorem grantLane_clockwork (s : State) (slab n : Nat) : (s.grantLane slab n).clockwork = s.clockwork := by
  unfold State.grantLane
  dsimp only
  repeat' split
  all_goals simp
@[simp] theorem grantLanes_clockwork (s : State) (slab : Nat) : (s.grantLanes slab).clockwork = s.clockwork := by unfold State.grantLanes; simp
@[simp] theorem askLane_clockwork (s : State) (slab : Nat) (w : LaneWork) :
    (s.askLane slab w).clockwork = s.clockwork := by unfold State.askLane; simp

/-! ### Operations of Place.lean -/

@[simp] theorem lineAlarm_clockwork (s : State) (cls : Nat) (r : HReq) (line media : Nat) :
    (s.lineAlarm cls r line media).clockwork = s.clockwork := by unfold State.lineAlarm; simp
@[simp] theorem memFault_clockwork (s : State) (page line poison : Nat) :
    (s.memFault page line poison).clockwork = s.clockwork := by unfold State.memFault; simp
@[simp] theorem fetchAcc_clockwork (s : State) (r : HReq) (v o n : Nat) :
    (s.fetchAcc r v o n).clockwork = s.clockwork := by unfold State.fetchAcc; simp
@[simp] theorem doneTo_clockwork (s : State) (r : HReq) (result : Nat) (vs : (List Nat)) :
    (s.doneTo r result vs).clockwork = s.clockwork := by unfold State.doneTo; simp
@[simp] theorem tellOwed_clockwork (s : State) (page : Nat) : (s.tellOwed page).clockwork = s.clockwork := by unfold State.tellOwed; simp
@[simp] theorem queueWrite_clockwork (s : State) (r : HReq) (k f : Nat) (tell : Bool) :
    (s.queueWrite r k f tell).clockwork = s.clockwork := by unfold State.queueWrite; simp
@[simp] theorem retryWrites_clockwork (s : State) : s.retryWrites.clockwork = s.clockwork := by unfold State.retryWrites; simp
@[simp] theorem oldHot_clockwork (s : State) (r : HReq) (k f : Nat) : (s.oldHot r k f).2.clockwork = s.clockwork := by
  unfold State.oldHot
  dsimp only
  repeat' split
  all_goals simp
@[simp] theorem clearBehind_clockwork (s : State) (k f page ctx : Nat) : (s.clearBehind k f page ctx).clockwork = s.clockwork := by
  unfold State.clearBehind
  split <;> simp
@[simp] theorem writeHot_clockwork (s : State) (r : HReq) (k f : Nat) (tell : Bool) : (s.writeHot r k f tell).clockwork = s.clockwork := by
  unfold State.writeHot
  extract_lets s0 put
  have h0 : s0.clockwork = s.clockwork := by simp [s0]
  have hput (t : State) (plain : Line) (poison : Nat) : (put t plain poison).clockwork = t.clockwork := by
    simp only [put]
    split <;> simp
  clear_value put s0
  repeat' split
  all_goals simp +zetaDelta [h0, hput]
@[simp] theorem admitMove_clockwork (s : State) (m : Move) : (s.admitMove m).2.clockwork = s.clockwork := by
  unfold State.admitMove
  repeat' split
  all_goals simp
@[simp] theorem dropBuffered_clockwork (s : State) (page : Nat) : (s.dropBuffered page).clockwork = s.clockwork := by
  unfold State.dropBuffered
  extract_lets _ t
  have ht : t.clockwork = s.clockwork := (rfl)
  clear_value t
  split
  · split
    · simp [ht]
    · exact ht
  · exact ht
@[simp] theorem dropRow_clockwork (s : State) (b : RowBuf) : (s.dropRow b).clockwork = s.clockwork := by
  refine foldl_clockwork _ (fun t x => ?_) _ _
  dsimp only
  repeat' split
  all_goals simp
@[simp] theorem dropStaleRows_clockwork (s : State) : s.dropStaleRows.clockwork = s.clockwork := by unfold State.dropStaleRows; simp
@[simp] theorem writeRow_clockwork (s0 : State) (b : RowBuf) : (s0.writeRow b).clockwork = s0.clockwork := by
  refine (clockwork_tier _ _).trans <| (clockwork_tier _ _).trans <| (spend_clockwork _ _ _).trans <|
    (forN_clockwork _ _ (fun t o => ?_) _).trans <| (setRow_clockwork _ _ _ _).trans <|
    (forN_clockwork _ _ (fun t l => ?_) _).trans <| (foldl_clockwork _ (fun t q => ?_) _ _).trans <|
    (bumpRow_clockwork _ _ _).trans (clockwork_tier _ _)
  · split <;> simp
  · simp
  · dsimp only
    repeat' split
    all_goals simp
@[simp] theorem pushGranule_clockwork (s : State) (v row page g : Nat) :
    (s.pushGranule v row page g).clockwork = s.clockwork := by unfold State.pushGranule; simp
theorem placeIn_clockwork {s t : State} {m : Move} {v : Nat} (h : s.placeIn m v = some t) : t.clockwork = s.clockwork := by
  unfold State.placeIn at h
  extract_lets s0 n rr push place fresh at h
  have hplace (t : State) (row q : Nat) : (place t row q).clockwork = t.clockwork := by simp [place, push, rr]
  have hfresh (t u : State) (hu : fresh t = some u) : u.clockwork = t.clockwork := by
    simp only [fresh] at hu
    obtain ⟨r0, -, hu⟩ := Option.bind_eq_some_iff.mp hu
    split at hu
    · obtain rfl := Option.some.inj hu
      exact hplace ..
    · obtain ⟨r1, -, rfl⟩ := Option.map_eq_some_iff.mp hu
      exact hplace ..
  have h0 : s0.clockwork = s.clockwork := dropStaleRows_clockwork s
  clear_value s0 place fresh
  rw [← h0]
  split at h
  · exact hfresh _ _ h
  · dsimp only at h
    split at h
    · obtain rfl := Option.some.inj h
      exact hplace ..
    · split at h
      · obtain rfl := Option.some.inj h
        exact hplace ..
      · exact (hfresh _ _ h).trans (writeRow_clockwork ..)
@[simp] theorem placeImage_clockwork (s : State) (m : Move) : (s.placeImage m).clockwork = s.clockwork := by
  unfold State.placeImage
  cases h : s.outVeins.findSome? (s.placeIn m) with
  | none => rfl
  | some t =>
    obtain ⟨v, -, hv⟩ := List.exists_of_findSome?_eq_some h
    exact placeIn_clockwork hv
@[simp] theorem startDemote_clockwork (s0 : State) (page : Nat) (fg : Bool) : (s0.startDemote page fg).clockwork = s0.clockwork := by
  unfold State.startDemote
  dsimp only
  repeat' split
  all_goals simp_all
@[simp] theorem sweep_clockwork (s : State) (k : Nat) : (s.sweep k).clockwork = s.clockwork := by
  unfold State.sweep
  extract_lets hi th frames cur order r t
  have ht : t.clockwork = s.clockwork := by
    refine (clockwork_tier _ _).trans (foldl_fst_clockwork _ (fun acc x => ?_) _ _)
    dsimp only
    repeat' split
    all_goals simp
  clear_value t
  split
  · exact ht
  · exact ht
@[simp] theorem sweepOn_clockwork (s : State) (k : Nat) : (s.sweepOn k).clockwork = s.clockwork := by unfold State.sweepOn; simp
@[simp] theorem afterAlloc_clockwork (s : State) (k : Nat) : (s.afterAlloc k).clockwork = s.clockwork := by unfold State.afterAlloc; simp
@[simp] theorem declareFull_clockwork (s : State) (page line : Nat) (stamp : Stroke) :
    (s.declareFull page line stamp).clockwork = s.clockwork := by unfold State.declareFull; simp
@[simp] theorem holdForRoom_clockwork (s : State) (r : HReq) (tell : Bool) :
    (s.holdForRoom r tell).clockwork = s.clockwork := by unfold State.holdForRoom; simp
@[simp] theorem watchRoom_clockwork (s : State) : s.watchRoom.clockwork = s.clockwork := by unfold State.watchRoom; simp
@[simp] theorem askDecode_clockwork (s : State) (page : Nat) : (s.askDecode page).clockwork = s.clockwork := by
  unfold State.askDecode
  split <;> simp
@[simp] theorem takeFrame_clockwork (s0 : State) (m0 : Move) : (s0.takeFrame m0).clockwork = s0.clockwork := by
  unfold State.takeFrame
  dsimp only
  repeat' split
  all_goals simp
@[simp] theorem askRecall_clockwork (s : State) (page : Nat) (e : PEntry) :
    (s.askRecall page e).clockwork = s.clockwork := by unfold State.askRecall; simp
@[simp] theorem payWaiting_clockwork (s : State) : s.payWaiting.clockwork = s.clockwork := by unfold State.payWaiting; simp
@[simp] theorem startPromote_clockwork (s : State) (page : Nat) (since : (Option Stroke)) :
    (s.startPromote page since).clockwork = s.clockwork := by unfold State.startPromote; simp
@[simp] theorem fillZero_clockwork (s : State) (r : HReq) (k f : Nat) (lines : List HeldLine) : (s.fillZero r k f lines).clockwork = s.clockwork := by
  unfold State.fillZero
  rw [afterAlloc_clockwork, vlbFrame_clockwork, writeFrame_clockwork, setEntry_clockwork]
@[simp] theorem holdWrite_clockwork (s : State) (r : HReq) (tell : Bool) :
    (s.holdWrite r tell).clockwork = s.clockwork := by unfold State.holdWrite; simp
@[simp] theorem holdMoving_clockwork (s : State) (r : HReq) (tell : Bool) : (s.holdMoving r tell).clockwork = s.clockwork := by
  unfold State.holdMoving
  split <;> simp
@[simp] theorem abandon_clockwork (s : State) (page : Nat) : (s.abandon page).clockwork = s.clockwork := by
  unfold State.abandon
  repeat' split
  all_goals simp
@[simp] theorem putWrite_clockwork (s : State) (r : HReq) (tell : Bool) : (s.putWrite r tell).clockwork = s.clockwork := by
  unfold State.putWrite
  dsimp only
  repeat' split
  all_goals simp
@[simp] theorem useRoom_clockwork (s : State) : s.useRoom.clockwork = s.clockwork := by
  refine (put_clockwork _ _ _ _ _ _).trans <| (clockwork_tier _ _).trans <| (foldl_clockwork _ (fun t x => ?_) _ _).trans <|
    foldl_clockwork _ (fun t m => ?_) _ _
  · split <;> simp
  · dsimp only
    split
    · split <;> simp
    · rfl
@[simp] theorem flip_clockwork (s : State) (page : Nat) (e : PEntry) : (s.flip page e).clockwork = s.clockwork := by
  unfold State.flip
  dsimp only
  repeat' split
  all_goals simp
@[simp] theorem sendFree_clockwork (s : State) (donor handle : Nat) :
    (s.sendFree donor handle).clockwork = s.clockwork := by unfold State.sendFree; simp
@[simp] theorem freeHandle_clockwork (s : State) (donor handle : Nat) :
    (s.freeHandle donor handle).clockwork = s.clockwork := by unfold State.freeHandle; simp
@[simp] theorem sendFrees_clockwork (s : State) : s.sendFrees.clockwork = s.clockwork := by unfold State.sendFrees; simp
@[simp] theorem erasePage_clockwork (s : State) (page : Nat) (st : PState) : (s.erasePage page st).clockwork = s.clockwork := by
  unfold State.erasePage
  split <;> simp

/-! ### Operations of ReadPath.lean -/

@[simp] theorem putRd_clockwork (s : State) (rd : Rd) : (s.putRd rd).clockwork = s.clockwork := by unfold State.putRd; simp
@[simp] theorem ready_clockwork (s : State) (rd0 : Rd) : (s.ready rd0).clockwork = s.clockwork := by
  unfold State.ready
  dsimp only
  repeat' split
  all_goals simp
@[simp] theorem bad_clockwork (s : State) (rd : Rd) (code : Nat) : (s.bad rd code).clockwork = s.clockwork := by unfold State.bad; simp
@[simp] theorem promoteBad_clockwork (s : State) (page : Nat) (bads : List (Nat × Nat)) : (s.promoteBad page bads).clockwork = s.clockwork := by
  unfold State.promoteBad
  dsimp only
  repeat' split
  all_goals simp
@[simp] theorem queueDeep_clockwork (s : State) (r : HReq) (v : Nat) (os : List Nat) :
    (s.queueDeep r v os).clockwork = s.clockwork := by unfold State.queueDeep; simp
@[simp] theorem startPrefetch_clockwork (s : State) (r : HReq) (k f : Nat) : (s.startPrefetch r k f).clockwork = s.clockwork := by
  unfold State.startPrefetch
  dsimp only
  repeat' split
  all_goals simp
@[simp] theorem judgeHot_clockwork (s : State) (rd : Rd) (x : Stored) (left : Nat) (want : Sealed) :
    (s.judgeHot rd x left want).2.1.clockwork = s.clockwork := by
  unfold State.judgeHot
  split <;> simp
@[simp] theorem serveHot_clockwork (s : State) (rd : Rd) (k f : Nat) : (s.serveHot rd k f).1.clockwork = s.clockwork := by
  unfold State.serveHot
  dsimp only
  repeat' split
  all_goals simp
@[simp] theorem serveDeep_clockwork (s : State) (rd : Rd) : (s.serveDeep rd).clockwork = s.clockwork := by
  unfold State.serveDeep
  dsimp only
  repeat' split
  all_goals simp
@[simp] theorem serveSpilled_clockwork (s : State) (rd : Rd) : (s.serveSpilled rd).clockwork = s.clockwork := by unfold State.serveSpilled; simp
@[simp] theorem serveMedia_clockwork (s : State) (rd : Rd) : (s.serveMedia rd).1.clockwork = s.clockwork := by
  unfold State.serveMedia
  dsimp only
  repeat' split
  all_goals simp
@[simp] theorem serve_clockwork (s : State) (r : HReq) (given : Option Line) : (s.serve r given).1.clockwork = s.clockwork := by
  unfold State.serve
  repeat' split
  all_goals simp
@[simp] theorem writeMarkerHot_clockwork (s : State) (r : HReq) (k f code : Nat) :
    (s.writeMarkerHot r k f code).clockwork = s.clockwork := by unfold State.writeMarkerHot; simp

/-! ### Operations of Home.lean -/

@[simp] theorem refuse_clockwork (s : State) (r : HReq) (why : Nat) : (s.refuse r why).clockwork = s.clockwork := by
  unfold State.refuse
  split <;> split <;> simp
@[simp] theorem writeBack_clockwork (s : State) (o page line : Nat) (data : Line) :
    (s.writeBack o page line data).clockwork = s.clockwork := by unfold State.writeBack; simp
@[simp] theorem promoteOnRead_clockwork (s : State) (page : Nat) :
    (s.promoteOnRead page).clockwork = s.clockwork := by unfold State.promoteOnRead; simp
@[simp] theorem serveR_clockwork (s : State) (r : HReq) (given : Option Line) :
    (s.serveR r given).clockwork = s.clockwork := by unfold State.serveR; simp
@[simp] theorem farStore_clockwork (s : State) (r : HReq) (l : Line) (changed : Bool) :
    (s.farStore r l changed).clockwork = s.clockwork := by unfold State.farStore; simp
@[simp] theorem farFlush_clockwork (s : State) (r : HReq) : (s.farFlush r).clockwork = s.clockwork := by
  unfold State.farFlush
  split <;> simp
@[simp] theorem doAtomic_clockwork (s : State) (r : HReq) : (s.doAtomic r).clockwork = s.clockwork := by
  unfold State.doAtomic
  dsimp only
  repeat' split
  all_goals simp
@[simp] theorem dirAfter_clockwork (s : State) (r : HReq) (e : DirEnt) : (s.dirAfter r e).clockwork = s.clockwork := by
  unfold State.dirAfter
  repeat' split
  all_goals simp
@[simp] theorem doRdS_clockwork (s : State) (r : HReq) (o : Nat) (e : DirEnt) (fwd : Option Line) : (s.doRdS r o e fwd).clockwork = s.clockwork := by
  unfold State.doRdS
  repeat' split
  all_goals simp
@[simp] theorem perform_clockwork (s : State) (r : HReq) (fwd : Option Line) : (s.perform r fwd).clockwork = s.clockwork := by
  unfold State.perform
  extract_lets +onlyGivenNames e s0
  have h0 : s0.clockwork = s.clockwork := by simp [s0]
  clear_value s0 e
  rw [← h0]
  split
  case h_2 | h_10 => split <;> simp
  case h_3 =>
    simp only [promoteOnRead_clockwork, serveR_clockwork, dirAfter_clockwork]
    split <;> split <;> simp
  case h_11 | h_12 =>
    split
    · simp
    · rfl
  case h_13 =>
    split
    · split
      · simp only [doneTo_clockwork, dirPut_clockwork, writeBack_clockwork, icDrop_clockwork]
        split <;> simp
      · simp
    · rfl
  case h_14 =>
    split
    · split <;> simp
    · rfl
  all_goals simp
@[simp] theorem pmapDone_clockwork (s : State) (slab : Nat) (extra : (Option Fld)) : (s.pmapDone slab extra).clockwork = s.clockwork := by
  unfold State.pmapDone
  split <;> simp
@[simp] theorem hcacDone_clockwork (s : State) (slab : Nat) (extra : (Option Fld)) : (s.hcacDone slab extra).clockwork = s.clockwork := by
  unfold State.hcacDone
  split <;> simp
@[simp] theorem doDiscard_clockwork (s : State) (r : HReq) : (s.doDiscard r).clockwork = s.clockwork := by unfold State.doDiscard; simp
@[simp] theorem hcPageInval_clockwork (s : State) (page : Nat) : (s.hcPageInval page).clockwork = s.clockwork := by unfold State.hcPageInval; simp
@[simp] theorem pageCmd_clockwork (s : State) (r : HReq) : (s.pageCmd r).clockwork = s.clockwork := by
  unfold State.pageCmd
  dsimp only
  repeat' split
  all_goals simp
@[simp] theorem mapLookup_clockwork (s : State) (page : Nat) : (s.mapLookup page).clockwork = s.clockwork := by unfold State.mapLookup; simp
@[simp] theorem process_clockwork (s0 : State) (r : HReq) : (s0.process r).clockwork = s0.clockwork := by
  unfold State.process
  extract_lets cached s
  have hs : s.clockwork = s0.clockwork := mapLookup_clockwork ..
  clear_value s
  rw [← hs]
  repeat' split
  all_goals simp +zetaDelta
@[simp] theorem order_clockwork (s : State) (r0 : HReq) : (s.order r0).clockwork = s.clockwork := by unfold State.order; simp
@[simp] theorem drainN_clockwork (n : Nat) (s : State) : (State.drainN n s).clockwork = s.clockwork := by
  induction n generalizing s with
  | zero => rfl
  | succ n ih =>
    unfold State.drainN
    split
    · simp [ih]
    · split
      · simp [ih]
      · rfl
@[simp] theorem settle_clockwork (s : State) : s.settle.clockwork = s.clockwork := by unfold State.settle; simp
@[simp] theorem enter_clockwork (s : State) (r : HReq) : (s.enter r).clockwork = s.clockwork := by unfold State.enter; simp
@[simp] theorem finishWait_clockwork (s : State) (w : Waiting) : (s.finishWait w).clockwork = s.clockwork := by unfold State.finishWait; simp
@[simp] theorem finishWaits_clockwork (s : State) : s.finishWaits.clockwork = s.clockwork := by unfold State.finishWaits; simp
@[simp] theorem hostWriteBack_clockwork (s : State) (a page line : Nat) (d : Line) :
    (s.hostWriteBack a page line d).clockwork = s.clockwork := by unfold State.hostWriteBack; simp

/-! ### Operations of HostCmd.lean -/

@[simp] theorem turnAway_clockwork (s : State) (r : HReq) (code : Nat) : (s.turnAway r code).clockwork = s.clockwork := by
  unfold State.turnAway
  split <;> simp
theorem passAhead_clockwork {s t : State} {r : HReq} {a : Nat} (h : s.passAhead r a = some t) : t.clockwork = s.clockwork := by
  unfold State.passAhead at h
  dsimp only at h
  split at h
  · obtain rfl := Option.some.inj h
    split <;> simp
  · cases h
@[simp] theorem hostArrive_clockwork (s : State) (a : Nat) (r0 : HReq) : (s.hostArrive a r0).clockwork = s.clockwork := by
  unfold State.hostArrive
  dsimp only
  repeat' split
  any_goals simp
  next h => exact (passAhead_clockwork h).trans (letIn_clockwork ..)
@[simp] theorem replayEarly_clockwork (s : State) : s.replayEarly.clockwork = s.clockwork := by unfold State.replayEarly; simp
@[simp] theorem releaseHeld_clockwork (s : State) : s.releaseHeld.clockwork = s.clockwork := by
  refine (clockwork_regu _ _ ?_).trans <| (foldl_fst_clockwork _ (fun acc x => ?_) _ _).trans (clockwork_regu _ _ ?_)
  · rfl
  · split <;> simp
  · rfl
@[simp] theorem dropInFlight_clockwork (s : State) (a : Nat) : (s.dropInFlight a).clockwork = s.clockwork := by unfold State.dropInFlight; simp

/-! ### Operations of HomeCmd.lean -/

@[simp] theorem enterInt_clockwork (s : State) (k : ReqKind) (o page line ctx : Nat) (f : (HReq → HReq)) :
    (s.enterInt k o page line ctx f).clockwork = s.clockwork := by unfold State.enterInt; simp
@[simp] theorem departEdge_clockwork (s : State) (a : Nat) : (s.departEdge a).clockwork = s.clockwork := by unfold State.departEdge; simp
@[simp] theorem departEdges_clockwork (s : State) : s.departEdges.clockwork = s.clockwork := by unfold State.departEdges; simp
@[simp] theorem cmdDirq_clockwork (s : State) (agent slab line : Nat) :
    (s.cmdDirq agent slab line).clockwork = s.clockwork := by unfold State.cmdDirq; simp
@[simp] theorem pmapCmd_clockwork (s : State) (slab : Nat) (k : ReqKind) : (s.pmapCmd slab k).clockwork = s.clockwork := by unfold State.pmapCmd; simp
@[simp] theorem cmdPmapReadEntry_clockwork (s : State) (agent slab : Nat) :
    (s.cmdPmapReadEntry agent slab).clockwork = s.clockwork := by unfold State.cmdPmapReadEntry; simp
@[simp] theorem cmdPmapPin_clockwork (s : State) (agent slab : Nat) :
    (s.cmdPmapPin agent slab).clockwork = s.clockwork := by unfold State.cmdPmapPin; simp
@[simp] theorem cmdPmapUnpin_clockwork (s : State) (agent slab : Nat) :
    (s.cmdPmapUnpin agent slab).clockwork = s.clockwork := by unfold State.cmdPmapUnpin; simp
@[simp] theorem cmdPmapDiscard_clockwork (s : State) (agent slab : Nat) :
    (s.cmdPmapDiscard agent slab).clockwork = s.clockwork := by unfold State.cmdPmapDiscard; simp
@[simp] theorem hcacPageCmd_clockwork (s : State) (agent slab op : Nat) :
    (s.hcacPageCmd agent slab op).clockwork = s.clockwork := by unfold State.hcacPageCmd; simp
@[simp] theorem hcacSetWay_clockwork (s : State) (agent slab set way : Nat) :
    (s.hcacSetWay agent slab set way).clockwork = s.clockwork := by unfold State.hcacSetWay; simp
@[simp] theorem hcacAll_clockwork (s : State) (agent slab : Nat) : (s.hcacAll agent slab).clockwork = s.clockwork := by unfold State.hcacAll; simp
@[simp] theorem hcacWrite_clockwork (s : State) (agent slab : Nat) (w : ResetWork) (f : State → State)
    (h : ∀ t, (f t).clockwork = t.clockwork) : (s.hcacWrite agent slab w f).clockwork = s.clockwork := by
  simp [State.hcacWrite, h]
@[simp] theorem cmdHcacInvalPage_clockwork (s : State) (agent slab : Nat) :
    (s.cmdHcacInvalPage agent slab).clockwork = s.clockwork := by unfold State.cmdHcacInvalPage; simp
@[simp] theorem cmdHcacCleanPage_clockwork (s : State) (agent slab : Nat) :
    (s.cmdHcacCleanPage agent slab).clockwork = s.clockwork := by unfold State.cmdHcacCleanPage; simp
@[simp] theorem cmdHcacCleanInvalPage_clockwork (s : State) (agent slab : Nat) :
    (s.cmdHcacCleanInvalPage agent slab).clockwork = s.clockwork := by unfold State.cmdHcacCleanInvalPage; simp
@[simp] theorem cmdHcacInvalSetWay_clockwork (s : State) (agent slab set way : Nat) :
    (s.cmdHcacInvalSetWay agent slab set way).clockwork = s.clockwork := by unfold State.cmdHcacInvalSetWay; simp
@[simp] theorem cmdHcacInvalAll_clockwork (s : State) (agent slab : Nat) :
    (s.cmdHcacInvalAll agent slab).clockwork = s.clockwork := by unfold State.cmdHcacInvalAll; simp
@[simp] theorem cmdHcacRepartition_clockwork (s : State) (agent slab ways : Nat) :
    (s.cmdHcacRepartition agent slab ways).clockwork = s.clockwork := by
  -- The definition is unfolded under an equation, so that the kernel need not run the access check of a concrete page.
  have key (F) (hF : F = @State.cmdHcacRepartition) : (F s agent slab ways).clockwork = s.clockwork := by
    delta State.cmdHcacRepartition at hF
    subst hF
    beta_reduce
    extract_lets +onlyGivenNames off
    split
    · exact denied_clockwork ..
    · split
      · exact denied_clockwork ..
      · split
        · rfl
        · exact put_clockwork s .hcac slab F.HCAC_PART_REPART_BUSY 1 0
  exact key _ rfl

/-! ### Operations of Port.lean -/

@[simp] theorem abortMailbox_clockwork (s : State) (a : Nat) : (s.abortMailbox a).clockwork = s.clockwork := by unfold State.abortMailbox; simp
@[simp] theorem linkFalls_clockwork (s : State) (a : Nat) : (s.linkFalls a).clockwork = s.clockwork := by unfold State.linkFalls; simp
@[simp] theorem irqEdge_clockwork (s : State) : s.irqEdge.clockwork = s.clockwork := by unfold State.irqEdge; simp
@[simp] theorem cmdPortIrqRearm_clockwork (s : State) (agent port mask : Nat) :
    (s.cmdPortIrqRearm agent port mask).clockwork = s.clockwork := by unfold State.cmdPortIrqRearm; simp

/-! ### Operations of TierCmd.lean -/

/-- Stated apart: closed by `rfl` in place, the kernel would run into the image's bytes. -/
theorem clockwork_triple (a : List Byte) (b : List (Nat × Nat)) (u : State) : (a, b, u).2.2.clockwork = u.clockwork := rfl
@[simp] theorem readImage_clockwork (s0 : State) (page : Nat) (e : PEntry) (errs : List LineErr) (who : Option Requester) :
    (s0.readImage page e errs who).2.2.clockwork = s0.clockwork := by
  unfold State.readImage
  extract_lets +onlyGivenNames gs _ r s
  have hs : s.clockwork = s0.clockwork := by
    simp only [s]
    split <;> simp
  clear_value r s gs
  refine (foldl_snd_snd_clockwork _ (fun acc n c hc => ?_) _ _).trans hs
  beta_reduce at hc
  extract_lets +onlyGivenNames t g fail at hc
  have hf (c : Nat) (u : State) : (fail c u).2.2 = u := rfl
  split at hc
  · rw [← hc, hf]
  · split at hc
    · rw [← hc, hf]
    · extract_lets +onlyGivenNames key x got want at hc
      have hg : got.2.clockwork = acc.2.2.clockwork := fetchMac_clockwork ..
      clear_value got want x key g fail
      rw [← hc, ← hg]
      split
      · split
        · exact clockwork_triple _ _ _
        · rw [hf]
          rw [lineAlarm_clockwork]
      · split
        · rw [hf]
        · rw [hf]
          rw [lineAlarm_clockwork]
      · rw [hf]
        rw [memFault_clockwork]
@[simp] theorem imageFault_clockwork (s0 : State) (sl page cause poison : Nat) :
    (s0.imageFault sl page cause poison).clockwork = s0.clockwork := by unfold State.imageFault; simp
@[simp] theorem badImage_clockwork (s : State) (page : Nat) (c : DecErr) :
    (s.badImage page c).clockwork = s.clockwork := by unfold State.badImage; simp
@[simp] theorem retryPlaces_clockwork (s : State) : s.retryPlaces.clockwork = s.clockwork := by unfold State.retryPlaces; simp
@[simp] theorem giveImage_clockwork (s : State) (m : Move) (image : List Byte) (isPlain : Bool) :
    (s.giveImage m image isPlain).clockwork = s.clockwork := by unfold State.giveImage; simp
@[simp] theorem startRewrite_clockwork (s : State) (page : Nat) (fg : Bool) : (s.startRewrite page fg).clockwork = s.clockwork := by
  unfold State.startRewrite
  dsimp only
  repeat' split
  all_goals simp
@[simp] theorem moverWork_clockwork (s : State) (recomp : Bool) : (s.moverWork recomp).clockwork = s.clockwork := by
  unfold State.moverWork
  extract_lets idle s0 s1 s2
  have h1 : s1.clockwork = s.clockwork := by
    refine (forN_clockwork _ _ (fun t k => ?_) _).trans <| (forN_clockwork _ _ (fun t k => ?_) _).trans (by simp [s0])
    · extract_lets lim ps t1 d t2
      have ht1 : t1.clockwork = t.clockwork := by simp [t1]
      have ht2 : t2.clockwork = t.clockwork := by simp [t2, ht1]
      clear_value t2
      split
      · exact ht2
      · split
        · exact (startRewrite_clockwork ..).trans ht2
        · exact ht2
    · simp
  have h2 : s2.clockwork = s1.clockwork := by
    simp only [s2]
    split
    · split
      · simp
      · rfl
    · rfl
  clear_value s2
  split
  · rw [h2, h1]
  · refine (forN_clockwork _ _ (fun t v => ?_) _).trans (h2.trans h1)
    dsimp only
    split
    · rfl
    · split <;> simp

/-! ### Operations of VeinCmd.lean -/

@[simp] theorem force_clockwork (s : State) (c : Nat) : (s.force c).clockwork = s.clockwork := by unfold State.force; simp
@[simp] theorem veinEdge_clockwork (s : State) (v : Nat) : (s.veinEdge v).clockwork = s.clockwork := by unfold State.veinEdge; simp
@[simp] theorem reportCongestion_clockwork (s : State) : s.reportCongestion.clockwork = s.clockwork := by unfold State.reportCongestion; simp

/-! ### Operations of Protect.lean -/

@[simp] theorem scrubSitting_clockwork (s : State) : s.scrubSitting.clockwork = s.clockwork := by unfold State.scrubSitting; simp
@[simp] theorem bucketLeak_clockwork (s : State) : s.bucketLeak.clockwork = s.clockwork := by unfold State.bucketLeak; simp
@[simp] theorem flipCtl_clockwork (s : State) (sl v : Nat) : (s.flipCtl sl v).clockwork = s.clockwork := by unfold State.flipCtl; simp
@[simp] theorem cmdFlipArm_clockwork (s : State) (agent slab value : Nat) :
    (s.cmdFlipArm agent slab value).clockwork = s.clockwork := by unfold State.cmdFlipArm; simp
@[simp] theorem diptRetire_clockwork (s : State) (k ofs side : Nat) :
    (s.diptRetire k ofs side).clockwork = s.clockwork := by unfold State.diptRetire; simp
@[simp] theorem cmdDiptRetire_clockwork (s : State) (agent k ofs side : Nat) :
    (s.cmdDiptRetire agent k ofs side).clockwork = s.clockwork := by unfold State.cmdDiptRetire; simp
@[simp] theorem serveHeld_clockwork (s : State) : s.serveHeld.clockwork = s.clockwork := by unfold State.serveHeld; simp
@[simp] theorem bitmapEdge_clockwork (s : State) : s.bitmapEdge.clockwork = s.clockwork := by unfold State.bitmapEdge; simp
@[simp] theorem diptLayer_clockwork (s : State) : s.diptLayer.clockwork = s.clockwork := by
  unfold State.diptLayer
  extract_lets back s1
  have h1 : s1.clockwork = s.clockwork := by
    refine forN_clockwork _ _ (fun t k => ?_) _
    dsimp only
    repeat' split
    all_goals simp
  clear_value s1 back
  cases back with
  | none => exact h1
  | some d => exact (forN_clockwork _ _ (fun t v => put_clockwork ..) _).trans h1

/-! ### Operations of Mailbox.lean -/

@[simp] theorem releasePages_clockwork (s : State) (first n : Nat) (cut : State → State) (h : ∀ t, (cut t).clockwork = t.clockwork) :
    (s.releasePages first n cut).clockwork = s.clockwork := by
  simp [State.releasePages, h]
@[simp] theorem askBack_clockwork (s : State) : s.askBack.clockwork = s.clockwork := by unfold State.askBack; simp

/-! ### Operations of Keys.lean -/

@[simp] theorem keysDone_clockwork (s : State) (slab err : Nat) : (s.keysDone slab err).clockwork = s.clockwork := by unfold State.keysDone; simp
@[simp] theorem keysFill_clockwork (s : State) (slab : Nat) (keys : State → Option KeyMaterial × State)
    (h : ∀ t, (keys t).2.clockwork = t.clockwork) : (s.keysFill slab keys).clockwork = s.clockwork := by
  have hk := h s
  unfold State.keysFill
  generalize keys s = x at hk ⊢
  obtain ⟨y, t⟩ := x
  dsimp only
  repeat' split
  all_goals simp_all
@[simp] theorem keysGenerate_clockwork (s : State) (slab : Nat) : (s.keysGenerate slab).clockwork = s.clockwork := by unfold State.keysGenerate; simp
@[simp] theorem keysLoad_clockwork (s : State) (slab : Nat) : (s.keysLoad slab).clockwork = s.clockwork := by unfold State.keysLoad; simp
@[simp] theorem keysUnwrap_clockwork (s : State) (slab kek : Nat) :
    (s.keysUnwrap slab kek).clockwork = s.clockwork := by unfold State.keysUnwrap; simp
@[simp] theorem keysErase_clockwork (s : State) (slab : Nat) : (s.keysErase slab).clockwork = s.clockwork := by unfold State.keysErase; simp
@[simp] theorem keysWriteAttr_clockwork (s : State) (slab : Nat) :
    (s.keysWriteAttr slab).clockwork = s.clockwork := by unfold State.keysWriteAttr; simp
@[simp] theorem keysReadAttr_clockwork (s : State) (slab : Nat) : (s.keysReadAttr slab).clockwork = s.clockwork := by unfold State.keysReadAttr; simp
@[simp] theorem keysEdge_clockwork (s : State) : s.keysEdge.clockwork = s.clockwork := by unfold State.keysEdge; simp
@[simp] theorem cmdKeysGenerate_clockwork (s : State) (agent slab : Nat) :
    (s.cmdKeysGenerate agent slab).clockwork = s.clockwork := by unfold State.cmdKeysGenerate; simp
@[simp] theorem cmdKeysLoad_clockwork (s : State) (agent slab : Nat) :
    (s.cmdKeysLoad agent slab).clockwork = s.clockwork := by unfold State.cmdKeysLoad; simp
@[simp] theorem cmdKeysUnwrap_clockwork (s : State) (agent slab kek : Nat) :
    (s.cmdKeysUnwrap agent slab kek).clockwork = s.clockwork := by unfold State.cmdKeysUnwrap; simp
@[simp] theorem cmdKeysErase_clockwork (s : State) (agent slab : Nat) :
    (s.cmdKeysErase agent slab).clockwork = s.clockwork := by unfold State.cmdKeysErase; simp
@[simp] theorem cmdKeysWriteAttr_clockwork (s : State) (agent slab : Nat) :
    (s.cmdKeysWriteAttr agent slab).clockwork = s.clockwork := by unfold State.cmdKeysWriteAttr; simp
@[simp] theorem cmdKeysReadAttr_clockwork (s : State) (agent slab : Nat) :
    (s.cmdKeysReadAttr agent slab).clockwork = s.clockwork := by unfold State.cmdKeysReadAttr; simp

/-! ### Operations of Ring.lean -/

@[simp] theorem chooseTiming_clockwork (s : State) : s.chooseTiming.clockwork = s.clockwork := by unfold State.chooseTiming; simp
@[simp] theorem closeCells_clockwork (s : State) (p : Nat) : (s.closeCells p).clockwork = s.clockwork := by unfold State.closeCells; simp
@[simp] theorem listen_clockwork (s : State) (p : Nat) : (s.listen p).clockwork = s.clockwork := by unfold State.listen; simp
@[simp] theorem turnFrames_clockwork (s : State) (p sd : Nat) : (s.turnFrames p sd).clockwork = s.clockwork := by unfold State.turnFrames; simp
@[simp] theorem wrapSide_clockwork (s : State) (p sd : Nat) : (s.wrapSide p sd).clockwork = s.clockwork := by unfold State.wrapSide; simp
@[simp] theorem sideDown_clockwork (s : State) (p sd : Nat) : (s.sideDown p sd).clockwork = s.clockwork := by unfold State.sideDown; simp
@[simp] theorem replayEarly8_clockwork (s : State) : s.replayEarly8.clockwork = s.clockwork := by
  refine forN_clockwork _ _ (fun t i => ?_) _
  split
  · split <;> simp
  · rfl
@[simp] theorem lodeFault_clockwork (s : State) (cls p : Nat) : (s.lodeFault cls p).clockwork = s.clockwork := by unfold State.lodeFault; simp
@[simp] theorem startEnum_clockwork (s : State) (p : Nat) : (s.startEnum p).clockwork = s.clockwork := by unfold State.startEnum; simp
@[simp] theorem assign_clockwork (s : State) (p : Nat) (j : JoinReq) (pos : Option Nat) :
    (s.assign p j pos).clockwork = s.clockwork := by unfold State.assign; simp
@[simp] theorem assignAll_clockwork (s : State) (p : Nat) : (s.assignAll p).clockwork = s.clockwork := by
  refine (newOrder_clockwork _ _).trans <| (modPair_clockwork _ _ _).trans <| (foldl_fst_clockwork _ (fun acc j => ?_) _ _).trans <|
    (foldl_fst_clockwork _ (fun acc j => ?_) _ _).trans <| foldl_clockwork _ (fun t j => ?_) _ _
  · split <;> simp
  · split <;> simp
  · simp
@[simp] theorem doJoinReq_clockwork (s : State) (p side : Nat) (f : Frame) : (s.doJoinReq p side f).clockwork = s.clockwork := by
  unfold State.doJoinReq
  dsimp only
  repeat' split
  all_goals simp
@[simp] theorem doAssign_clockwork (s : State) (p : Nat) (f : Frame) : (s.doAssign p f).clockwork = s.clockwork := by unfold State.doAssign; simp
@[simp] theorem doOrder_clockwork (s : State) (p : Nat) (f : Frame) : (s.doOrder p f).clockwork = s.clockwork := by unfold State.doOrder; simp
@[simp] theorem sendLskp_clockwork (s : State) : s.sendLskp.clockwork = s.clockwork := by unfold State.sendLskp; simp
@[simp] theorem unwrapEdge_clockwork (s : State) : s.unwrapEdge.clockwork = s.clockwork := by
  refine foldl_clockwork _ (fun t x => ?_) _ _
  dsimp only
  repeat' split
  all_goals simp
@[simp] theorem spliceEdge_clockwork (s : State) : s.spliceEdge.clockwork = s.clockwork := by
  refine foldl_clockwork _ (fun t x => ?_) _ _
  dsimp only
  repeat' split
  all_goals simp
@[simp] theorem cmdLodeRejoin_clockwork (s : State) (agent : Nat) :
    (s.cmdLodeRejoin agent).clockwork = s.clockwork := by unfold State.cmdLodeRejoin; simp
@[simp] theorem cmdRingRevive_clockwork (s : State) (agent slab sides : Nat) :
    (s.cmdRingRevive agent slab sides).clockwork = s.clockwork := by unfold State.cmdRingRevive; simp

/-! ### Operations of Spill.lean -/

@[simp] theorem spillWatch_clockwork (s : State) : s.spillWatch.clockwork = s.clockwork := by unfold State.spillWatch; simp
@[simp] theorem startRecallDeep_clockwork (s : State) (page : Nat) :
    (s.startRecallDeep page).clockwork = s.clockwork := by unfold State.startRecallDeep; simp
@[simp] theorem doReturn_clockwork (s : State) (f : Frame) : (s.doReturn f).clockwork = s.clockwork := by
  unfold State.doReturn
  split <;> simp
@[simp] theorem sendReturn_clockwork (s : State) (x : Lent) : (s.sendReturn x).clockwork = s.clockwork := by unfold State.sendReturn; simp
@[simp] theorem askReturns_clockwork (s : State) : s.askReturns.clockwork = s.clockwork := by unfold State.askReturns; simp
@[simp] theorem offerHandle_clockwork (s : State) (dst tag g : Nat) : (s.offerHandle dst tag g).clockwork = s.clockwork := by
  unfold State.offerHandle
  dsimp only
  repeat' split
  all_goals simp
@[simp] theorem doSpillReq_clockwork (s : State) (f : Frame) : (s.doSpillReq f).clockwork = s.clockwork := by unfold State.doSpillReq; simp
@[simp] theorem doSpillRead_clockwork (s : State) (p side : Nat) (f : Frame) : (s.doSpillRead p side f).clockwork = s.clockwork := by
  unfold State.doSpillRead
  dsimp only
  repeat' split
  all_goals simp
@[simp] theorem doSpillFree_clockwork (s : State) (p side : Nat) (f : Frame) :
    (s.doSpillFree p side f).clockwork = s.clockwork := by unfold State.doSpillFree; simp
@[simp] theorem doDecline_clockwork (s : State) (p side : Nat) (f : Frame) : (s.doDecline p side f).clockwork = s.clockwork := by
  unfold State.doDecline
  dsimp only
  repeat' split
  all_goals simp

/-! ### Operations of RingFrames.lean -/

@[simp] theorem sendOrder_clockwork (s : State) : s.sendOrder.clockwork = s.clockwork := by unfold State.sendOrder; simp
@[simp] theorem writeTarget_clockwork (s : State) (pos donor hops valid allow : Nat) :
    (s.writeTarget pos donor hops valid allow).clockwork = s.clockwork := by unfold State.writeTarget; simp
@[simp] theorem retarget_clockwork (s : State) : s.retarget.clockwork = s.clockwork := by unfold State.retarget; simp
@[simp] theorem headStroke_clockwork (s : State) : s.headStroke.clockwork = s.clockwork := by unfold State.headStroke; simp
@[simp] theorem headWindow_clockwork (s : State) : s.headWindow.clockwork = s.clockwork := by unfold State.headWindow; simp
@[simp] theorem headReport_clockwork (s : State) : s.headReport.clockwork = s.clockwork := by
  unfold State.headReport
  extract_lets k q blank body
  split
  · exact sendOn_clockwork ..
  · rfl
@[simp] theorem spillPlan_clockwork (s : State) : s.spillPlan.clockwork = s.clockwork := by
  unfold State.spillPlan
  split
  · rfl
  · extract_lets x pos entry valid pool
    clear_value valid pool entry
    refine foldl_clockwork _ (fun t p => ?_) _ _
    split
    · rfl
    · split
      · rfl
      · extract_lets cand better best
        clear_value best
        split <;> simp
@[simp] theorem xferLoad_clockwork (s : State) (b : List Byte) : (s.xferLoad b).2.clockwork = s.clockwork := by
  unfold State.xferLoad
  dsimp only
  repeat' split
  all_goals simp
@[simp] theorem doKeyXfer_clockwork (s : State) (f : Frame) : (s.doKeyXfer f).clockwork = s.clockwork := by unfold State.doKeyXfer; simp
@[simp] theorem evacuate_clockwork (s : State) (deadline : Nat) : (s.evacuate deadline).clockwork = s.clockwork := by unfold State.evacuate; simp
@[simp] theorem cancelEvac_clockwork (s : State) : s.cancelEvac.clockwork = s.clockwork := by unfold State.cancelEvac; simp
@[simp] theorem doCmd_clockwork (s : State) (f : Frame) : (s.doCmd f).clockwork = s.clockwork := by unfold State.doCmd; simp

/-! ### Operations of Ledger.lean -/

@[simp] theorem sensorRequest_clockwork (s : State) (ch : Nat) : (s.sensorRequest ch).clockwork = s.clockwork := by unfold State.sensorRequest; simp
@[simp] theorem cmdSensorRequest_clockwork (s : State) (agent ch : Nat) :
    (s.cmdSensorRequest agent ch).clockwork = s.clockwork := by unfold State.cmdSensorRequest; simp
@[simp] theorem takeEntry_clockwork (s : State) : s.takeEntry.clockwork = s.clockwork := by
  unfold State.takeEntry
  dsimp only
  repeat' split
  all_goals simp

/-! ### Operations of JobMem.lean -/

@[simp] theorem jobStored_clockwork (s : State) (env : JobEnv) (r : HReq) : (s.jobStored env r).2.clockwork = s.clockwork := by
  unfold State.jobStored
  dsimp only
  repeat' split
  all_goals simp
@[simp] theorem jobRead_clockwork (s : State) (env : JobEnv) (who : Requester) (ctx page line : Nat) (snoop : Bool) :
    (s.jobRead env who ctx page line snoop).2.clockwork = s.clockwork := by
  unfold State.jobRead
  dsimp only
  repeat' split
  all_goals simp
@[simp] theorem jobRecall_clockwork (s : State) (env : JobEnv) (page line : Nat) (keep : Option Nat) :
    (s.jobRecall env page line keep).clockwork = s.clockwork := by
  unfold State.jobRecall
  extract_lets e s1 s2 s3 s4
  have h1 : s1.clockwork = s.clockwork := by simp [s1]
  have h2 : s2.clockwork = s1.clockwork := by
    simp only [s2]
    split <;> simp
  have h3 : s3.clockwork = s2.clockwork := by
    simp only [s3]
    split
    · rfl
    · split <;> simp
  have h4 : s4.clockwork = s3.clockwork := by
    refine foldl_clockwork _ (fun t o => ?_) _ _
    split
    · rfl
    · split <;> simp
  split
  · rw [h4, h3, h2, h1]
  · rw [dirPut_clockwork, h4, h3, h2, h1]
@[simp] theorem jobWrite_clockwork (s : State) (env : JobEnv) (who : Requester) (ctx page line : Nat) (data : Line) (mask : BitVec 64)
    (poison : Bool) :
    (s.jobWrite env who ctx page line data mask poison).2.clockwork = s.clockwork := by
  unfold State.jobWrite
  dsimp only
  repeat' split
  all_goals simp
@[simp] theorem jobStore_clockwork (s : State) (env : JobEnv) (who : Requester) (ctx addr : Nat) (data : List Byte) :
    (s.jobStore env who ctx addr data).2.clockwork = s.clockwork := by
  refine foldl_snd_clockwork _ (fun acc j => ?_) _ _
  dsimp only
  split <;> simp
@[simp] theorem hostStore_clockwork (s : State) (env : JobEnv) (a addr : Nat) (data : List Byte) :
    (s.hostStore env a addr data).2.clockwork = s.clockwork := by
  unfold State.hostStore
  split <;> simp

/-! ### Operations of Offload.lean -/

@[simp] theorem oDoorbell_clockwork (s : State) (sl q tail : Nat) : (s.oDoorbell sl q tail).clockwork = s.clockwork := by unfold State.oDoorbell; simp
@[simp] theorem cmdOfldDoorbell_clockwork (s : State) (agent slab q tail : Nat) :
    (s.cmdOfldDoorbell agent slab q tail).clockwork = s.clockwork := by unfold State.cmdOfldDoorbell; simp
@[simp] theorem writeHeader_clockwork (s : State) (env : JobEnv) (sl n : Nat) (c : Ctx) (active : Bool) :
    (s.writeHeader env sl n c active).clockwork = s.clockwork := by unfold State.writeHeader; simp
@[simp] theorem leaveCtx_clockwork (s : State) (j : OJob) : (s.leaveCtx j).clockwork = s.clockwork := by
  unfold State.leaveCtx
  repeat' split
  all_goals simp
@[simp] theorem endJob_clockwork (s : State) (j : OJob) : (s.endJob j).clockwork = s.clockwork := by unfold State.endJob; simp
@[simp] theorem writeORec_clockwork (s : State) (r : ORec) : (s.writeORec r).clockwork = s.clockwork := by unfold State.writeORec; simp
@[simp] theorem drainHeld_clockwork (s : State) (sl q : Nat) : (s.drainHeld sl q).clockwork = s.clockwork := by unfold State.drainHeld; simp
@[simp] theorem cmdOfldCqHead_clockwork (s : State) (agent slab q head : Nat) :
    (s.cmdOfldCqHead agent slab q head).clockwork = s.clockwork := by unfold State.cmdOfldCqHead; simp
@[simp] theorem oAbort_clockwork (s : State) (sl q : Nat) : (s.oAbort sl q).clockwork = s.clockwork := by unfold State.oAbort; simp
@[simp] theorem oQueueEn_clockwork (s : State) (sl value : Nat) : (s.oQueueEn sl value).clockwork = s.clockwork := by unfold State.oQueueEn; simp
@[simp] theorem cmdOfldAbort_clockwork (s : State) (agent slab value : Nat) :
    (s.cmdOfldAbort agent slab value).clockwork = s.clockwork := by unfold State.cmdOfldAbort; simp

/-! ### Operations of Query.lean -/

@[simp] theorem qDoorbell_clockwork (s : State) (q tail : Nat) : (s.qDoorbell q tail).clockwork = s.clockwork := by unfold State.qDoorbell; simp
@[simp] theorem cmdQengDoorbell_clockwork (s : State) (agent q tail : Nat) :
    (s.cmdQengDoorbell agent q tail).clockwork = s.clockwork := by unfold State.cmdQengDoorbell; simp
@[simp] theorem qWrite_clockwork (s : State) (env : JobEnv) (q : Nat) (host : Bool) (addr : Nat) (data : List Byte) :
    (s.qWrite env q host addr data).2.clockwork = s.clockwork := by
  unfold State.qWrite
  split <;> simp
@[simp] theorem qEvict_clockwork (s : State) (c : ICLine) : (s.qEvict c).clockwork = s.clockwork := by unfold State.qEvict; simp
@[simp] theorem qFinish_clockwork (s : State) (env : JobEnv) (q : Nat) (j : QJob) : (s.qFinish env q j).2.clockwork = s.clockwork := by
  unfold State.qFinish
  extract_lets w x
  have hx : x.2.clockwork = s.clockwork := by
    simp only [x]
    split
    · split <;> exact qWrite_clockwork ..
    · rfl
  clear_value x
  repeat' split
  all_goals simp +zetaDelta [hx, apply_ite Prod.snd]
@[simp] theorem writeQRec_clockwork (s : State) (g : Nat) (r : QRec) : (s.writeQRec g r).clockwork = s.clockwork := by unfold State.writeQRec; simp
@[simp] theorem gather_clockwork (s : State) (g : Nat) : (s.gather g).clockwork = s.clockwork := by
  refine (put_clockwork _ _ _ _ _ _).trans <| (forN_clockwork _ _ (fun u c => ?_) _).trans <| foldl_fst_clockwork _ (fun acc r => ?_) _ _
  · split <;> simp
  · dsimp only
    repeat' split
    all_goals simp
@[simp] theorem fillSlot_clockwork (s : State) (q : Nat) : (s.fillSlot q).clockwork = s.clockwork := by
  unfold State.fillSlot
  split <;> simp
@[simp] theorem gatherEdge_clockwork (s : State) : s.gatherEdge.clockwork = s.clockwork := by unfold State.gatherEdge; simp
@[simp] theorem cmdQgthCqHead_clockwork (s : State) (agent slab c head : Nat) :
    (s.cmdQgthCqHead agent slab c head).clockwork = s.clockwork := by unfold State.cmdQgthCqHead; simp
@[simp] theorem qFlush_clockwork (s : State) (q : Nat) : (s.qFlush q).clockwork = s.clockwork := by unfold State.qFlush; simp
@[simp] theorem qAbort_clockwork (s : State) (q : Nat) : (s.qAbort q).clockwork = s.clockwork := by
  unfold State.qAbort
  dsimp only
  repeat' split
  all_goals simp
@[simp] theorem qCtl_clockwork (s : State) (q value : Nat) : (s.qCtl q value).clockwork = s.clockwork := by unfold State.qCtl; simp
@[simp] theorem cmdQengAbort_clockwork (s : State) (agent q value : Nat) :
    (s.cmdQengAbort agent q value).clockwork = s.clockwork := by unfold State.cmdQengAbort; simp

/-! ### Operations of Secure.lean -/

@[simp] theorem mbxReply_clockwork (s : State) (op seq status : Nat) (payload : (List Byte)) :
    (s.mbxReply op seq status payload).clockwork = s.clockwork := by unfold State.mbxReply; simp
@[simp] theorem mbxResult_clockwork (s : State) (op seq err : Nat) (payload : (List Byte)) :
    (s.mbxResult op seq err payload).clockwork = s.clockwork := by unfold State.mbxResult; simp
@[simp] theorem notice_clockwork (s : State) (op : Nat) (payload : List Byte) :
    (s.notice op payload).clockwork = s.clockwork := by unfold State.notice; simp
@[simp] theorem extend_clockwork (s : State) (n : Nat) (digest : BitVec 384) : (s.extend n digest).clockwork = s.clockwork := clockwork_secure ..
@[simp] theorem measSel_clockwork (s : State) (slab slot : Nat) (extend : Bool) :
    (s.measSel slab slot extend).clockwork = s.clockwork := by unfold State.measSel; simp
@[simp] theorem fabricKeySitting_clockwork (s : State) : s.fabricKeySitting.clockwork = s.clockwork := by
  unfold State.fabricKeySitting
  split <;> simp
@[simp] theorem cmdSecpDebugOpen_clockwork (s : State) (agent slab : Nat) :
    (s.cmdSecpDebugOpen agent slab).clockwork = s.clockwork := by unfold State.cmdSecpDebugOpen; simp
@[simp] theorem stopBlock_clockwork (s : State) (b : Nat) : (s.stopBlock b).clockwork = s.clockwork := by unfold State.stopBlock; simp
@[simp] theorem handFail_clockwork (s : State) (cause : Nat) : (s.handFail cause).clockwork = s.clockwork := by unfold State.handFail; simp
@[simp] theorem handAnswer_clockwork (s : State) (h : Handover) (err : Nat) : (s.handAnswer h err).clockwork = s.clockwork := by
  unfold State.handAnswer
  split <;> simp
@[simp] theorem ownGo_clockwork (s : State) (b : Nat) (toSecure : Bool) (ans : Option (Nat × Nat)) :
    (s.ownGo b toSecure ans).clockwork = s.clockwork := by unfold State.ownGo; simp
@[simp] theorem cmdOwnHandover_clockwork (s : State) (agent block : Nat) (toSecure : Bool) :
    (s.cmdOwnHandover agent block toSecure).clockwork = s.clockwork := by unfold State.cmdOwnHandover; simp
@[simp] theorem powerNotice_clockwork (s : State) (p : PwrReq) : (s.powerNotice p).clockwork = s.clockwork := by unfold State.powerNotice; simp
@[simp] theorem showPending_clockwork (s : State) (b : Nat) (on : Bool) :
    (s.showPending b on).clockwork = s.clockwork := by unfold State.showPending; simp
@[simp] theorem defer_clockwork (s : State) (b action agent : Nat) : (s.defer b action agent).clockwork = s.clockwork := by unfold State.defer; simp
@[simp] theorem dropPwr_clockwork (s : State) (b : Nat) : (s.dropPwr b).clockwork = s.clockwork := by unfold State.dropPwr; simp
@[simp] theorem restStops_clockwork (s : State) (kind reason agent unit : Nat) :
    (s.restStops kind reason agent unit).clockwork = s.clockwork := by unfold State.restStops; simp
@[simp] theorem refusePwr_clockwork (s : State) (b : Nat) (timeout : Bool) : (s.refusePwr b timeout).clockwork = s.clockwork := by
  unfold State.refusePwr
  dsimp only
  repeat' split
  all_goals simp
@[simp] theorem powerAnswer_clockwork (s : State) (b : Nat) (consent : Bool) : (s.powerAnswer b consent).clockwork = s.clockwork := by
  unfold State.powerAnswer
  split <;> simp
@[simp] theorem cmdPowerAnswer_clockwork (s : State) (agent block : Nat) (consent : Bool) :
    (s.cmdPowerAnswer agent block consent).clockwork = s.clockwork := by unfold State.cmdPowerAnswer; simp
@[simp] theorem gateDone_clockwork (s : State) (target : Nat) (gate : Bool) :
    (s.gateDone target gate).clockwork = s.clockwork := by unfold State.gateDone; simp
@[simp] theorem wakeBlock_clockwork (s : State) (b : Nat) : (s.wakeBlock b).clockwork = s.clockwork := by unfold State.wakeBlock; simp
@[simp] theorem pwrBlockEdge_clockwork (s : State) (b : Nat) : (s.pwrBlockEdge b).clockwork = s.clockwork := by
  unfold State.pwrBlockEdge
  dsimp only
  repeat' split
  all_goals simp
@[simp] theorem handEdge_clockwork (s : State) : s.handEdge.clockwork = s.clockwork := by
  unfold State.handEdge
  repeat' split
  all_goals simp
@[simp] theorem wdogCtl_clockwork (s : State) (slab period : Nat) (enable : Bool) :
    (s.wdogCtl slab period enable).clockwork = s.clockwork := by unfold State.wdogCtl; simp
@[simp] theorem cmdWdogKick_clockwork (s : State) (agent slab : Nat) :
    (s.cmdWdogKick agent slab).clockwork = s.clockwork := by unfold State.cmdWdogKick; simp
@[simp] theorem wdogSitting_clockwork (s : State) : s.wdogSitting.clockwork = s.clockwork := by unfold State.wdogSitting; simp

/-! ### Operations of Rest.lean -/

@[simp] theorem restEnter_clockwork (s : State) (agent : Nat) : (s.restEnter agent).clockwork = s.clockwork := by
  unfold State.restEnter
  repeat' split
  all_goals simp
@[simp] theorem cmdRestEnter_clockwork (s : State) (agent : Nat) :
    (s.cmdRestEnter agent).clockwork = s.clockwork := by unfold State.cmdRestEnter; simp
@[simp] theorem restEdge_clockwork (s : State) : s.restEdge.clockwork = s.clockwork := by unfold State.restEdge; simp
@[simp] theorem wake_clockwork (s : State) (agent channel : Nat) (pme : Bool) :
    (s.wake agent channel pme).clockwork = s.clockwork := by unfold State.wake; simp

/-! ### Operations of Reset.lean -/

@[simp] theorem bootStart_clockwork (s : State) (cold : Bool) : (s.bootStart cold).clockwork = s.clockwork := by unfold State.bootStart; simp
@[simp] theorem tripRecord_clockwork (s : State) : s.tripRecord.clockwork = s.clockwork := by
  unfold State.tripRecord
  dsimp only
  repeat' split
  all_goals simp
@[simp] theorem warmRegs_clockwork (s : State) : s.warmRegs.clockwork = s.clockwork := by unfold State.warmRegs; simp
@[simp] theorem resetWaker_clockwork (s : State) (cause : Nat) : (s.resetWaker cause).2.clockwork = s.clockwork := by
  unfold State.resetWaker
  repeat' split
  all_goals simp
@[simp] theorem cmdRstcWarm_clockwork (s : State) (agent : Nat) : (s.cmdRstcWarm agent).clockwork = s.clockwork := by unfold State.cmdRstcWarm; simp
@[simp] theorem cmdRstcCold_clockwork (s : State) (agent : Nat) : (s.cmdRstcCold agent).clockwork = s.clockwork := by unfold State.cmdRstcCold; simp

/-! ### Operations of Boot.lean -/

@[simp] theorem cmdMgmtBootData_clockwork (s : State) (agent : Nat) (words : List Nat) :
    (s.cmdMgmtBootData agent words).clockwork = s.clockwork := by unfold State.cmdMgmtBootData; simp
@[simp] theorem bootEnd_clockwork (s : State) : s.bootEnd.clockwork = s.clockwork := by unfold State.bootEnd; simp
@[simp] theorem cmdMgmtBootEnd_clockwork (s : State) (agent : Nat) :
    (s.cmdMgmtBootEnd agent).clockwork = s.clockwork := by unfold State.cmdMgmtBootEnd; simp
@[simp] theorem cmdHostReady_clockwork (s : State) (agent slab : Nat) :
    (s.cmdHostReady agent slab).clockwork = s.clockwork := by unfold State.cmdHostReady; simp
@[simp] theorem clkGate_clockwork (s : State) (agent target : Nat) (gate : Bool) :
    (s.clkGate agent target gate).clockwork = s.clockwork := by unfold State.clkGate; simp
@[simp] theorem cmdClkcGate_clockwork (s : State) (agent target : Nat) :
    (s.cmdClkcGate agent target).clockwork = s.clockwork := by unfold State.cmdClkcGate; simp
@[simp] theorem cmdClkcUngate_clockwork (s : State) (agent target : Nat) :
    (s.cmdClkcUngate agent target).clockwork = s.clockwork := by unfold State.cmdClkcUngate; simp

/-! ### Operations of RegRead.lean -/

@[simp] theorem readEffect_clockwork (s : State) (agent : Nat) (b : Block) (o : Nat) :
    (s.readEffect agent b o).clockwork = s.clockwork := by unfold State.readEffect; simp
@[simp] theorem readWord_clockwork (s : State) (agent off : Nat) : (s.readWord agent off).2.clockwork = s.clockwork := by
  unfold State.readWord
  split <;> simp
@[simp] theorem narrowRead_clockwork (s : State) (agent off width : Nat) : (s.narrowRead agent off width).2.clockwork = s.clockwork := by
  unfold State.narrowRead
  split <;> simp

/-! ### Operations of Commit.lean -/

@[simp] theorem changeShare_clockwork (s : State) (h0 h1 : Nat) : (s.changeShare h0 h1).clockwork = s.clockwork := by
  refine foldl_clockwork _ (fun t x => ?_) _ _
  rfl
@[simp] theorem tierActivate_clockwork (s : State) : s.tierActivate.clockwork = s.clockwork := by unfold State.tierActivate; simp
@[simp] theorem portActivate_clockwork (s : State) (p : Nat) : (s.portActivate p).clockwork = s.clockwork := by
  unfold State.portActivate
  split
  · exact copyStaged_clockwork ..
  · extract_lets t
    have ht : t.clockwork = s.clockwork := by
      refine foldl_clockwork _ (fun t x => ?_) portEdgeFields s
      rfl
    exact (clockwork_actDue t _).trans ht
@[simp] theorem qgthActivate_clockwork (s : State) (d : Nat) : (s.qgthActivate d).clockwork = s.clockwork := by
  refine foldl_clockwork _ (fun t x => ?_) _ _
  simp
@[simp] theorem activate_clockwork (s : State) (b : Block) (n : Nat) : (s.activate b n).clockwork = s.clockwork := by
  unfold State.activate
  split <;> simp
@[simp] theorem activateAt_clockwork (s : State) (at_ : ActPoint) : (s.activateAt at_).clockwork = s.clockwork := by unfold State.activateAt; simp
@[simp] theorem tierAccepted_clockwork (s : State) : s.tierAccepted.clockwork = s.clockwork := by unfold State.tierAccepted; simp
@[simp] theorem reguChecked_clockwork (s : State) : s.reguChecked.clockwork = s.clockwork := by unfold State.reguChecked; simp
@[simp] theorem accepted_clockwork (s : State) (b : Block) (n : Nat) : (s.accepted b n).clockwork = s.clockwork := by
  unfold State.accepted
  split <;> simp
@[simp] theorem postResult_clockwork (s : State) (b : Block) (n code detail : Nat) :
    (s.postResult b n code detail).clockwork = s.clockwork := by unfold State.postResult; simp
@[simp] theorem commit_clockwork (s : State) (agent : Nat) (b : Block) (n : Nat) :
    (s.commit agent b n).clockwork = s.clockwork := by unfold State.commit; simp
@[simp] theorem unlock_clockwork (s : State) (b : Block) (n : Nat) : (s.unlock b n).clockwork = s.clockwork := by unfold State.unlock; simp
@[simp] theorem blockReset_clockwork (s : State) (b : Block) (n : Nat) :
    (s.blockReset b n).clockwork = s.clockwork := by unfold State.blockReset; simp
@[simp] theorem hdrCtl_clockwork (s : State) (agent : Nat) (b : Block) (n v : Nat) :
    (s.hdrCtl agent b n v).clockwork = s.clockwork := by unfold State.hdrCtl; simp
@[simp] theorem sticky_clockwork (s : State) (agent : Nat) (b : Block) (n : Nat) :
    (s.sticky agent b n).clockwork = s.clockwork := by unfold State.sticky; simp

/-! ### Operations of RegBus.lean -/

@[simp] theorem writeField_clockwork (s : State) (b : Block) (n : Nat) (f : Fld) (i v : Nat) : (s.writeField b n f i v).clockwork = s.clockwork := by
  unfold State.writeField
  split <;> simp
@[simp] theorem writeFields_clockwork (s : State) (b : Block) (n o v : Nat) :
    (s.writeFields b n o v).clockwork = s.clockwork := by unfold State.writeFields; simp
@[simp] theorem writeHdr_clockwork (s : State) (agent : Nat) (b : Block) (n o v : Nat) :
    (s.writeHdr agent b n o v).clockwork = s.clockwork := by unfold State.writeHdr; simp
@[simp] theorem keysCmd_clockwork (s : State) (agent n op : Nat) : (s.keysCmd agent n op).clockwork = s.clockwork := by unfold State.keysCmd; simp
@[simp] theorem hcacCmd_clockwork (s : State) (agent n v : Nat) : (s.hcacCmd agent n v).clockwork = s.clockwork := by unfold State.hcacCmd; simp
@[simp] theorem pmapWrite_clockwork (s : State) (agent n op : Nat) :
    (s.pmapWrite agent n op).clockwork = s.clockwork := by unfold State.pmapWrite; simp
/-- What an action of a write leaves of the clockwork: `s`'s own, where the write has no action. -/
def actClockwork (s : State) (r : Option State) : Timebase × Nat × Nat × Option ResetRun := (r.getD s).clockwork
@[simp] theorem actClockwork_none (s : State) : actClockwork s none = s.clockwork := (rfl)
@[simp] theorem actClockwork_some (s t : State) : actClockwork s (some t) = t.clockwork := (rfl)
@[simp] theorem actClockwork_ite (s : State) (c : Prop) [Decidable c] (a b : Option State) :
    actClockwork s (if c then a else b) = if c then actClockwork s a else actClockwork s b := apply_ite ..
theorem slabAction_clockwork (s : State) (agent : Nat) (b : Block) (n o v : Nat) :
    actClockwork s (s.slabAction agent b n o v) = s.clockwork := by
  unfold State.slabAction
  extract_lets on
  have hon (bit : Nat) (u : State) : actClockwork s (on bit u) = if v.testBit bit then u.clockwork else s.clockwork := by simp [on]
  clear_value on
  split <;> simp +zetaDelta [hon]
theorem moduleAction_clockwork (s : State) (agent : Nat) (b : Block) (n o v : Nat) :
    actClockwork s (s.moduleAction agent b n o v) = s.clockwork := by
  unfold State.moduleAction
  extract_lets on
  have hon (bit : Nat) (u : State) : actClockwork s (on bit u) = if v.testBit bit then u.clockwork else s.clockwork := by simp [on]
  clear_value on
  split <;> simp +zetaDelta [hon]
@[simp] theorem writeWord_clockwork (s : State) (agent : Nat) (b : Block) (n o v : Nat) : (s.writeWord agent b n o v).clockwork = s.clockwork := by
  unfold State.writeWord
  split
  · exact writeHdr_clockwork ..
  · have hact : actClockwork s (if b.perSlab then s.slabAction agent b n o v else s.moduleAction agent b n o v) = s.clockwork := by
      rw [actClockwork_ite, slabAction_clockwork, moduleAction_clockwork, ite_self]
    split
    next t h => rwa [h] at hact
    · exact writeFields_clockwork ..
@[simp] theorem writeAt_clockwork (s : State) (agent off v : Nat) : (s.writeAt agent off v).2.clockwork = s.clockwork := by
  unfold State.writeAt
  repeat' split
  all_goals simp
@[simp] theorem readRun_clockwork (agent k off i : Nat) (s : State) : (State.readRun agent k off i s).2.2.clockwork = s.clockwork := by
  induction k generalizing off i s with
  | zero => rfl
  | succ k ih => simp [State.readRun, ih]
@[simp] theorem writeRun_clockwork (agent : Nat) (l : List Nat) (off i : Nat) (s : State) :
    (State.writeRun agent l off i s).2.clockwork = s.clockwork := by
  induction l generalizing off i s with
  | nil => rfl
  | cons w l ih => simp [State.writeRun, ih]
@[simp] theorem doRegRd_clockwork (s : State) (pair side : Nat) (f : Frame) : (s.doRegRd pair side f).clockwork = s.clockwork := by
  unfold State.doRegRd
  split <;> simp
@[simp] theorem doRegWr_clockwork (s : State) (pair side : Nat) (f : Frame) :
    (s.doRegWr pair side f).clockwork = s.clockwork := by unfold State.doRegWr; simp

/-! ### Operations of Time.lean -/

@[simp] theorem steerHot_clockwork (s : State) (a : VAcc) (rd : Rd) : (s.steerHot a rd).clockwork = s.clockwork := by unfold State.steerHot; simp
@[simp] theorem steerDeep_clockwork (s : State) (a : VAcc) : (s.steerDeep a).clockwork = s.clockwork := by unfold State.steerDeep; simp
@[simp] theorem steerEdge_clockwork (s : State) (v : Nat) : (s.steerEdge v).clockwork = s.clockwork := by
  refine foldl_clockwork _ (fun t a => ?_) _ _
  repeat' split
  all_goals simp
@[simp] theorem sendLstrk_clockwork (s : State) : s.sendLstrk.clockwork = s.clockwork := by unfold State.sendLstrk; simp
@[simp] theorem takeHeld_clockwork (s : State) (p : Nat) (f : Frame) : (s.takeHeld p f).clockwork = s.clockwork := by
  unfold State.takeHeld
  split <;> simp
@[simp] theorem wakeEdge_clockwork (s : State) : s.wakeEdge.clockwork = s.clockwork := by
  unfold State.wakeEdge
  dsimp only
  repeat' split
  all_goals simp
@[simp] theorem edgeData_clockwork (s : State) : s.edgeData.clockwork = s.clockwork := by unfold State.edgeData; simp
@[simp] theorem edgeRing_clockwork (s : State) : s.edgeRing.clockwork = s.clockwork := by unfold State.edgeRing; simp
@[simp] theorem quarterEnter_clockwork (s : State) (v : Nat) : (s.quarterEnter v).clockwork = s.clockwork := by unfold State.quarterEnter; simp
@[simp] theorem slabLayer_clockwork (s : State) : s.slabLayer.clockwork = s.clockwork := by
  unfold State.slabLayer
  dsimp only
  repeat' split
  all_goals simp
@[simp] theorem cmdLayer_clockwork (s : State) : s.cmdLayer.clockwork = s.clockwork := by unfold State.cmdLayer; simp
@[simp] theorem quarterExit_clockwork (s : State) (v : Nat) : (s.quarterExit v).clockwork = s.clockwork := by unfold State.quarterExit; simp
@[simp] theorem recompSitting_clockwork (s : State) : s.recompSitting.clockwork = s.clockwork := by unfold State.recompSitting; simp
@[simp] theorem ringSitting_clockwork (s : State) : s.ringSitting.clockwork = s.clockwork := by unfold State.ringSitting; simp

end Sys2Proof.Machine
end

section
/-! PROOFS. What the steps of a boundary do to the clockwork (R14, R47, R141, R142, R488). -/

namespace Sys2Proof.Machine

theorem within_clockwork (t s : State) : (t.within s).clockwork =
    ({ t.clockwork.1 with stroke := s.tb.stroke, phase := s.tb.phase, len := s.tb.len, elapsed := s.tb.elapsed }, t.clockwork.2) := rfl

/-! ### The energy account, hot-refresh mode and the Sitting -/
theorem closeAccount_clockwork (s : State) (sitting : Nat) (cut : Bool) : (s.closeAccount sitting cut).clockwork =
    (s.clockwork.1, s.clockwork.2.1, s.tb.elapsed.toNat, s.clockwork.2.2.2) := by
  unfold State.closeAccount
  extract_lets e input sum high scale ovh s1 s2 used part s3 s4 dfc s5 s6 s7 now strokes
  have h1 : s1.clockwork = s.clockwork := by simp [s1]
  have h2 : s2.clockwork = s1.clockwork := by simp [s2]
  have h4 : s4.clockwork = s2.clockwork := by
    simp only [s4, s3]
    split <;> simp
  have h6 : s6.clockwork = s4.clockwork := by
    simp only [s6, s5]
    split <;> simp
  have h7 : s7.clockwork = s6.clockwork := by
    simp only [s7]
    split <;> simp
  rw [clockwork_energy, h7, h6, h4, h2, h1]

theorem closeOpen_clockwork (s : State) (cut : Bool) : (s.closeOpen cut).clockwork =
    (s.clockwork.1, s.clockwork.2.1, s.tb.elapsed.toNat, s.clockwork.2.2.2) := by
  unfold State.closeOpen
  split
  next h => rw [← h]; rfl
  · rw [reportSitting_clockwork, closeAccount_clockwork]

theorem hotEnter_clockwork (s : State) : s.hotEnter.clockwork =
    ({ s.clockwork.1 with hot := true, hotWhole := decide (s.now.toNat % 2048 = 0) }, s.clockwork.2) := by
  unfold State.hotEnter
  extract_lets s1 _ _ s2
  have h1 : s1.clockwork = s.clockwork := by
    refine forN_clockwork _ _ (fun t v => ?_) _
    split <;> simp
  have h2 : s2.clockwork = ({ s1.clockwork.1 with hot := true, hotWhole := decide (s1.now.toNat % 2048 = 0) }, s1.clockwork.2) := rfl
  rw [vendorEvent_clockwork, h2, h1, clockwork_now h1]

theorem hotExit_clockwork (s : State) : s.hotExit.clockwork = ({ s.clockwork.1 with hot := false }, s.clockwork.2) := by
  unfold State.hotExit
  extract_lets s1 _ _ s2
  have h1 : s1.clockwork = s.clockwork := by
    refine forN_clockwork _ _ (fun t v => ?_) _
    split <;> simp
  have h2 : s2.clockwork = ({ s1.clockwork.1 with hot := false }, s1.clockwork.2) := rfl
  rw [vendorEvent_clockwork, h2, h1]

/-- At the end of a Sitting hot-refresh mode ends if it covered the whole Sitting and no reading crossed the threshold (R142). -/
def State.hotStays (s : State) : Bool := s.tb.hot && !(s.tb.hotWhole && !s.tb.hotBad)

theorem planSittingEnd_clockwork (s : State) : s.planSittingEnd.clockwork =
    ({ s.clockwork.1 with hotBad := false, hot := s.hotStays, hotWhole := s.hotStays }, s.clockwork.2) := by
  unfold State.planSittingEnd
  extract_lets s1 s2 on
  have h1 : s1.clockwork = ({ s.clockwork.1 with hot := s.hotStays }, s.clockwork.2) := by
    simp only [s1]
    split
    next h =>
      have hx : s.hotStays = false := by simp_all [State.hotStays]
      rw [hotExit_clockwork, hx]
    next h =>
      have hx : s.hotStays = s.tb.hot := by
        have hall : ∀ a b c : Bool, ¬(a && b && !c) = true → (a && !(b && !c)) = a := by decide
        exact hall _ _ _ h
      rw [hx]; rfl
  have h2 : s2.clockwork = ({ s.clockwork.1 with hot := s.hotStays }, s.clockwork.2) := by simp [s2, h1]
  have hon : on = s.hotStays := congrArg (fun c => c.1.hot) h2
  have h3 : { s2 with tb := { s2.tb with hotBad := false, hotWhole := on } }.clockwork =
      ({ s2.clockwork.1 with hotBad := false, hotWhole := on }, s2.clockwork.2) := rfl
  rw [h3, h2, hon]

theorem sittingStep_clockwork (s : State) (h : s.tb.sittingDue = true) : s.sittingStep.clockwork =
    ({ s.clockwork.1 with sittingDue := false, hotBad := false, hot := s.hotStays, hotWhole := s.hotStays },
      s.clockwork.2.1, s.tb.elapsed.toNat, s.clockwork.2.2.2) := by
  unfold State.sittingStep
  rw [if_neg (by simp [h])]
  extract_lets _ s0 s1 s2 s3
  have h1 : (s0.closeOpen false).scrubSitting.clockwork = (s0.clockwork.1, s0.clockwork.2.1, s0.tb.elapsed.toNat, s0.clockwork.2.2.2) := by
    rw [scrubSitting_clockwork, closeOpen_clockwork]
  have hstays : (s0.closeOpen false).scrubSitting.hotStays = s.hotStays :=
    congrArg (fun c : Timebase × Nat × Nat × Option ResetRun => c.1.hot && !(c.1.hotWhole && !c.1.hotBad)) h1
  simp only [ringSitting_clockwork, pwrSitting_clockwork, wdogSitting_clockwork, fabricKeySitting_clockwork, recompSitting_clockwork, s3,
    payWaiting_clockwork, planSitting_clockwork, s2, takeEntry_clockwork, activateAt_clockwork, s1]
  rw [planSittingEnd_clockwork, h1, hstays]
  rfl
/-! ### The Layer -/
theorem planLayer_clockwork (s : State) : ∃ w, s.planLayer.clockwork =
    ({ s.clockwork.1 with hotSeen := false, hot := s.tb.hotSeen || s.tb.hot, hotWhole := w }, s.clockwork.2) := by
  unfold State.planLayer
  extract_lets s1 _ s2
  have h2 : s2.clockwork = ({ s1.clockwork.1 with hotSeen := false }, s1.clockwork.2) := rfl
  rw [forN_clockwork _ _ (fun t v => quarterEnter_clockwork t v), h2]
  simp only [s1]
  split
  next h =>
    have hx : s.tb.hotSeen = true := by simp_all
    rw [hotEnter_clockwork, hx]
    exact ⟨_, rfl⟩
  next h =>
    have hx : (s.tb.hotSeen || s.tb.hot) = s.tb.hot := by
      cases hs : s.tb.hotSeen <;> simp_all
    rw [hx]
    exact ⟨s.tb.hotWhole, rfl⟩

theorem refill_clockwork (s : State) : s.refill.clockwork = (s.clockwork.1, layerOf s.now, s.clockwork.2.2) := by
  unfold State.refill
  extract_lets rs was dem any s1 s2 s3 _ s4
  have h2 : s2.clockwork = s.clockwork := by
    simp only [s2, s1]
    split <;> simp
  have h3 : s3.clockwork = s2.clockwork := by simp [s3]
  have h4 : s4.clockwork = s3.clockwork := by simp [s4]
  have h5 : s4.clockwork = s.clockwork := h4.trans (h3.trans h2)
  have hx : { s4 with regu := { s4.regu with layer := layerOf s4.now, privSeen := false } }.clockwork =
      (s4.clockwork.1, layerOf s4.now, s4.clockwork.2.2) := rfl
  rw [hx, clockwork_now h5, h5]

theorem reguLayer_clockwork (s : State) : s.reguLayer.clockwork = (s.clockwork.1, layerOf s.now, s.clockwork.2.2) := by
  unfold State.reguLayer
  extract_lets run _ s1
  rw [openTally_clockwork, refill_clockwork]
  rfl

theorem layerStep_clockwork (s : State) (h : s.tb.layerDue = true) : ∃ w b o, s.layerStep.clockwork =
    ({ s.clockwork.1 with
        layerDue := false, sittingDue := false, hotSeen := false, hot := s.tb.hotSeen || s.sittingStep.tb.hot
        hotWhole := w, hotBad := b }, layerOf s.tb.stroke, o, s.boot.inReset) := by
  have hs : ∃ w b o, s.sittingStep.clockwork = ({ s.clockwork.1 with
      sittingDue := false, hot := s.sittingStep.tb.hot, hotWhole := w, hotBad := b }, s.regu.layer, o, s.boot.inReset) := by
    cases hd : s.tb.sittingDue with
    | true =>
      have hx := sittingStep_clockwork s hd
      have hhot : s.sittingStep.tb.hot = s.hotStays := congrArg (fun c => c.1.hot) hx
      rw [hhot]
      exact ⟨_, _, _, hx⟩
    | false =>
      have hx : s.sittingStep = s := by simp [State.sittingStep, hd]
      rw [hx, ← hd]
      exact ⟨_, _, _, rfl⟩
  obtain ⟨w, b, o, hs⟩ := hs
  unfold State.layerStep
  rw [if_neg (by simp [h])]
  extract_lets s0 _ s1 s2
  have h0 : s0.clockwork = _ := hs
  have h1 : s1.closeTallies.clockwork = ({ s0.clockwork.1 with layerDue := false }, s0.clockwork.2) := closeTallies_clockwork s1
  obtain ⟨w', hp⟩ := planLayer_clockwork s1.closeTallies
  have h2 : s2.clockwork = s1.closeTallies.planLayer.clockwork := by simp [s2]
  have hseen : s1.closeTallies.tb.hotSeen = s.tb.hotSeen := congrArg (fun c => c.1.hotSeen) (h1.trans (by rw [h0]))
  have hhot : s1.closeTallies.tb.hot = s.sittingStep.tb.hot := congrArg (fun c => c.1.hot) h1
  have hnow : s2.now = s.tb.stroke := congrArg (fun c => c.1.stroke) (h2.trans (hp.trans (by rw [h1, h0])))
  rw [within_clockwork]
  simp only [cmdLayer_clockwork, ringLeak_clockwork, bucketLeak_clockwork, seamLeak_clockwork, reguLayer_clockwork]
  rw [hnow, h2, hp, hseen, hhot, h1, h0]
  exact ⟨_, _, _, rfl⟩

end Sys2Proof.Machine
end

section
/-! PROOFS. What the end of an edge does to the clockwork (R41, R43): it leaves all but the edge's own mark, or begins a module reset. -/

namespace Sys2Proof.Machine

/-- No boundary waits, no reading over the threshold waits for one, and a module reset is in progress. -/
def State.ResetBegun (s : State) : Prop :=
  s.tb.layerDue = false ∧ s.tb.sittingDue = false ∧ s.tb.hotSeen = false ∧ s.boot.inReset.isSome = true

theorem resetBegun_congr {s t : State} (h : t.clockwork = s.clockwork) : t.ResetBegun ↔ s.ResetBegun :=
  iff_of_eq (congrArg (fun c : Timebase × Nat × Nat × Option ResetRun =>
    c.1.layerDue = false ∧ c.1.sittingDue = false ∧ c.1.hotSeen = false ∧ c.2.2.2.isSome = true) h)

theorem coldStart_resetBegun {s : State} (h : s.ResetBegun) : s.coldStart.ResetBegun := by
  obtain ⟨hl, hs, hh, hr⟩ := h
  unfold State.coldStart
  extract_lets held run _ s1
  have h1 : s1.ResetBegun := ⟨hl, hs, hh, by simpa [s1, run] using hr⟩
  split
  · exact (resetBegun_congr (put_clockwork ..)).2 h1
  · have h2 : ((s1.latchStraps.takeRole).bootStart true).tripRecord.ResetBegun := (resetBegun_congr (by simp)).2 h1
    exact h2

theorem beginCold_resetBegun (s : State) (cause : Nat) (flushCut verifyCut : Bool) : (s.beginCold cause flushCut verifyCut).ResetBegun := by
  unfold State.beginCold
  extract_lets keep fc vc s1 n run _ s2 s3 s4 s5
  have h2 : s2.ResetBegun := ⟨rfl, rfl, rfl, rfl⟩
  have h5 : s5.clockwork = s2.clockwork := by
    simp only [s5, s4, s3]
    split <;> simp
  have hw : (s5.within s1).ResetBegun := (resetBegun_congr h5).2 h2
  exact coldStart_resetBegun hw

theorem holdWarm_resetBegun {s : State} (hl : s.tb.layerDue = false) (hs : s.tb.sittingDue = false) (cause : Nat) :
    (s.holdWarm cause).ResetBegun := by
  unfold State.holdWarm
  extract_lets retain s1 s2 run
  have h1 : s1.tb.layerDue = false ∧ s1.tb.sittingDue = false ∧ s1.tb.hotSeen = false := by
    have h := warmRegs_clockwork s
    exact ⟨(congrArg (fun c => c.1.layerDue) h).trans hl, (congrArg (fun c => c.1.sittingDue) h).trans hs, rfl⟩
  have h2 : s2.clockwork = s1.clockwork := by
    simp only [s2]
    split <;> simp
  obtain ⟨h1l, h1s, h1h⟩ := h1
  exact ⟨(congrArg (fun c => c.1.layerDue) h2).trans h1l, (congrArg (fun c => c.1.sittingDue) h2).trans h1s,
    (congrArg (fun c => c.1.hotSeen) h2).trans h1h, rfl⟩

theorem beginWarm_resetBegun {s : State} (hl : s.tb.layerDue = false) (hs : s.tb.sittingDue = false) (hh : s.tb.hotSeen = false) (cause : Nat) :
    (s.beginWarm cause).ResetBegun := by
  unfold State.beginWarm
  extract_lets ovr s1 s2 s3 s4 run _ s5
  have h4 : s4.clockwork = s.clockwork := by simp [s4, s3, s2, s1]
  clear_value s4
  have h5 : s5.ResetBegun := ⟨(congrArg (fun c => c.1.layerDue) h4).trans hl, (congrArg (fun c => c.1.sittingDue) h4).trans hs,
    (congrArg (fun c => c.1.hotSeen) h4).trans hh, rfl⟩
  obtain ⟨h5l, h5s, -, -⟩ := id h5
  split
  · exact h5
  · exact holdWarm_resetBegun h5l h5s cause

theorem warmAsked_resetBegun_or {s : State} (hl : s.tb.layerDue = false) (hs : s.tb.sittingDue = false) (hh : s.tb.hotSeen = false) (cause : Nat) :
    (s.warmAsked cause).ResetBegun ∨ (s.warmAsked cause).clockwork = s.clockwork := by
  unfold State.warmAsked
  split
  · right
    exact (wake_clockwork _ _ 0 false).trans (resetWaker_clockwork ..)
  · split
    · exact Or.inr rfl
    · exact Or.inl (beginWarm_resetBegun hl hs hh cause)

theorem within_self_clockwork {s t : State} (h : t.clockwork = s.clockwork) : (t.within s).clockwork = s.clockwork := by
  rw [within_clockwork, h]; rfl

theorem resetEdge_resetBegun_or {s : State} (hl : s.tb.layerDue = false) (hs : s.tb.sittingDue = false) (hh : s.tb.hotSeen = false) :
    s.resetEdge.ResetBegun ∨ s.resetEdge.clockwork = s.clockwork := by
  unfold State.resetEdge
  extract_lets reqs _ s1 colds warms
  split
  · exact Or.inl (beginCold_resetBegun ..)
  · split
    · exact Or.inr rfl
    · exact (warmAsked_resetBegun_or (s := s1) hl hs hh (lowest warms)).imp id within_self_clockwork

theorem cutAsked_clockwork (t s : State) : ∃ r, (t.cutAsked s).clockwork = (t.clockwork.1, t.clockwork.2.1, t.clockwork.2.2.1, r) := by
  unfold State.cutAsked
  split
  · exact ⟨_, rfl⟩
  · exact ⟨_, rfl⟩

theorem closeEdge_resetBegun_or {s : State} (hl : s.tb.layerDue = false) (hs : s.tb.sittingDue = false) (hh : s.tb.hotSeen = false) :
    s.closeEdge.ResetBegun ∨ ∃ e o r, s.closeEdge.clockwork = ({ s.clockwork.1 with edgeOpen := e }, s.regu.layer, o, r) := by
  unfold State.closeEdge
  split
  · extract_lets _ s1
    obtain ⟨r, hr⟩ := cutAsked_clockwork (s1.edgeData.edgeRing.irqEdge.within s1) s1
    have h1 : (s1.edgeData.edgeRing.irqEdge.within s1).clockwork = s1.clockwork := within_self_clockwork (by simp)
    rw [h1] at hr
    refine (resetEdge_resetBegun_or ?_ ?_ ?_).imp id (fun h => ⟨false, s.energy.opened, r, h.trans hr⟩)
    · exact (congrArg (fun c => c.1.layerDue) hr).trans hl
    · exact (congrArg (fun c => c.1.sittingDue) hr).trans hs
    · exact (congrArg (fun c => c.1.hotSeen) hr).trans hh
  · exact Or.inr ⟨_, _, _, rfl⟩

theorem closeEdge_of_not_ready {s : State} (h : s.edgeReady = false) : s.closeEdge = s := by
  simp [State.closeEdge, h]

end Sys2Proof.Machine
end

section
/-! PROOFS. BUDGET_HIT over the rest of a Sitting's boundary (R488, R493): what follows its clearing writes pages of the Slabs, of RING, of TIER
and of the secure processor only. -/

namespace Sys2Proof.Machine

/-- BUDGET_HIT of LEDG_STATUS (R493). -/
def State.hitFlag (s : State) : Nat := s.get .ledg 0 F.LEDG_STATUS_BUDGET_HIT

theorem hitFlag_congr {s t : State} (h : t.regs = s.regs) : t.hitFlag = s.hitFlag := get_congr _ _ h ..

theorem hitFlag_ring (s : State) (x : Ring) : { s with ring := x }.hitFlag = s.hitFlag := rfl

theorem hitFlag_plan (s : State) (e : Energy) (q : Query) : { s with energy := e, query := q }.hitFlag = s.hitFlag := rfl

theorem hitFlag_put (s : State) (b : Block) (n : Nat) (f : Fld) (v i : Nat)
    (h : fkey (pg .ledg 0) F.LEDG_STATUS_BUDGET_HIT 0 ≠ fkey (pg b n) f i) : (s.put b n f v i).hitFlag = s.hitFlag :=
  get_put_other _ _ _ _ _ _ _ _ _ _ h

theorem hitFlag_raise (s : State) (b : Block) (n bit : Nat)
    (h : fkey (pg .ledg 0) F.LEDG_STATUS_BUDGET_HIT 0 < 8 * (pg b n + 0x14) ∨
      8 * (pg b n + 0x14) + 32 ≤ fkey (pg .ledg 0) F.LEDG_STATUS_BUDGET_HIT 0) :
    (s.raise b n bit).hitFlag = s.hitFlag :=
  get_raise _ _ _ _ _ _ _ _ h

theorem foldl_hitFlag {α : Type} (f : State → α → State) (l : List α) (s : State) (h : ∀ t, ∀ x ∈ l, (f t x).hitFlag = t.hitFlag) :
    (l.foldl f s).hitFlag = s.hitFlag := foldl_keeps State.hitFlag f l s h

theorem foldl_fst_hitFlag {α β : Type} (f : State × β → α → State × β) (h : ∀ b x, (f b x).1.hitFlag = b.1.hitFlag) (l : List α)
    (b : State × β) : (l.foldl f b).1.hitFlag = b.1.hitFlag := foldl_keeps (fun c => c.1.hitFlag) f l b (fun c x _ => h c x)

theorem spend_hitFlag (s : State) (a : Account) (xs : List (Nat × Nat)) : (s.spend a xs).hitFlag = s.hitFlag := by
  unfold State.spend
  split <;> rfl

theorem bulkTake_hitFlag (s : State) (slab level : Nat) (h : slab < 2) : (s.bulkTake slab level).hitFlag = s.hitFlag := by
  obtain rfl | rfl : slab = 0 ∨ slab = 1 := by omega
  all_goals
    unfold State.bulkTake
    dsimp only
    split <;> split <;> simp (disch := decide) [hitFlag_put, hitFlag_raise, State.lostArb]

theorem bulkLost_hitFlag (s : State) (sd : Nat) (f : Frame) : (s.bulkLost sd f).hitFlag = s.hitFlag := by
  unfold State.bulkLost
  split
  · rfl
  · exact bulkTake_hitFlag _ _ _ (by unfold slabOfSide; omega)

theorem ringDiscard_hitFlag (s : State) (pair sd : Nat) (h : pair < 2) : (s.ringDiscard pair sd).hitFlag = s.hitFlag := by
  have hk : ∀ n < 2, ∀ i < 2, fkey (pg .ledg 0) F.LEDG_STATUS_BUDGET_HIT 0 ≠ fkey (pg .ring n) F.RING_DISCARD_COUNT i := by decide
  exact hitFlag_put _ _ _ _ _ _ (hk _ (by unfold slabOfSide; omega) _ h)

theorem trySend_hitFlag {s t : State} {x : Nat × Nat × Frame} (h : s.trySend x = some t) : t.hitFlag = s.hitFlag := by
  unfold State.trySend at h
  dsimp only at h
  split at h
  · obtain rfl := Option.some.inj h
    exact spend_hitFlag ..
  · cases h

theorem drainEgress_hitFlag (s : State) : s.drainEgress.hitFlag = s.hitFlag := by
  refine (hitFlag_ring _ _).trans ((foldl_fst_hitFlag _ (fun acc x => ?_) _ _).trans (hitFlag_ring _ _))
  dsimp only
  split
  · rfl
  · split
    next h => exact trySend_hitFlag h
    · rfl

theorem sendOn_hitFlag (s : State) (pair sd : Nat) (f : Frame) (h : pair < 2) : (s.sendOn pair sd f).hitFlag = s.hitFlag := by
  unfold State.sendOn
  extract_lets t _ put
  have ht : t.hitFlag = s.hitFlag := bulkLost_hitFlag ..
  have hput (d : Nat) (g : Frame) : (put d g).hitFlag = s.hitFlag := (drainEgress_hitFlag _).trans ht
  clear_value t put
  split
  · exact ht
  · split
    · split
      · exact (ringDiscard_hitFlag _ _ _ h).trans ht
      · exact hput ..
    · split
      · exact hput ..
      · exact hput ..

theorem sendFrame_hitFlag (s : State) (f : Frame) : (s.sendFrame f).hitFlag = s.hitFlag :=
  sendOn_hitFlag _ _ _ _ (by unfold State.pairFor; split <;> decide)

theorem sendReq_hitFlag (s : State) (ty dst arg : Nat) (payload : List Byte) : (s.sendReq ty dst arg payload).2.hitFlag = s.hitFlag :=
  sendFrame_hitFlag ..

theorem startEnum_hitFlag (s : State) (p : Nat) (h : p < 2) : (s.startEnum p).hitFlag = s.hitFlag :=
  sendOn_hitFlag _ _ _ _ h

theorem headWindow_hitFlag (s : State) : s.headWindow.hitFlag = s.hitFlag := by
  unfold State.headWindow
  dsimp only
  split <;> rfl

theorem writeTarget_hitFlag (s : State) (pos donor hops valid allow : Nat) : (s.writeTarget pos donor hops valid allow).hitFlag = s.hitFlag := by
  unfold State.writeTarget
  dsimp only
  split
  · simp (disch := decide) [hitFlag_put]
  · exact sendReq_hitFlag ..

theorem spillPlan_hitFlag (s : State) : s.spillPlan.hitFlag = s.hitFlag := by
  unfold State.spillPlan
  split
  · rfl
  · extract_lets x pos entry valid pool
    clear_value valid pool entry
    refine foldl_hitFlag _ _ _ (fun t p _ => ?_)
    split
    · rfl
    · split
      · rfl
      · extract_lets cand better best
        clear_value best
        split
        · exact writeTarget_hitFlag ..
        · exact writeTarget_hitFlag ..

theorem ringSitting_hitFlag (s : State) : s.ringSitting.hitFlag = s.hitFlag := by
  unfold State.ringSitting
  extract_lets s1 s2 s3
  have h1 : s1.hitFlag = s.hitFlag := by
    refine foldl_hitFlag _ _ _ (fun t p hp => ?_)
    split
    · exact startEnum_hitFlag _ _ (List.mem_range.mp hp)
    · rfl
  have h2 : s2.hitFlag = s1.hitFlag := (spillPlan_hitFlag _).trans (headWindow_hitFlag _)
  have h3 : s3.hitFlag = s2.hitFlag := by
    refine foldl_hitFlag _ _ _ (fun t i _ => ?_)
    split <;> rfl
  exact h3.trans (h2.trans h1)

theorem pwrSitting_hitFlag (s : State) : s.pwrSitting.hitFlag = s.hitFlag := rfl

theorem wdogSitting_hitFlag (s : State) : s.wdogSitting.hitFlag = s.hitFlag := by
  unfold State.wdogSitting
  split
  · rfl
  · extract_lets n period s1 s2 
    have h1 : s1.hitFlag = s.hitFlag := by simp (disch := decide) [s1, State.putSecp, hitFlag_put]
    have h2 : s2.hitFlag = s1.hitFlag := by
      simp only [s2]
      split
      · simp (disch := decide) [hitFlag_raise]
      · rfl
    split <;> exact h2.trans h1

theorem fabricKeySitting_hitFlag (s : State) : s.fabricKeySitting.hitFlag = s.hitFlag := by
  unfold State.fabricKeySitting
  split <;> rfl

theorem recompSitting_hitFlag (s : State) : s.recompSitting.hitFlag = s.hitFlag := by
  refine foldl_hitFlag _ _ _ (fun t v _ => ?_)
  split <;> rfl

theorem grantLane_hitFlag (s : State) (slab n : Nat) (h : slab < 2) : (s.grantLane slab n).hitFlag = s.hitFlag := by
  have hput (t : State) : ((t.put .codc slab F.CODC_LANE_STATUS_OFLD_LOST 1).lostArb .ofld slab).hitFlag = t.hitFlag := by
    obtain rfl | rfl : slab = 0 ∨ slab = 1 := by omega
    all_goals simp (disch := decide) [hitFlag_put, hitFlag_raise, State.lostArb]
  unfold State.grantLane
  split
  · rfl
  · extract_lets can
    split
    · rfl
    · extract_lets s1 s2
      have h2 : s2.hitFlag = s.hitFlag := by
        simp only [s2]
        split
        · exact hput s1
        · rfl
      split
      · split
        · exact h2
        · exact h2
      · exact h2

theorem grantLanes_hitFlag (s : State) (slab : Nat) (h : slab < 2) : (s.grantLanes slab).hitFlag = s.hitFlag := by
  unfold State.grantLanes
  split
  · rfl
  · exact foldl_hitFlag _ _ _ (fun t n _ => grantLane_hitFlag t slab n h)

theorem homeSlab_lt (s : State) (p : Nat) : s.homeSlab p < 2 := by
  unfold State.homeSlab homeOf
  split <;> omega

theorem askDecode_hitFlag (s : State) (page : Nat) : (s.askDecode page).hitFlag = s.hitFlag := by
  unfold State.askDecode
  split
  · split
    · exact grantLanes_hitFlag _ _ (homeSlab_lt s page)
    · rfl
  · rfl

theorem askRecall_hitFlag (s : State) (page : Nat) (e : PEntry) : (s.askRecall page e).hitFlag = s.hitFlag := by
  unfold State.askRecall
  split
  · rfl
  · exact sendReq_hitFlag ..

theorem admitMove_hitFlag (s : State) (m : Move) : (s.admitMove m).2.hitFlag = s.hitFlag := by
  unfold State.admitMove
  split
  · rfl
  · split
    · exact spend_hitFlag ..
    · rfl

theorem payWaiting_hitFlag (s : State) : s.payWaiting.hitFlag = s.hitFlag := by
  refine foldl_hitFlag _ _ _ (fun t m _ => ?_)
  dsimp only
  split
  · rfl
  · split
    · exact (askRecall_hitFlag ..).trans (admitMove_hitFlag ..)
    · exact (askDecode_hitFlag ..).trans (admitMove_hitFlag ..)

theorem planSitting_hitFlag (s : State) (share : Nat) : (s.planSitting share).hitFlag = 0 := by
  unfold State.planSitting
  exact (hitFlag_plan _ _ _).trans (get_put_same _ .ledg 0 F.LEDG_STATUS_BUDGET_HIT 0 0)

theorem sittingStep_hitFlag (s : State) (h : s.tb.sittingDue = true) : s.sittingStep.hitFlag = 0 := by
  unfold State.sittingStep
  rw [if_neg (by simp [h])]
  simp only [ringSitting_hitFlag, pwrSitting_hitFlag, wdogSitting_hitFlag, fabricKeySitting_hitFlag, recompSitting_hitFlag,
    payWaiting_hitFlag, planSitting_hitFlag]

end Sys2Proof.Machine
end

section
/-! PROOFS. The boundaries of a Layer and of a Sitting (R14, R47, R414, R488). -/

namespace Sys2Proof.Machine

theorem exec_layerBoundary {s : State} (h : s.live = true) : exec .layerBoundary s = .next s.layerStep.closeEdge := by
  show Host.Outcome.next (if s.live then s.layerStep.closeEdge else s) = _
  rw [if_pos h]

theorem exec_sittingBoundary {s : State} (h : s.live = true) :
    exec .sittingBoundary s = .next ((s.sittingStep.within s).cutAsked s).closeEdge := by
  show Host.Outcome.next (if s.live then ((s.sittingStep.within s).cutAsked s).closeEdge else s) = _
  rw [if_pos h]

theorem layerStep_flags {s : State} (h : s.tb.layerDue = true) : s.layerStep.tb.layerDue = false ∧ s.layerStep.tb.sittingDue = false ∧
    s.layerStep.tb.hotSeen = false ∧ s.layerStep.regu.layer = layerOf s.tb.stroke ∧ (s.tb.hotSeen = true → s.layerStep.tb.hot = true) := by
  obtain ⟨w, b, o, hc⟩ := layerStep_clockwork s h
  refine ⟨congrArg (fun c => c.1.layerDue) hc, congrArg (fun c => c.1.sittingDue) hc, congrArg (fun c => c.1.hotSeen) hc,
    congrArg (fun c => c.2.1) hc, fun hs => ?_⟩
  have hor : (s.tb.hotSeen || s.sittingStep.tb.hot) = true := by rw [hs, Bool.true_or]
  exact (congrArg (fun c => c.1.hot) hc).trans hor

theorem layerStep_kept {s : State} (h : s.tb.layerDue = true) : s.layerStep.tb.stroke = s.tb.stroke ∧ s.layerStep.tb.phase = s.tb.phase ∧
    s.layerStep.tb.elapsed = s.tb.elapsed ∧ s.layerStep.tb.edgeOpen = s.tb.edgeOpen ∧ s.layerStep.tb.adopt = s.tb.adopt := by
  obtain ⟨w, b, o, hc⟩ := layerStep_clockwork s h
  exact ⟨congrArg (fun c => c.1.stroke) hc, congrArg (fun c => c.1.phase) hc, congrArg (fun c => c.1.elapsed) hc,
    congrArg (fun c => c.1.edgeOpen) hc, congrArg (fun c => c.1.adopt) hc⟩

theorem edgeReady_of_adoption {s : State} {n : Stroke} (h : s.tb.adopt = some (s.now, n)) : s.edgeReady = false := by
  simp [State.edgeReady, h]

theorem edgeReady_of_layerDue {s : State} (h : s.tb.layerDue = true) : s.edgeReady = false := by
  simp [State.edgeReady, h]

/-- Settles O10: what the Layer's and the Sitting's steps do to the clockwork; the rest of an edge leaves it or begins a module reset. -/
theorem boundaries : Obligations.Boundaries := by
  refine ⟨fun s hlive hdue => ?_, fun s n hlive hdue hadopt => ?_, fun s hlive hdue hsit => ?_⟩
  · rw [ends_iff_of_exec (exec_layerBoundary hlive)]
    obtain ⟨hl, hs, hh, hlay, hhot⟩ := layerStep_flags hdue
    rcases closeEdge_resetBegun_or hl hs hh with ⟨hl', hs', hh', hr⟩ | ⟨e, o, r, hc⟩
    · exact ⟨hl', hs', Or.inl hr, hh'⟩
    · exact ⟨(congrArg (fun c => c.1.layerDue) hc).trans hl, (congrArg (fun c => c.1.sittingDue) hc).trans hs,
        Or.inr ⟨(congrArg (fun c => c.2.1) hc).trans hlay, fun hseen => (congrArg (fun c => c.1.hot) hc).trans (hhot hseen)⟩,
        (congrArg (fun c => c.1.hotSeen) hc).trans hh⟩
  · rw [ends_iff_of_exec (exec_layerBoundary hlive)]
    obtain ⟨hl, hs, hh, hlay, hhot⟩ := layerStep_flags hdue
    obtain ⟨hstroke, hphase, helapsed, hopen, hadopt'⟩ := layerStep_kept hdue
    have hnow : s.layerStep.tb.adopt = some (s.layerStep.now, n) := by
      rw [hadopt', hadopt]
      exact congrArg (fun x => some (x, n)) hstroke.symm
    rw [closeEdge_of_not_ready (edgeReady_of_adoption hnow)]
    exact ⟨hl, hs, hlay, hhot, hh, hstroke, hphase, helapsed, hopen, hadopt'⟩
  · rw [ends_iff_of_exec (exec_sittingBoundary hlive)]
    have hstep := sittingStep_clockwork s hsit
    obtain ⟨r, hcut⟩ := cutAsked_clockwork (s.sittingStep.within s) s
    rw [within_clockwork, hstep] at hcut
    have hl : ((s.sittingStep.within s).cutAsked s).tb.layerDue = true := (congrArg (fun c => c.1.layerDue) hcut).trans hdue
    rw [closeEdge_of_not_ready (edgeReady_of_layerDue hl)]
    refine ⟨congrArg (fun c => c.1.sittingDue) hcut, hl, congrArg (fun c => c.1.hotBad) hcut, congrArg (fun c => c.2.2.1) hcut, ?_,
      congrArg (fun c => c.1.stroke) hcut, congrArg (fun c => c.1.phase) hcut⟩
    rw [get_cutAsked, get_within]
    exact sittingStep_hitFlag s hsit

end Sys2Proof.Machine
end
end

section
/-! The statements of the timebase and of the host's accesses. As with the two boundaries above, their proofs are elaborated one after another: each
thread reserves a stack of its own, and the tests of the model leave little of the check's memory. Nothing here has section variables. -/
set_option deprecated.oldSectionVars true

section
/-! PROOFS. What a step takes from the queue (00_scope.md, R32). -/

namespace Sys2Proof.Machine

theorem step_of_pending {s : State} {i : Instr} {r : List Instr} (h : s.pending = i :: r) : step s = exec i { s with pending := r } := by
  rw [step, h]

theorem step_of_idle {s : State} (h : s.pending = []) : step s = .next s.tick := by
  rw [step, h]

theorem caughtUp_of_edge_closed {s : State} (h : s.tb.edgeOpen = false) : s.caughtUp = s := by
  simp [State.caughtUp, h]

theorem tick_of_edge_closed {s : State} (h : s.tb.edgeOpen = false) : s.tick =
    if s.live = true ∧ s.tb.phase + 1 < s.tb.len then { s with tb := { s.tb with phase := s.tb.phase + 1 } } else s := by
  simp [State.tick, caughtUp_of_edge_closed h]

/-- Settles O8: the queue's front decides a step; with no edge open, a tick touches the phase alone. -/
theorem queueFront : Obligations.QueueFront := by
  refine ⟨fun s i r hq => step_of_pending hq, fun s hq hedge => ⟨s.tick, step_of_idle hq, ?_⟩⟩
  rw [tick_of_edge_closed hedge]
  split
  · exact ⟨rfl, rfl⟩
  · exact ⟨rfl, rfl⟩

end Sys2Proof.Machine
end

section
/-! PROOFS. The order of the power supervisor (R563 to R582): what it says while the switch is open and while it is closed, and that every change
of the supervisor keeps it. -/

namespace Sys2Proof.Machine

/-! ### The order while the switch is open and while it is closed -/

/-- The switch is open and all behind it is down; no power-good counts, and the fault counts stay in their range. -/
abbrev Sup.Rests (u : Sup) : Prop := u.down ∧ u.pgOnce = false ∧ u.count ≤ 6 ∧ u.mem.count ≤ 6

theorem supOk_open_iff {u : Sup} (h : u.st.closed = false) : u.ok = true ↔ u.Rests ∧ (u.st = .off ∨ u.auxUp = true) := by
  have hon : u.st ≠ .on := by rintro e; simp [e, SupSt.closed] at h
  have hlimit : u.st ≠ .limit := by rintro e; simp [e, SupSt.closed] at h
  simp only [Sup.ok, h, hon, hlimit, Bool.and_eq_true, Bool.or_eq_true, beq_iff_eq, decide_eq_true_eq, decide_false, Bool.not_eq_true']
  constructor
  · rintro ⟨⟨⟨⟨⟨⟨⟨⟨⟨⟨⟨⟨hsw, hpg⟩, htr⟩, hc⟩, hm⟩, -⟩, -⟩, -⟩, -⟩, hrails⟩, hopen⟩, -⟩, haux⟩
    obtain ⟨⟨hstep, hrel⟩, honce⟩ := hopen.resolve_left Bool.false_ne_true
    rw [hstep] at hrails
    exact ⟨⟨⟨hsw, hrails, hstep, hpg, htr, hrel⟩, honce, hc, hm⟩, haux⟩
  · rintro ⟨⟨⟨hsw, hrails, hstep, hpg, htr, hrel⟩, honce, hc, hm⟩, haux⟩
    simp [hsw, hrails, hstep, hpg, htr, hrel, honce, hc, hm, haux, hon, railsBefore]

theorem supOk_closed_iff {u : Sup} (h : u.st.closed = true) : u.ok = true ↔
    u.switchOn = true ∧ u.pg = decide (u.st = .on) ∧ u.timerRun = decide (u.st = .limit) ∧ u.count ≤ 6 ∧ u.mem.count ≤ 6 ∧ u.step ≤ 7 ∧
    (u.released = true → u.step = 7) ∧ (u.step ≠ 0 → u.pgOnce = true) ∧ (u.st = .on → u.pgOnce = true) ∧ u.rails = railsBefore u.step ∧
    u.en = true ∧ u.inputOk = true ∧ u.auxUp = true := by
  have hoff : u.st ≠ .off := by rintro e; simp [e, SupSt.closed] at h
  simp only [Sup.ok, h, hoff, Bool.and_eq_true, Bool.or_eq_true, beq_iff_eq, decide_eq_true_eq, decide_false, Bool.not_eq_true',
    Bool.false_eq_true, false_or, true_or, and_true, Bool.not_true, ne_eq, and_assoc]
  have hrel : u.released = false ∨ u.step = 7 ↔ (u.released = true → u.step = 7) := by cases u.released <;> simp
  have hstep : u.step = 0 ∨ u.pgOnce = true ↔ (¬u.step = 0 → u.pgOnce = true) := by tauto
  have hon : ¬u.st = .on ∨ u.pgOnce = true ↔ (u.st = .on → u.pgOnce = true) := by tauto
  rw [hrel, hstep, hon]

theorem rests_of_open {u : Sup} (hu : u.ok = true) (h : u.st.closed = false) : u.Rests := ((supOk_open_iff h).1 hu).1

theorem supOk_of_rests {u : Sup} (hu : u.Rests) (h : u.st.closed = false) (haux : u.st = .off ∨ u.auxUp = true) : u.ok = true :=
  (supOk_open_iff h).2 ⟨hu, haux⟩

theorem supOk_counts {u : Sup} (hu : u.ok = true) : u.count ≤ 6 ∧ u.mem.count ≤ 6 := by
  cases h : u.st.closed with
  | false => obtain ⟨-, -, hc⟩ := rests_of_open hu h; exact hc
  | true => obtain ⟨-, -, -, hc, hm, -⟩ := (supOk_closed_iff h).1 hu; exact ⟨hc, hm⟩

theorem auxUp_of_not_off {u : Sup} (hu : u.ok = true) (h : u.st ≠ .off) : u.auxUp = true := by
  cases hc : u.st.closed with
  | false => exact ((supOk_open_iff hc).1 hu).2.resolve_left h
  | true => obtain ⟨-, -, -, -, -, -, -, -, -, -, -, -, haux⟩ := (supOk_closed_iff hc).1 hu; exact haux

theorem auxUp_of_closed {u : Sup} (hu : u.ok = true) (h : u.st.closed = true) : u.auxUp = true :=
  auxUp_of_not_off hu (by rintro e; simp [e, SupSt.closed] at h)

theorem not_released_of_open {u : Sup} (hu : u.ok = true) (h : u.st.closed = false) : u.released = false := by
  obtain ⟨⟨-, -, -, -, -, hrel⟩, -⟩ := rests_of_open hu h
  exact hrel

/-- The counts of faults and the store stand apart from the rest of the order. -/
theorem recount_ok {u : Sup} (hu : u.ok = true) {count : Nat} {mem : Thermal} (hcount : count ≤ 6) (hmem : mem.count ≤ 6) :
    Sup.ok { u with count := count, mem := mem } = true := by
  cases hc : u.st.closed with
  | false =>
    obtain ⟨⟨hdown, honce, -⟩, haux⟩ := (supOk_open_iff hc).1 hu
    exact supOk_of_rests ⟨hdown, honce, hcount, hmem⟩ hc haux
  | true =>
    obtain ⟨hsw, hpg, htr, -, -, hrest⟩ := (supOk_closed_iff hc).1 hu
    exact (supOk_closed_iff (by exact hc)).2 ⟨hsw, hpg, htr, hcount, hmem, hrest⟩

/-- The power-on reset is released once the rail sequence has ended. -/
theorem released_ok {u : Sup} (hu : u.ok = true) (hstep : u.step = 7) (atOn : Thermal) :
    Sup.ok { u with released := true, atOn := atOn } = true := by
  cases hc : u.st.closed with
  | false =>
    obtain ⟨⟨-, -, h0, -⟩, -⟩ := rests_of_open hu hc
    omega
  | true =>
    obtain ⟨hsw, hpg, htr, hcount, hmem, hle, -, hrest⟩ := (supOk_closed_iff hc).1 hu
    exact (supOk_closed_iff (by exact hc)).2 ⟨hsw, hpg, htr, hcount, hmem, hle, fun _ => hstep, hrest⟩

/-! ### Where the switch opens and where it closes -/

theorem openSwitch_rests {u : Sup} (hu : u.ok = true) : u.openSwitch.Rests := by
  have hc := supOk_counts hu
  exact ⟨⟨rfl, rfl, rfl, rfl, rfl, rfl⟩, rfl, hc⟩

/-- A waiting supervisor that closes its switch, or goes on waiting, is in order. -/
theorem tryRamp_ok {u : Sup} (hu : u.Rests) (haux : u.auxUp = true) : u.tryRamp.ok = true := by
  obtain ⟨-, -, hc, hm⟩ := id hu
  unfold Sup.tryRamp
  split
  next h =>
    rw [Bool.and_eq_true] at h
    refine (supOk_closed_iff rfl).2 ⟨rfl, rfl, rfl, hc, hm, Nat.zero_le _, ?_, ?_, ?_, rfl, h.1, h.2, haux⟩ <;> simp [Sup.closeSwitch]
  next => exact supOk_of_rests hu rfl (.inr haux)

theorem trip_ok {u : Sup} (hu : u.ok = true) (h : u.st.closed = true) (cause rail vin : Nat) : (u.trip cause rail vin).ok = true := by
  obtain ⟨hdown, honce, -⟩ := openSwitch_rests hu
  have haux := auxUp_of_closed hu h
  refine supOk_of_rests ⟨hdown, honce, Nat.min_le_left .., Nat.min_le_left ..⟩ ?_ (.inr haux)
  show SupSt.closed (if decide (6 ≤ u.count + 1) = true then .latched else .cool) = false
  split <;> rfl

theorem readStore_ok {u : Sup} (hu : u.Rests) (haux : u.auxUp = true) : u.readStore.ok = true := by
  obtain ⟨hdown, honce, -, hm⟩ := hu
  unfold Sup.readStore
  extract_lets m v
  have hcount : m.count ≤ 6 := by
    simp only [m]
    split
    · exact hm
    · exact Nat.zero_le _
  have hv : v.Rests := ⟨hdown, honce, hcount, hcount⟩
  split
  · exact supOk_of_rests hv rfl (.inr haux)
  split
  · exact supOk_of_rests hv rfl (.inr haux)
  split
  · exact supOk_of_rests hv rfl (.inr haux)
  · exact tryRamp_ok hv haux

end Sys2Proof.Machine
end

section
/-! PROOFS. The invariant over the events of the power supervisor (R563 to R582). -/

namespace Sys2Proof.Machine

/-! ### What the invariant speaks of -/

theorem inv_congr {s t : State} (hphase : t.tb.phase = s.tb.phase) (hlen : t.tb.len = s.tb.len) (hsup : t.sup = s.sup)
    (hpow : t.boot.powered = s.boot.powered) (h : s.Inv) : t.Inv := by
  obtain ⟨htb, hok, hrel⟩ := h
  refine ⟨?_, hsup ▸ hok, by rwa [hpow, hsup]⟩
  rwa [Timebase.ok, hphase, hlen]

theorem timebaseOk_iff {u : Timebase} : u.ok = true ↔ u.phase < u.len ∧ 191 ≤ u.len ∧ u.len ≤ 193 := by
  simp [Timebase.ok, and_assoc]

/-- A change of the supervisor that keeps its order, and the release while it was given. -/
theorem modSup_inv {s : State} {f : Sup → Sup} (h : s.Inv) (hok : (f s.sup).ok = true)
    (hrel : s.sup.released = true → (f s.sup).released = true) : (s.modSup f).Inv :=
  ⟨h.1, hok, fun hp => hrel (h.2.2 hp)⟩

theorem modSup_eq {s : State} {f : Sup → Sup} (h : f s.sup = s.sup) : s.modSup f = s := by rw [State.modSup, h]

/-- An event takes effect within the clock, the supervisor and the power it found. -/
theorem within_inv {s : State} (h : s.Inv) (t : State) : (t.within s).Inv := inv_congr rfl rfl rfl rfl h

/-- The hub of a supervisor whose switch is open has no power, so that nothing is asked of the release. -/
theorem modSup_inv_of_open {s : State} {f : Sup → Sup} (h : s.Inv) (hopen : s.sup.st.closed = false) (hok : (f s.sup).ok = true) :
    (s.modSup f).Inv :=
  modSup_inv h hok (fun hr => by simp [not_released_of_open h.2.1 hopen] at hr)

theorem unpower_inv {s : State} (htb : s.tb.ok = true) (hsup : s.sup.ok = true) : s.unpower.Inv := ⟨htb, hsup, nofun⟩

theorem supTrip_inv {s : State} (h : s.Inv) (cause rail vin : Nat) : (s.supTrip cause rail vin).Inv := by
  unfold State.supTrip
  split
  next hc => exact unpower_inv h.1 (trip_ok h.2.1 hc ..)
  next => exact h

/-- An outcome whose next state meets the invariant. -/
def KeepsInv (o : Host.Outcome State Fault Refusal) : Prop := ∀ t, o = .next t → t.Inv
theorem keepsInv_next {t : State} (h : t.Inv) : KeepsInv (.next t) := by rintro _ ⟨⟩; exact h

/-! ### The supervisor's events -/

theorem execAuxRailUp_keepsInv {s : State} (h : s.Inv) (inputOk memValid : Bool) : KeepsInv (execAuxRailUp inputOk memValid s) := by
  refine keepsInv_next ?_
  split
  · exact h
  next haux =>
    have hoff : s.sup.st = .off := by
      by_contra hne
      exact haux (auxUp_of_not_off h.2.1 hne)
    have hopen : s.sup.st.closed = false := by rw [hoff]; rfl
    obtain ⟨hdown, honce, hcount⟩ := rests_of_open h.2.1 hopen
    refine modSup_inv_of_open h hopen ?_
    split
    · exact readStore_ok ⟨hdown, honce, hcount⟩ rfl
    · exact supOk_of_rests ⟨hdown, honce, hcount⟩ hopen (.inl hoff)

theorem execAuxRailDown_keepsInv {s : State} (h : s.Inv) : KeepsInv (execAuxRailDown s) := by
  have hrests := openSwitch_rests h.2.1
  exact keepsInv_next ⟨h.1, supOk_of_rests hrests rfl (.inl rfl), nofun⟩

theorem execPwrEnAssert_keepsInv {s : State} (h : s.Inv) (lowMs : Nat) : KeepsInv (execPwrEnAssert lowMs s) := by
  refine keepsInv_next ?_
  cases hc : s.sup.st.closed with
  | true =>
    obtain ⟨-, -, -, -, -, -, -, -, -, -, hen, -⟩ := (supOk_closed_iff hc).1 h.2.1
    rw [modSup_eq]
    · exact h
    extract_lets v
    have hv : v = s.sup := by simp only [v, ← hen]
    split
    next hst => simp [hst, SupSt.closed] at hc
    next hst => simp [hst, SupSt.closed] at hc
    next hst => simp [hst, SupSt.closed] at hc
    next => exact hv
  | false =>
    obtain ⟨hrests, haux⟩ := (supOk_open_iff hc).1 h.2.1
    refine modSup_inv_of_open h hc ?_
    extract_lets v
    have hv : v.Rests := hrests
    split
    next hst => exact tryRamp_ok hv (haux.resolve_left (by simp [hst]))
    next hst =>
      split
      · exact supOk_of_rests hv hc haux
      · exact tryRamp_ok hv (haux.resolve_left (by simp [hst]))
    next hst =>
      have haux := haux.resolve_left (by simp [hst])
      obtain ⟨hdown, honce, -⟩ := hv
      split
      · split
        · exact supOk_of_rests ⟨hdown, honce, Nat.zero_le _, Nat.zero_le _⟩ rfl (.inr haux)
        · exact tryRamp_ok ⟨hdown, honce, Nat.zero_le _, Nat.zero_le _⟩ haux
      · exact supOk_of_rests hrests hc (.inr haux)
    next => exact supOk_of_rests hv hc haux

theorem execPwrEnDeassert_keepsInv {s : State} (h : s.Inv) : KeepsInv (execPwrEnDeassert s) := by
  refine keepsInv_next ?_
  extract_lets
  split
  next hc =>
    have haux := auxUp_of_closed h.2.1 hc
    have hrests := openSwitch_rests h.2.1
    exact unpower_inv h.1 (supOk_of_rests hrests rfl (.inr haux))
  next hc =>
    rw [Bool.not_eq_true] at hc
    obtain ⟨hrests, haux⟩ := (supOk_open_iff hc).1 h.2.1
    exact modSup_inv_of_open h hc (supOk_of_rests hrests hc haux)

theorem execInputOutOfRange_keepsInv {s : State} (h : s.Inv) (high : Bool) (vin : Nat) : KeepsInv (execInputOutOfRange high vin s) := by
  refine keepsInv_next ?_
  extract_lets
  split
  next =>
    have hrests := openSwitch_rests h.2.1
    exact unpower_inv h.1 (supOk_of_rests hrests rfl (.inl rfl))
  next hc =>
    rw [Bool.not_eq_true] at hc
    obtain ⟨hrests, haux⟩ := (supOk_open_iff hc).1 h.2.1
    exact modSup_inv_of_open h hc (supOk_of_rests hrests hc haux)

theorem execInputInRange_keepsInv {s : State} (h : s.Inv) : KeepsInv (execInputInRange s) := by
  refine keepsInv_next ?_
  cases hc : s.sup.st.closed with
  | true =>
    obtain ⟨-, -, -, -, -, -, -, -, -, -, -, hin, -⟩ := (supOk_closed_iff hc).1 h.2.1
    rw [modSup_eq]
    · exact h
    extract_lets v
    have hv : v = s.sup := by simp only [v, ← hin]
    split
    · rfl
    split
    next hst => simp [hst, SupSt.closed] at hc
    split
    next hst => simp [hst, SupSt.closed] at hc
    · exact hv
  | false =>
    obtain ⟨hrests, haux⟩ := (supOk_open_iff hc).1 h.2.1
    refine modSup_inv_of_open h hc ?_
    split
    · exact h.2.1
    next hup =>
      have hup : s.sup.auxUp = true := by simpa using hup
      split
      · exact readStore_ok hrests hup
      · split
        · exact tryRamp_ok hrests hup
        · exact supOk_of_rests hrests hc haux

theorem execCurrentLimit_keepsInv {s : State} (h : s.Inv) : KeepsInv (execCurrentLimit s) := by
  refine keepsInv_next ?_
  split
  next hst =>
    have hc : s.sup.st.closed = true := by rcases hst with hst | hst <;> rw [hst] <;> rfl
    obtain ⟨hsw, -, -, hcount, hmem, hstep, hrel, honce, -, hrails, hin⟩ := (supOk_closed_iff hc).1 h.2.1
    exact modSup_inv h ((supOk_closed_iff rfl).2 ⟨hsw, rfl, rfl, hcount, hmem, hstep, hrel, honce, nofun, hrails, hin⟩) id
  next => exact h

theorem execLimitClear_keepsInv {s : State} (h : s.Inv) : KeepsInv (execLimitClear s) := by
  refine keepsInv_next ?_
  split
  next hst =>
    have hc : s.sup.st.closed = true := by rw [hst]; rfl
    obtain ⟨hsw, hpg, -, hcount, hmem, hstep, hrel, honce, -, hrails, hin⟩ := (supOk_closed_iff hc).1 h.2.1
    extract_lets s1
    have hpg : s.sup.pg = false := by simpa [hst] using hpg
    have h1 : s1.Inv :=
      modSup_inv h ((supOk_closed_iff rfl).2 ⟨hsw, hpg, rfl, hcount, hmem, hstep, hrel, honce, nofun, hrails, hin⟩) id
    split
    · exact within_inv h1 _
    · exact h1
  next => exact h

theorem execFaultTimerExpire_keepsInv {s : State} (h : s.Inv) (vin : Nat) : KeepsInv (execFaultTimerExpire vin s) := by
  refine keepsInv_next ?_
  split
  · exact supTrip_inv h ..
  · exact h

theorem execFastTrip_keepsInv {s : State} (h : s.Inv) (vin : Nat) : KeepsInv (execFastTrip vin s) := keepsInv_next (supTrip_inv h ..)

theorem execRailSequenceFault_keepsInv {s : State} (h : s.Inv) (rail vin : Nat) : KeepsInv (execRailSequenceFault rail vin s) := by
  refine keepsInv_next ?_
  split
  · exact supTrip_inv h ..
  · exact h

theorem execPowerGoodRise_keepsInv {s : State} (h : s.Inv) : KeepsInv (execPowerGoodRise s) := by
  refine keepsInv_next ?_
  split
  next hst =>
    simp only [Bool.and_eq_true, decide_eq_true_eq, Bool.not_eq_true'] at hst
    obtain ⟨⟨⟨hst, -⟩, -⟩, htr⟩ := hst
    have hc : s.sup.st.closed = true := by rw [hst]; rfl
    obtain ⟨hsw, -, -, hcount, hmem, hstep, hrel, honce, -, hrails, hin⟩ := (supOk_closed_iff hc).1 h.2.1
    extract_lets s1
    have h1 : s1.Inv := by
      refine modSup_inv h ((supOk_closed_iff rfl).2 ⟨hsw, rfl, htr, hcount, hmem, ?_⟩) id
      split
      next => exact ⟨hstep, hrel, fun _ => rfl, fun _ => rfl, hrails, hin⟩
      next hno =>
        have h0 : s.sup.step = 0 := by
          by_contra hne
          exact hno (honce hne)
        rw [h0] at hrel hrails
        exact ⟨(by decide : 1 ≤ 7), fun hr => absurd (hrel hr) (by decide), fun _ => rfl, fun _ => rfl, hrails, hin⟩
    split
    · exact within_inv h1 _
    · exact h1
  next => exact h

theorem execRailStepDone_keepsInv {s : State} (h : s.Inv) : KeepsInv (execRailStepDone s) := by
  refine keepsInv_next ?_
  split
  next hst =>
    simp only [Bool.and_eq_true, decide_eq_true_eq] at hst
    obtain ⟨⟨hc, hlo⟩, hhi⟩ := hst
    obtain ⟨hsw, hpg, htr, hcount, hmem, -, hrel, honce, hon, hrails, hin⟩ := (supOk_closed_iff hc).1 h.2.1
    have hnot : s.sup.released ≠ true := fun hr => by have := hrel hr; omega
    have hnext : s.sup.rails ||| stepRails s.sup.step = railsBefore (s.sup.step + 1) := by rw [hrails]; rfl
    refine modSup_inv h ((supOk_closed_iff (by exact hc)).2 ?_) id
    exact ⟨hsw, hpg, htr, hcount, hmem, Nat.succ_le_succ hhi, fun hr => absurd hr hnot, fun _ => honce (by omega), hon, hnext, hin⟩
  next => exact h

theorem execCoolDownEnd_keepsInv {s : State} (h : s.Inv) : KeepsInv (execCoolDownEnd s) := by
  refine keepsInv_next ?_
  split
  next hst =>
    have hc : s.sup.st.closed = false := by rw [hst]; rfl
    obtain ⟨hrests, haux⟩ := (supOk_open_iff hc).1 h.2.1
    exact modSup_inv_of_open h hc (tryRamp_ok hrests (haux.resolve_left (by simp [hst])))
  split
  · exact modSup_inv h (recount_ok h.2.1 (supOk_counts h.2.1).1 (supOk_counts h.2.1).2) id
  · exact h

theorem execCleanTimeExpire_keepsInv {s : State} (h : s.Inv) : KeepsInv (execCleanTimeExpire s) := by
  refine keepsInv_next ?_
  split
  · exact modSup_inv h (recount_ok h.2.1 (Nat.zero_le 6) (Nat.zero_le 6)) id
  · exact h

theorem execThermalMemoryTick_keepsInv {s : State} (h : s.Inv) : KeepsInv (execThermalMemoryTick s) := by
  refine keepsInv_next ?_
  split
  · exact modSup_inv h (recount_ok h.2.1 (supOk_counts h.2.1).1 (supOk_counts h.2.1).2) id
  · exact h

theorem execFetBad_keepsInv {s : State} (h : s.Inv) (vin : Nat) : KeepsInv (execFetBad vin s) := by
  refine keepsInv_next ?_
  split
  next hst =>
    simp only [Bool.and_eq_true, decide_eq_true_eq, Bool.not_eq_true'] at hst
    obtain ⟨⟨haux, -⟩, -⟩ := hst
    have hrests := openSwitch_rests h.2.1
    exact unpower_inv h.1 (supOk_of_rests hrests rfl (.inr haux))
  next => exact h

end Sys2Proof.Machine
end

section
/-! PROOFS. The invariant over the timebase, the resets and the commands of the hub (R32, R33, R577, R583 to R589): each of them ends within the
clock, the supervisor and the power it found, or begins a reset from them. -/

namespace Sys2Proof.Machine

/-! ### Module resets -/

theorem cutAsked_inv {t : State} (h : t.Inv) (s : State) : (t.cutAsked s).Inv := by
  unfold State.cutAsked
  split
  next hc =>
    simp only [Bool.and_eq_true] at hc
    have haux := auxUp_of_closed h.2.1 hc.2
    have hrests := openSwitch_rests h.2.1
    exact unpower_inv h.1 (supOk_of_rests hrests rfl (.inr haux))
  next => exact inv_congr rfl rfl rfl rfl h

theorem coldStart_inv {s : State} (h : s.Inv) : s.coldStart.Inv := by
  unfold State.coldStart
  extract_lets held run _ s1
  split
  · exact inv_congr rfl rfl rfl rfl h
  · exact ⟨h.1, h.2.1, h.2.2⟩

theorem coldBase_inv {s : State} (h : s.Inv) : s.coldBase.Inv := ⟨rfl, h.2.1, h.2.2⟩

theorem beginCold_inv {s : State} (h : s.Inv) (cause : Nat) (flushCut verifyCut : Bool) : (s.beginCold cause flushCut verifyCut).Inv :=
  coldStart_inv (within_inv (coldBase_inv h) _)

theorem resetEdge_inv {s : State} (h : s.Inv) : s.resetEdge.Inv := by
  unfold State.resetEdge
  extract_lets reqs _ s1 colds warms
  have h1 : s1.Inv := inv_congr rfl rfl rfl rfl h
  split
  · exact beginCold_inv h1 ..
  split
  · exact h1
  · exact within_inv h1 _

theorem execPowerOnReset_keepsInv {s : State} (h : s.Inv) (straps : Straps) (refPresent : Bool) :
    KeepsInv (execPowerOnReset straps refPresent s) := by
  refine keepsInv_next ?_
  split
  next hst =>
    simp only [Bool.and_eq_true, decide_eq_true_eq] at hst
    extract_lets _ _ s1 s2 _ s3
    have h1 : s1.Inv := ⟨h.1, released_ok h.2.1 hst.1 _, fun _ => rfl⟩
    have h2 : s2.Inv := coldBase_inv h1
    have h3 : s3.Inv := inv_congr rfl rfl rfl rfl h2
    exact coldStart_inv (inv_congr rfl rfl rfl rfl h3)
  next => exact h

theorem execSysRst_keepsInv {s : State} (h : s.Inv) : KeepsInv (execSysRst s) := by
  refine keepsInv_next ?_
  split <;> exact inv_congr rfl rfl rfl rfl h

theorem execSysRstRelease_keepsInv {s : State} (h : s.Inv) (straps : Straps) (refPresent : Bool) :
    KeepsInv (execSysRstRelease straps refPresent s) := by
  refine keepsInv_next ?_
  split
  · exact h
  split
  · exact coldStart_inv (inv_congr rfl rfl rfl rfl h)
  · exact inv_congr rfl rfl rfl rfl h

/-! ### The timebase -/

theorem layerStep_inv {s : State} (h : s.Inv) : s.layerStep.Inv := by
  unfold State.layerStep
  split
  · exact h
  · exact within_inv h _

theorem adoptStep_inv {s : State} (h : s.Inv) : s.adoptStep.Inv := by
  unfold State.adoptStep
  split
  · exact h
  split
  · exact h
  extract_lets s1
  have h1 : s1.Inv := layerStep_inv h
  split
  · exact h1
  · exact inv_congr rfl rfl rfl rfl h1

theorem closeEdge_inv {s : State} (h : s.Inv) : s.closeEdge.Inv := by
  unfold State.closeEdge
  split
  · extract_lets _ s1
    have h1 : s1.Inv := inv_congr rfl rfl rfl rfl h
    exact resetEdge_inv (cutAsked_inv (within_inv h1 _) _)
  · exact h

theorem leftover_inv {s : State} (h : s.Inv) : s.leftover.Inv :=
  closeEdge_inv (inv_congr rfl rfl rfl rfl (within_inv (layerStep_inv (adoptStep_inv h)) _))

theorem caughtUp_inv {s : State} (h : s.Inv) : s.caughtUp.Inv := by
  unfold State.caughtUp
  split
  · exact leftover_inv h
  · exact h

theorem strokeLen_bounds (s : State) : 191 ≤ s.strokeLen ∧ s.strokeLen ≤ 193 := by
  unfold State.strokeLen
  split
  · split
    · decide
    · split <;> decide
  · decide

theorem advance_inv {s : State} (h : s.Inv) : s.advance.Inv := by
  obtain ⟨hlo, hhi⟩ := strokeLen_bounds s
  have hphase : 0 < s.strokeLen := by omega
  exact ⟨timebaseOk_iff.2 ⟨hphase, hlo, hhi⟩, h.2⟩

theorem strokeEdge_inv {s : State} (h : s.Inv) (miss0 miss1 : Bool) : (s.strokeEdge miss0 miss1).Inv := by
  have h1 := advance_inv (leftover_inv h)
  unfold State.strokeEdge
  extract_lets s1 held
  split
  · exact resetEdge_inv (cutAsked_inv (within_inv h1 _) _)
  · exact closeEdge_inv (cutAsked_inv (within_inv h1 _) _)

theorem tick_inv {s : State} (h : s.Inv) : s.tick.Inv := by
  have hu := caughtUp_inv h
  unfold State.tick
  extract_lets u
  split
  next hc =>
    simp only [Bool.and_eq_true, decide_eq_true_eq] at hc
    obtain ⟨htb, hrest⟩ := hu
    exact ⟨timebaseOk_iff.2 ⟨hc.2, (timebaseOk_iff.1 htb).2⟩, hrest⟩
  next => exact hu

theorem phaseTo_inv {s : State} (h : s.Inv) (p : Nat) : (s.phaseTo p).Inv := by
  obtain ⟨htb, hrest⟩ := h
  obtain ⟨hphase, hlen⟩ := timebaseOk_iff.1 htb
  have hlt : max s.tb.phase (min p (s.tb.len - 1)) < s.tb.len := by omega
  exact ⟨timebaseOk_iff.2 ⟨hlt, hlen⟩, hrest⟩

/-! ### The commands -/

theorem hub_keepsInv {s : State} (h : s.Inv) (f : State → State) : KeepsInv (hub s f) := by
  have hu := caughtUp_inv h
  refine keepsInv_next ?_
  extract_lets
  split
  · exact cutAsked_inv (within_inv hu _) _
  · exact hu

theorem execErrorReport_keepsInv {s : State} (h : s.Inv) (reps : List Rep) : KeepsInv (execErrorReport reps s) := by
  have hu := caughtUp_inv h
  unfold execErrorReport
  extract_lets u
  refine hub_keepsInv ?_ _
  split
  · exact phaseTo_inv hu _
  · exact hu

theorem execWireBroken_keepsInv {s : State} (h : s.Inv) (block inst loc phase : Nat) : KeepsInv (execWireBroken block inst loc phase s) := by
  have hu := caughtUp_inv h
  unfold execWireBroken
  extract_lets u
  refine hub_keepsInv ?_ _
  split
  · exact phaseTo_inv hu _
  · exact hu

theorem cmdWarmFlushTimeout_inv {s : State} (h : s.Inv) : s.cmdWarmFlushTimeout.Inv := by
  unfold State.cmdWarmFlushTimeout
  split
  · split
    · split
      · exact beginCold_inv h ..
      · exact h
    · exact h
  · exact h

theorem cmdBootVerifyDone_inv {s : State} (h : s.Inv) (slab kind : Nat) (readErr : Bool) : (s.cmdBootVerifyDone slab kind readErr).Inv := by
  unfold State.cmdBootVerifyDone
  extract_lets cause
  split
  · exact h
  split
  · exact within_inv h _
  split
  · exact beginCold_inv (within_inv h _) ..
  · exact within_inv h _

theorem cmdRefclkLost_inv {s : State} (h : s.Inv) : s.cmdRefclkLost.Inv := by
  unfold State.cmdRefclkLost
  extract_lets _ s1 t u
  have ht : t.Inv := inv_congr rfl rfl rfl rfl h
  split
  · split
    · exact within_inv ht _
    · exact ht
  · exact inv_congr rfl rfl rfl rfl h

theorem cmdRefclkReturn_inv {s : State} (h : s.Inv) : s.cmdRefclkReturn.Inv := by
  unfold State.cmdRefclkReturn
  extract_lets _ s1
  have h1 : s1.Inv := inv_congr rfl rfl rfl rfl h
  split
  · exact coldStart_inv h1
  split
  · exact inv_congr rfl rfl rfl rfl h1
  · exact h1

theorem exec_keepsInv {s : State} (h : s.Inv) (i : Instr) : KeepsInv (exec i s) := by
  have hlive : ∀ {c : Bool} {t : State}, t.Inv → KeepsInv (.next (if c then t else s)) := by
    intro c t ht
    refine keepsInv_next ?_
    split
    · exact ht
    · exact h
  cases i with
  | strokeEdge miss0 miss1 => exact hlive (strokeEdge_inv h miss0 miss1)
  | layerBoundary => exact hlive (closeEdge_inv (layerStep_inv h))
  | sittingBoundary => exact hlive (closeEdge_inv (cutAsked_inv (within_inv h _) _))
  | strokeAdopt => exact hlive (closeEdge_inv (adoptStep_inv h))
  | commitActivate b n => exact hlive (closeEdge_inv (cutAsked_inv (within_inv h _) _))
  | errorReport reps => exact execErrorReport_keepsInv h reps
  | wireBroken block inst loc phase => exact execWireBroken_keepsInv h block inst loc phase
  | warmFlushTimeout => exact keepsInv_next (cmdWarmFlushTimeout_inv (caughtUp_inv h))
  | bootVerifyDone slab kind readErr => exact keepsInv_next (cmdBootVerifyDone_inv (caughtUp_inv h) slab kind readErr)
  | refclkLost => exact keepsInv_next (cmdRefclkLost_inv (caughtUp_inv h))
  | refclkReturn => exact keepsInv_next (cmdRefclkReturn_inv (caughtUp_inv h))
  | powerOnReset straps refPresent => exact execPowerOnReset_keepsInv h straps refPresent
  | sysRst => exact execSysRst_keepsInv h
  | sysRstRelease straps refPresent => exact execSysRstRelease_keepsInv h straps refPresent
  | auxRailUp inputOk memValid => exact execAuxRailUp_keepsInv h inputOk memValid
  | auxRailDown => exact execAuxRailDown_keepsInv h
  | pwrEnAssert lowMs => exact execPwrEnAssert_keepsInv h lowMs
  | pwrEnDeassert => exact execPwrEnDeassert_keepsInv h
  | inputOutOfRange high vin => exact execInputOutOfRange_keepsInv h high vin
  | inputInRange => exact execInputInRange_keepsInv h
  | currentLimit => exact execCurrentLimit_keepsInv h
  | limitClear => exact execLimitClear_keepsInv h
  | faultTimerExpire vin => exact execFaultTimerExpire_keepsInv h vin
  | fastTrip vin => exact execFastTrip_keepsInv h vin
  | powerGoodRise => exact execPowerGoodRise_keepsInv h
  | railStepDone => exact execRailStepDone_keepsInv h
  | railSequenceFault rail vin => exact execRailSequenceFault_keepsInv h rail vin
  | coolDownEnd => exact execCoolDownEnd_keepsInv h
  | cleanTimeExpire => exact execCleanTimeExpire_keepsInv h
  | thermalMemoryTick => exact execThermalMemoryTick_keepsInv h
  | fetBad vin => exact execFetBad_keepsInv h vin
  | _ => dsimp only [exec]; exact hub_keepsInv h _

/-- Settles O1: every command of the hub ends within the clock, the supervisor and the power it found, and the supervisor's events, the edge of a
stroke and the resets keep their order one by one. -/
theorem invariantKept : Obligations.InvariantKept := by
  intro s t hs hstep
  cases hq : s.pending with
  | nil =>
    exact keepsInv_next (tick_inv hs) t ((step_of_idle hq).symm.trans hstep)
  | cons i r =>
    have hs' : State.Inv { s with pending := r } := hs
    exact exec_keepsInv hs' i t ((step_of_pending hq).symm.trans hstep)

/-- Settles O2: the timebase and the supervisor of the reset state stand at the values the invariant asks for, the hub released. -/
theorem invariantAtReset : Obligations.InvariantAtReset := by
  have htb : State.reset.tb.ok = true := by decide
  have hsup : State.reset.sup.ok = true := by decide
  exact ⟨htb, hsup, fun _ => rfl⟩

end Sys2Proof.Machine
end

section
/-! PROOFS. The read of TMB_STROKE_LO and the adoption of a fabric number (R36, R37, R58, R455). -/

namespace Sys2Proof.Machine

/-! ### The read of TMB_STROKE_LO -/

theorem wordFields_strokeLo : wordFields .tmb 0x100 = [(F.TMB_STROKE_LO_STROKE_LO, 0)] := by decide

theorem fieldView_strokeLo (s : State) (agent : Nat) : s.fieldView agent .tmb 0 F.TMB_STROKE_LO_STROKE_LO 0 = s.tb.stroke.toNat % 2 ^ 32 := by
  have hshown : s.shown agent .tmb 0 F.TMB_STROKE_LO_STROKE_LO 0 = some (s.tb.stroke.toNat % 2 ^ 32) := by
    rw [State.shown, if_neg (by decide)]
    rfl
  rw [State.fieldView, if_neg (by decide), hshown]
  exact Nat.mod_mod _ _

theorem wordView_strokeLo (s : State) (agent : Nat) : s.wordView agent .tmb 0 0x100 = s.tb.stroke.toNat % 2 ^ 32 := by
  have hplace : Fld.place F.TMB_STROKE_LO_STROKE_LO 0 0x100 = 0 := by decide
  simp only [State.wordView, wordFields_strokeLo, List.foldl_cons, List.foldl_nil, fieldView_strokeLo, hplace]
  omega

/-- A read of TMB_STROKE_LO that no rule drops. -/
theorem narrowRead_strokeLo {s : State} {agent : Nat} (h : s.dropCause agent (pg .tmb 0 + F.TMB_STROKE_LO_STROKE_LO.off) 4 false = none) :
    s.narrowRead agent (pg .tmb 0 + F.TMB_STROKE_LO_STROKE_LO.off) 4 = (s.tb.stroke.toNat % 2 ^ 32,
      { s with tb := { s.tb with latches := sset (0, 0) s.tb.latches agent (s.tb.stroke.toNat / 2 ^ 32, s.tb.phase) } }) := by
  have hat : blockAt (pg .tmb 0 + F.TMB_STROKE_LO_STROKE_LO.off) = some (.tmb, 0, 0x100) := by decide
  have hword : s.readWord agent (pg .tmb 0 + F.TMB_STROKE_LO_STROKE_LO.off) =
      (s.wordView agent .tmb 0 0x100, s.readEffect agent .tmb 0x100) := by rw [State.readWord, hat]
  have hshift : 8 * ((pg .tmb 0 + F.TMB_STROKE_LO_STROKE_LO.off) % 4) = 0 := by decide
  rw [State.narrowRead, h, hword, wordView_strokeLo, hshift]
  have hval : s.tb.stroke.toNat % 2 ^ 32 / 2 ^ 0 % 2 ^ (8 * 4) = s.tb.stroke.toNat % 2 ^ 32 := by omega
  exact Prod.ext hval rfl

theorem cmdTmbStrokeRead_of_kept {s : State} {agent : Nat}
    (h : s.dropCause agent (pg .tmb 0 + F.TMB_STROKE_LO_STROKE_LO.off) 4 false = none) : s.cmdTmbStrokeRead agent =
      { s with
        tb := { s.tb with latches := sset (0, 0) s.tb.latches agent (s.tb.stroke.toNat / 2 ^ 32, s.tb.phase) }
        out := s.out ++ [Msg.regData agent (pg .tmb 0 + F.TMB_STROKE_LO_STROKE_LO.off) (s.tb.stroke.toNat % 2 ^ 32)] } := by
  rw [State.cmdTmbStrokeRead, State.busRead, if_neg (by decide), narrowRead_strokeLo h]
  rfl

theorem exec_tmbStrokeRead {s : State} (hr : s.runs = true) (agent : Nat) :
    exec (.tmbStrokeRead agent) s = .next (((s.cmdTmbStrokeRead agent).within s).cutAsked s) := by
  show execTmbStrokeRead agent s = _
  exact hub_of_runs hr

/-! ### The adoption -/

/-- ADOPTED of TMB_STATUS (R36). -/
def State.adoptedFlag (s : State) : Nat := s.get .tmb 0 F.TMB_STATUS_ADOPTED

theorem adoptedFlag_congr {s t : State} (h : t.regs = s.regs) : t.adoptedFlag = s.adoptedFlag := get_congr _ _ h ..

theorem adoptedFlag_put_regu (s : State) (f : Fld) (v i : Nat) : (s.put .regu 0 f v i).adoptedFlag = s.adoptedFlag := by
  have hlow : fkey (pg .tmb 0) F.TMB_STATUS_ADOPTED 0 < 8 * pg .regu 0 := by decide
  have hkey : 8 * pg .regu 0 ≤ fkey (pg .regu 0) f i := by unfold fkey; omega
  exact get_put_other _ _ _ _ _ _ _ _ _ _ (by omega)

theorem adoptedFlag_raise_regu (s : State) (bit : Nat) : (s.raise .regu 0 bit).adoptedFlag = s.adoptedFlag :=
  get_raise _ _ _ _ _ _ _ _ (.inl (by decide))

theorem adoptedFlag_withRegu (s : State) (x : Regu) : { s with regu := x }.adoptedFlag = s.adoptedFlag := adoptedFlag_congr rfl

theorem adoptedFlag_modLeft (s : State) (c : Nat) (f : ClassLeft → ClassLeft) : (s.modLeft c f).adoptedFlag = s.adoptedFlag :=
  adoptedFlag_congr rfl

theorem adoptedFlag_pin (s : State) (tb : Timebase) (sup : Sup) (powered : Bool) (q : List Instr) :
    (s.pin tb sup powered q).adoptedFlag = s.adoptedFlag := adoptedFlag_congr rfl

theorem forN_adoptedFlag {n : Nat} {f : State → Nat → State} (h : ∀ t i, (f t i).adoptedFlag = t.adoptedFlag) (s : State) :
    (s.forN n f).adoptedFlag = s.adoptedFlag := foldl_keeps State.adoptedFlag f _ s (fun t i _ => h t i)

/-- The budgets and the tally of a Layer are opened on the REGU page. -/
theorem refill_adoptedFlag (s : State) : s.refill.adoptedFlag = s.adoptedFlag := by
  unfold State.refill
  extract_lets rs was dem any s1 s2 s3 _ s4
  have h1 : s1.adoptedFlag = s.adoptedFlag := by simp only [s1, adoptedFlag_put_regu]
  have h2 : s2.adoptedFlag = s1.adoptedFlag := by
    simp only [s2]
    split
    · exact adoptedFlag_raise_regu ..
    · rfl
  have h3 : s3.adoptedFlag = s2.adoptedFlag :=
    forN_adoptedFlag (fun t k => (adoptedFlag_put_regu ..).trans (adoptedFlag_put_regu ..)) s2
  have h4 : s4.adoptedFlag = s3.adoptedFlag :=
    forN_adoptedFlag (fun t c => (adoptedFlag_modLeft ..).trans ((adoptedFlag_put_regu ..).trans (adoptedFlag_put_regu ..))) s3
  exact (adoptedFlag_withRegu s4 _).trans (h4.trans (h3.trans (h2.trans h1)))

theorem openTally_adoptedFlag (s : State) : s.openTally.adoptedFlag = s.adoptedFlag := adoptedFlag_congr rfl

/-- What the clock and ADOPTED show once the fabric number is taken (R36). -/
theorem takeNumber_adopted (s : State) (n : Stroke) : (s.takeNumber n).adoptedFlag = 1 ∧ (s.takeNumber n).tb.adopt = none ∧
    (s.takeNumber n).tb.edgeOpen = s.tb.edgeOpen ∧ (s.takeNumber n).tb.layerDue = decide (n.toNat % 64 = 0) ∧
    (s.takeNumber n).tb.sittingDue = decide (n.toNat % 2048 = 0) := by
  unfold State.takeNumber
  extract_lets s2 _ _ s3 s4 s5
  have h1 := closeOpen_clockwork (s.closeTalliesIf (fun _ => true)) true
  rw [closeTalliesIf_clockwork] at h1
  have h2 : s2.tb.edgeOpen = s.tb.edgeOpen := congrArg (fun c => c.1.edgeOpen) h1
  clear_value s2
  have h5 : s5.clockwork = s3.clockwork := by simp [s5, s4]
  have hflag : s5.adoptedFlag = 1 := get_put_same ..
  have hclock : ∀ t : State, t.clockwork.1 = s5.clockwork.1 → t.tb.adopt = none ∧ t.tb.edgeOpen = s.tb.edgeOpen ∧
      t.tb.layerDue = decide (n.toNat % 64 = 0) ∧ t.tb.sittingDue = decide (n.toNat % 2048 = 0) := by
    intro t ht
    rw [h5] at ht
    exact ⟨congrArg (fun c => c.adopt) ht, (congrArg (fun c => c.edgeOpen) ht).trans h2, congrArg (fun c => c.layerDue) ht,
      congrArg (fun c => c.sittingDue) ht⟩
  clear_value s5
  split
  · exact ⟨hflag, hclock s5 rfl⟩
  · have hopened : s5.refill.openTally.clockwork.1 = s5.clockwork.1 := by rw [openTally_clockwork, refill_clockwork]
    exact ⟨(openTally_adoptedFlag _).trans ((refill_adoptedFlag s5).trans hflag), hclock _ hopened⟩

/-- The step of an adoption at the edge it waits for, no boundary being due before it. -/
theorem adoptStep_of_due {s : State} {n : Stroke} (h : s.tb.adopt = some (s.now, n)) (hl : s.tb.layerDue = false) :
    s.adoptStep.tb.stroke = n ∧ s.adoptStep.tb.phase = s.tb.phase ∧ s.adoptStep.tb.elapsed = s.tb.elapsed ∧ s.adoptStep.tb.len = s.tb.len ∧
    s.adoptStep.tb.adopt = none ∧ s.adoptStep.adoptedFlag = 1 ∧ s.adoptStep.tb.layerDue = decide (n.toNat % 64 = 0) ∧
    s.adoptStep.tb.sittingDue = decide (n.toNat % 2048 = 0) ∧ s.adoptStep.tb.edgeOpen = s.tb.edgeOpen := by
  have hlayer : s.layerStep = s := by simp [State.layerStep, hl]
  have hstep : s.adoptStep = (s.takeNumber n).pin { s.tb with stroke := n } s.sup s.boot.powered s.pending := by
    simp [State.adoptStep, h, hlayer]
  obtain ⟨hflag, hnone, hopen, hdue, hsit⟩ := takeNumber_adopted s n
  rw [hstep]
  exact ⟨rfl, rfl, rfl, rfl, hnone, (adoptedFlag_pin ..).trans hflag, hdue, hsit, hopen⟩

theorem edgeReady_of_edge_closed {s : State} (h : s.tb.edgeOpen = false) : s.edgeReady = false := by
  simp [State.edgeReady, h]

theorem exec_strokeAdopt {s : State} (h : s.live = true) : exec .strokeAdopt s = .next s.adoptStep.closeEdge := by
  show Host.Outcome.next (if s.live then s.adoptStep.closeEdge else s) = _
  rw [if_pos h]

/-- Settles O11: a read of TMB_STROKE_LO is its value and the reader's latch alone; the step of an adoption takes the number, and the edge does not
close before the boundaries that the number opens. -/
theorem timebaseReads : Obligations.TimebaseReads := by
  refine ⟨fun s agent hr hdrop => ?_, fun s n hlive hadopt hl hn => ?_, fun s n hlive hadopt hl hedge => ?_⟩
  · rw [ends_iff_of_exec (exec_tmbStrokeRead hr agent)]
    rw [cmdTmbStrokeRead_of_kept hdrop, cutAsked_idle _ s (by rfl)]
    exact ⟨sget_sset_same .., rfl, fun k hk => sget_sset_other _ _ _ _ _ hk, rfl⟩
  · rw [ends_iff_of_exec (exec_strokeAdopt hlive)]
    obtain ⟨hstroke, hphase, helapsed, hlen, hnone, hflag, hdue, hsit, hopen⟩ := adoptStep_of_due hadopt hl
    rw [decide_eq_true hn] at hdue
    rw [closeEdge_of_not_ready (edgeReady_of_layerDue hdue)]
    exact ⟨hstroke, hphase, helapsed, hlen, hnone, hflag, hdue, hsit, hopen⟩
  · rw [ends_iff_of_exec (exec_strokeAdopt hlive)]
    obtain ⟨hstroke, hphase, helapsed, hlen, hnone, hflag, hdue, hsit, hopen⟩ := adoptStep_of_due hadopt hl
    rw [closeEdge_of_not_ready (edgeReady_of_edge_closed (hopen.trans hedge))]
    exact ⟨hstroke, hphase, helapsed, hlen, hnone, hflag, hdue, hsit⟩

end Sys2Proof.Machine
end

section
/-! PROOFS. The answer of a host to a snoop (R316, R631), over a directory that names one line twice. -/

namespace Sys2Proof.Machine

/-- A recall of line 0 of page 0 waits for hosts 0 and 1. -/
def twiceWaiting : Waiting :=
  { req := { id := 1, kind := .discard, who := .mgmt 0, page := 0, line := 0 }, awaiting := [.host 0, .host 1] }

/-- The module runs and the recall waits; ways 0 and 1 of the line's set both hold it in S, each with host 0 alone among its HOSTS. -/
def twiceHeld : State :=
  { State.reset with
    boot := { State.reset.boot with inReset := none }
    home := { State.reset.home with
      waiting := [twiceWaiting]
      dir := [(dirKey 0 0 0, { hst := .s, hosts := 1 }), (dirKey 0 0 1, { hst := .s, hosts := 1 })] } }

/-- Host 0's answer empties the first of the two ways, and the line is then found in the second, which still names the host. -/
theorem twiceHeld_answered : (twiceHeld.cmdBisnpResponse 0 0 0 0 none).rawDir 0 0 = { hst := .s, hosts := 1 } := by decide

theorem exec_bisnpResponse {s : State} (hr : s.runs = true) (a page line rsp : Nat) (data : Option Line) :
    exec (.bisnpResponse a page line rsp data) s = .next (((s.cmdBisnpResponse a page line rsp data).within s).cutAsked s) := by
  show execBisnpResponse a page line rsp data s = _
  exact hub_of_runs hr

/-- What a lookup of a line finds rests on the home's part of the state alone. -/
theorem rawDir_congr {s t : State} (h : t.home = s.home) (page line : Nat) : t.rawDir page line = s.rawDir page line := by
  unfold State.rawDir State.dirWay
  rw [h]

/-- Refutes O33: its last clause asks that the host has left what a lookup of the line finds, also where two ways of the directory hold the line; the
answer takes the host out of the first way, and the lookup then finds the second (`twiceHeld`). -/
theorem not_readReturnAndEgress : ¬ Obligations.ReadReturnAndEgress := by
  intro h
  obtain ⟨-, -, -, hsnoop⟩ := h
  have he := hsnoop twiceHeld 0 0 0 twiceWaiting (by decide) rfl rfl rfl rfl rfl rfl (by decide) rfl (by decide)
  rw [ends_iff_of_exec (exec_bisnpResponse (by decide) ..)] at he
  obtain ⟨-, hhost, -⟩ := he
  have hdir : ((((twiceHeld.cmdBisnpResponse 0 0 0 0 none).within twiceHeld).cutAsked twiceHeld).rawDir 0 0).hosts = 1 := by
    rw [rawDir_congr ((cutAsked_home _ _).trans (within_home _ _)), twiceHeld_answered]
  rw [hdir] at hhost
  exact absurd hhost (by decide)

end Sys2Proof.Machine
end

section
/-! PROOFS. A host write of a zero page (R29), over a directory entry that only its lookup shows free. -/

namespace Sys2Proof.Machine

/-- Attach point 0 of a ready module is up; decoder 0 maps from address 0 to context 1. -/
def linkedState : State :=
  { ((((((State.reset.put .mod 0 F.MOD_READY_READY 1).put .port 0 F.PORT_LINK_UP 1).put .port 0 F.PORT_LINK_MEM_EN 1).put .port 0
      F.PORT_ALIAS_VALID 1).put .port 0 F.PORT_ALIAS_KEY_CTX 1).put .tier 0 F.TIER_CAP_STATIC_CAP 16).put .regu 0 F.REGU_CTL_HOLD_EN 0 with
    boot := { State.reset.boot with inReset := none }
    ports := { State.reset.ports with hdm := [(0, { base := 0, size := 2 ^ 38, committed := true })] }
    crypto := { State.reset.crypto with ctxs := [(1, { valid := true })] } }

/-- Line 1 of page 1 is shared by host 1 alone, which is about to depart, and its entry names internal group 0 with ISTATE zero. -/
def leftShared : State :=
  { linkedState with home := { linkedState.home with
      departNext := [1]
      dir := [(dirKey (homeOf 1) (dirSetOf (hlOf 1 1)) 0, { tag := dirTagOf (hlOf 1 1), hst := .s, hosts := 2, ishare := 1 })] } }

/-- A full write of the line waits for group 0, so the page keeps its zeros. -/
theorem leftShared_written :
    ((leftShared.cmdHostWrite 0 0x1040 0 0 0 fullMask false { idx := 0 }).entry 1).st = .zero := by decide +kernel

/-- Where the write leads, and what its port, its context, the page and the line's lookup show. -/
theorem leftShared_mapped : leftShared.runs = true ∧ leftShared.linkUp 0 = true ∧ leftShared.link 0 F.PORT_LINK_MEM_EN = 1 ∧
    (0 + 24) / 25 < leftShared.tb.len ∧ (leftShared.portRefuses 0).2 = false ∧ leftShared.hostDecode 0 0x1040 = some { entry := 0, page := 1, line := 1 } ∧
    leftShared.aliasCtx 0 0 = some 1 ∧ (leftShared.ctx 1).mask.testBit 0 = true ∧ (leftShared.entry 1).st = .zero ∧ leftShared.quiet ∧
    leftShared.bit .regu 0 F.REGU_CTL_HOLD_EN = false ∧ (leftShared.dirOf 1 1).unused = true ∧ leftShared.findFrame 1 = some (1, 0) := by
  decide +kernel

theorem exec_hostWrite {s : State} (hr : s.runs = true) (a hpa meta_ at10 : Nat) (data : Line) (mask : BitVec 64) (poison : Bool) (err : LineErr) :
    exec (.hostWrite a hpa meta_ at10 data mask poison err) s
      = .next (((s.cmdHostWrite a hpa meta_ at10 data mask poison err).within s).cutAsked s) := by
  show execHostWrite a hpa meta_ at10 data mask poison err s = _
  exact hub_of_runs hr

/-- A page's entry rests on the tier and the registers alone. -/
theorem entry_congr {s t : State} (ht : t.tier = s.tier) (hr : t.regs = s.regs) (page : Nat) : t.entry page = s.entry page := by
  unfold State.entry State.inRegion State.pageExists State.get State.getP
  rw [ht, hr]

/-- Refutes O32: its second clause takes a line for uncached whose entry a lookup shows with HSTATE and ISTATE zero; a write also recalls the
internal groups the entry still names (`leftShared`), so the page holds zeros while it waits for them. -/
theorem not_hostAccesses : ¬ Obligations.HostAccesses := by
  intro h
  obtain ⟨-, hwrite⟩ := h
  obtain ⟨hr, hup, hmem, hlen, hport, hdec, halias, hmask, hzero, hquiet, hhold, hdir, hframe⟩ := leftShared_mapped
  have he := hwrite leftShared 0 0x1040 0 1 1 0 _ 0 { idx := 0 } hr hup hmem hlen hport hdec halias (by decide) rfl hmask rfl hzero hquiet rfl rfl
    rfl rfl hhold hdir hframe rfl rfl rfl rfl rfl
  rw [ends_iff_of_exec (exec_hostWrite hr ..)] at he
  obtain ⟨-, -, -, hst, -⟩ := he
  rw [entry_congr ((cutAsked_tier _ _).trans (within_tier _ _)) ((cutAsked_regs _ _).trans (within_regs _ _)), leftShared_written] at hst
  exact absurd hst (by decide)

end Sys2Proof.Machine
end

end

section
/-! The statements of the register pages. As with the two boundaries above, their proofs are elaborated one after another: each thread reserves a
stack of its own, and the tests of the model leave little of the check's memory. Nothing here has section variables. -/
set_option deprecated.oldSectionVars true

section
/-! PROOFS. The register store of a page (R55, R56, R60): where fields stand in it, and how a write is read back. -/

namespace Sys2Proof.Machine

/-! ### Where fields stand -/

/-- The first bit of the `i`-th copy of a field, counted from the start of its block. -/
def Fld.bitOff (f : Fld) (i : Nat) : Nat := 8 * f.off + f.lo + f.bst * i

theorem fkey_eq (p : Nat) (f : Fld) (i : Nat) : fkey p f i = 8 * p + f.bitOff i := by
  unfold fkey Fld.bitOff
  omega

theorem fkey_ne {f g : Fld} {i j : Nat} (h : f.bitOff i ≠ g.bitOff j) (p : Nat) : fkey p f i ≠ fkey p g j := by
  rw [fkey_eq, fkey_eq]
  omega

/-- Two fields whose copies never share their first bit: one lies above the other, or they stand side by side in words of one stride. -/
def Fld.apart (f g : Fld) : Bool :=
  decide (f.bitOff (f.cnt - 1) < g.bitOff 0) || decide (g.bitOff (g.cnt - 1) < f.bitOff 0) ||
    (decide (f.bst = g.bst) && decide (f.bitOff 0 % f.bst ≠ g.bitOff 0 % f.bst))

theorem bitOff_ne_of_apart {f g : Fld} (h : f.apart g = true) {i j : Nat} (hi : i < f.cnt) (hj : j < g.cnt) : f.bitOff i ≠ g.bitOff j := by
  have hf : f.bst * i ≤ f.bst * (f.cnt - 1) := Nat.mul_le_mul_left _ (by omega)
  have hg : g.bst * j ≤ g.bst * (g.cnt - 1) := Nat.mul_le_mul_left _ (by omega)
  unfold Fld.apart at h
  simp only [Bool.or_eq_true, Bool.and_eq_true, decide_eq_true_eq] at h
  simp only [Fld.bitOff] at h ⊢
  rcases h with (h | h) | ⟨hst, hmod⟩
  · omega
  · omega
  · intro he
    rw [← hst] at he
    have hrem := congrArg (· % f.bst) he
    simp only [Nat.add_mul_mod_self_left] at hrem
    exact hmod hrem

theorem hdrFields_apart : hdrFields.Pairwise (fun f g => f.apart g = true) := by decide +kernel

theorem blockFields_apart (b : Block) : (blockFields b).Pairwise (fun f g => f.apart g = true) := by
  cases b <;> decide +kernel

/-- The header stands in the first 256 bytes of its page (R55, R60). -/
theorem hdrFields_low : ∀ f ∈ hdrFields, f.bitOff (f.cnt - 1) < 0x800 := by decide

/-- A block's own fields stand above its header (R55). -/
theorem blockFields_high (b : Block) : ∀ f ∈ blockFields b, 0x100 ≤ f.off := by
  cases b <;> decide

/-- A field without a stride stands once. -/
theorem cnt_of_bst (b : Block) : ∀ f ∈ blockFields b, f.bst = 0 → f.cnt = 1 := by
  cases b <;> decide

theorem bitOff_high {b : Block} {f : Fld} (hf : f ∈ blockFields b) (i : Nat) : 0x800 ≤ f.bitOff i := by
  have := blockFields_high b f hf
  unfold Fld.bitOff
  omega

/-- The fields of a block, header included, stand apart. -/
theorem fields_apart (b : Block) : (hdrFields ++ blockFields b).Pairwise (fun f g => f.apart g = true) := by
  refine List.pairwise_append.2 ⟨hdrFields_apart, blockFields_apart b, fun f hf g hg => ?_⟩
  have hlow := hdrFields_low f hf
  have hhigh := bitOff_high hg 0
  simp only [Fld.apart, Bool.or_eq_true, decide_eq_true_eq]
  exact .inl (.inl (by omega))

theorem apart_comm (f g : Fld) : f.apart g = true → g.apart f = true := by
  unfold Fld.apart
  simp only [Bool.or_eq_true, Bool.and_eq_true, decide_eq_true_eq]
  rintro ((h | h) | ⟨hst, hmod⟩)
  · exact .inl (.inr h)
  · exact .inl (.inl h)
  · exact .inr ⟨hst.symm, hst ▸ hmod.symm⟩

/-- Different fields of a block have different bit addresses. -/
theorem fkey_ne_of_field_ne {b : Block} {f g : Fld} (hf : f ∈ hdrFields ++ blockFields b) (hg : g ∈ hdrFields ++ blockFields b) (hne : f ≠ g)
    {i j : Nat} (hi : i < f.cnt) (hj : j < g.cnt) (p : Nat) : fkey p f i ≠ fkey p g j :=
  have : Std.Symm (fun f g : Fld => f.apart g = true) := ⟨apart_comm⟩
  fkey_ne (bitOff_ne_of_apart ((fields_apart b).forall hf hg hne) hi hj) p

/-! ### Reading after a write in one page -/

theorem get_put_page {f g : Fld} {i j : Nat} (h : g.bitOff j ≠ f.bitOff i) (s : State) (b : Block) (n v : Nat) :
    (s.put b n f v i).get b n g j = s.get b n g j := get_put_other _ _ _ _ _ _ _ _ _ _ (fkey_ne h _)

theorem bit_put_page {f g : Fld} {i j : Nat} (h : g.bitOff j ≠ f.bitOff i) (s : State) (b : Block) (n v : Nat) :
    (s.put b n f v i).bit b n g j = s.bit b n g j := congrArg (· != 0) (get_put_page h s b n v)

/-- HDR_INT_STATUS fills bits 0xA0 to 0xBF of its page (R60); a raised interrupt changes no other field of it. -/
theorem get_raise_page {g : Fld} {j : Nat} (h : g.bitOff j < 0xA0 ∨ 0xC0 ≤ g.bitOff j) (s : State) (b : Block) (n bit : Nat) :
    (s.raise b n bit).get b n g j = s.get b n g j := by
  refine get_raise _ _ _ _ _ _ _ _ ?_
  rw [fkey_eq]
  omega

/-- Settles O5, by the laws of the sparse store: read after write, and the canonical form of a store after a write. -/
theorem registerStore : Obligations.RegisterStore :=
  fun _ _ _ _ _ _ => ⟨get_put_same .., fun _ _ _ _ h => get_put_other _ _ _ _ _ _ _ _ _ _ h, fun h => swf_sset _ _ _ _ h⟩

end Sys2Proof.Machine
end

section
/-! PROOFS. The header's registers: HDR_CTL, HDR_LOCK and HDR_INT_FORCE (R60, R62, R65 to R70). -/

namespace Sys2Proof.Machine

/-! ### A write of HDR_CTL (R65 to R70) -/

/-- The actions a write of HDR_CTL requests, counted. -/
theorem popCount_requests (v : Nat) : popCount 3 (v / 2) = (v.testBit 1).toNat + ((v.testBit 2).toNat + (v.testBit 3).toNat) := by
  have hbit (i : Nat) : (v / 2).testBit i = v.testBit (i + 1) := (Nat.testBit_succ v i).symm
  have hrange : List.range 3 = [0, 1, 2] := rfl
  simp only [popCount, hrange, List.countP_cons, List.countP_nil, hbit]
  cases v.testBit 1 <;> cases v.testBit 2 <;> cases v.testBit 3 <;> rfl

theorem hdrCtl_of_conflict {v : Nat} (h : 1 < popCount 3 (v / 2)) (s : State) (agent : Nat) (b : Block) (n : Nat) :
    s.hdrCtl agent b n v = (s.put b n F.HDR_CTL_ENABLE (v % 2)).put b n F.HDR_STATUS_CTL_CONFLICT 1 := by
  rw [State.hdrCtl, if_pos h]

theorem hdrCtl_commit {ctl : Nat} (h : ctl < 2) (s : State) (agent : Nat) (b : Block) (n : Nat) :
    s.hdrCtl agent b n (ctl ||| 2) = (s.put b n F.HDR_CTL_ENABLE ctl).commit agent b n := by
  obtain rfl | rfl : ctl = 0 ∨ ctl = 1 := by omega
  · rfl
  · rfl

theorem hdrCtl_unlock {ctl : Nat} (h : ctl < 2) (s : State) (agent : Nat) (b : Block) (n : Nat) :
    s.hdrCtl agent b n (ctl ||| 4) = (s.put b n F.HDR_CTL_ENABLE ctl).unlock b n := by
  obtain rfl | rfl : ctl = 0 ∨ ctl = 1 := by omega
  · rfl
  · rfl

theorem hdrCtl_blockReset {ctl : Nat} (h : ctl < 2) (s : State) (agent : Nat) (b : Block) (n : Nat) :
    s.hdrCtl agent b n (ctl ||| 8) =
      if (capResetOk b && s.blockIdle b n) = true then (s.put b n F.HDR_CTL_ENABLE ctl).blockReset b n else s.blockReset b n := by
  obtain rfl | rfl : ctl = 0 ∨ ctl = 1 := by omega
  · rfl
  · rfl

/-! ### Conflicting requests (R69) -/

/-- A command that writes HDR_CTL with more than one request. -/
theorem ends_of_conflict {i : Instr} {s : State} {agent n v ctl : Nat} {b : Block} {f : Fld}
    (he : exec i s = hub s (fun s => s.fieldWrite agent b n f (fun s => s.hdrCtl agent b n v))) (hr : s.runs = true)
    (hmay : s.mayWrite agent b n f) (hv : v % 2 = ctl % 2) (hpop : 1 < popCount 3 (v / 2)) :
    Ends i s (fun t => t.get b n F.HDR_STATUS_CTL_CONFLICT = 1 ∧ t.get b n F.HDR_CTL_ENABLE = ctl % 2 ∧
      s.OnlyRegs t [bitAddr b n F.HDR_CTL_ENABLE, bitAddr b n F.HDR_STATUS_CTL_CONFLICT]) := by
  refine ends_hub he hr ?_
  rw [fieldWrite_ok hmay, hdrCtl_of_conflict hpop, hv]
  refine ⟨?_, ?_, onlyRegs_hub (onlyRegs_put (onlyRegs_put (onlyRegs_refl s _) _ _ _ _ _ (by simp)) _ _ _ _ _ (by simp))⟩
  · rw [get_cutAsked, get_within, get_put_same]
    rfl
  · rw [get_cutAsked, get_within, get_put_page (by decide), get_put_same]
    exact Nat.mod_mod _ _

/-- A request bit leaves ENABLE's bit as written. -/
theorem or_even_mod_two {k : Nat} (hk : k % 2 = 0) (ctl : Nat) : (ctl ||| k) % 2 = ctl % 2 := by
  have := Nat.or_mod_two_pow (a := ctl) (b := k) (n := 1)
  simpa [hk] using this

theorem one_lt_popCount {v : Nat}
    (h : (v.testBit 1 = true ∧ v.testBit 2 = true) ∨ (v.testBit 1 = true ∧ v.testBit 3 = true) ∨ (v.testBit 2 = true ∧ v.testBit 3 = true)) :
    1 < popCount 3 (v / 2) := by
  rw [popCount_requests]
  rcases h with ⟨h, h'⟩ | ⟨h, h'⟩ | ⟨h, h'⟩ <;> rw [h, h', Bool.toNat_true] <;> omega

/-- Settles O6: each of the three commands writes its own request with another one that `ctl` names, and the write performs none. -/
theorem controlConflict : Obligations.ControlConflict := by
  refine ⟨fun s agent n ctl b hr hmay hreq => ?_, fun s agent n ctl b hr hmay hreq => ?_, fun s agent n ctl b hr hmay hreq => ?_⟩
  · refine ends_of_conflict rfl hr hmay (or_even_mod_two rfl ctl) (one_lt_popCount ?_)
    have hown : (2 : Nat).testBit 1 = true := by decide
    rcases hreq with h | h <;> simp [Nat.testBit_or, h, hown]
  · refine ends_of_conflict rfl hr hmay (or_even_mod_two rfl ctl) (one_lt_popCount ?_)
    have hown : (4 : Nat).testBit 2 = true := by decide
    rcases hreq with h | h <;> simp [Nat.testBit_or, h, hown]
  · refine ends_of_conflict rfl hr hmay (or_even_mod_two rfl ctl) (one_lt_popCount ?_)
    have hown : (8 : Nat).testBit 3 = true := by decide
    rcases hreq with h | h <;> simp [Nat.testBit_or, h, hown]

end Sys2Proof.Machine
end

section
/-! PROOFS. Commits, unlocks, block-level resets and locks by the header (R65 to R70). -/

namespace Sys2Proof.Machine

/-! ### Blocks whose commit is the header's alone -/

/-- The blocks with RWL fields whose commit has no effect of its own beyond its registers, and whose check reads the staged copy alone (R65). -/
def headerCommitBlocks : List Block := [.vein, .chan, .dprt, .home, .hcac, .ring, .seam, .lode, .ledg, .rest, .codc, .dipt, .cryp]

theorem capHasCommit_of_headerCommit : ∀ b ∈ headerCommitBlocks, capHasCommit b = true := by decide

theorem not_regu_of_headerCommit : ∀ b ∈ headerCommitBlocks, b ≠ .regu := by decide

theorem ownsPage_of_headerCommit {b : Block} (hb : b ∈ headerCommitBlocks) (s : State) (agent n : Nat) : s.ownsPage agent b n = true := by
  have hfree : ∀ b ∈ headerCommitBlocks, capAssignable b = false := by decide
  simp [State.ownsPage, hfree b hb]

theorem accepted_of_headerCommit {b : Block} (hb : b ∈ headerCommitBlocks) (s : State) (n : Nat) : s.accepted b n = s := by
  cases b with
  | tier | port | rstc | keys => exact absurd hb (by decide)
  | _ => rfl

theorem activate_of_headerCommit {b : Block} (hb : b ∈ headerCommitBlocks) (s : State) (n : Nat) : s.activate b n = s.copyStaged b n := by
  cases b with
  | tier | port | qgth | regu => exact absurd hb (by decide)
  | _ => rfl

/-- The check reads the staged copy alone. -/
theorem commitCheck_put {b : Block} (hb : b ∈ headerCommitBlocks) (s : State) (n : Nat) (c : Block) (m : Nat) (f : Fld) (v i : Nat) :
    (s.put c m f v i).commitCheck b n = s.commitCheck b n := by
  cases b with
  | tier | port | qgth | regu | ofld | qeng => exact absurd hb (by decide)
  | _ => rfl

/-! ### The result of a commit -/

theorem get_postResult_page {g : Fld} (hcode : g.bitOff 0 ≠ F.HDR_COMMIT_RESULT_CODE.bitOff 0) (hdetail : g.bitOff 0 ≠ F.HDR_COMMIT_RESULT_DETAIL.bitOff 0)
    (hint : g.bitOff 0 < 0xA0 ∨ 0xC0 ≤ g.bitOff 0) (s : State) (b : Block) (n code detail : Nat) :
    (s.postResult b n code detail).get b n g = s.get b n g := by
  rw [State.postResult, get_raise_page hint, get_put_page hdetail, get_put_page hcode]

theorem get_postResult_code (s : State) (b : Block) (n code detail : Nat) :
    (s.postResult b n code detail).get b n F.HDR_COMMIT_RESULT_CODE = code % 256 := by
  rw [State.postResult, get_raise_page (by decide), get_put_page (by decide), get_put_same]
  rfl

theorem get_postResult_done (s : State) (b : Block) (n code detail : Nat) :
    (s.postResult b n code detail).get b n F.HDR_INT_STATUS_INT_COMMIT_DONE = 1 := raise_commitDone ..

theorem onlyOut_postResult {s t : State} {l : List Nat} (h : s.OnlyRegsOut t l) (b : Block) (n code detail : Nat) (hint : ∀ k ∈ intAddrs b n, k ∈ l)
    (hcode : bitAddr b n F.HDR_COMMIT_RESULT_CODE ∈ l) (hdetail : bitAddr b n F.HDR_COMMIT_RESULT_DETAIL ∈ l) :
    s.OnlyRegsOut (t.postResult b n code detail) l :=
  onlyOut_raise (onlyOut_put (onlyOut_put h _ _ _ _ _ hcode) _ _ _ _ _ hdetail) _ _ _ hint

/-! ### Accepted and rejected -/

theorem commit_of_checked {s : State} {b : Block} {n : Nat} (hb : b ∈ headerCommitBlocks) (hopen : s.bit b n F.HDR_STATUS_OPEN = true)
    (hpend : s.bit b n F.HDR_STATUS_COMMIT_PENDING = false) (hok : (s.commitCheck b n).1 = 0) (agent : Nat) :
    s.commit agent b n = (((s.put b n F.HDR_STATUS_COMMIT_PENDING 1).put b n F.HDR_STATUS_OPEN 0).put b n F.HDR_COMMIT_SEQ_SEQ
      ((s.get b n F.HDR_COMMIT_SEQ_SEQ + 1) % 65536)).postResult b n 0 (s.commitCheck b n).2 := by
  simp [State.commit, capHasCommit_of_headerCommit b hb, ownsPage_of_headerCommit hb, hopen, hpend, hok, not_regu_of_headerCommit b hb,
    accepted_of_headerCommit hb]

/-- A commit of a page of the other world's (R66, R510). -/
theorem commit_of_foreign {s : State} {agent n : Nat} {b : Block} (hc : capHasCommit b = true) (hown : s.ownsPage agent b n = false) :
    s.commit agent b n = (s.put b n F.HDR_STATUS_COMMIT_REJECTED 1).postResult b n 6 0 := by
  simp [State.commit, hc, hown]

theorem unlock_of_locked {s : State} {b : Block} {n : Nat} (hc : capHasCommit b = true) (hopen : s.bit b n F.HDR_STATUS_OPEN = false)
    (hpend : s.bit b n F.HDR_STATUS_COMMIT_PENDING = false) (hsticky : s.bit b n F.HDR_LOCK_STICKY = false) :
    s.unlock b n = s.put b n F.HDR_STATUS_OPEN 1 := by
  simp [State.unlock, hc, hopen, hpend, hsticky]

theorem blockReset_of_idle {s : State} {b : Block} {n : Nat} (hcap : capResetOk b = true) (hidle : s.blockIdle b n = true) :
    s.blockReset b n = { s with blockResets := addOnce s.blockResets (pg b n) } := by
  simp [State.blockReset, hcap, hidle]

theorem blockReset_of_incapable {b : Block} (hcap : capResetOk b = false) (s : State) (n : Nat) :
    s.blockReset b n = s.put b n F.HDR_STATUS_RESET_REFUSED 1 := by
  simp [State.blockReset, hcap]

theorem mem_addOnce {α : Type} [DecidableEq α] (l : List α) (a : α) : a ∈ addOnce l a := by
  unfold addOnce
  split
  · assumption
  · simp

theorem sticky_of_free {s : State} {b : Block} {n : Nat} (h : s.bit b n F.HDR_LOCK_STICKY = false) (agent : Nat) :
    s.sticky agent b n = (s.put b n F.HDR_LOCK_STICKY 1).put b n F.HDR_LOCK_LOCK_AGENT agent := by
  simp [State.sticky, h]

/-- Whether a block that can be reset is idle does not rest on ENABLE. -/
theorem blockIdle_put_enable {b : Block} (hb : capResetOk b = true) (s : State) (n v : Nat) :
    (s.put b n F.HDR_CTL_ENABLE v).blockIdle b n = s.blockIdle b n := by
  cases b with
  | ofld =>
    have hget (f : Fld) (q : Nat) (hf : 0x100 ≤ f.off) : (s.put .ofld n F.HDR_CTL_ENABLE v).get .ofld n f q = s.get .ofld n f q := by
      refine get_put_page ?_ s .ofld n v
      simp only [Fld.bitOff, F.HDR_CTL_ENABLE]
      omega
    have hwait (q : Nat) : (s.put .ofld n F.HDR_CTL_ENABLE v).oWaiting n q = s.oWaiting n q := by
      simp only [State.oWaiting, State.oSize]
      rw [hget F.OFLD_SQ_TAIL_TAIL q (by decide), hget F.OFLD_SQ_HEAD_HEAD q (by decide), hget F.OFLD_SQ_CTL_LOG2_SIZE q (by decide)]
    simp only [State.blockIdle, State.ofldIdle, hwait]
    rfl
  | port | qeng | qgth | hcac | codc | ring => rfl
  | _ => exact absurd hb (by decide)

/-! ### The commands -/

/-- A command that writes a register no rule drops. -/
theorem ends_fieldWrite {i : Instr} {s : State} {agent n j : Nat} {b : Block} {f : Fld} {g : State → State} {P : State → Prop}
    (he : exec i s = hub s (fun s => s.fieldWrite agent b n f g j)) (hr : s.runs = true) (hmay : s.mayWrite agent b n f j)
    (hp : P (((g s).within s).cutAsked s)) : Ends i s P :=
  ends_hub he hr (by rwa [fieldWrite_ok hmay])

/-- An accepted COMMIT of a page whose commit is the header's alone (R65). -/
theorem ends_commit_accepted {s : State} {agent n ctl : Nat} {b : Block} (hr : s.runs = true) (hmay : s.mayWrite agent b n F.HDR_CTL_COMMIT)
    (hctl : ctl < 2) (hb : b ∈ headerCommitBlocks) (hopen : s.bit b n F.HDR_STATUS_OPEN = true)
    (hpend : s.bit b n F.HDR_STATUS_COMMIT_PENDING = false) (hok : (s.commitCheck b n).1 = 0) :
    Ends (.commit agent b n ctl) s (fun t => t.get b n F.HDR_STATUS_COMMIT_PENDING = 1 ∧ t.get b n F.HDR_STATUS_OPEN = 0 ∧
      t.get b n F.HDR_COMMIT_SEQ_SEQ = (s.get b n F.HDR_COMMIT_SEQ_SEQ + 1) % 65536 ∧ t.get b n F.HDR_COMMIT_RESULT_CODE = 0 ∧
      t.get b n F.HDR_INT_STATUS_INT_COMMIT_DONE = 1 ∧ t.get b n F.HDR_CTL_ENABLE = ctl ∧
      s.OnlyRegsOut t (intAddrs b n ++ [bitAddr b n F.HDR_CTL_ENABLE, bitAddr b n F.HDR_STATUS_COMMIT_PENDING, bitAddr b n F.HDR_STATUS_OPEN,
        bitAddr b n F.HDR_COMMIT_SEQ_SEQ, bitAddr b n F.HDR_COMMIT_RESULT_CODE, bitAddr b n F.HDR_COMMIT_RESULT_DETAIL])) := by
  refine ends_fieldWrite rfl hr hmay ?_
  rw [hdrCtl_commit hctl, commit_of_checked hb ((bit_put_page (by decide) ..).trans hopen) ((bit_put_page (by decide) ..).trans hpend)
    ((congrArg Prod.fst (commitCheck_put hb ..)).trans hok)]
  simp only [get_cutAsked, get_within]
  refine ⟨?_, ?_, ?_, get_postResult_code .., get_postResult_done .., ?_, onlyOut_hub ?_⟩
  · rw [get_postResult_page (by decide) (by decide) (by decide), get_put_page (by decide), get_put_page (by decide), get_put_same]
    rfl
  · rw [get_postResult_page (by decide) (by decide) (by decide), get_put_page (by decide), get_put_same]
    rfl
  · rw [get_postResult_page (by decide) (by decide) (by decide), get_put_same, get_put_page (by decide)]
    exact Nat.mod_mod _ _
  · rw [get_postResult_page (by decide) (by decide) (by decide), get_put_page (by decide), get_put_page (by decide), get_put_page (by decide),
      get_put_same]
    exact Nat.mod_eq_of_lt hctl
  · refine onlyOut_postResult ?_ b n _ _ (fun k hk => List.mem_append_left _ hk) (by simp) (by simp)
    exact onlyOut_put (onlyOut_put (onlyOut_put (onlyOut_put (onlyOut_refl s _) _ _ _ _ _ (by simp)) _ _ _ _ _ (by simp)) _ _ _ _ _ (by simp)) _ _ _ _ _ (by simp)

/-- A COMMIT of a page that belongs to the other world (R66, R510). -/
theorem ends_commit_foreign {s : State} {agent n ctl : Nat} {b : Block} (hr : s.runs = true) (hmay : s.mayWrite agent b n F.HDR_CTL_COMMIT)
    (hctl : ctl < 2) (hc : capHasCommit b = true) (hown : (s.put b n F.HDR_CTL_ENABLE ctl).ownsPage agent b n = false) :
    Ends (.commit agent b n ctl) s (fun t => t.get b n F.HDR_STATUS_COMMIT_REJECTED = 1 ∧ t.get b n F.HDR_COMMIT_RESULT_CODE = 6 ∧
      t.get b n F.HDR_INT_STATUS_INT_COMMIT_DONE = 1 ∧ t.get b n F.HDR_STATUS_OPEN = s.get b n F.HDR_STATUS_OPEN ∧ t.staged = s.staged ∧
      s.OnlyRegsOut t (intAddrs b n ++ [bitAddr b n F.HDR_CTL_ENABLE, bitAddr b n F.HDR_STATUS_COMMIT_REJECTED,
        bitAddr b n F.HDR_COMMIT_RESULT_CODE, bitAddr b n F.HDR_COMMIT_RESULT_DETAIL])) := by
  refine ends_fieldWrite rfl hr hmay ?_
  rw [hdrCtl_commit hctl, commit_of_foreign hc hown]
  simp only [get_cutAsked, get_within]
  refine ⟨?_, get_postResult_code .., get_postResult_done .., ?_, ?_, onlyOut_hub ?_⟩
  · rw [get_postResult_page (by decide) (by decide) (by decide), get_put_same]
    rfl
  · rw [get_postResult_page (by decide) (by decide) (by decide), get_put_page (by decide), get_put_page (by decide)]
  · rw [cutAsked_staged, within_staged, State.postResult, raise_staged]
    rfl
  · refine onlyOut_postResult ?_ b n _ _ (fun k hk => List.mem_append_left _ hk) (by simp) (by simp)
    exact onlyOut_put (onlyOut_put (onlyOut_refl s _) _ _ _ _ _ (by simp)) _ _ _ _ _ (by simp)

/-- A page of an assignable block in the normal world is not the secure processor's (R510). -/
theorem not_ownsPage {s : State} {agent n : Nat} {b : Block} (hb : b ∈ [Block.ofld, .qeng]) (hsecp : isSecp agent = true) (hw : s.world b n = 0) :
    s.ownsPage agent b n = false := by
  have hcap : ∀ b ∈ [Block.ofld, .qeng], capAssignable b = true := by decide
  simp [State.ownsPage, hcap b hb, hsecp, hw]

theorem world_put_enable (s : State) (b : Block) (n v : Nat) : (s.put b n F.HDR_CTL_ENABLE v).world b n = s.world b n := by
  cases b with
  | secp | keys | own => rfl
  | _ => exact get_put_page (by decide) ..

/-- Settles O12: the header's commands, each by what its action does to the header's fields. -/
theorem headerCommands : Obligations.HeaderCommands := by
  refine ⟨fun s agent n ctl b hr hmay hctl hb hopen hpend hok => ends_commit_accepted hr hmay hctl hb hopen hpend hok,
    fun s agent n ctl b hr hmay hctl hc hopen hpend hsticky => ?_, fun s agent n ctl b hr hmay hctl hcap hidle => ?_,
    fun s agent n b hr hmay hfree => ?_, fun s agent n ctl b hr hmay hctl hcap => ?_, fun s agent n ctl b hr hmay hctl hb hsecp hw => ?_⟩
  · refine ends_fieldWrite rfl hr hmay ?_
    rw [hdrCtl_unlock hctl, unlock_of_locked hc ((bit_put_page (by decide) ..).trans hopen) ((bit_put_page (by decide) ..).trans hpend)
      ((bit_put_page (by decide) ..).trans hsticky)]
    simp only [get_cutAsked, get_within]
    refine ⟨get_put_same .., ?_, onlyRegs_hub (onlyRegs_put (onlyRegs_put (onlyRegs_refl s _) _ _ _ _ _ (by simp)) _ _ _ _ _ (by simp))⟩
    rw [get_put_page (by decide), get_put_same]
    exact Nat.mod_eq_of_lt hctl
  · refine ends_fieldWrite rfl hr hmay ?_
    rw [hdrCtl_blockReset hctl, if_pos (by rw [hcap, ← blockIdle_put_enable hcap s n ctl, hidle, Bool.and_self]), blockReset_of_idle hcap hidle]
    simp only [get_cutAsked, get_within, cutAsked_blockResets, within_blockResets]
    refine ⟨mem_addOnce _ _, ?_, onlyRegs_hub (s := { s with blockResets := addOnce s.blockResets (pg b n) })
      (onlyRegs_put (onlyRegs_refl _ _) _ _ _ _ _ (by simp))⟩
    exact (get_put_same ..).trans (Nat.mod_eq_of_lt hctl)
  · refine ends_fieldWrite rfl hr hmay ?_
    rw [sticky_of_free hfree]
    simp only [get_cutAsked, get_within]
    refine ⟨?_, get_put_same .., onlyRegs_hub (onlyRegs_put (onlyRegs_put (onlyRegs_refl s _) _ _ _ _ _ (by simp)) _ _ _ _ _ (by simp))⟩
    rw [get_put_page (by decide), get_put_same]
    rfl
  · refine ends_fieldWrite rfl hr hmay ?_
    rw [hdrCtl_blockReset hctl, if_neg (by simp [hcap]), blockReset_of_incapable hcap]
    simp only [get_cutAsked, get_within]
    exact ⟨get_put_same .., onlyRegs_hub (onlyRegs_put (onlyRegs_refl s _) _ _ _ _ _ (by simp))⟩
  · have hcap : ∀ b ∈ [Block.ofld, .qeng], capHasCommit b = true := by decide
    exact ends_commit_foreign hr hmay hctl (hcap b hb) (not_ownsPage hb hsecp ((world_put_enable ..).trans hw))

end Sys2Proof.Machine
end

section
/-! PROOFS. Forced interrupts (R62). -/

namespace Sys2Proof.Machine

theorem getP_putIf_same {c : Prop} [Decidable c] (s : State) (p : Nat) (f : Fld) (v i : Nat) :
    (if c then s.putP p f v i else s).getP p f i = if c then v % 2 ^ f.w else s.getP p f i := by
  split
  · exact fread_fwrite_same ..
  · rfl

theorem getP_putIf_other {c : Prop} [Decidable c] {f g : Fld} {i j : Nat} (h : g.bitOff j ≠ f.bitOff i) (s : State) (p v : Nat) :
    (if c then s.putP p f v i else s).getP p g j = s.getP p g j := by
  split
  · exact getP_putP_other _ _ _ _ _ _ _ _ (fkey_ne h p)
  · rfl

theorem getP_intRise (old new : State) (p q : Nat) (f : Fld) (i : Nat) : (intRise old new p).getP q f i = new.getP q f i := by
  rw [State.getP, intRise_regs, State.getP]

theorem getP_putUnless_other {c : Prop} [Decidable c] {f g : Fld} {i j : Nat} (h : g.bitOff j ≠ f.bitOff i) (s : State) (p v : Nat) :
    (if c then s else s.putP p f v i).getP p g j = s.getP p g j := by
  rw [← ite_not]
  exact getP_putIf_other h s p v

/-- What each field of HDR_INT_STATUS reads once the bits of a mask are set (R60, R62). -/
theorem getP_setInts_fields (s : State) (p mask : Nat) :
    (s.setInts p mask).getP p F.HDR_INT_STATUS_INT_ERROR = (if mask.testBit 0 then 1 else s.getP p F.HDR_INT_STATUS_INT_ERROR) ∧
    (s.setInts p mask).getP p F.HDR_INT_STATUS_INT_COMMIT_DONE = (if mask.testBit 1 then 1 else s.getP p F.HDR_INT_STATUS_INT_COMMIT_DONE) ∧
    (s.setInts p mask).getP p F.HDR_INT_STATUS_INT_RESET_DONE = (if mask.testBit 2 then 1 else s.getP p F.HDR_INT_STATUS_INT_RESET_DONE) ∧
    (s.setInts p mask).getP p F.HDR_INT_STATUS_INT_LOST_ARB = (if mask.testBit 3 then 1 else s.getP p F.HDR_INT_STATUS_INT_LOST_ARB) ∧
    (s.setInts p mask).getP p F.HDR_INT_STATUS_INT_BLOCK = (if mask / 0x10000 = 0 then s.getP p F.HDR_INT_STATUS_INT_BLOCK
      else (s.getP p F.HDR_INT_STATUS_INT_BLOCK ||| mask / 0x10000) % 2 ^ 16) := by
  unfold State.setInts
  extract_lets s1 s2 s3 s4 s5
  simp only [getP_intRise]
  have h1 {g : Fld} (h : g.bitOff 0 ≠ F.HDR_INT_STATUS_INT_ERROR.bitOff 0) : s1.getP p g = s.getP p g := getP_putIf_other h ..
  have h2 {g : Fld} (h : g.bitOff 0 ≠ F.HDR_INT_STATUS_INT_COMMIT_DONE.bitOff 0) : s2.getP p g = s1.getP p g := getP_putIf_other h ..
  have h3 {g : Fld} (h : g.bitOff 0 ≠ F.HDR_INT_STATUS_INT_RESET_DONE.bitOff 0) : s3.getP p g = s2.getP p g := getP_putIf_other h ..
  have h4 {g : Fld} (h : g.bitOff 0 ≠ F.HDR_INT_STATUS_INT_LOST_ARB.bitOff 0) : s4.getP p g = s3.getP p g := getP_putIf_other h ..
  have h5 {g : Fld} (h : g.bitOff 0 ≠ F.HDR_INT_STATUS_INT_BLOCK.bitOff 0) : s5.getP p g = s4.getP p g := getP_putUnless_other h ..
  have hblock : s4.getP p F.HDR_INT_STATUS_INT_BLOCK = s.getP p F.HDR_INT_STATUS_INT_BLOCK := by
    rw [h4 (by decide), h3 (by decide), h2 (by decide), h1 (by decide)]
  refine ⟨?_, ?_, ?_, ?_, ?_⟩
  · rw [h5 (by decide), h4 (by decide), h3 (by decide), h2 (by decide)]
    exact getP_putIf_same ..
  · rw [h5 (by decide), h4 (by decide), h3 (by decide), ← h1 (by decide)]
    exact getP_putIf_same ..
  · rw [h5 (by decide), h4 (by decide), ← h1 (by decide), ← h2 (by decide)]
    exact getP_putIf_same ..
  · rw [h5 (by decide), ← h1 (by decide), ← h2 (by decide), ← h3 (by decide)]
    exact getP_putIf_same ..
  · rw [← hblock]
    simp only [s5]
    split
    · rfl
    · exact fread_fwrite_same ..

/-- A bit of the block's own interrupts after a mask is set. -/
theorem testBit_setInts_block (s : State) (p mask : Nat) {k : Nat} (hk : k < 16) :
    ((s.setInts p mask).getP p F.HDR_INT_STATUS_INT_BLOCK).testBit k =
      ((s.getP p F.HDR_INT_STATUS_INT_BLOCK).testBit k || mask.testBit (16 + k)) := by
  obtain ⟨-, -, -, -, hblock⟩ := getP_setInts_fields s p mask
  have hmask : mask.testBit (16 + k) = (mask / 0x10000).testBit k := by
    rw [show 0x10000 = 2 ^ 16 from rfl, Nat.testBit_div_two_pow, Nat.add_comm]
  rw [hblock, hmask]
  split
  next h => simp [h]
  next => rw [Nat.testBit_mod_two_pow, decide_eq_true hk, Bool.true_and, Nat.testBit_or]

/-- Settles O13: a forced interrupt sets the bits its mask names, and its output is all that may leave the module. -/
theorem interruptForce : Obligations.InterruptForce := by
  intro s agent n mask b hr hmay
  refine ends_fieldWrite rfl hr hmay ?_
  obtain ⟨herror, hdone, hreset, hlost, -⟩ := getP_setInts_fields s (pg b n) mask
  simp only [get_cutAsked, get_within]
  exact ⟨herror, hdone, hreset, hlost, fun k hk => testBit_setInts_block s (pg b n) mask hk,
    onlyOut_hub (onlyOut_setInts (onlyOut_refl s _) b n mask (fun _ h => h))⟩

end Sys2Proof.Machine
end

section
/-! PROOFS. The activation of a commit (R54, R65). -/

namespace Sys2Proof.Machine

/-! ### One store written over another -/

theorem sget_foldl_sput_absent {α : Type} {l : SMap α} {k : Nat} (h : ∀ x ∈ l, x.1 ≠ k) (d : α) (m : SMap α) :
    sget d (l.foldl (fun m x => sput m x.1 x.2) m) k = sget d m k := by
  induction l generalizing m with
  | nil => rfl
  | cons x l ih =>
    rw [List.foldl_cons, ih (fun y hy => h y (List.mem_cons_of_mem _ hy)), sget_sput_other _ _ _ _ _ (h x List.mem_cons_self).symm]

/-- Where a store reads the default, one written over it shows itself. -/
theorem sget_foldl_sput {α : Type} {l : SMap α} (hl : keysRising l = true) {d : α} {m : SMap α} {k : Nat} (hm : sget d m k = d) :
    sget d (l.foldl (fun m x => sput m x.1 x.2) m) k = sget d l k := by
  induction l generalizing m with
  | nil => exact hm
  | cons x l ih =>
    obtain ⟨a, v⟩ := x
    obtain ⟨habove, hrising⟩ := (keysRising_cons a v l).1 hl
    rw [List.foldl_cons]
    by_cases hk : k = a
    · subst hk
      rw [sget_foldl_sput_absent (fun y hy => (habove y hy).ne'), sget_sput_same, sget, if_pos rfl]
    · rw [ih hrising ((sget_sput_other _ _ _ _ _ hk).trans hm), sget, if_neg hk]

/-! ### The staged copy becomes active -/

/-- The RWL fields of a block lie in its pages (R55). -/
theorem rwl_inPages {b : Block} {f : Fld} (hf : f ∈ blockFields b) (hacc : f.acc = .rwl) {i : Nat} (hi : i < f.cnt) (n : Nat) :
    inPages b n (fkey (pg b n) f i) = true := by
  have hlast : ∀ g ∈ blockFields b, g.acc = .rwl → g.bitOff (g.cnt - 1) < 8 * 0x1000 * b.pages := by
    clear hf
    cases b <;> decide
  have hstep : f.bst * i ≤ f.bst * (f.cnt - 1) := Nat.mul_le_mul_left _ (by omega)
  have hend := hlast f hf hacc
  simp only [Fld.bitOff] at hend
  simp only [inPages, fkey_eq, Fld.bitOff, Bool.and_eq_true, decide_eq_true_eq]
  omega

theorem hasKey_fkey {b : Block} {f : Fld} (hf : f ∈ blockFields b) {i : Nat} (hi : i < f.cnt) (p : Nat) : f.hasKey p (fkey p f i) = true := by
  have hone := cnt_of_bst b f hf
  have hdiff : fkey p f i - fkey p f 0 = f.bst * i := by unfold fkey; omega
  simp only [Fld.hasKey, hdiff, Bool.and_eq_true, decide_eq_true_eq]
  refine ⟨by unfold fkey; omega, ?_⟩
  split
  next hz => simp [fkey, hz]
  next hz => simp [Nat.mul_div_cancel_left i (Nat.pos_of_ne_zero hz), hi]

/-- Once the staged copy of a page is active, its RWL fields read the staged values. -/
theorem get_copyStaged_rwl {s : State} (hwf : swf 0 s.staged = true) {b : Block} {f : Fld} (hf : f ∈ blockFields b) (hacc : f.acc = .rwl) {i : Nat}
    (hi : i < f.cnt) (n : Nat) : (s.copyStaged b n).get b n f i = s.getS b n f i := by
  have hpage := rwl_inPages hf hacc hi n
  have hpend : fkey (pg b n) f i ≠ fkey (pg b n) F.HDR_STATUS_COMMIT_PENDING 0 := by
    refine fkey_ne ?_ _
    have := bitOff_high hf i
    have : F.HDR_STATUS_COMMIT_PENDING.bitOff 0 < 0x800 := by decide
    omega
  unfold State.copyStaged
  extract_lets p rwl kept new
  have hdrop : sget 0 kept (fkey p f i) = 0 := by
    have hany : rwl.any (fun g => g.hasKey p (fkey p f i)) = true :=
      List.any_eq_true.2 ⟨f, List.mem_filter.2 ⟨hf, decide_eq_true hacc⟩, hasKey_fkey hf hi p⟩
    have := sget_filter 0 s.regs (fun k => !(inPages b n k && rwl.any (fun g => g.hasKey p k))) (fkey p f i)
    rw [hany, hpage] at this
    exact this
  have hnew : sget 0 new (fkey p f i) = sget 0 s.staged (fkey p f i) := by
    obtain ⟨hrising, -⟩ := (swf_iff 0 s.staged).1 hwf
    refine (sget_foldl_sput (keysRising_filter _ _ hrising) hdrop).trans ((sget_filter 0 s.staged (inPages b n) _).trans ?_)
    rw [if_pos hpage]
  show (State.putP _ _ _ _).getP p f i = fread s.staged p f i
  rw [getP_putP_other _ _ _ _ _ _ _ _ hpend, State.getP, fread, hnew, fread]

/-- Outside the page the registers stand as before. -/
theorem sget_copyStaged_outside {s : State} {b : Block} {n k : Nat} (hk : inPages b n k = false) :
    sget 0 (s.copyStaged b n).regs k = sget 0 s.regs k := by
  unfold State.copyStaged
  extract_lets p rwl kept new
  have hpend : k ≠ fkey p F.HDR_STATUS_COMMIT_PENDING 0 := by
    rintro rfl
    have hpages : 1 ≤ b.pages := by cases b <;> decide
    simp only [inPages, fkey_eq, Bool.and_eq_false_iff, decide_eq_false_iff_not] at hk
    have : F.HDR_STATUS_COMMIT_PENDING.bitOff 0 < 0x800 := by decide
    omega
  have hstaged : ∀ x ∈ s.staged.filter (fun x => inPages b n x.1), x.1 ≠ k := by
    rintro x hx rfl
    rw [(List.mem_filter.1 hx).2] at hk
    exact Bool.noConfusion hk
  show sget 0 (fwrite new p F.HDR_STATUS_COMMIT_PENDING 0 0) k = _
  rw [fwrite, sget_sset_other _ _ _ _ _ hpend]
  refine (sget_foldl_sput_absent hstaged 0 kept).trans ((sget_filter 0 s.regs (fun k => !(inPages b n k && rwl.any (fun f => f.hasKey p k))) k).trans ?_)
  rw [hk, Bool.false_and, Bool.not_false, if_pos rfl]

theorem exec_commitActivate {s : State} (h : s.live = true) (b : Block) (n : Nat) :
    exec (.commitActivate b n) s = .next (((s.cmdCommitActivate b n).within s).cutAsked s).closeEdge := by
  show Host.Outcome.next (if s.live then (((s.cmdCommitActivate b n).within s).cutAsked s).closeEdge else s) = _
  rw [if_pos h]

theorem runs_iff {s : State} : s.runs = true ↔ s.live = true ∧ s.tb.edgeOpen = false := by
  simp [State.runs]

/-- Settles O14: the staged copy of the page is written over its RWL fields, and nothing outside the page is written. -/
theorem commitActivation : Obligations.CommitActivation := by
  intro s b n hr hdue hwf hb
  obtain ⟨hlive, hedge⟩ := runs_iff.1 hr
  have hact : s.cmdCommitActivate b n = s.copyStaged b n := by
    rw [State.cmdCommitActivate, if_pos hdue, activate_of_headerCommit hb]
  have hclosed : (((s.copyStaged b n).within s).cutAsked s).tb.edgeOpen = false := by
    rw [cutAsked_tb, within_edgeOpen]
    exact hedge
  rw [ends_iff_of_exec (exec_commitActivate hlive b n), hact, closeEdge_of_not_ready (edgeReady_of_edge_closed hclosed)]
  simp only [get_cutAsked, get_within, cutAsked_actDue, within_actDue, cutAsked_staged, within_staged, cutAsked_regs, within_regs]
  refine ⟨fun f hf hacc i hi => get_copyStaged_rwl hwf hf hacc hi n, ?_, ?_, rfl, fun k hk => sget_copyStaged_outside hk⟩
  · exact (get_put_same ..).trans rfl
  · simp [State.copyStaged]

end Sys2Proof.Machine
end

section
/-! PROOFS. The end of a block-level reset (R64, R70, R599). -/

namespace Sys2Proof.Machine

/-! ### Fields returned to their reset values -/

theorem sget_foldl_sdel {α : Type} (d : α) (ks : List Nat) (m : SMap α) (k : Nat) :
    sget d (ks.foldl sdel m) k = if k ∈ ks then d else sget d m k := by
  induction ks generalizing m with
  | nil => rfl
  | cons a ks ih =>
    rw [List.foldl_cons, ih, sget_sdel]
    by_cases hk : k ∈ ks <;> by_cases ha : k = a <;> simp [hk, ha]

/-- Bit addresses of every copy of the fields of a list. -/
def fieldKeys (p : Nat) (fs : List Fld) : List Nat := fs.flatMap (fun f => (List.range f.cnt).map (fkey p f))

theorem fieldKeys_cons (p : Nat) (f : Fld) (fs : List Fld) : fieldKeys p (f :: fs) = (List.range f.cnt).map (fkey p f) ++ fieldKeys p fs := rfl

theorem clearField_eq (s : State) (p : Nat) (f : Fld) :
    s.clearField p f = { s with regs := ((List.range f.cnt).map (fkey p f)).foldl sdel s.regs } := by
  unfold State.clearField
  generalize List.range f.cnt = l
  induction l generalizing s with
  | nil => rfl
  | cons i l ih => exact ih _

theorem clearFields_eq (s : State) (p : Nat) (fs : List Fld) :
    fs.foldl (fun t f => t.clearField p f) s = { s with regs := (fieldKeys p fs).foldl sdel s.regs } := by
  induction fs generalizing s with
  | nil => rfl
  | cons f fs ih =>
    rw [List.foldl_cons, ih, clearField_eq, fieldKeys_cons, List.foldl_append]

/-- The fields a block-level reset returns to their reset values (R64). -/
def clearedFields (b : Block) : List Fld := (hdrFields ++ blockFields b).filter (fun f => decide (f.acc ≠ .rwl) && !(f ∈ hdrKept))

/-- A block-level reset of a page without a pending commit and not sticky clears those fields and nothing else. -/
theorem blockClear_eq {s : State} {b : Block} {n : Nat} (hpend : s.get b n F.HDR_STATUS_COMMIT_PENDING = 0)
    (hsticky : s.bit b n F.HDR_LOCK_STICKY = false) :
    s.blockClear b n = { s with regs := (fieldKeys (pg b n) (clearedFields b)).foldl sdel s.regs } := by
  have hp : s.getP (pg b n) F.HDR_STATUS_COMMIT_PENDING ≠ 1 := by
    rw [show s.getP (pg b n) F.HDR_STATUS_COMMIT_PENDING = 0 from hpend]
    decide
  have hl : s.getP (pg b n) F.HDR_LOCK_STICKY ≠ 1 := by
    have : s.getP (pg b n) F.HDR_LOCK_STICKY = 0 := by simpa [State.bit, State.get] using hsticky
    rw [this]
    decide
  rw [State.blockClear, if_neg hp, if_neg hl, clearFields_eq]
  rfl

theorem mem_clearedFields {b : Block} {f : Fld} : f ∈ clearedFields b ↔ f ∈ hdrFields ++ blockFields b ∧ f.acc ≠ .rwl ∧ f ∉ hdrKept := by
  simp only [clearedFields, List.mem_filter, Bool.and_eq_true, decide_eq_true_eq, Bool.not_eq_true', decide_eq_false_iff_not]

theorem mem_fieldKeys {p : Nat} {fs : List Fld} {k : Nat} : k ∈ fieldKeys p fs ↔ ∃ f ∈ fs, ∃ i < f.cnt, fkey p f i = k := by
  simp [fieldKeys, List.mem_flatMap]

theorem get_blockClear_cleared {s : State} {b : Block} {n : Nat} (hpend : s.get b n F.HDR_STATUS_COMMIT_PENDING = 0)
    (hsticky : s.bit b n F.HDR_LOCK_STICKY = false) {f : Fld} (hf : f ∈ clearedFields b) {i : Nat} (hi : i < f.cnt) :
    (s.blockClear b n).get b n f i = f.rstI i := by
  rw [blockClear_eq hpend hsticky, get_eq, fread, sget_foldl_sdel, if_pos (mem_fieldKeys.2 ⟨f, hf, i, hi, rfl⟩), Nat.zero_xor]

theorem get_blockClear_rwl {s : State} {b : Block} {n : Nat} (hpend : s.get b n F.HDR_STATUS_COMMIT_PENDING = 0)
    (hsticky : s.bit b n F.HDR_LOCK_STICKY = false) {f : Fld} (hf : f ∈ blockFields b) (hacc : f.acc = .rwl) {i : Nat} (hi : i < f.cnt) :
    (s.blockClear b n).get b n f i = s.get b n f i := by
  have hkey : fkey (pg b n) f i ∉ fieldKeys (pg b n) (clearedFields b) := by
    intro hk
    obtain ⟨g, hg, j, hj, he⟩ := mem_fieldKeys.1 hk
    obtain ⟨hg, hng, -⟩ := mem_clearedFields.1 hg
    have hne : g ≠ f := by
      rintro rfl
      exact hng hacc
    exact fkey_ne_of_field_ne hg (List.mem_append_right _ hf) hne hj hi _ he
  rw [blockClear_eq hpend hsticky, get_eq, fread, sget_foldl_sdel, if_neg hkey]
  rfl

/-! ### Lanes without waiting work -/

theorem grantLane_idle {s : State} (h : s.codec.waiting = []) (slab n : Nat) : s.grantLane slab n = s := by
  unfold State.grantLane
  split
  · rfl
  · simp [h, bestWork]

theorem grantLanes_idle {s : State} (h : s.codec.waiting = []) (slab : Nat) : s.grantLanes slab = s := by
  unfold State.grantLanes
  split
  · rfl
  · refine List.foldlRecOn (motive := fun t => t = s) _ _ rfl (fun t ht n _ => ?_)
    rw [ht, grantLane_idle h]

/-! ### The end of the reset -/

/-- The blocks whose reset ends with the clearing of their registers, once no work waits for them (R599). -/
def quietResetBlocks : List Block := [.qgth, .hcac, .codc]

theorem blockExtras_quiet {b : Block} (hb : b ∈ quietResetBlocks) (s : State) (n : Nat) :
    (s.blockExtras b n).regs = s.regs ∧ (s.blockExtras b n).staged = s.staged ∧ (s.blockExtras b n).closedWork = s.closedWork ∧
    (s.blockExtras b n).codec.waiting = s.codec.waiting := by
  cases b with
  | qgth | hcac | codc => exact ⟨rfl, rfl, rfl, rfl⟩
  | _ => exact absurd hb (by decide)

/-- The end of the reset: the registers as the clearing leaves them, then INT_RESET_DONE. -/
theorem cmdBlockResetDone_quiet {s : State} {b : Block} {n : Nat} (hb : b ∈ quietResetBlocks) (hin : pg b n ∈ s.blockResets)
    (hhand : s.handReset b n = false) (hpend : s.get b n F.HDR_STATUS_COMMIT_PENDING = 0) (hsticky : s.bit b n F.HDR_LOCK_STICKY = false)
    (hclosed : s.closedWork = []) (hwait : s.codec.waiting = []) :
    ∃ u : State, s.cmdBlockResetDone b n = u.raise b n 2 ∧ u.regs = (s.blockClear b n).regs ∧ u.staged = s.staged ∧ pg b n ∉ u.blockResets := by
  obtain ⟨hregs, hstaged, hwork, hcodec⟩ := blockExtras_quiet hb s n
  have hclear := blockClear_eq (s := s.blockExtras b n) (b := b) (n := n) ((get_congr _ _ hregs ..).trans hpend)
    ((congrArg (· != 0) (get_congr _ _ hregs ..)).trans hsticky)
  have hclear' := congrArg State.regs (blockClear_eq hpend hsticky)
  unfold State.cmdBlockResetDone
  rw [if_neg (by simpa using hin)]
  extract_lets s1 s2 s3 s4
  have h2 : s2 = { s1 with regs := (fieldKeys (pg b n) (clearedFields b)).foldl sdel s1.regs } := by
    simp only [s2, hhand, Bool.false_eq_true, if_false]
    exact hclear
  have h4 : s4 = s3.raise b n 2 := by
    have hnone : s2.closedWork = [] := by rw [h2]; exact hwork.trans hclosed
    simp only [s4, hnone]
    rfl
  refine ⟨s3, ?_, ?_, ?_, ?_⟩
  · split
    · rw [grantLanes_idle, h4]
      rw [h4, raise_codec]
      simp only [s3, h2]
      exact hcodec.trans hwait
    · exact h4
  · rw [hclear', ← hregs]
    simp only [s3, h2]
    rfl
  · simp only [s3, h2]
    exact hstaged
  · simp [s3]

/-- The fields of HDR_INT_STATUS (R60). -/
def intFields : List Fld :=
  [F.HDR_INT_STATUS_INT_ERROR, F.HDR_INT_STATUS_INT_COMMIT_DONE, F.HDR_INT_STATUS_INT_RESET_DONE, F.HDR_INT_STATUS_INT_LOST_ARB,
   F.HDR_INT_STATUS_INT_BLOCK]

/-- A header field but those of HDR_INT_STATUS, or a field of the block's own, stands outside HDR_INT_STATUS. -/
theorem bitOff_outside_intStatus {b : Block} {f : Fld} (hf : f ∈ hdrFields ++ blockFields b) {i : Nat} (hi : i < f.cnt)
    (hint : f ∉ intFields) : f.bitOff i < 0xA0 ∨ 0xC0 ≤ f.bitOff i := by
  rcases List.mem_append.1 hf with hf | hf
  · have hhdr : ∀ g ∈ hdrFields, g.cnt = 1 ∧ (g ∉ intFields → g.bitOff 0 < 0xA0 ∨ 0xC0 ≤ g.bitOff 0) := by decide
    obtain ⟨hone, hout⟩ := hhdr f hf
    obtain rfl : i = 0 := by omega
    exact hout hint
  · have := bitOff_high hf i
    exact .inr (by omega)

/-- A doorbell that reaches a block under reset waits at its sender (R70). -/
theorem reaches_closed {s : State} {b : Block} {n : Nat} (h : s.blockClosed b n = true) (w : ResetWork) (f : State → State) :
    s.reaches b n w f = { s with closedWork := s.closedWork ++ [(pg b n, w)] } := by
  rw [State.reaches, if_pos h]

/-- Settles O15: the reset's end clears what is not RWL, and the doorbell of a block under reset only joins what waits. -/
theorem blockResetDone : Obligations.BlockResetDone := by
  refine ⟨fun s b n hr hin hb hhand hpend hsticky hclosed hwait => ?_, fun s agent slab q tail hr hmay hclosed htail => ?_⟩
  · refine ends_hub (f := fun s => s.cmdBlockResetDone b n) rfl hr ?_
    obtain ⟨u, hdone, hregs, hstaged, hout⟩ := cmdBlockResetDone_quiet hb hin hhand hpend hsticky hclosed hwait
    simp only [hdone, get_cutAsked, get_within, cutAsked_blockResets, within_blockResets, raise_blockResets]
    refine ⟨fun f hf hacc hkept hint i hi => ?_, fun f hf hacc i hi => ⟨?_, ?_⟩, raise_resetDone .., hout⟩
    · rw [get_raise_page (bitOff_outside_intStatus hf hi hint), get_congr _ _ hregs]
      exact get_blockClear_cleared hpend hsticky (mem_clearedFields.2 ⟨hf, hacc, hkept⟩) hi
    · have := bitOff_high hf i
      rw [get_raise_page (.inr (by omega)), get_congr _ _ hregs]
      exact get_blockClear_rwl hpend hsticky hf hacc hi
    · simp [State.getS, hstaged]
  · refine ends_fieldWrite rfl hr hmay ?_
    rw [reaches_closed hclosed, Nat.mod_eq_of_lt htail, cutAsked_idle _ s (by rfl)]
    exact ⟨rfl, rfl⟩

end Sys2Proof.Machine
end

section
/-! PROOFS. Writes of one word: a dropped one (R82 to R84) and one of plain fields (R59, R65). -/

namespace Sys2Proof.Machine

/-! ### One access of four bytes -/

theorem exec_registerPageWrite {s : State} (hr : s.runs = true) (agent offset value : Nat) :
    exec (.registerPageWrite agent offset 4 (some value)) s = .next ((((s.writeAt agent offset value).2).within s).cutAsked s) := by
  show execRegisterPageWrite agent offset 4 (some value) s = _
  exact hub_of_runs hr

theorem writeAt_of_dropped {s : State} {agent off c : Nat} (h : s.dropCause agent off 4 true = some c) (v : Nat) :
    (s.writeAt agent off v).2 = s.denied agent off c true := by
  rw [State.writeAt, h]

/-! ### The record of refused accesses (R84) -/

/-- Bit addresses of the record. -/
def deniedAddrs : List Nat :=
  [bitAddr .mod 0 F.MOD_DENIED_STAT_COUNT, bitAddr .mod 0 F.MOD_DENIED_STAT_LAST_AGENT, bitAddr .mod 0 F.MOD_DENIED_ADDR_OFFSET,
   bitAddr .mod 0 F.MOD_DENIED_ADDR_WRITE, bitAddr .mod 0 F.MOD_DENIED_ADDR_CAUSE]

/-- The record after its five fields are written. -/
def State.putDenied (s : State) (count agent off write cause : Nat) : State :=
  ((((s.put .mod 0 F.MOD_DENIED_STAT_COUNT count).put .mod 0 F.MOD_DENIED_STAT_LAST_AGENT agent).put .mod 0 F.MOD_DENIED_ADDR_OFFSET off).put .mod 0
    F.MOD_DENIED_ADDR_WRITE write).put .mod 0 F.MOD_DENIED_ADDR_CAUSE cause

theorem denied_eq (s : State) (agent off cause : Nat) : s.denied agent off cause true =
    s.putDenied (min (2 ^ F.MOD_DENIED_STAT_COUNT.w - 1) (s.get .mod 0 F.MOD_DENIED_STAT_COUNT + 1)) agent off 1 cause := rfl

theorem clearDenied_eq (s : State) : s.clearDenied = s.putDenied 0 0 0 0 0 := rfl

theorem get_putDenied (s : State) (count agent off write cause : Nat) :
    (s.putDenied count agent off write cause).get .mod 0 F.MOD_DENIED_STAT_COUNT = count % 2 ^ F.MOD_DENIED_STAT_COUNT.w ∧
    (s.putDenied count agent off write cause).get .mod 0 F.MOD_DENIED_STAT_LAST_AGENT = agent % 2 ^ F.MOD_DENIED_STAT_LAST_AGENT.w ∧
    (s.putDenied count agent off write cause).get .mod 0 F.MOD_DENIED_ADDR_OFFSET = off % 2 ^ F.MOD_DENIED_ADDR_OFFSET.w ∧
    (s.putDenied count agent off write cause).get .mod 0 F.MOD_DENIED_ADDR_WRITE = write % 2 ^ F.MOD_DENIED_ADDR_WRITE.w ∧
    (s.putDenied count agent off write cause).get .mod 0 F.MOD_DENIED_ADDR_CAUSE = cause % 2 ^ F.MOD_DENIED_ADDR_CAUSE.w := by
  unfold State.putDenied
  refine ⟨?_, ?_, ?_, ?_, get_put_same ..⟩
  · rw [get_put_page (by decide), get_put_page (by decide), get_put_page (by decide), get_put_page (by decide), get_put_same]
  · rw [get_put_page (by decide), get_put_page (by decide), get_put_page (by decide), get_put_same]
  · rw [get_put_page (by decide), get_put_page (by decide), get_put_same]
  · rw [get_put_page (by decide), get_put_same]

theorem onlyRegs_putDenied (s : State) (count agent off write cause : Nat) :
    s.OnlyRegs (s.putDenied count agent off write cause) deniedAddrs :=
  onlyRegs_put (onlyRegs_put (onlyRegs_put (onlyRegs_put (onlyRegs_put (onlyRegs_refl s _) _ _ _ _ _ (by simp [deniedAddrs])) _ _ _ _ _
    (by simp [deniedAddrs])) _ _ _ _ _ (by simp [deniedAddrs])) _ _ _ _ _ (by simp [deniedAddrs])) _ _ _ _ _ (by simp [deniedAddrs])

/-- Settles O17: a dropped write and the clearing of the record both write the record's five fields alone. -/
theorem droppedAccess : Obligations.DroppedAccess := by
  refine ⟨fun s agent offset value c hr hdrop => ?_, fun s agent hr hmay => ?_⟩
  · rw [ends_iff_of_exec (exec_registerPageWrite hr agent offset value), writeAt_of_dropped hdrop, denied_eq]
    simp only [get_cutAsked, get_within]
    obtain ⟨hcount, hagent, hoff, hwrite, hcause⟩ := get_putDenied s
      (min (2 ^ F.MOD_DENIED_STAT_COUNT.w - 1) (s.get .mod 0 F.MOD_DENIED_STAT_COUNT + 1)) agent offset 1 c
    refine ⟨hcount.trans (Nat.mod_eq_of_lt ?_), hagent, hoff, hwrite, hcause, onlyRegs_hub (onlyRegs_putDenied ..)⟩
    have : 0 < 2 ^ F.MOD_DENIED_STAT_COUNT.w := by decide
    omega
  · refine ends_fieldWrite rfl hr hmay ?_
    rw [clearDenied_eq]
    simp only [get_cutAsked, get_within]
    obtain ⟨hcount, hagent, hoff, hwrite, hcause⟩ := get_putDenied s 0 0 0 0 0
    exact ⟨hcount, hagent, hoff, hwrite, hcause, onlyRegs_hub (onlyRegs_putDenied ..)⟩

end Sys2Proof.Machine
end

section
/-! PROOFS. A write of one word of plain fields (R59, R65): each field by its access code. -/

namespace Sys2Proof.Machine

/-! ### The fields of a word -/

theorem lt_cnt_of_mem_instAt {b : Block} {f : Fld} (hf : f ∈ blockFields b) {o i : Nat} (hi : i ∈ f.instAt o) : i < f.cnt := by
  simp only [Fld.instAt] at hi
  split at hi
  next hz =>
    have hone := cnt_of_bst b f hf hz
    split at hi
    · obtain rfl := List.mem_singleton.1 hi
      omega
    · cases hi
  next =>
    have := (List.mem_filter.1 hi).2
    simp only [Bool.and_eq_true, decide_eq_true_eq] at this
    exact this.1.1

theorem instAt_pairwise (f : Fld) (o : Nat) : (f.instAt o).Pairwise (fun i j => f.bitOff i ≠ f.bitOff j) := by
  simp only [Fld.instAt]
  split
  next => split <;> simp
  next hz =>
    have hnodup : ((List.range (32 / f.bst + 1)).map (· + (8 * o - (8 * f.off + f.lo) + f.bst - 1) / f.bst)).Nodup :=
      List.nodup_range.map (fun i j h => Nat.add_right_cancel h)
    refine (hnodup.filter _).imp (fun {i j} hne he => hne ?_)
    exact Nat.eq_of_mul_eq_mul_left (Nat.pos_of_ne_zero hz) (Nat.add_left_cancel he)

theorem mem_wordFields {b : Block} {o : Nat} (ho : 0x100 ≤ o) {x : Fld × Nat} (hx : x ∈ wordFields b o) :
    x.1 ∈ blockFields b ∧ x.2 < x.1.cnt := by
  rw [wordFields, if_neg (by omega)] at hx
  obtain ⟨f, hf, hmap⟩ := List.mem_flatMap.1 hx
  obtain ⟨i, hi, rfl⟩ := List.mem_map.1 hmap
  exact ⟨hf, lt_cnt_of_mem_instAt hf hi⟩

/-- No two entries of a word share their first bit. -/
theorem wordFields_pairwise (b : Block) {o : Nat} (ho : 0x100 ≤ o) :
    (wordFields b o).Pairwise (fun x y => x.1.bitOff x.2 ≠ y.1.bitOff y.2) := by
  rw [wordFields, if_neg (by omega)]
  refine List.pairwise_flatMap.2 ⟨fun f _ => List.pairwise_map.2 (instAt_pairwise f o), ?_⟩
  refine List.Pairwise.imp_of_mem (fun {f g} hf hg hfg => ?_) (blockFields_apart b)
  intro x hx y hy
  obtain ⟨i, hi, rfl⟩ := List.mem_map.1 hx
  obtain ⟨j, hj, rfl⟩ := List.mem_map.1 hy
  exact bitOff_ne_of_apart hfg (lt_cnt_of_mem_instAt hf hi) (lt_cnt_of_mem_instAt hg hj)

/-! ### One field of a word -/

/-- Field `f` of `t` is what a write of `v` makes of it in `s`, by its access code (R59, R65). -/
def State.FieldWritten (s t : State) (b : Block) (n : Nat) (f : Fld) (i v : Nat) : Prop :=
  (f.acc = .rw → t.get b n f i = v) ∧ (f.acc = .ro → t.get b n f i = s.get b n f i) ∧
  (f.acc = .w1c → t.get b n f i = (s.get b n f i - (s.get b n f i &&& v)) % 2 ^ f.w) ∧
  (f.acc = .rwl → s.bit b n F.HDR_STATUS_OPEN = true → s.bit b n F.HDR_LOCK_STICKY = false → t.getS b n f i = v)

theorem getS_congr {s t : State} (h : t.staged = s.staged) (b : Block) (n : Nat) (f : Fld) (i : Nat) : t.getS b n f i = s.getS b n f i := by
  rw [State.getS, h, State.getS]

theorem getS_putS_same (s : State) (b : Block) (n : Nat) (f : Fld) (v i : Nat) : (s.putS b n f v i).getS b n f i = v % 2 ^ f.w :=
  fread_fwrite_same ..

theorem getS_putS_page {f g : Fld} {i j : Nat} (h : g.bitOff j ≠ f.bitOff i) (s : State) (b : Block) (n v : Nat) :
    (s.putS b n f v i).getS b n g j = s.getS b n g j := fread_fwrite_other _ _ _ _ _ _ _ _ (fkey_ne h _)

theorem writeField_written (s : State) (b : Block) (n : Nat) (f : Fld) (i : Nat) {v : Nat} (hv : v < 2 ^ f.w) :
    s.FieldWritten (s.writeField b n f i v) b n f i v := by
  unfold State.FieldWritten State.writeField
  cases f.acc with
  | rw => exact ⟨fun _ => (get_put_same ..).trans (Nat.mod_eq_of_lt hv), nofun, nofun, nofun⟩
  | ro => exact ⟨nofun, fun _ => rfl, nofun, nofun⟩
  | w1c => exact ⟨nofun, nofun, fun _ => get_put_same .., nofun⟩
  | w1s | wo => exact ⟨nofun, nofun, nofun, nofun⟩
  | rwl =>
    refine ⟨nofun, nofun, nofun, fun _ hopen hsticky => ?_⟩
    simp only [hopen, hsticky, Bool.not_false, Bool.and_self, if_true]
    exact (getS_putS_same ..).trans (Nat.mod_eq_of_lt hv)

/-- A field's write reaches the field, or WRITE_IGNORED of the page, alone. -/
theorem get_writeField_other {f g : Fld} {i j : Nat} (h : g.bitOff j ≠ f.bitOff i) (hign : g.bitOff j ≠ F.HDR_STATUS_WRITE_IGNORED.bitOff 0)
    (s : State) (b : Block) (n v : Nat) : (s.writeField b n f i v).get b n g j = s.get b n g j := by
  unfold State.writeField
  split
  · exact get_put_page h ..
  · exact get_put_page h ..
  · exact get_put_page h ..
  · split
    · rfl
    · exact get_put_page hign ..
  · rfl
  · rfl

theorem getS_writeField_other {f g : Fld} {i j : Nat} (h : g.bitOff j ≠ f.bitOff i) (s : State) (b : Block) (n v : Nat) :
    (s.writeField b n f i v).getS b n g j = s.getS b n g j := by
  unfold State.writeField
  split
  · rfl
  · rfl
  · rfl
  · split
    · exact getS_putS_page h ..
    · rfl
  · rfl
  · rfl

/-- What was written into a field does not rest on what else of the page changes. -/
theorem fieldWritten_congr {s s' t t' : State} {b : Block} {n : Nat} {f : Fld} {i v : Nat} (hs : s'.get b n f i = s.get b n f i)
    (hopen : s'.bit b n F.HDR_STATUS_OPEN = s.bit b n F.HDR_STATUS_OPEN) (hsticky : s'.bit b n F.HDR_LOCK_STICKY = s.bit b n F.HDR_LOCK_STICKY)
    (ht : t'.get b n f i = t.get b n f i) (htS : t'.getS b n f i = t.getS b n f i) (h : s'.FieldWritten t b n f i v) :
    s.FieldWritten t' b n f i v := by
  unfold State.FieldWritten at h ⊢
  rwa [ht, htS, ← hs, ← hopen, ← hsticky]

/-! ### The whole word -/

theorem foldl_writeField_written {l : List (Fld × Nat)} (hl : l.Pairwise (fun x y => x.1.bitOff x.2 ≠ y.1.bitOff y.2))
    (hhigh : ∀ x ∈ l, 0x800 ≤ x.1.bitOff x.2) {v : Fld × Nat → Nat} (hv : ∀ x, v x < 2 ^ x.1.w) (s : State) (b : Block) (n : Nat) :
    ∀ x ∈ l, s.FieldWritten (l.foldl (fun t x => t.writeField b n x.1 x.2 (v x)) s) b n x.1 x.2 (v x) := by
  induction l generalizing s with
  | nil => nofun
  | cons y l ih =>
    obtain ⟨hy, hl⟩ := List.pairwise_cons.1 hl
    have high := hhigh y List.mem_cons_self
    have hhigh' : ∀ x ∈ l, 0x800 ≤ x.1.bitOff x.2 := fun x hx => hhigh x (List.mem_cons_of_mem _ hx)
    have hlow {g : Fld} {i j : Nat} (hi : 0x800 ≤ g.bitOff i) {k : Fld} (hk : k.bitOff j < 0x800) : g.bitOff i ≠ k.bitOff j := by omega
    intro x hx
    rw [List.foldl_cons]
    rcases List.mem_cons.1 hx with rfl | hx
    · refine fieldWritten_congr rfl rfl rfl ?_ ?_ (writeField_written s b n x.1 x.2 (hv x))
      · exact foldl_keeps (fun t : State => t.get b n x.1 x.2) _ l _ (fun t z hz => get_writeField_other (hy z hz) (hlow high (by decide)) ..)
      · exact foldl_keeps (fun t : State => t.getS b n x.1 x.2) _ l _ (fun t z hz => getS_writeField_other (hy z hz) ..)
    · refine fieldWritten_congr ?_ ?_ ?_ rfl rfl (ih hl hhigh' _ x hx)
      · exact get_writeField_other (hy x hx).symm (hlow (hhigh' x hx) (by decide)) ..
      · exact congrArg (· != 0) (get_writeField_other (hlow high (by decide)).symm (by decide) ..)
      · exact congrArg (· != 0) (get_writeField_other (hlow high (by decide)).symm (by decide) ..)

theorem writeFields_written (s : State) (b : Block) (n : Nat) {o : Nat} (ho : 0x100 ≤ o) (v : Nat) :
    ∀ x ∈ wordFields b o, s.FieldWritten (s.writeFields b n o v) b n x.1 x.2 (v / 2 ^ x.1.place x.2 o % 2 ^ x.1.w) :=
  foldl_writeField_written (wordFields_pairwise b ho) (fun x hx => bitOff_high (mem_wordFields ho hx).1 x.2)
    (v := fun x => v / 2 ^ x.1.place x.2 o % 2 ^ x.1.w) (fun _ => Nat.mod_lt _ (Nat.two_pow_pos _)) s b n

theorem writeAt_of_plain {s : State} {agent offset n o : Nat} {b : Block} (hdrop : s.dropCause agent offset 4 true = none)
    (hat : blockAt offset = some (b, n, o)) (ho : 0x100 ≤ o) {value : Nat}
    (hact : (if b.perSlab then s.slabAction agent b n o (value % 2 ^ 32) else s.moduleAction agent b n o (value % 2 ^ 32)) = none) :
    (s.writeAt agent offset value).2 = s.writeFields b n o (value % 2 ^ 32) := by
  simp only [State.writeAt, hdrop, hat]
  rw [State.writeWord, if_neg (by omega), hact]

/-- Settles O16: the fields of a word stand apart, so that each is written as if it were alone. -/
theorem plainRegisterWrite : Obligations.PlainRegisterWrite := by
  intro s agent offset value n o b hr hdrop hat ho hact
  rw [ends_iff_of_exec (exec_registerPageWrite hr agent offset value), writeAt_of_plain hdrop hat ho hact]
  intro x hx
  exact fieldWritten_congr rfl rfl rfl ((get_cutAsked ..).trans (get_within ..)) (getS_congr ((cutAsked_staged ..).trans (within_staged ..)) ..)
    (writeFields_written s b n ho _ x hx)

end Sys2Proof.Machine
end

section
/-! PROOFS. Every command answers a next state: no meaning raises a fault or a refusal (notes/assumptions/7). -/

namespace Sys2Proof.Machine

/-- An event of the hub answers its effect while the hub is live, and the state it found otherwise. -/
theorem hub_answers (s : State) (f : State → State) : ∃ t, hub s f = .next t := ⟨_, rfl⟩

/-- Settles O3: the timebase's edges, the resets of the whole module and the supervisor's events answer on their own, a report and a broken wire by way
of the hub at the phase they name, and every other command by way of the hub. -/
theorem execAnswers : Obligations.ExecAnswers := by
  intro i s
  cases i with
  | strokeEdge | layerBoundary | sittingBoundary | strokeAdopt | commitActivate => exact ⟨_, rfl⟩
  | warmFlushTimeout | bootVerifyDone | refclkLost | refclkReturn | powerOnReset | sysRst | sysRstRelease => exact ⟨_, rfl⟩
  | auxRailUp | auxRailDown | pwrEnAssert | pwrEnDeassert | inputOutOfRange | inputInRange | currentLimit | limitClear | faultTimerExpire | fastTrip
  | powerGoodRise | railStepDone | railSequenceFault | coolDownEnd | cleanTimeExpire | thermalMemoryTick | fetBad => exact ⟨_, rfl⟩
  | errorReport reps => exact hub_answers _ (fun t => t.cmdErrorReport reps)
  | wireBroken block inst loc phase => exact hub_answers _ (fun t => t.cmdWireBroken block inst loc phase)
  | _ =>
    dsimp only [exec]
    exact hub_answers s _

end Sys2Proof.Machine
end

end

section
/-! The statements of addressing, codec lanes, mailboxes and the ring's spills. As above, their proofs are elaborated one after another: each thread
reserves a stack of its own, and the tests of the model leave little of the check's memory. Nothing here has section variables. -/
set_option deprecated.oldSectionVars true

section
/-! PROOFS. The mailbox's commands of dynamic capacity, of firmware and of registers (R94, R296, R299, R301 to R303). -/

namespace Sys2Proof.Machine

/-! ### Commands that leave the clock, the supervisor, the power and the queue alone -/

/-- What an event of the hub puts back after its effect: the clock, the supervisor, the power, the queue and the request to cut the power. -/
def State.outside (s : State) : Timebase × Sup × Bool × List Instr × Bool := (s.tb, s.sup, s.boot.powered, s.pending, s.boot.offAsk)

/-- An effect that leaves these alone is the event's whole outcome. -/
theorem hub_same {s u : State} (h : u.outside = s.outside) : (u.within s).cutAsked s = u := by
  simp only [State.outside, Prod.mk.injEq] at h
  obtain ⟨htb, hsup, hpow, hpend, hask⟩ := h
  rw [within_same htb hsup hpow hpend, cutAsked_idle _ _ hask]

theorem ends_hub_same {i : Instr} {s : State} {f : State → State} {P : State → Prop} (he : exec i s = hub s f) (hr : s.runs = true)
    (h : (f s).outside = s.outside) (hp : P (f s)) : Ends i s P :=
  ends_hub he hr (by rwa [hub_same h])

/-- The mailbox of a linked attach point with no command under way takes one (R296). -/
theorem mbox_free {s : State} {a : Nat} (hlink : a = 16 ∨ s.linkUp a = true) (hbusy : s.mboxBusy a = false) (f : State → State) :
    s.mbox a f = f s := by
  rw [State.mbox, if_pos]
  simpa [hbusy] using hlink

/-! ### Offers and extents -/

/-- A record in the log of an attach point changes that attach point, and may send a message (R300). -/
theorem logEvent_parts (s : State) (a : Nat) (e : EvRec) : ∃ f m, s.logEvent a e = { s.modAtt a f with out := m } := by
  have hmsix (u : State) (v : Nat) : ∃ m, u.msix a v = { u with out := m } := by
    unfold State.msix
    split
    · exact ⟨_, rfl⟩
    · exact ⟨_, rfl⟩
  have hsend (u : State) (v : Nat) (hu : ∃ f, u = s.modAtt a f) (c : Prop) [Decidable c] :
      ∃ f m, (if c then u.msix a v else u) = { s.modAtt a f with out := m } := by
    obtain ⟨f, rfl⟩ := hu
    obtain ⟨m, hm⟩ := hmsix (s.modAtt a f) v
    split
    · exact ⟨f, m, hm⟩
    · exact ⟨f, s.out, rfl⟩
  refine hsend _ _ ?_ _
  split
  · exact ⟨_, rfl⟩
  · exact ⟨_, rfl⟩

theorem att_modAtt_other {s : State} {a x : Nat} (h : x ≠ a) (f : Attach → Attach) : (s.modAtt a f).att x = s.att x :=
  sget_sset_other _ _ _ _ _ h

theorem extWithin_self {x : Nat × Nat} (h : x.2 ≠ 0) : extWithin x x = true := by simp [extWithin, h]

theorem extMinus_self {x : Nat × Nat} (h : x.2 ≠ 0) : extMinus x x = [] := by
  have hover : extOverlap x x = true := by simp only [extOverlap, Bool.and_self, decide_eq_true_eq]; omega
  simp [extMinus, hover]

/-- A range that nothing names leaves its region, and no release is asked (R94). -/
theorem releasePages_untouched {s : State} {first n : Nat} (h : s.touchedPages first n = []) (cut : State → State) :
    s.releasePages first n cut = cut s := by
  simp [State.releasePages, h]

/-- Sittings since an offer: the difference of the numbers while they have not come round (R302). -/
theorem late_offer {s : State} {t sit : Nat} (h : t ≤ sittingOf s.now - sit) : t ≤ (sittingOf s.now + 2 ^ 37 - sit) % 2 ^ 37 := by
  have hnow : sittingOf s.now < 2 ^ 37 := by
    have := s.now.isLt
    unfold sittingOf
    omega
  omega

theorem cmdDcOfferTimeout_single {s : State} {a sit : Nat} {x : Nat × Nat} (hoffers : s.tier.offers = [(a, x, sit)])
    (hlate : s.get .port (portOf a) F.PORT_DC_CTL_OFFER_TIMEOUT ≤ sittingOf s.now - sit) :
    s.cmdDcOfferTimeout = ({ s with tier := { s.tier with offers := [] } } : State).raise .port (portOf a) 21 := by
  simp only [State.cmdDcOfferTimeout, hoffers, List.filter_cons, decide_eq_true (late_offer hlate)]
  rfl

/-! ### Firmware slots -/

theorem putFlashes_parts (l : List (Byte × Nat)) (base : Nat) (s : State) :
    ∃ m, l.foldl (fun t x => t.putFlash (base + x.2) x.1) s = { s with boot := { s.boot with flash := m } } := by
  induction l generalizing s with
  | nil => exact ⟨_, rfl⟩
  | cons x l ih =>
    obtain ⟨m, hm⟩ := ih (s.putFlash (base + x.2) x.1)
    exact ⟨m, hm⟩

theorem flashByte_putFlash (s : State) (a b : Nat) (v : Byte) : (s.putFlash a v).flashByte b = if b = a then v else s.flashByte b := by
  split
  · subst b
    exact sget_sset_same ..
  · exact sget_sset_other _ _ _ _ _ ‹_›

/-- Bytes put one after another: each address of the run holds its byte, every other address what it held. -/
theorem flashByte_putFlashes (data : List Byte) (base k b : Nat) (s : State) :
    ((data.zipIdx k).foldl (fun t x => t.putFlash (base + x.2) x.1) s).flashByte b =
      if base + k ≤ b ∧ b < base + k + data.length then data.getD (b - (base + k)) 0 else s.flashByte b := by
  induction data generalizing k s with
  | nil => simp
  | cons v data ih =>
    rw [List.zipIdx_cons, List.foldl_cons, ih, flashByte_putFlash, List.length_cons]
    by_cases hb : b = base + k
    · simp [hb]
    · by_cases hin : base + (k + 1) ≤ b ∧ b < base + (k + 1) + data.length
      · have hpos : b - (base + k) = b - (base + (k + 1)) + 1 := by omega
        rw [if_pos hin, if_pos (by omega), hpos, List.getD_cons_succ]
      · rw [if_neg hin, if_neg hb, if_neg (by omega)]

theorem flashActive_congr {s t : State} (h : t.flashByte 0 = s.flashByte 0) : t.flashActive = s.flashActive := by
  simp only [State.flashActive, h]

theorem field_first (v : Nat) (l : List Byte) : fieldB (leBytes 1 v ++ l) 0 1 = v % 256 := by simp [fieldB, sliceB, leBytes, leNat]
theorem field_second (u v : Nat) (l : List Byte) : fieldB (leBytes 1 u ++ (leBytes 1 v ++ l)) 1 1 = v % 256 := by
  simp [fieldB, sliceB, leBytes, leNat]

theorem flashActive_le (s : State) : s.flashActive ≤ 1 := by unfold State.flashActive; split <;> omega

/-- The first bytes of a firmware slot's flash stand above the two that say which slot is active and which pending. -/
theorem slotBase_high (n : Nat) : 0x100000 ≤ slotBase n := by unfold slotBase; omega

/-! ### Accesses of one register -/

theorem readRun_one {s u : State} {agent off v : Nat} (hread : s.narrowRead agent off 4 = (v, u)) (hdrop : s.dropCause agent off 4 false = none) :
    State.readRun agent 1 off 0 s = (0, [v], u) := by
  simp [State.readRun, hread, hdrop, b2n]

theorem writeRun_one {s u : State} {agent off w : Nat} (hwrite : s.writeAt agent off w = (false, u)) :
    State.writeRun agent [w] off 0 s = (0, u) := by
  simp [State.writeRun, hwrite, b2n]

/-- Settles O39: each command is taken by a free mailbox, or by the hub itself, and its effect leaves the clock, the supervisor and the power alone. -/
theorem mailboxCapacityAndFirmware : Obligations.MailboxCapacityAndFirmware := by
  refine ⟨fun s a first n hr hatt hrel hmay => ?offer, fun s a sit x hr hlink hbusy hoffers hx => ?accept,
    fun s a x hr hlink hbusy hext hx hpages => ?release, fun s a sit x hr hoffers hlate => ?late, fun s a hr hlink hbusy => ?info,
    fun s a ofs data hr hlink hbusy h3 h6 hown hlen => ?transfer, fun s a slot hr hlink hbusy h3 h6 hown hslot => ?activate,
    fun s a ofs v u hr hlink hbusy halign hofs hread hdrop => ?read, fun s u a ofs w hr hlink hbusy halign hofs hdrop hwrite => ?write⟩
  case offer =>
    obtain ⟨f, m, hlog⟩ := logEvent_parts ({ s with tier := { s.tier with offers := s.tier.offers ++ [(a, (first, n), sittingOf s.now)] } }) a
      { log := 4, ev := 0x100, ext := (first, n), page := noPage, stroke := s.now }
    have hcmd : s.cmdDcOffer a first n = _ := (if_pos (by rw [hatt, hrel, hmay]; rfl)).trans hlog
    refine ends_hub_same (f := fun s => s.cmdDcOffer a first n) rfl hr ?_ ?_
    · rw [hcmd]; rfl
    · rw [hcmd]
      exact ⟨rfl, rfl, fun y hy => att_modAtt_other hy f, rfl, rfl⟩
  case accept =>
    have hcmd : s.cmdAddDynamicCapacityResponse a [x] =
        ({ s with tier := { s.tier with extents := s.tier.extents ++ [x], offers := [] } } : State).answer a 0 := by
      rw [State.cmdAddDynamicCapacityResponse, mbox_free hlink hbusy]
      simp [hoffers, extWithin_self hx]
    refine ends_hub_same (f := fun s => s.cmdAddDynamicCapacityResponse a [x]) rfl hr ?_ ?_
    · rw [hcmd]; rfl
    · rw [hcmd]
      exact ⟨rfl, rfl, rfl, rfl⟩
  case release =>
    have hcmd : s.cmdReleaseDynamicCapacity a x = ({ s with tier := { s.tier with extents := [] } } : State).answer a 0 := by
      rw [State.cmdReleaseDynamicCapacity, mbox_free hlink hbusy]
      simp [hext, extWithin_self hx, extMinus_self hx, releasePages_untouched hpages]
    refine ends_hub_same (f := fun s => s.cmdReleaseDynamicCapacity a x) rfl hr ?_ ?_
    · rw [hcmd]; rfl
    · rw [hcmd]
      refine ⟨rfl, fun p hp => ?_, rfl, rfl⟩
      simp only [State.inRegion, Bool.and_eq_true, Bool.or_eq_true] at hp ⊢
      exact ⟨hp.1, .inl (hp.2.resolve_right (by simp [State.answer]))⟩
  case late =>
    refine ends_hub (f := fun s => s.cmdDcOfferTimeout) rfl hr ?_
    rw [cmdDcOfferTimeout_single hoffers hlate]
    refine ⟨by simp, by simp, ?_, onlyOut_hub (onlyOut_raise (onlyOut_refl _ _) _ _ _ (fun _ h => h))⟩
    rw [get_cutAsked, get_within, raise_block _ _ _ 5 (by decide), Nat.testBit_mod_two_pow, Nat.testBit_or, Nat.testBit_two_pow_self]
    simp
  case info =>
    refine ends_hub_same (f := fun s => s.cmdGetFwInfo a) rfl hr ?_ ?_
    · show (s.cmdGetFwInfo a).outside = _
      rw [State.cmdGetFwInfo, mbox_free hlink hbusy]; rfl
    · show _ ∧ _ = s.cmdGetFwInfo a
      rw [State.cmdGetFwInfo, mbox_free hlink hbusy]
      refine ⟨⟨_, rfl, ?_, ?_⟩, rfl⟩
      · simp only [List.append_assoc]
        exact field_first 2 _
      · simp only [List.append_assoc]
        rw [field_second]
        have := flashActive_le s
        omega
  case transfer =>
    have hcmd : s.cmdTransferFw a 1 ofs data =
        ({ s.putTransfer ofs data false with ports := { (s.putTransfer ofs data false).ports with fwOwner := some a } } : State).answer a 0 := by
      rw [State.cmdTransferFw, mbox_free hlink hbusy]
      simp [h3, h6, hown, Nat.not_lt.2 hlen]
    obtain ⟨m, hput⟩ := putFlashes_parts (data.zipIdx) (slotBase (1 - s.flashActive) + ofs) s
    have hbyte (b : Nat) := flashByte_putFlashes data (slotBase (1 - s.flashActive) + ofs) 0 b s
    have htrans : s.putTransfer ofs data false = { s with boot := { s.boot with flash := m } } := hput
    rw [hput] at hbyte
    refine ends_hub_same (f := fun s => s.cmdTransferFw a 1 ofs data) rfl hr ?_ ?_
    · rw [hcmd, htrans]; rfl
    · rw [hcmd, htrans]
      refine ⟨rfl, fun i hi => ?_, flashActive_congr ((hbyte 0).trans (if_neg ?_)), rfl, rfl⟩
      · refine (hbyte _).trans ?_
        rw [if_pos (by omega)]
        congr 1
        omega
      · have := slotBase_high (1 - s.flashActive)
        omega
  case activate =>
    have hcmd : s.cmdActivateFw a 1 slot = (s.putFlash 1 (BitVec.ofNat 8 (slot - 1))).answer a 0 := by
      rw [State.cmdActivateFw, mbox_free hlink hbusy]
      simp [h3, h6, hown, hslot]
    refine ends_hub_same (f := fun s => s.cmdActivateFw a 1 slot) rfl hr ?_ ?_
    · rw [hcmd]; rfl
    · rw [hcmd]
      refine ⟨?_, flashActive_congr ((flashByte_putFlash s 1 0 _).trans (if_neg (by decide))), rfl, rfl⟩
      have hpend : ((s.putFlash 1 (BitVec.ofNat 8 (slot - 1))).answer a 0).flashByte 1 = BitVec.ofNat 8 (slot - 1) :=
        (flashByte_putFlash s 1 1 _).trans (if_pos rfl)
      rw [State.flashPending, hpend]
      obtain rfl | rfl := hslot <;> rfl
  case read =>
    refine ends_hub (f := fun s => s.cmdRegisterRead a ofs 1) rfl hr ?_
    show _ ∧ _ ∧ _
    rw [State.cmdRegisterRead, mbox_free hlink hbusy]
    simp only [halign, Nat.mod_eq_of_lt hofs, readRun_one hread hdrop]
    simp [State.answer]
  case write =>
    refine ends_hub (f := fun s => s.cmdRegisterWrite a ofs [w]) rfl hr ?_
    show _ ∧ _ ∧ _ ∧ _
    rw [State.cmdRegisterWrite, mbox_free hlink hbusy]
    simp only [halign, Nat.mod_eq_of_lt hofs, writeRun_one hwrite]
    simp [State.answer]

end Sys2Proof.Machine
end

section
/-! PROOFS. SPILL_RETURN at the borrower (R105, R469), for a page that was spilled in an earlier epoch. -/

namespace Sys2Proof.Machine

/-- Page 3 went to the donor at 5 under handle 4, in epoch 0. -/
def spilledEntry : PEntry := { st := .spilled, handle := 4, donor := 5, ctx := 1 }

/-- The module runs with a link up and an address; stroke 32,768 begins epoch 1, and page 3 is still spilled. -/
def spilledLongAgo : State :=
  { ((State.reset.put .lode 0 F.LODE_ID_ADDR_VALID 1).put .ring 0 F.RING_LINK_UP 1).put .ring 1 F.RING_LINK_UP 1 with
    boot := { State.reset.boot with inReset := none }
    tb := { State.reset.tb with stroke := 32768 }
    tier := { State.reset.tier with pmap := [(3, spilledEntry)] } }

/-- The donor's SPILL_RETURN for handle 4. -/
def returnFrame : Frame := { ty := 0x18, vc := 1, dst := 0, src := 5, arg := 4 }

theorem spilledLongAgo_takes : spilledLongAgo.runs = true ∧ spilledLongAgo.sideTakes 0 0 = true ∧ returnFrame.dst = spilledLongAgo.addr ∧
    spilledLongAgo.bit .lode 0 F.LODE_ID_ADDR_VALID = true ∧ spilledLongAgo.resting = false := by decide

/-- The recall that begins restarts the page's HEAT_EPOCH. -/
theorem spilledLongAgo_returned : ((spilledLongAgo.cmdSpillReturn 0 0 returnFrame).entry 3).epoch = 1 := by decide +kernel

theorem exec_spillReturn {s : State} (hr : s.runs = true) (pair side : Nat) (f : Frame) :
    exec (.spillReturn pair side f) s = .next (((s.cmdSpillReturn pair side f).within s).cutAsked s) := by
  show execSpillReturn pair side f s = _
  exact hub_of_runs hr

/-- Refutes O51: its last clause asks that a recall changes the page's STATE alone; `startRecallDeep` also clears HEAT and sets HEAT_EPOCH to the
epoch in which the page is returned, which here is not the one in which it was spilled (`spilledLongAgo`). -/
theorem not_ringSpill : ¬ Obligations.RingSpill := by
  intro h
  obtain ⟨-, -, -, -, -, -, -, -, hreturn⟩ := h
  obtain ⟨hr, htakes, hdst, hvalid, hrest⟩ := spilledLongAgo_takes
  have he := hreturn spilledLongAgo 0 0 returnFrame 3 spilledEntry hr htakes rfl hdst hvalid hrest rfl rfl rfl rfl rfl
  rw [ends_iff_of_exec (exec_spillReturn hr ..)] at he
  obtain ⟨hentry, -⟩ := he
  rw [entry_congr ((cutAsked_tier _ _).trans (within_tier _ _)) ((cutAsked_regs _ _).trans (within_regs _ _))] at hentry
  have hepoch := congrArg PEntry.epoch hentry
  rw [spilledLongAgo_returned] at hepoch
  exact absurd hepoch (by decide)

end Sys2Proof.Machine
end

section
/-! PROOFS. Capacity and share (R90, R91, R121): the fields of the TIER page and the parts of the tier that say how the module's capacity is divided.
No request of a home, no move and no fault changes them: the frame rules say so of each operation that a settling home may come to. -/

namespace Sys2Proof.Machine

/-! ### The fields of the TIER page -/

/-- Bit addresses of HOT_SHARE, of the two capacities, of COMMIT_PENDING and of the block's interrupts, on the TIER page. -/
def planKeys : List Nat :=
  [F.TIER_HOT_HOT_SHARE, F.TIER_CAP_LOGICAL_CAP, F.TIER_CAP_STATIC_CAP, F.HDR_STATUS_COMMIT_PENDING, F.HDR_INT_STATUS_INT_BLOCK].map
    (fun f => fkey (pg .tier 0) f 0)
/-- The field never stands where one of these stands, whatever page of 4 KiB it lies in. -/
def Fld.aside (f : Fld) : Bool :=
  planKeys.all (fun k => decide ((8 * f.off + f.lo) % Nat.gcd f.bst 32768 ≠ k % Nat.gcd f.bst 32768))
/-- What a register store says of them: REBALANCE_DONE is bit 5 of the block's interrupts. -/
def planRegs (m : SMap Nat) : Nat × Nat × Nat × Nat × Bool :=
  let g (f : Fld) : Nat := fread m (pg .tier 0) f 0
  (g F.TIER_HOT_HOT_SHARE, g F.TIER_CAP_LOGICAL_CAP, g F.TIER_CAP_STATIC_CAP, g F.HDR_STATUS_COMMIT_PENDING,
    (g F.HDR_INT_STATUS_INT_BLOCK).testBit 5)

theorem pg_aligned (b : Block) (n : Nat) : pg b n % 4096 = 0 := by
  cases b <;> simp only [pg, Block.perSlab, Block.off, Block.insts] <;> simp <;> omega

theorem fkey_aside {f : Fld} (h : f.aside = true) {p : Nat} (hp : p % 4096 = 0) (i : Nat) : fkey p f i ∉ planKeys := by
  intro hk
  have hne := of_decide_eq_true (List.all_eq_true.1 h _ hk)
  refine hne ?_
  have hg : Nat.gcd f.bst 32768 ∣ 8 * p := (Nat.gcd_dvd_right _ _).trans (by omega)
  have hb : Nat.gcd f.bst 32768 ∣ f.bst * i := Dvd.dvd.mul_right (Nat.gcd_dvd_left _ _) i
  obtain ⟨x, hx⟩ := hg
  obtain ⟨y, hy⟩ := hb
  have hsum : fkey p f i = 8 * f.off + f.lo + Nat.gcd f.bst 32768 * (x + y) := by
    rw [Nat.mul_add (Nat.gcd f.bst 32768), ← hx, ← hy, fkey]
    omega
  rw [hsum, Nat.add_mul_mod_self_left]

/-- A field of another page is none of these. -/
theorem fkey_page {p : Nat} (hp : p % 4096 = 0) (hne : p ≠ pg .tier 0) {f : Fld} {i : Nat} (hf : f.bitOff i < 32768) : fkey p f i ∉ planKeys := by
  have hkeys : ∀ k ∈ planKeys, k / 32768 = pg .tier 0 / 4096 := by decide
  have htier : pg .tier 0 % 4096 = 0 := pg_aligned .tier 0
  intro hk
  have := hkeys _ hk
  rw [fkey_eq] at this
  omega

/-- The pages of the Slabs lie apart from the TIER page. -/
theorem pg_slab_ne {b : Block} (hb : b.perSlab = true) (n : Nat) : pg b n ≠ pg .tier 0 := by
  have htier : pg .tier 0 = 0x80F000 := rfl
  have hpage : pg b n / 4096 % 1024 ≠ 15 := by
    cases b <;> simp [Block.perSlab] at hb <;> simp only [pg, Block.perSlab, Block.off, Block.insts] <;> simp <;> omega
  omega

theorem planRegs_fwrite {p : Nat} {f : Fld} {i : Nat} (h : fkey p f i ∉ planKeys) (m : SMap Nat) (v : Nat) :
    planRegs (fwrite m p f i v) = planRegs m := by
  simp only [planKeys, List.map_cons, List.map_nil, List.mem_cons, List.not_mem_nil, or_false, not_or] at h
  obtain ⟨h1, h2, h3, h4, h5⟩ := h
  simp only [planRegs, fread_fwrite_other _ _ _ _ _ _ _ _ (Ne.symm h1), fread_fwrite_other _ _ _ _ _ _ _ _ (Ne.symm h2),
    fread_fwrite_other _ _ _ _ _ _ _ _ (Ne.symm h3), fread_fwrite_other _ _ _ _ _ _ _ _ (Ne.symm h4),
    fread_fwrite_other _ _ _ _ _ _ _ _ (Ne.symm h5)]

/-! ### The plan -/

abbrev TierPlan := (Nat × Nat × Nat × Nat × Bool) × List (Nat × Nat) × Option Nat × List Nat
/-- The plan, the page map and the moves. The plan: what the TIER page says, the accepted extents, the HOT_SHARE being applied, and the rows
held for a larger pool. -/
def State.tierCore (s : State) : TierPlan × SMap PEntry × List Move :=
  ((planRegs s.regs, s.tier.extents, s.tier.rebalanceTo, s.tier.poolHeld), s.tier.pmap, s.tier.moves)
@[simp] abbrev State.tierPlan (s : State) : TierPlan := s.tierCore.1

theorem hotShare_of_plan {s t : State} (h : t.tierPlan = s.tierPlan) : t.get .tier 0 F.TIER_HOT_HOT_SHARE = s.get .tier 0 F.TIER_HOT_HOT_SHARE :=
  congrArg (fun x => x.1.1) h
theorem pending_of_plan {s t : State} (h : t.tierPlan = s.tierPlan) :
    t.get .tier 0 F.HDR_STATUS_COMMIT_PENDING = s.get .tier 0 F.HDR_STATUS_COMMIT_PENDING := congrArg (fun x => x.1.2.2.2.1) h
theorem rebalanced_of_plan {s t : State} (h : t.tierPlan = s.tierPlan) :
    (t.get .tier 0 F.HDR_INT_STATUS_INT_BLOCK).testBit 5 = (s.get .tier 0 F.HDR_INT_STATUS_INT_BLOCK).testBit 5 :=
  congrArg (fun x => x.1.2.2.2.2) h
theorem rebalanceTo_of_plan {s t : State} (h : t.tierPlan = s.tierPlan) : t.tier.rebalanceTo = s.tier.rebalanceTo :=
  congrArg (fun x => x.2.2.1) h
theorem poolHeld_of_plan {s t : State} (h : t.tierPlan = s.tierPlan) : t.tier.poolHeld = s.tier.poolHeld := congrArg (fun x => x.2.2.2) h
theorem inRegion_of_plan {s t : State} (h : t.tierPlan = s.tierPlan) (p : Nat) : t.inRegion p = s.inRegion p := by
  have hlog : t.get .tier 0 F.TIER_CAP_LOGICAL_CAP = s.get .tier 0 F.TIER_CAP_LOGICAL_CAP := congrArg (fun x => x.1.2.1) h
  have hstat : t.get .tier 0 F.TIER_CAP_STATIC_CAP = s.get .tier 0 F.TIER_CAP_STATIC_CAP := congrArg (fun x => x.1.2.2.1) h
  have hext : t.tier.extents = s.tier.extents := congrArg (fun x => x.2.1) h
  unfold State.inRegion State.pageExists
  rw [hlog, hstat, hext]
/-- An entry rests on the page map and on what lies in a region. -/
theorem entry_of_plan {s t : State} (h : t.tierPlan = s.tierPlan) (hmap : t.tier.pmap = s.tier.pmap) (p : Nat) : t.entry p = s.entry p := by
  unfold State.entry
  rw [hmap, inRegion_of_plan h]

end Sys2Proof.Machine
end

section
/-! PROOFS. Frame rules of the plan, the page map and the moves, of each operation that a settling home may come to. A lemma `f_tierCore` says that
`f` changes none of the three, a lemma `f_tierPlan` that it leaves the plan. -/

namespace Sys2Proof.Machine

/-! ### Folds, and updates of other parts. As for the clockwork, the bracketed `(rfl)` keeps a lemma out of `dsimp`. -/

@[simp] theorem tierCore_mk {tb regs staged actDue blockResets closedWork tier media dipts veins chans vq crypto ports home hub regu faults codec
    query ring energy rest secure sup boot out draws pending} :
    (State.mk tb regs staged actDue blockResets closedWork tier media dipts veins chans vq crypto ports home hub regu faults codec query
      ring energy rest secure sup boot out draws pending).tierCore =
      ((planRegs regs, tier.extents, tier.rebalanceTo, tier.poolHeld), tier.pmap, tier.moves) := (rfl)
@[simp] theorem tierCore_eta (s : State) :
    (((planRegs s.regs, s.tier.extents, s.tier.rebalanceTo, s.tier.poolHeld), s.tier.pmap, s.tier.moves) : TierPlan × SMap PEntry × List Move) =
      s.tierCore := (rfl)
theorem tierPlan_eta (s : State) :
    ((planRegs s.regs, s.tier.extents, s.tier.rebalanceTo, s.tier.poolHeld) : TierPlan) = s.tierCore.1 := (rfl)
@[simp] theorem tierCore_ite (c : Prop) [Decidable c] (a b : State) :
    (if c then a else b).tierCore = if c then a.tierCore else b.tierCore := apply_ite ..
@[simp] theorem plan_ite (c : Prop) [Decidable c] (a b : TierPlan × SMap PEntry × List Move) : (if c then a else b).1 = if c then a.1 else b.1 :=
  apply_ite ..
@[simp] theorem foldl_tierCore {α : Type} (f : State → α → State) (h : ∀ t x, (f t x).tierCore = t.tierCore) (l : List α) (s : State) :
    (l.foldl f s).tierCore = s.tierCore := foldl_keeps State.tierCore f l s (fun t x _ => h t x)
@[simp] theorem foldl_fst_tierCore {α β : Type} (f : State × β → α → State × β) (h : ∀ b x, (f b x).1.tierCore = b.1.tierCore)
    (l : List α) (b : State × β) : (l.foldl f b).1.tierCore = b.1.tierCore := foldl_keeps (fun c => c.1.tierCore) f l b (fun c x _ => h c x)
@[simp] theorem foldl_snd_tierCore {α β : Type} (f : β × State → α → β × State) (h : ∀ b x, (f b x).2.tierCore = b.2.tierCore)
    (l : List α) (b : β × State) : (l.foldl f b).2.tierCore = b.2.tierCore := foldl_keeps (fun c => c.2.tierCore) f l b (fun c x _ => h c x)
theorem foldl_snd_snd_tierCore {α β γ : Type} (f : β × γ × State → α → β × γ × State)
    (h : ∀ b x c, f b x = c → c.2.2.tierCore = b.2.2.tierCore) (l : List α) (b : β × γ × State) :
    (l.foldl f b).2.2.tierCore = b.2.2.tierCore := foldl_keeps (fun c => c.2.2.tierCore) f l b (fun c x _ => h c x _ rfl)
@[simp] theorem forN_tierCore (n : Nat) (f : State → Nat → State) (h : ∀ t x, (f t x).tierCore = t.tierCore) (s : State) :
    (s.forN n f).tierCore = s.tierCore := foldl_tierCore f h ..

@[simp] theorem foldl_tierPlan {α : Type} (f : State → α → State) (h : ∀ t x, (f t x).tierPlan = t.tierPlan) (l : List α) (s : State) :
    (l.foldl f s).tierPlan = s.tierPlan := foldl_keeps State.tierPlan f l s (fun t x _ => h t x)
@[simp] theorem foldl_fst_tierPlan {α β : Type} (f : State × β → α → State × β) (h : ∀ b x, (f b x).1.tierPlan = b.1.tierPlan)
    (l : List α) (b : State × β) : (l.foldl f b).1.tierPlan = b.1.tierPlan := foldl_keeps (fun c => c.1.tierPlan) f l b (fun c x _ => h c x)
@[simp] theorem forN_tierPlan (n : Nat) (f : State → Nat → State) (h : ∀ t x, (f t x).tierPlan = t.tierPlan) (s : State) :
    (s.forN n f).tierPlan = s.tierPlan := foldl_tierPlan f h ..

theorem tierCore_ring (s : State) (x : Ring) : { s with ring := x }.tierCore = s.tierCore := (rfl)
theorem tierCore_home (s : State) (x : Home) : { s with home := x }.tierCore = s.tierCore := (rfl)
theorem tierPlan_tier (s : State) (x : Tier) (h : (x.extents, x.rebalanceTo, x.poolHeld) = (s.tier.extents, s.tier.rebalanceTo, s.tier.poolHeld)) :
    { s with tier := x }.tierPlan = s.tierPlan := congrArg (Prod.mk (planRegs s.regs)) h

/-! ### Registers -/

theorem putP_tierCore {s : State} {p : Nat} {f : Fld} {i : Nat} (h : fkey p f i ∉ planKeys) (v : Nat) : (s.putP p f v i).tierCore = s.tierCore := by
  show ((planRegs (fwrite s.regs p f i v), _), _) = _
  rw [planRegs_fwrite h]
  rfl
/-- A write of a field that stands aside from the plan's on every page. -/
@[simp] theorem put_tierCore (s : State) (b : Block) (n : Nat) (f : Fld) (v i : Nat) (h : f.aside = true) : (s.put b n f v i).tierCore = s.tierCore :=
  putP_tierCore (fkey_aside h (pg_aligned b n) i) v
@[simp] theorem bump_tierCore (s : State) (b : Block) (n : Nat) (f : Fld) (k i : Nat) (h : f.aside = true) : (s.bump b n f k i).tierCore = s.tierCore :=
  put_tierCore _ _ _ _ _ _ h
/-- A write on another page than the TIER page. -/
@[simp] theorem put_tierCore_page (s : State) (b : Block) (n : Nat) (f : Fld) (v : Nat) (hp : pg b n ≠ pg .tier 0)
    (hf : f.bitOff 0 < 32768) : (s.put b n f v 0).tierCore = s.tierCore := putP_tierCore (fkey_page (pg_aligned b n) hp hf) v
/-- A write on a page of a Slab. -/
@[simp] theorem put_tierCore_slab (s : State) (b : Block) (n : Nat) (f : Fld) (v : Nat) (hb : b.perSlab = true) (hf : f.bitOff 0 < 32768) :
    (s.put b n f v 0).tierCore = s.tierCore := put_tierCore_page _ _ _ _ _ (pg_slab_ne hb n) hf
@[simp] theorem bump_tierCore_slab (s : State) (b : Block) (n : Nat) (f : Fld) (k : Nat) (hb : b.perSlab = true) (hf : f.bitOff 0 < 32768) :
    (s.bump b n f k 0).tierCore = s.tierCore := put_tierCore_slab _ _ _ _ _ hb hf
@[simp] theorem putHdr_tierCore (s : State) (b : Block) (n : Nat) (f : Fld) (v i : Nat) (h : f.aside = true) :
    (s.putP (pg b n) f v i).tierCore = s.tierCore := putP_tierCore (fkey_aside h (pg_aligned b n) i) v
@[simp] theorem emit_tierCore (s : State) (m : Msg) : (s.emit m).tierCore = s.tierCore := (rfl)
@[simp] theorem setLink_tierCore (s : State) (a : Nat) (f : Fld) (v : Nat) (h : f.bitOff 1 < 32768) : (s.setLink a f v).tierCore = s.tierCore := by
  refine putP_tierCore (fkey_page (pg_aligned ..) (pg_slab_ne rfl _) ?_) v
  unfold halfOf Fld.bitOff at *
  have := Nat.mul_le_mul_left f.bst (show a % 2 ≤ 1 by omega)
  omega
@[simp] theorem intRise_tierCore (old new : State) (p : Nat) : (intRise old new p).tierCore = new.tierCore := by
  unfold intRise
  split <;> rfl

/-- Interrupts other than REBALANCE_DONE of the TIER page. -/
theorem setInts_tierCore_of {s : State} {p mask : Nat} (hp : p % 4096 = 0) (h : p ≠ pg .tier 0 ∨ mask.testBit 21 = false) :
    (s.setInts p mask).tierCore = s.tierCore := by
  have hput (c : Bool) (t : State) (f : Fld) (hf : f.aside = true) : (if c then t.putP p f 1 else t).tierCore = t.tierCore := by
    split
    · exact putP_tierCore (fkey_aside hf hp 0) 1
    · rfl
  unfold State.setInts
  extract_lets s1 s2 s3 s4 s5
  have h4 : s4.tierCore = s.tierCore :=
    (hput _ s3 F.HDR_INT_STATUS_INT_LOST_ARB (by decide)).trans <| (hput _ s2 F.HDR_INT_STATUS_INT_RESET_DONE (by decide)).trans <|
      (hput _ s1 F.HDR_INT_STATUS_INT_COMMIT_DONE (by decide)).trans <| hput _ s F.HDR_INT_STATUS_INT_ERROR (by decide)
  rw [intRise_tierCore, ← h4]
  clear_value s4
  simp only [s5]
  split
  · rfl
  · by_cases hpage : p = pg .tier 0
    · subst hpage
      have hbit : mask.testBit 21 = false := h.resolve_left (fun hne => hne rfl)
      have hdiv : (mask / 0x10000).testBit 5 = false := by
        rw [show 0x10000 = 2 ^ 16 from rfl, Nat.testBit_div_two_pow]
        exact hbit
      show ((planRegs (fwrite _ _ _ _ _), _), _) = _
      have hother (f : Fld) (hf : fkey (pg .tier 0) f 0 ≠ fkey (pg .tier 0) F.HDR_INT_STATUS_INT_BLOCK 0) (v : Nat) :
          fread (fwrite s4.regs (pg .tier 0) F.HDR_INT_STATUS_INT_BLOCK 0 v) (pg .tier 0) f 0 = fread s4.regs (pg .tier 0) f 0 :=
        fread_fwrite_other _ _ _ _ _ _ _ _ hf
      simp only [planRegs, State.tierCore, fread_fwrite_same]
      rw [hother _ (by decide), hother _ (by decide), hother _ (by decide), hother _ (by decide)]
      have hread : (((s4.getP (pg .tier 0) F.HDR_INT_STATUS_INT_BLOCK ||| mask / 0x10000) % 2 ^ F.HDR_INT_STATUS_INT_BLOCK.w).testBit 5) =
          (fread s4.regs (pg .tier 0) F.HDR_INT_STATUS_INT_BLOCK 0).testBit 5 := by
        rw [Nat.testBit_mod_two_pow, Nat.testBit_or, hdiv]
        simp [State.getP, F.HDR_INT_STATUS_INT_BLOCK]
      rw [hread]
      rfl
    · exact putP_tierCore (fkey_page hp hpage (by decide)) _
@[simp] theorem raise_tierCore (s : State) (b : Block) (n bit : Nat) (h : bit ≠ 21) : (s.raise b n bit).tierCore = s.tierCore :=
  setInts_tierCore_of (pg_aligned b n) (.inr (Nat.testBit_two_pow_of_ne h))
@[simp] theorem raise_tierCore_slab (s : State) (b : Block) (n bit : Nat) (h : b.perSlab = true) : (s.raise b n bit).tierCore = s.tierCore :=
  setInts_tierCore_of (pg_aligned b n) (.inl (pg_slab_ne h n))

/-! The same on the registers alone, for a state whose tier has been told apart. -/

@[simp] theorem planRegs_put (s : State) (b : Block) (n : Nat) (f : Fld) (v i : Nat) (h : f.aside = true) :
    planRegs (s.put b n f v i).regs = planRegs s.regs := congrArg (fun x => x.1.1) (put_tierCore s b n f v i h)
@[simp] theorem planRegs_bump_slab (s : State) (b : Block) (n : Nat) (f : Fld) (k : Nat) (hb : b.perSlab = true) (hf : f.bitOff 0 < 32768) :
    planRegs (s.bump b n f k 0).regs = planRegs s.regs := congrArg (fun x => x.1.1) (bump_tierCore_slab s b n f k hb hf)
@[simp] theorem planRegs_raise (s : State) (b : Block) (n bit : Nat) (h : bit ≠ 21) : planRegs (s.raise b n bit).regs = planRegs s.regs :=
  congrArg (fun x => x.1.1) (raise_tierCore s b n bit h)
@[simp] theorem setInts_tierCore (s : State) (b : Block) (n mask : Nat) (h : mask.testBit 21 = false) : (s.setInts (pg b n) mask).tierCore = s.tierCore :=
  setInts_tierCore_of (pg_aligned b n) (.inr h)
@[simp] theorem keyOfs_lt (key : Nat) : keyOfs key < 8 := Nat.mod_lt _ (by decide)

/-! ### Updates of one part of the state -/

@[simp] theorem modAtt_tierCore (s : State) (a : Nat) (f : Attach → Attach) : (s.modAtt a f).tierCore = s.tierCore := (rfl)
@[simp] theorem modSide_tierCore (s : State) (pair sd : Nat) (f : Side → Side) : (s.modSide pair sd f).tierCore = s.tierCore := (rfl)
@[simp] theorem ringDiscard_tierCore (s : State) (pair sd : Nat) : (s.ringDiscard pair sd).tierCore = s.tierCore :=
  bump_tierCore _ _ _ _ _ _ (by decide)
@[simp] theorem setMove_tierPlan (s : State) (m : Move) : (s.setMove m).tierPlan = s.tierPlan := (rfl)
@[simp] theorem dropMove_tierPlan (s : State) (p : Nat) : (s.dropMove p).tierPlan = s.tierPlan := (rfl)
@[simp] theorem modDipt_tierCore (s : State) (k : Nat) (f : Dipt → Dipt) : (s.modDipt k f).tierCore = s.tierCore := (rfl)
@[simp] theorem freeGranules_tierCore (s : State) (v page : Nat) : (s.freeGranules v page).tierCore = s.tierCore := (rfl)
@[simp] theorem metaSlot_tierCore (s : State) (v o : Nat) : (s.metaSlot v o).tierCore = s.tierCore := (rfl)
@[simp] theorem treeFetch_tierCore (s : State) (k level index : Nat) : (s.treeFetch k level index).tierCore = s.tierCore := by
  unfold State.treeFetch
  simp +decide
@[simp] theorem treeStore_tierCore (s : State) (k level index : Nat) : (s.treeStore k level index).tierCore = s.tierCore := (rfl)
@[simp] theorem treePut_tierCore (s : State) (k level index : Nat) (dirty : Bool) : (s.treePut k level index dirty).tierCore = s.tierCore := (rfl)
@[simp] theorem setDeliverable_tierCore (s : State) (v : Nat) : (s.setDeliverable v).tierCore = s.tierCore := by
  unfold State.setDeliverable
  simp +decide
@[simp] theorem startReloc_tierCore (s : State) (v o : Nat) : (s.startReloc v o).tierCore = s.tierCore := (rfl)
@[simp] theorem putResv_tierCore (s : State) (key : Nat) (e : Codeword) : (s.putResv key e).tierCore = s.tierCore := (rfl)
@[simp] theorem unlistPoison_tierCore (s : State) (page : Nat) (c : Nat → Bool) : (s.unlistPoison page c).tierCore = s.tierCore := (rfl)
@[simp] theorem hcPut_tierCore (s : State) (slab set way : Nat) (e : Option HcEnt) : (s.hcPut slab set way e).tierCore = s.tierCore := (rfl)
@[simp] theorem hcTouch_tierCore (s : State) (slab set way : Nat) : (s.hcTouch slab set way).tierCore = s.tierCore := (rfl)
@[simp] theorem dropSlot_tierCore (s : State) (page : Nat) (runahead : Bool) : (s.dropSlot page runahead).tierCore = s.tierCore := (rfl)
@[simp] theorem putSlot_tierCore (s : State) (x : HlbSlot) : (s.putSlot x).tierCore = s.tierCore := (rfl)
@[simp] theorem holdLine_tierCore (s : State) (page line ctx : Nat) (data : Line) (mask : BitVec 64) (poison : Nat) :
    (s.holdLine page line ctx data mask poison).tierCore = s.tierCore := (rfl)
@[simp] theorem vlbData_tierCore (s : State) (k f i : Nat) : (s.vlbData k f i).tierCore = s.tierCore := (rfl)
@[simp] theorem modLeft_tierCore (s : State) (c : Nat) (f : ClassLeft → ClassLeft) : (s.modLeft c f).tierCore = s.tierCore := (rfl)
@[simp] theorem dirTouch_tierCore (s : State) (slab set way : Nat) : (s.dirTouch slab set way).tierCore = s.tierCore := (rfl)
@[simp] theorem setWay_tierCore (s : State) (slab set way : Nat) (e : DirEnt) : (s.setWay slab set way e).tierCore = s.tierCore := (rfl)
@[simp] theorem icDrop_tierCore (s : State) (o page line : Nat) : (s.icDrop o page line).tierCore = s.tierCore := (rfl)
@[simp] theorem icPut_tierCore (s : State) (c : ICLine) : (s.icPut c).tierCore = s.tierCore := (rfl)
@[simp] theorem predAdd_tierCore (s : State) (slab page line up down : Nat) : (s.predAdd slab page line up down).tierCore = s.tierCore := (rfl)
@[simp] theorem setRow_tierCore (s : State) (v r : Nat) (u : RowUse) : (s.setRow v r u).tierCore = s.tierCore := (rfl)
@[simp] theorem dropRd_tierCore (s : State) (id : Nat) : (s.dropRd id).tierCore = s.tierCore := (rfl)
@[simp] theorem newId_tierCore (s : State) : s.newId.2.tierCore = s.tierCore := (rfl)
@[simp] theorem askMarker_tierCore (s : State) (r : HReq) (code : Nat) : (s.askMarker r code).tierCore = s.tierCore := (rfl)

/-! ### Operations of Ops.lean -/

@[simp] theorem lostArb_tierCore (s : State) (b : Block) (n : Nat) : (s.lostArb b n).tierCore = s.tierCore := by unfold State.lostArb; simp +decide

/-! ### Operations of Energy.lean -/

@[simp] theorem spend_tierCore (s : State) (a : Account) (xs : List (Nat × Nat)) :
    (s.spend a xs).tierCore = s.tierCore := by unfold State.spend; simp +decide

/-! ### Operations of Addr.lean -/

@[simp] theorem msix_tierCore (s : State) (a v : Nat) : (s.msix a v).tierCore = s.tierCore := by unfold State.msix; simp +decide
@[simp] theorem logEvent_tierCore (s : State) (a : Nat) (e : EvRec) : (s.logEvent a e).tierCore = s.tierCore := by unfold State.logEvent; simp +decide
@[simp] theorem logWhere_tierCore (s : State) (e : EvRec) (c : Nat → Bool) :
    (s.logWhere e c).tierCore = s.tierCore := by unfold State.logWhere; simp +decide
@[simp] theorem enterViral_tierCore (s : State) (a cause seq : Nat) :
    (s.enterViral a cause seq).tierCore = s.tierCore := by
  unfold State.enterViral
  rw [logEvent_tierCore, tierCore_home]
  simp +decide

/-! ### Operations of Fault.lean -/

@[simp] theorem reportHosts_tierCore (s : State) (r : FRec) : (s.reportHosts r).tierCore = s.tierCore := by unfold State.reportHosts; simp +decide
@[simp] theorem fatal_tierCore (s : State) (r : FRec) : (s.fatal r).tierCore = s.tierCore := by unfold State.fatal; simp +decide
@[simp] theorem record_tierCore (s : State) (r : Rep) (dropped : Nat) : (s.record r dropped).tierCore = s.tierCore := by
  have hmask (a b c : Prop) [Decidable a] [Decidable b] [Decidable c] :
      (65536 + (if a then 131072 else 0) + (if b then 262144 else 0) + (if c then 524288 else 0)).testBit 21 = false := by
    refine Nat.testBit_lt_two_pow ?_
    repeat' split
    all_goals decide
  unfold State.record
  split <;> split <;> simp +decide [hmask]
@[simp] theorem fault_tierCore (s : State) (b : Block) (n cls : Nat) (r : Rep) :
    (s.fault b n cls r).tierCore = s.tierCore := by unfold State.fault; simp +decide
@[simp] theorem alarmSwap_tierCore (s : State) (slab seq : Nat) : (s.alarmSwap slab seq).tierCore = s.tierCore := by
  unfold State.alarmSwap
  dsimp only
  repeat' split
  all_goals simp +decide
@[simp] theorem alarmWrite_tierCore (s1 : State) (slab cls : Nat) (a : Alarm) (hq lvl : Nat) :
    (s1.alarmWrite slab cls a hq lvl).tierCore = s1.tierCore := by unfold State.alarmWrite; simp +decide
@[simp] theorem alarm_tierCore (s : State) (slab cls : Nat) (a : Alarm) (unit : Nat) :
    (s.alarm slab cls a unit).tierCore = s.tierCore := by unfold State.alarm; simp +decide

/-! ### Operations of RingSend.lean -/

theorem trySend_tierCore {s t : State} {x : Nat × Nat × Frame} (h : s.trySend x = some t) : t.tierCore = s.tierCore := by
  unfold State.trySend at h
  dsimp only at h
  split at h
  · obtain rfl := Option.some.inj h
    simp +decide
  · cases h
@[simp] theorem drainEgress_tierCore (s : State) : s.drainEgress.tierCore = s.tierCore := by
  refine (tierCore_ring _ _).trans ((foldl_fst_tierCore _ (fun acc x => ?_) _ _).trans rfl)
  dsimp only
  split
  · rfl
  · split
    next h => exact trySend_tierCore h
    · rfl
@[simp] theorem bulkTake_tierCore (s : State) (slab level : Nat) : (s.bulkTake slab level).tierCore = s.tierCore := by unfold State.bulkTake; simp +decide
@[simp] theorem bulkLost_tierCore (s : State) (sd : Nat) (f : Frame) : (s.bulkLost sd f).tierCore = s.tierCore := by unfold State.bulkLost; simp +decide
@[simp] theorem sendOn_tierCore (s0 : State) (pair sd : Nat) (f : Frame) :
    (s0.sendOn pair sd f).tierCore = s0.tierCore := by unfold State.sendOn; simp +decide
@[simp] theorem sendFrame_tierCore (s : State) (f : Frame) : (s.sendFrame f).tierCore = s.tierCore := by unfold State.sendFrame; simp +decide
@[simp] theorem sendReq_tierCore (s : State) (ty dst arg : Nat) (payload : (List Byte)) :
    (s.sendReq ty dst arg payload).2.tierCore = s.tierCore := by unfold State.sendReq; simp +decide
@[simp] theorem sendPlain_tierCore (s : State) (ty vc dst tag arg : Nat) (payload : (List Byte)) :
    (s.sendPlain ty vc dst tag arg payload).tierCore = s.tierCore := by unfold State.sendPlain; simp +decide

/-! ### Operations of Tier.lean -/

@[simp] theorem setEntry_tierPlan (s : State) (p : Nat) (e : PEntry) : (s.setEntry p e).tierPlan = s.tierPlan := tierPlan_tier _ _ rfl
@[simp] theorem warm_tierPlan (s : State) (p : Nat) : (s.warm p).tierPlan = s.tierPlan := by unfold State.warm; simp +decide
@[simp] theorem raiseCounter_tierCore (s : State) (k level index : Nat) :
    (s.raiseCounter k level index).tierCore = s.tierCore := by unfold State.raiseCounter; simp +decide
@[simp] theorem treeTrim_tierCore (s : State) (owner : Nat) : (s.treeTrim owner).tierCore = s.tierCore := by
  unfold State.treeTrim
  dsimp only
  repeat' split
  all_goals simp +decide
@[simp] theorem treeUse_tierCore (s : State) (k level index : Nat) (dirty : Bool) : (s.treeUse k level index dirty).tierCore = s.tierCore := by
  unfold State.treeUse
  split
  · simp +decide
  · refine (forN_tierCore _ _ (fun t _ => ?_) _).trans <| (treePut_tierCore ..).trans <| foldl_tierCore _ (fun t j => ?_) _ _
    · simp +decide
    · simp +decide
@[simp] theorem dirtyTree_tierCore (s : State) (k level index : Nat) :
    (s.dirtyTree k level index).tierCore = s.tierCore := by unfold State.dirtyTree; simp +decide
@[simp] theorem setLeaf_tierCore (s : State) (k p : Nat) (l : Leaf) : (s.setLeaf k p l).tierCore = s.tierCore := by unfold State.setLeaf; simp +decide
@[simp] theorem bumpRow_tierCore (s : State) (v r : Nat) : (s.bumpRow v r).tierCore = s.tierCore := by unfold State.bumpRow; simp +decide

/-! ### Operations of Store.lean -/

@[simp] theorem enqueue_tierCore (s : State) (a : VAcc) : (s.enqueue a).tierCore = s.tierCore := by unfold State.enqueue; simp +decide
@[simp] theorem offer_tierCore (s : State) (v o who n : Nat) (write : Bool) :
    (s.offer v o who n write).tierCore = s.tierCore := by unfold State.offer; simp +decide
@[simp] theorem setDState_tierCore (s : State) (k : Nat) (d : DState) (hk : k < 9) : (s.setDState k d).tierCore = s.tierCore := by
  unfold State.setDState
  extract_lets code
  clear_value code
  have hp : pg .dipt k ≠ pg .tier 0 := by
    interval_cases k <;> decide
  split
  · rfl
  · simp +decide [hp]
@[simp] theorem retireChannel_tierCore (s : State) (v o : Nat) : (s.retireChannel v o).tierCore = s.tierCore := by
  have hk : v % 8 < 9 := (Nat.mod_lt v (by decide)).trans (by decide)
  have hp : pg .dipt (v % 8) ≠ pg .tier 0 := by
    have := Nat.mod_lt v (show 8 > 0 by decide)
    interval_cases v % 8 <;> decide
  unfold State.retireChannel
  dsimp only
  split
  · rw [setDeliverable_tierCore]
    repeat' split
    all_goals simp +decide [hk]
  · repeat' split
    all_goals simp +decide [hk]
@[simp] theorem bucketAdd_tierCore (s : State) (v o w page line : Nat) (checker : Bool) (ho : o < 8) :
    (s.bucketAdd v o w page line checker).tierCore = s.tierCore := by
  have hj (f : Fld) (hf : f.off = 0x200) (hlo : f.lo ≤ 16) (hb : f.bst = 32) : f.bitOff (8 * (v % 8) + o) < 32768 := by
    simp only [Fld.bitOff, hf, hb]
    omega
  have hput (t : State) (n x : Nat) (f : Fld) (hf : f.off = 0x200) (hlo : f.lo ≤ 16) (hb : f.bst = 32) :
      (t.put .dprt n f x (8 * (v % 8) + o)).tierCore = t.tierCore := putP_tierCore (fkey_page (pg_aligned ..) (pg_slab_ne rfl _) (hj f hf hlo hb)) x
  unfold State.bucketAdd
  dsimp only
  split
  · simp only [retireChannel_tierCore, fault_tierCore, raise_tierCore_slab _ .dprt _ _ rfl]
    exact (hput _ _ _ _ rfl (by decide) rfl).trans (hput _ _ _ _ rfl (by decide) rfl)
  · exact hput _ _ _ _ rfl (by decide) rfl
@[simp] theorem corrected_tierCore (s : State) (v o n page line : Nat) (ho : o < 8) :
    (s.corrected v o n page line).tierCore = s.tierCore := by unfold State.corrected; simp +decide [ho]
@[simp] theorem uncorrectable_tierCore (s : State) (v o page line : Nat) (transient : Bool) (ho : o < 8) :
    (s.uncorrectable v o page line transient).tierCore = s.tierCore := by unfold State.uncorrectable; simp +decide [ho]
@[simp] theorem holdCheck_tierCore (s : State) (v ofs chunk : Nat) (mac : Bool) (word : Nat) (write : Bool) :
    (s.holdCheck v ofs chunk mac word write).tierCore = s.tierCore := by
  unfold State.holdCheck
  extract_lets same old c c1 s1 rest put
  have h1 : s1.tierCore = s.tierCore := by
    simp only [s1]
    split <;> simp +decide
  have hput (t : State) (l : List CheckLine) : (put t l).tierCore = t.tierCore := (rfl)
  clear_value put s1
  split
  · rw [hput, h1]
  · split
    · rw [hput]
      split <;> simp +decide [h1]
    · rw [hput, h1]
@[simp] theorem putStored_tierCore (s : State) (key : Nat) (x : Stored) : (s.putStored key x).tierCore = s.tierCore := by
  unfold State.putStored
  dsimp only
  repeat' split
  all_goals simp +decide
@[simp] theorem rewrite_tierCore (s : State) (key : Nat) (w x : Stored) :
    (s.rewrite key w x).tierCore = s.tierCore := by unfold State.rewrite; simp +decide
@[simp] theorem rebuildLine_tierCore (s : State) (v r l skip page line : Nat) (e : LineErr) :
    (s.rebuildLine v r l skip page line e).2.tierCore = s.tierCore := by
  refine foldl_snd_tierCore _ (fun acc p => ?_) _ _
  dsimp only
  repeat' split
  all_goals simp +decide
@[simp] theorem readSecond_tierCore (s : State) (src : Second) (page line : Nat) (e : LineErr) :
    (s.readSecond src page line e).2.tierCore = s.tierCore := by
  unfold State.readSecond
  dsimp only
  repeat' split
  all_goals simp +decide
@[simp] theorem fromSecond_tierCore (s : State) (key : Nat) (w x : Stored) (left : Nat) :
    (s.fromSecond key w x left).2.tierCore = s.tierCore := by unfold State.fromSecond; simp +decide
@[simp] theorem fetch_tierCore (s0 : State) (key page line : Nat) (w : Stored) (e : LineErr) (src : Second) :
    (s0.fetch key page line w e src).2.tierCore = s0.tierCore := by
  unfold State.fetch
  extract_lets v o s first data fixed
  have ho : o < 8 := keyOfs_lt key
  have hfixed (u : State) (y : Stored) (n : Nat) : (fixed u y n).tierCore = u.tierCore := rewrite_tierCore ..
  have hf : first.2.tierCore = s0.tierCore := by
    simp only [first]
    split <;> simp +decide [s]
  clear_value first fixed
  rcases first with ⟨_ | ⟨x, left⟩, t⟩
  · have hx := readSecond_tierCore (t.uncorrectable v o page line false) src page line e
    dsimp only at hx ⊢
    generalize State.readSecond _ _ _ _ _ = y at hx ⊢
    rw [uncorrectable_tierCore _ _ _ _ _ _ (keyOfs_lt key)] at hx
    rcases y with ⟨_ | ⟨y, left⟩, u⟩
    · dsimp only at hf hx ⊢
      repeat' split
      all_goals simp +decide [hfixed, hf, hx, ho]
    · dsimp only at hf hx ⊢
      repeat' split
      all_goals simp +decide [hfixed, hf, hx, ho]
  · exact hf
@[simp] theorem readResv_tierCore (s : State) (key v o : Nat) (e0 e1 : Codeword) (second : State → Option Nat × State)
    (h : ∀ t, (second t).2.tierCore = t.tierCore) (ho : o < 8) : (s.readResv key v o e0 e1 second).2.tierCore = s.tierCore := by
  have hx : (second (s.uncorrectable v o noPage 0 false)).2.tierCore = s.tierCore := by simp [h, ho]
  unfold State.readResv
  generalize second _ = x at hx ⊢
  obtain ⟨y, t⟩ := x
  dsimp only
  repeat' split
  all_goals simp_all +decide
@[simp] theorem readResvOnce_tierCore (s : State) (key v o : Nat) (e : Codeword) (ho : o < 8) :
    (s.readResvOnce key v o e).2.tierCore = s.tierCore := by
  unfold State.readResvOnce
  split <;> simp +decide [ho]
@[simp] theorem macSecond_tierCore (s : State) (src : Second) (e : Codeword) : (s.macSecond src e).2.tierCore = s.tierCore := by
  unfold State.macSecond
  split
  · simp +decide
  · refine foldl_snd_tierCore _ (fun acc p => ?_) _ _
    dsimp only
    repeat' split
    all_goals simp +decide
  · rfl
@[simp] theorem readMac_tierCore (s : State) (key : Nat) (e : LineErr) (src : Second) :
    (s.readMac key e src).2.tierCore = s.tierCore := by unfold State.readMac; simp +decide [apply_ite Prod.snd]
@[simp] theorem fetchMac_tierCore (s : State) (key page line : Nat) (w : Stored) (e : LineErr) (src : Second) :
    (s.fetchMac key page line w e src).2.tierCore = s.tierCore := by
  unfold State.fetchMac
  extract_lets g
  have hg : g.2.tierCore = s.tierCore := by simp +decide [g]
  have hm := readMac_tierCore g.2 key e src
  clear_value g
  generalize g.2.readMac key e src = x at hm ⊢
  rcases x with ⟨_ | _, t⟩ <;> dsimp only at hm ⊢ <;> split <;> simp_all
@[simp] theorem listPoison_tierCore (s : State) (page line code : Nat) (injected : Bool) :
    (s.listPoison page line code injected).tierCore = s.tierCore := by unfold State.listPoison; simp +decide
@[simp] theorem flipFire_tierCore (s : State) (n : Nat) : (s.flipFire n).tierCore = s.tierCore := by unfold State.flipFire; simp +decide
@[simp] theorem storeHot_tierCore (s : State) (k f i page ctx : Nat) (plain : Line) (marker : Bool) :
    (s.storeHot k f i page ctx plain marker).tierCore = s.tierCore := by
  unfold State.storeHot
  dsimp only
  repeat' split
  all_goals simp +decide
@[simp] theorem noteMarker_tierCore (s : State) (k page line code : Nat) (injected : Bool) :
    (s.noteMarker k page line code injected).tierCore = s.tierCore := by unfold State.noteMarker; simp +decide
@[simp] theorem writeFrame_tierCore (s0 : State) (k f page ctx : Nat) (fill : Nat → Fill) :
    (s0.writeFrame k f page ctx fill).tierCore = s0.tierCore := by
  refine (forN_tierCore _ _ (fun t i => ?_) _).trans (by simp +decide)
  split <;> simp +decide

/-! ### Operations of HubCache.lean -/

@[simp] theorem hcLookup_tierCore (s : State) (slab name : Nat) : (s.hcLookup slab name).2.tierCore = s.tierCore := by
  unfold State.hcLookup
  dsimp only
  repeat' split
  all_goals simp +decide
@[simp] theorem hcInval_tierCore (s : State) (slab name : Nat) : (s.hcInval slab name).tierCore = s.tierCore := by
  unfold State.hcInval
  split <;> simp +decide
@[simp] theorem hcInvalPage_tierCore (s : State) (page : Nat) (e : PEntry) (src : PState) :
    (s.hcInvalPage page e src).tierCore = s.tierCore := by unfold State.hcInvalPage; simp +decide
@[simp] theorem vlbFrame_tierCore (s : State) (k f page : Nat) (zero : Nat → Bool) :
    (s.vlbFrame k f page zero).tierCore = s.tierCore := by unfold State.vlbFrame; simp +decide
@[simp] theorem noticeVein_tierCore (s : State) (page : Nat) : (s.noticeVein page).tierCore = s.tierCore := by unfold State.noticeVein; simp +decide
@[simp] theorem orderedWrite_tierCore (s : State) (page line : Nat) :
    (s.orderedWrite page line).tierCore = s.tierCore := by unfold State.orderedWrite; simp +decide
@[simp] theorem hcUpdate_tierCore (s : State) (page k f i : Nat) (err : Codeword) : (s.hcUpdate page k f i err).tierCore = s.tierCore := by
  unfold State.hcUpdate
  dsimp only
  repeat' split
  all_goals simp +decide
@[simp] theorem overflow_tierCore (s : State) (k f i page ctx : Nat) : (s.overflow k f i page ctx).tierCore = s.tierCore := by
  refine (forN_tierCore _ _ (fun t i => ?_) _).trans (by simp +decide)
  split
  · rfl
  · refine foldl_tierCore _ (fun u v => ?_) _ _
    dsimp only
    split <;> simp +decide
@[simp] theorem writeLine_tierCore (s : State) (k f i page ctx : Nat) (plain : Line) (poison : Nat) (injected : Bool) :
    (s.writeLine k f i page ctx plain poison injected).2.tierCore = s.tierCore := by
  unfold State.writeLine
  dsimp only
  repeat' split
  all_goals simp +decide

/-! ### Operations of Regulate.lean -/

@[simp] theorem charge_tierCore (s0 : State) (cls : Option Nat) (stamp : Stroke) (n : Nat) : (s0.charge cls stamp n).tierCore = s0.tierCore := by
  unfold State.charge
  split <;> simp +decide

/-! ### Operations of Dir.lean -/

@[simp] theorem dirHit_tierCore (s : State) (page line : Nat) : (s.dirHit page line).tierCore = s.tierCore := by
  unfold State.dirHit
  split <;> simp +decide
@[simp] theorem nearLeaves_tierCore (s : State) (c : ICLine) (recalled : Bool) :
    (s.nearLeaves c recalled).tierCore = s.tierCore := by unfold State.nearLeaves; simp +decide
@[simp] theorem snoopHost_tierCore (s : State) (w : Waiting) (a : Nat) : (s.snoopHost w a).2.tierCore = s.tierCore := by
  unfold State.snoopHost
  split <;> simp +decide
@[simp] theorem startRecall_tierCore (s : State) (w : Waiting) : (s.startRecall w).tierCore = s.tierCore := by
  refine (tierCore_home _ _).trans (foldl_snd_tierCore _ (fun acc h => ?_) _ _)
  split <;> simp +decide
@[simp] theorem sendUnsent_tierCore (s : State) : s.sendUnsent.tierCore = s.tierCore := by
  refine (tierCore_home _ _).trans (foldl_snd_tierCore _ (fun acc w => ?_) _ _)
  refine foldl_snd_tierCore _ (fun b a => ?_) _ _
  split <;> simp +decide
@[simp] theorem evict_tierCore (s : State) (slab set way : Nat) : (s.evict slab set way).tierCore = s.tierCore := by
  unfold State.evict
  dsimp only
  repeat' split
  all_goals simp +decide
@[simp] theorem dirPut_tierCore (s : State) (page line : Nat) (e : DirEnt) : (s.dirPut page line e).tierCore = s.tierCore := by
  unfold State.dirPut
  dsimp only
  repeat' split
  all_goals simp +decide

/-! ### Operations of Lanes.lean -/

@[simp] theorem grantLane_tierPlan (s : State) (slab n : Nat) : (s.grantLane slab n).tierPlan = s.tierPlan := by
  unfold State.grantLane
  dsimp only
  repeat' split
  all_goals simp +decide [tierPlan_eta]
@[simp] theorem grantLanes_tierPlan (s : State) (slab : Nat) : (s.grantLanes slab).tierPlan = s.tierPlan := by unfold State.grantLanes; simp +decide
@[simp] theorem askLane_tierPlan (s : State) (slab : Nat) (w : LaneWork) :
    (s.askLane slab w).tierPlan = s.tierPlan := by unfold State.askLane; simp +decide [tierPlan_eta]

/-! ### Operations of Place.lean -/

@[simp] theorem lineAlarm_tierCore (s : State) (cls : Nat) (r : HReq) (line media : Nat) :
    (s.lineAlarm cls r line media).tierCore = s.tierCore := by unfold State.lineAlarm; simp +decide
@[simp] theorem memFault_tierCore (s : State) (page line poison : Nat) :
    (s.memFault page line poison).tierCore = s.tierCore := by unfold State.memFault; simp +decide
@[simp] theorem fetchAcc_tierCore (s : State) (r : HReq) (v o n : Nat) :
    (s.fetchAcc r v o n).tierCore = s.tierCore := by unfold State.fetchAcc; simp +decide
@[simp] theorem doneTo_tierCore (s : State) (r : HReq) (result : Nat) (vs : (List Nat)) :
    (s.doneTo r result vs).tierCore = s.tierCore := by unfold State.doneTo; simp +decide
@[simp] theorem tellOwed_tierCore (s : State) (page : Nat) : (s.tellOwed page).tierCore = s.tierCore := by unfold State.tellOwed; simp +decide
@[simp] theorem queueWrite_tierCore (s : State) (r : HReq) (k f : Nat) (tell : Bool) :
    (s.queueWrite r k f tell).tierCore = s.tierCore := by unfold State.queueWrite; simp +decide
@[simp] theorem oldHot_tierCore (s : State) (r : HReq) (k f : Nat) : (s.oldHot r k f).2.tierCore = s.tierCore := by
  unfold State.oldHot
  dsimp only
  repeat' split
  all_goals simp +decide
@[simp] theorem clearBehind_tierCore (s : State) (k f page ctx : Nat) : (s.clearBehind k f page ctx).tierCore = s.tierCore := by
  unfold State.clearBehind
  split <;> simp +decide
@[simp] theorem writeHot_tierCore (s : State) (r : HReq) (k f : Nat) (tell : Bool) : (s.writeHot r k f tell).tierCore = s.tierCore := by
  unfold State.writeHot
  extract_lets s0 put
  have h0 : s0.tierCore = s.tierCore := by simp +decide [s0]
  have hput (t : State) (plain : Line) (poison : Nat) : (put t plain poison).tierCore = t.tierCore := by
    simp only [put]
    split <;> simp +decide
  clear_value put s0
  repeat' split
  all_goals simp +decide +zetaDelta [h0, hput]
@[simp] theorem admitMove_tierCore (s : State) (m : Move) : (s.admitMove m).2.tierCore = s.tierCore := by
  unfold State.admitMove
  repeat' split
  all_goals simp +decide
@[simp] theorem dropBuffered_tierCore (s : State) (page : Nat) : (s.dropBuffered page).tierCore = s.tierCore := by
  unfold State.dropBuffered
  extract_lets _ t
  have ht : t.tierCore = s.tierCore := (rfl)
  clear_value t
  split
  · split
    · simp +decide [ht]
    · exact ht
  · exact ht
@[simp] theorem dropRow_tierPlan (s : State) (b : RowBuf) : (s.dropRow b).tierPlan = s.tierPlan := by
  refine foldl_tierPlan _ (fun t x => ?_) _ _
  dsimp only
  repeat' split
  all_goals simp +decide
@[simp] theorem dropStaleRows_tierPlan (s : State) : s.dropStaleRows.tierPlan = s.tierPlan := by unfold State.dropStaleRows; simp +decide

/-- What the writing of a row makes of a move: its rows are written once its last granule is. -/
def RowBuf.written (b : RowBuf) (m : Move) : Move :=
  if m.encoded && b.slots.any (fun x => x.1 = m.page) && b.slots.any (fun x => x.1 = m.page && x.2 + 1 = (m.image.length + 511) / 512)
  then { m with rowsWritten := true } else m

/-- A row's parity granule is written last (R102); then the buffer is closed and the moves are told. -/
theorem writeRow_parts (s0 : State) (b : RowBuf) : ∃ d u : State, d.tierCore = s0.tierCore ∧ u.tierCore = s0.tierCore ∧
    u.media = (d.forN 8 (fun t l => t.putStored (t.parityKey b.vein b.row l) { parity := true })).media ∧
    s0.writeRow b = { u with tier := { u.tier with
      rowBufs := u.tier.rowBufs.filter (fun x => x.vein ≠ b.vein), moves := u.tier.moves.map b.written } } := by
  unfold State.writeRow
  extract_lets v r _ s s1 at_ s2 s3 owned s4 ends pad s44 s45 _ s5
  have h2 : s2.tierCore = s0.tierCore := by
    refine (foldl_tierCore _ (fun t q => ?_) _ _).trans (bumpRow_tierCore s v r)
    dsimp only
    repeat' split
    all_goals simp +decide
  have h45 : s45.tierCore = s0.tierCore := by
    refine (spend_tierCore _ _ _).trans <| (forN_tierCore _ _ (fun t o => ?_) _).trans <| (setRow_tierCore _ _ _ _).trans <|
      (forN_tierCore _ _ (fun t l => ?_) _).trans h2
    · split <;> simp +decide
    · simp +decide
  have hmedia : s45.media = s3.media := by
    have hspend (t : State) (a : Account) (xs : List (Nat × Nat)) : (t.spend a xs).media = t.media := by
      unfold State.spend
      split <;> rfl
    have hoffer (t : State) (o : Nat) : (t.offer v o 35 8 true).media = t.media := by
      unfold State.offer State.enqueue
      repeat' split
      all_goals rfl
    refine (hspend _ _ _).trans <| (foldl_keeps State.media _ _ s4 (fun t o _ => ?_)).trans rfl
    split
    · rfl
    · exact hoffer t o
  refine ⟨s2, s45, h2, h45, hmedia, ?_⟩
  clear_value s45
  rfl
@[simp] theorem writeRow_tierPlan (s0 : State) (b : RowBuf) : (s0.writeRow b).tierPlan = s0.tierPlan := by
  obtain ⟨d, u, -, hu, -, h⟩ := writeRow_parts s0 b
  rw [h]
  exact (tierPlan_tier u _ rfl).trans (congrArg Prod.fst hu)
@[simp] theorem pushGranule_tierPlan (s : State) (v row page g : Nat) :
    (s.pushGranule v row page g).tierPlan = s.tierPlan := by unfold State.pushGranule; simp +decide [tierPlan_eta]
theorem placeIn_tierPlan {s t : State} {m : Move} {v : Nat} (h : s.placeIn m v = some t) : t.tierPlan = s.tierPlan := by
  unfold State.placeIn at h
  extract_lets s0 n rr push place fresh at h
  have hplace (t : State) (row q : Nat) : (place t row q).tierPlan = t.tierPlan := by simp +decide [tierPlan_eta, place, push, rr]
  have hfresh (t u : State) (hu : fresh t = some u) : u.tierPlan = t.tierPlan := by
    simp only [fresh] at hu
    obtain ⟨r0, -, hu⟩ := Option.bind_eq_some_iff.mp hu
    split at hu
    · obtain rfl := Option.some.inj hu
      exact hplace ..
    · obtain ⟨r1, -, rfl⟩ := Option.map_eq_some_iff.mp hu
      exact hplace ..
  have h0 : s0.tierPlan = s.tierPlan := dropStaleRows_tierPlan s
  clear_value s0 place fresh
  rw [← h0]
  split at h
  · exact hfresh _ _ h
  · dsimp only at h
    split at h
    · obtain rfl := Option.some.inj h
      exact hplace ..
    · split at h
      · obtain rfl := Option.some.inj h
        exact hplace ..
      · exact (hfresh _ _ h).trans (writeRow_tierPlan ..)
@[simp] theorem placeImage_tierPlan (s : State) (m : Move) : (s.placeImage m).tierPlan = s.tierPlan := by
  unfold State.placeImage
  cases h : s.outVeins.findSome? (s.placeIn m) with
  | none => rfl
  | some t =>
    obtain ⟨v, -, hv⟩ := List.exists_of_findSome?_eq_some h
    exact placeIn_tierPlan hv
@[simp] theorem startDemote_tierPlan (s0 : State) (page : Nat) (fg : Bool) : (s0.startDemote page fg).tierPlan = s0.tierPlan := by
  unfold State.startDemote
  dsimp only
  repeat' split
  all_goals simp_all
@[simp] theorem sweep_tierPlan (s : State) (k : Nat) : (s.sweep k).tierPlan = s.tierPlan := by
  unfold State.sweep
  extract_lets hi th frames cur order r t
  have ht : t.tierPlan = s.tierPlan := by
    refine (tierPlan_tier _ _ rfl).trans (foldl_fst_tierPlan _ (fun acc x => ?_) _ _)
    dsimp only
    repeat' split
    all_goals simp +decide
  split
  · exact (tierPlan_tier t _ rfl).trans ht
  · exact ht
@[simp] theorem sweepOn_tierPlan (s : State) (k : Nat) : (s.sweepOn k).tierPlan = s.tierPlan := by unfold State.sweepOn; simp +decide [tierPlan_eta]
@[simp] theorem afterAlloc_tierPlan (s : State) (k : Nat) : (s.afterAlloc k).tierPlan = s.tierPlan := by unfold State.afterAlloc; simp +decide [tierPlan_eta]
@[simp] theorem declareFull_tierCore (s : State) (page line : Nat) (stamp : Stroke) :
    (s.declareFull page line stamp).tierCore = s.tierCore := by unfold State.declareFull; simp +decide
@[simp] theorem holdForRoom_tierCore (s : State) (r : HReq) (tell : Bool) :
    (s.holdForRoom r tell).tierCore = s.tierCore := by unfold State.holdForRoom; simp +decide
@[simp] theorem askDecode_tierPlan (s : State) (page : Nat) : (s.askDecode page).tierPlan = s.tierPlan := by
  unfold State.askDecode
  split <;> simp +decide
@[simp] theorem takeFrame_tierPlan (s0 : State) (m0 : Move) : (s0.takeFrame m0).tierPlan = s0.tierPlan := by
  unfold State.takeFrame
  dsimp only
  repeat' split
  all_goals simp +decide
@[simp] theorem askRecall_tierCore (s : State) (page : Nat) (e : PEntry) :
    (s.askRecall page e).tierCore = s.tierCore := by unfold State.askRecall; simp +decide
@[simp] theorem startPromote_tierPlan (s : State) (page : Nat) (since : (Option Stroke)) :
    (s.startPromote page since).tierPlan = s.tierPlan := by unfold State.startPromote; simp +decide
@[simp] theorem fillZero_tierPlan (s : State) (r : HReq) (k f : Nat) (lines : List HeldLine) : (s.fillZero r k f lines).tierPlan = s.tierPlan := by
  unfold State.fillZero
  rw [afterAlloc_tierPlan, State.tierPlan, vlbFrame_tierCore, writeFrame_tierCore]
  exact setEntry_tierPlan ..
@[simp] theorem holdWrite_tierCore (s : State) (r : HReq) (tell : Bool) :
    (s.holdWrite r tell).tierCore = s.tierCore := by unfold State.holdWrite; simp +decide
@[simp] theorem holdMoving_tierCore (s : State) (r : HReq) (tell : Bool) : (s.holdMoving r tell).tierCore = s.tierCore := by
  unfold State.holdMoving
  split <;> simp +decide
@[simp] theorem abandon_tierPlan (s : State) (page : Nat) : (s.abandon page).tierPlan = s.tierPlan := by
  unfold State.abandon
  repeat' split
  all_goals simp +decide [tierPlan_eta]
@[simp] theorem putWrite_tierPlan (s : State) (r : HReq) (tell : Bool) : (s.putWrite r tell).tierPlan = s.tierPlan := by
  unfold State.putWrite
  dsimp only
  repeat' split
  all_goals simp +decide
@[simp] theorem useRoom_tierPlan (s : State) : s.useRoom.tierPlan = s.tierPlan := by
  refine (congrArg Prod.fst (put_tierCore _ .tier 0 F.TIER_STATUS_EXHAUSTED _ _ rfl)).trans <| (tierPlan_tier _ _ rfl).trans <|
    (foldl_tierPlan _ (fun t x => ?_) _ _).trans <| foldl_tierPlan _ (fun t m => ?_) _ _
  · split <;> simp +decide
  · dsimp only
    split
    · split <;> simp +decide
    · rfl
@[simp] theorem flip_tierPlan (s : State) (page : Nat) (e : PEntry) : (s.flip page e).tierPlan = s.tierPlan := by
  unfold State.flip
  dsimp only
  repeat' split
  all_goals simp +decide
@[simp] theorem sendFree_tierCore (s : State) (donor handle : Nat) :
    (s.sendFree donor handle).tierCore = s.tierCore := by unfold State.sendFree; simp +decide
@[simp] theorem freeHandle_tierCore (s : State) (donor handle : Nat) :
    (s.freeHandle donor handle).tierCore = s.tierCore := by unfold State.freeHandle; simp +decide
@[simp] theorem sendFrees_tierCore (s : State) : s.sendFrees.tierCore = s.tierCore := by unfold State.sendFrees; simp +decide
@[simp] theorem erasePage_tierPlan (s : State) (page : Nat) (st : PState) : (s.erasePage page st).tierPlan = s.tierPlan := by
  unfold State.erasePage
  split <;> simp +decide [tierPlan_eta]

/-! ### Operations of ReadPath.lean -/

@[simp] theorem putRd_tierCore (s : State) (rd : Rd) : (s.putRd rd).tierCore = s.tierCore := by unfold State.putRd; simp +decide
@[simp] theorem ready_tierCore (s : State) (rd0 : Rd) : (s.ready rd0).tierCore = s.tierCore := by
  unfold State.ready
  dsimp only
  repeat' split
  all_goals simp +decide
@[simp] theorem bad_tierCore (s : State) (rd : Rd) (code : Nat) : (s.bad rd code).tierCore = s.tierCore := by unfold State.bad; simp +decide
@[simp] theorem promoteBad_tierPlan (s : State) (page : Nat) (bads : List (Nat × Nat)) : (s.promoteBad page bads).tierPlan = s.tierPlan := by
  unfold State.promoteBad
  dsimp only
  repeat' split
  all_goals simp +decide
@[simp] theorem queueDeep_tierCore (s : State) (r : HReq) (v : Nat) (os : List Nat) :
    (s.queueDeep r v os).tierCore = s.tierCore := by unfold State.queueDeep; simp +decide
@[simp] theorem startPrefetch_tierCore (s : State) (r : HReq) (k f : Nat) : (s.startPrefetch r k f).tierCore = s.tierCore := by
  unfold State.startPrefetch
  dsimp only
  repeat' split
  all_goals simp +decide
@[simp] theorem judgeHot_tierCore (s : State) (rd : Rd) (x : Stored) (left : Nat) (want : Sealed) :
    (s.judgeHot rd x left want).2.1.tierCore = s.tierCore := by
  unfold State.judgeHot
  split <;> simp +decide
@[simp] theorem serveHot_tierCore (s : State) (rd : Rd) (k f : Nat) : (s.serveHot rd k f).1.tierCore = s.tierCore := by
  unfold State.serveHot
  dsimp only
  repeat' split
  all_goals simp +decide
@[simp] theorem serveDeep_tierPlan (s : State) (rd : Rd) : (s.serveDeep rd).tierPlan = s.tierPlan := by
  unfold State.serveDeep
  dsimp only
  repeat' split
  all_goals simp +decide
@[simp] theorem serveSpilled_tierCore (s : State) (rd : Rd) : (s.serveSpilled rd).tierCore = s.tierCore := by unfold State.serveSpilled; simp +decide
@[simp] theorem serveMedia_tierPlan (s : State) (rd : Rd) : (s.serveMedia rd).1.tierPlan = s.tierPlan := by
  unfold State.serveMedia
  dsimp only
  repeat' split
  all_goals simp +decide
@[simp] theorem serve_tierPlan (s : State) (r : HReq) (given : Option Line) : (s.serve r given).1.tierPlan = s.tierPlan := by
  unfold State.serve
  repeat' split
  all_goals simp +decide
@[simp] theorem writeMarkerHot_tierCore (s : State) (r : HReq) (k f code : Nat) :
    (s.writeMarkerHot r k f code).tierCore = s.tierCore := by unfold State.writeMarkerHot; simp +decide

/-! ### Operations of Home.lean -/

@[simp] theorem refuse_tierCore (s : State) (r : HReq) (why : Nat) : (s.refuse r why).tierCore = s.tierCore := by
  unfold State.refuse
  split <;> split <;> simp +decide
@[simp] theorem writeBack_tierPlan (s : State) (o page line : Nat) (data : Line) :
    (s.writeBack o page line data).tierPlan = s.tierPlan := by unfold State.writeBack; simp +decide
@[simp] theorem promoteOnRead_tierPlan (s : State) (page : Nat) :
    (s.promoteOnRead page).tierPlan = s.tierPlan := by unfold State.promoteOnRead; simp +decide
@[simp] theorem serveR_tierPlan (s : State) (r : HReq) (given : Option Line) :
    (s.serveR r given).tierPlan = s.tierPlan := by unfold State.serveR; simp +decide
@[simp] theorem farStore_tierPlan (s : State) (r : HReq) (l : Line) (changed : Bool) :
    (s.farStore r l changed).tierPlan = s.tierPlan := by unfold State.farStore; simp +decide [tierPlan_eta]
@[simp] theorem farFlush_tierPlan (s : State) (r : HReq) : (s.farFlush r).tierPlan = s.tierPlan := by
  unfold State.farFlush
  split <;> simp +decide [tierPlan_eta]
@[simp] theorem doAtomic_tierPlan (s : State) (r : HReq) : (s.doAtomic r).tierPlan = s.tierPlan := by
  unfold State.doAtomic
  dsimp only
  repeat' split
  all_goals simp +decide
@[simp] theorem dirAfter_tierCore (s : State) (r : HReq) (e : DirEnt) : (s.dirAfter r e).tierCore = s.tierCore := by
  unfold State.dirAfter
  repeat' split
  all_goals simp +decide
@[simp] theorem doRdS_tierPlan (s : State) (r : HReq) (o : Nat) (e : DirEnt) (fwd : Option Line) : (s.doRdS r o e fwd).tierPlan = s.tierPlan := by
  unfold State.doRdS
  repeat' split
  all_goals simp +decide
@[simp] theorem perform_tierPlan (s : State) (r : HReq) (fwd : Option Line) : (s.perform r fwd).tierPlan = s.tierPlan := by
  unfold State.perform
  extract_lets +onlyGivenNames e s0
  have h0 : s0.tierPlan = s.tierPlan := by simp +decide [s0]
  clear_value s0 e
  rw [← h0]
  split
  case h_2 | h_10 => split <;> simp +decide
  case h_3 =>
    simp only [promoteOnRead_tierPlan, serveR_tierPlan]
    split <;> split <;> simp +decide
  case h_11 | h_12 =>
    split
    · simp +decide
    · rfl
  case h_13 =>
    split
    · split
      · simp only
        split <;> simp +decide
      · simp +decide
    · rfl
  case h_14 =>
    split
    · split <;> simp +decide
    · rfl
  all_goals simp +decide
@[simp] theorem pmapDone_tierCore (s : State) (slab : Nat) (extra : Option Fld) (h : extra.all Fld.aside = true) :
    (s.pmapDone slab extra).tierCore = s.tierCore := by
  unfold State.pmapDone
  cases extra with
  | none => simp +decide
  | some f => simp +decide [show f.aside = true from h]
@[simp] theorem hcacDone_tierCore (s : State) (slab : Nat) (extra : Option Fld) (h : extra.all Fld.aside = true) :
    (s.hcacDone slab extra).tierCore = s.tierCore := by
  unfold State.hcacDone
  cases extra with
  | none => simp +decide
  | some f => simp +decide [show f.aside = true from h]
@[simp] theorem doDiscard_tierPlan (s : State) (r : HReq) : (s.doDiscard r).tierPlan = s.tierPlan := by unfold State.doDiscard; simp +decide [tierPlan_eta]
@[simp] theorem hcPageInval_tierCore (s : State) (page : Nat) : (s.hcPageInval page).tierCore = s.tierCore := by unfold State.hcPageInval; simp +decide
@[simp] theorem pageCmd_tierPlan (s : State) (r : HReq) : (s.pageCmd r).tierPlan = s.tierPlan := by
  unfold State.pageCmd
  dsimp only
  repeat' split
  all_goals simp +decide [tierPlan_eta]
@[simp] theorem mapLookup_tierCore (s : State) (page : Nat) : (s.mapLookup page).tierCore = s.tierCore := by
  unfold State.mapLookup
  dsimp only
  split <;> simp +decide
@[simp] theorem process_tierPlan (s0 : State) (r : HReq) : (s0.process r).tierPlan = s0.tierPlan := by
  unfold State.process
  extract_lets cached s
  have hs : s.tierPlan = s0.tierPlan := congrArg Prod.fst (mapLookup_tierCore s0 r.page)
  clear_value s
  rw [← hs]
  repeat' split
  all_goals simp +decide +zetaDelta [tierPlan_eta]
@[simp] theorem order_tierPlan (s : State) (r0 : HReq) : (s.order r0).tierPlan = s.tierPlan := by unfold State.order; simp +decide [tierPlan_eta]
@[simp] theorem drainN_tierPlan (n : Nat) (s : State) : (State.drainN n s).tierPlan = s.tierPlan := by
  induction n generalizing s with
  | zero => rfl
  | succ n ih =>
    unfold State.drainN
    split
    · simp +decide [tierPlan_eta, ih]
    · split
      · simp +decide [tierPlan_eta, ih]
      · rfl
@[simp] theorem settle_tierPlan (s : State) : s.settle.tierPlan = s.tierPlan := by unfold State.settle; simp +decide
@[simp] theorem enter_tierPlan (s : State) (r : HReq) : (s.enter r).tierPlan = s.tierPlan := by unfold State.enter; simp +decide

/-! ### Operations of TierCmd.lean -/

theorem triple_tierCore (a : List Byte) (b : List (Nat × Nat)) (u : State) : (a, b, u).2.2.tierCore = u.tierCore := rfl
@[simp] theorem readImage_tierCore (s0 : State) (page : Nat) (e : PEntry) (errs : List LineErr) (who : Option Requester) :
    (s0.readImage page e errs who).2.2.tierCore = s0.tierCore := by
  unfold State.readImage
  extract_lets +onlyGivenNames gs _ r s
  have hs : s.tierCore = s0.tierCore := by
    simp only [s]
    split <;> simp +decide
  clear_value r s gs
  refine (foldl_snd_snd_tierCore _ (fun acc n c hc => ?_) _ _).trans hs
  beta_reduce at hc
  extract_lets +onlyGivenNames t g fail at hc
  have hf (c : Nat) (u : State) : (fail c u).2.2 = u := (rfl)
  clear_value fail
  split at hc
  · rw [← hc, hf]
  · split at hc
    · rw [← hc, hf]
    · extract_lets +onlyGivenNames key x got want at hc
      have hg : got.2.tierCore = acc.2.2.tierCore := fetchMac_tierCore ..
      clear_value got want x key g
      rw [← hc, ← hg]
      split
      · split
        · exact triple_tierCore _ _ _
        · rw [hf]
          rw [lineAlarm_tierCore]
      · split
        · rw [hf]
        · rw [hf]
          rw [lineAlarm_tierCore]
      · rw [hf]
        rw [memFault_tierCore]
@[simp] theorem retryPlaces_tierPlan (s : State) : s.retryPlaces.tierPlan = s.tierPlan := by unfold State.retryPlaces; simp +decide
@[simp] theorem giveImage_tierPlan (s : State) (m : Move) (image : List Byte) (isPlain : Bool) :
    (s.giveImage m image isPlain).tierPlan = s.tierPlan := by unfold State.giveImage; simp +decide

end Sys2Proof.Machine
end

section
/-! PROOFS. Flips of entries (R97, R105), what follows the end of a move (R107, R117), and a home with nothing to settle. -/

namespace Sys2Proof.Machine

/-! ### A home with nothing to settle -/

theorem sendUnsent_idle {s : State} (h : s.home.waiting = []) : s.sendUnsent = s := by
  simp only [State.sendUnsent, h, List.foldl_nil]
  rw [← h]

theorem sendFrees_idle {s : State} (h : s.ring.freeing = []) : s.sendFrees = s := by
  simp [State.sendFrees, h]

theorem drainN_idle {s : State} (hqueue : s.home.queue = []) (hsend : s.home.senders = []) (n : Nat) : State.drainN n s = s := by
  cases n with
  | zero => rfl
  | succ n => simp [State.drainN, hqueue, hsend]

theorem settle_idle {s : State} (hqueue : s.home.queue = []) (hsend : s.home.senders = []) (hwait : s.home.waiting = [])
    (hfree : s.ring.freeing = []) : s.settle = s := by
  rw [State.settle, sendUnsent_idle hwait, drainN_idle hqueue hsend, sendFrees_idle hfree]

/-! ### Entries -/

theorem sget_eq_sfind {α : Type} (d : α) (m : SMap α) (k : Nat) : sget d m k = (sfind m k).getD d := by
  induction m with
  | nil => rfl
  | cons x m ih =>
    obtain ⟨a, v⟩ := x
    unfold sget sfind
    split
    · rfl
    · exact ih

/-- The entry of a page that the page map does not list (R91). -/
def State.unlisted (s : State) (p : Nat) : PEntry := if s.inRegion p then {} else { st := .unmapped }

theorem entry_eq_sget (s : State) (p : Nat) : s.entry p = sget (s.unlisted p) s.tier.pmap p := by
  rw [sget_eq_sfind, State.entry]
  cases sfind s.tier.pmap p <;> rfl

theorem unlisted_of_plan {s t : State} (h : t.tierPlan = s.tierPlan) (p : Nat) : t.unlisted p = s.unlisted p := by
  rw [State.unlisted, inRegion_of_plan h, State.unlisted]

theorem setEntry_pmap (s : State) (p : Nat) (e : PEntry) : (s.setEntry p e).tier.pmap = sset (s.unlisted p) s.tier.pmap p e := rfl

@[simp] theorem entry_setEntry_same (s : State) (p : Nat) (e : PEntry) : (s.setEntry p e).entry p = e := by
  rw [entry_eq_sget, unlisted_of_plan (setEntry_tierPlan s p e), setEntry_pmap, sget_sset_same]

theorem entry_setEntry_other (s : State) {p q : Nat} (e : PEntry) (h : q ≠ p) : (s.setEntry p e).entry q = s.entry q := by
  have hother (d : PEntry) (m : SMap PEntry) (x : PEntry) (d' : PEntry) : sget d (sset d' m p x) q = sget d m q := by
    unfold sset
    split
    · rw [sget_sdel, if_neg h]
    · exact sget_sput_other _ _ _ _ _ h
  rw [entry_eq_sget, unlisted_of_plan (setEntry_tierPlan s p e), setEntry_pmap, hother, ← entry_eq_sget]

/-! ### Flips -/

/-- An invalidation in the Hub Cache changes its entries and counts (R346). -/
theorem hcInval_parts (s : State) (slab name : Nat) :
    ∃ ents m, s.hcInval slab name = { s with hub := { s.hub with ents := ents }, regs := m } := by
  unfold State.hcInval
  split
  · exact ⟨_, _, rfl⟩
  · exact ⟨s.hub.ents, s.regs, rfl⟩

theorem hcInvalPage_parts (s : State) (page : Nat) (e : PEntry) (src : PState) :
    ∃ ents m, s.hcInvalPage page e src = { s with hub := { s.hub with ents := ents }, regs := m } := by
  refine List.foldlRecOn (motive := fun t => ∃ (ents : SMap (Option HcEnt)) (m : SMap Nat), t = { s with hub := { s.hub with ents := ents }, regs := m }) _ _
    ⟨s.hub.ents, s.regs, rfl⟩ (fun t ht n _ => ?_)
  obtain ⟨ents, m, rfl⟩ := ht
  obtain ⟨ents', m', h⟩ := hcInval_parts { s with hub := { s.hub with ents := ents }, regs := m } (s.homeSlab page) n
  exact ⟨ents', m', h⟩

theorem freeRows_parts (s : State) (v : Nat) (gs : List Nat) :
    ∃ rows, gs.foldl (fun t g => t.setRow v (g / 7) ((t.rowUse v (g / 7)).set (g % 7) none)) s = { s with tier := { s.tier with rows := rows } } := by
  refine List.foldlRecOn (motive := fun t => ∃ rows : SMap RowUse, t = { s with tier := { s.tier with rows := rows } }) _ _
    ⟨s.tier.rows, rfl⟩ (fun t ht g _ => ?_)
  obtain ⟨rows, rfl⟩ := ht
  exact ⟨_, rfl⟩

/-- A flip gives the page its entry and takes its move off; beside that it changes the Hub Cache, its counts, and rows. -/
theorem flip_parts (s : State) (page : Nat) (e : PEntry) :
    ∃ ents m rows, s.flip page e =
      (({ s with hub := { s.hub with ents := ents, slots := s.hub.slots.filter (fun x => !(x.page = page && x.runahead = true)) }, regs := m
                 tier := { s.tier with rows := rows } } : State).setEntry page e).dropMove page := by
  obtain ⟨ents, m, h⟩ := hcInvalPage_parts s page (s.entry page) (s.srcState page)
  unfold State.flip
  simp only [h]
  split
  · exact ⟨ents, m, _, rfl⟩
  · split
    · obtain ⟨rows, hrows⟩ := freeRows_parts (({ s with hub := { s.hub with ents := ents }, regs := m } : State).dropSlot page true) (s.entry page).vein
        ((({ s with hub := { s.hub with ents := ents }, regs := m } : State).dropSlot page true).granulesOf (s.entry page) page)
      rw [hrows]
      exact ⟨ents, m, rows, rfl⟩
    · exact ⟨ents, m, s.tier.rows, rfl⟩

@[simp] theorem entry_dropMove (s : State) (page p : Nat) : (s.dropMove page).entry p = s.entry p := rfl

@[simp] theorem entry_flip_same (s : State) (page : Nat) (e : PEntry) : (s.flip page e).entry page = e := by
  obtain ⟨ents, m, rows, h⟩ := flip_parts s page e
  rw [h, entry_dropMove, entry_setEntry_same]

theorem entry_flip_other (s : State) {page p : Nat} (e : PEntry) (hp : p ≠ page) : (s.flip page e).entry p = s.entry p := by
  have hplan := flip_tierPlan s page e
  obtain ⟨ents, m, rows, h⟩ := flip_parts s page e
  rw [h] at hplan ⊢
  rw [dropMove_tierPlan, setEntry_tierPlan] at hplan
  rw [entry_dropMove, entry_setEntry_other _ _ hp]
  exact entry_of_plan hplan rfl p

/-- What a flip leaves of the parts that the end of a move reads. -/
theorem flip_keeps (s : State) (page : Nat) (e : PEntry) :
    (s.flip page e).home = s.home ∧ (s.flip page e).ring = s.ring ∧ (s.flip page e).codec = s.codec ∧
    (s.flip page e).tier.moves = s.tier.moves.filter (fun x => x.page ≠ page) ∧ (s.flip page e).tier.deferredPins = s.tier.deferredPins ∧
    (s.flip page e).hub.slots = s.hub.slots.filter (fun x => !(x.page = page && x.runahead = true)) := by
  obtain ⟨ents, m, rows, h⟩ := flip_parts s page e
  rw [h]
  exact ⟨rfl, rfl, rfl, rfl, rfl, rfl⟩

/-! ### After the end of the only move -/

/-- With no move left, no slot held and no pin that waits, only EXHAUSTED is written afresh. -/
theorem afterMove_idle {s : State} (hmoves : s.tier.moves = []) (hslots : s.hub.slots = []) (hpins : s.tier.deferredPins = []) (page : Nat) :
    ∃ ex, s.afterMove page =
      ({ s with tier := { s.tier with exhausted := ex } } : State).put .tier 0 F.TIER_STATUS_EXHAUSTED (b2n (!ex.isEmpty)) := by
  refine ⟨s.tier.exhausted.filter (fun x => s.needsFrame x.1), ?_⟩
  have hroom : s.useRoom = ({ s with tier := { s.tier with exhausted := s.tier.exhausted.filter (fun x => s.needsFrame x.1) } } : State).put .tier 0
      F.TIER_STATUS_EXHAUSTED (b2n (!(s.tier.exhausted.filter (fun x => s.needsFrame x.1)).isEmpty)) := by
    simp only [State.useRoom, hmoves, hslots, List.foldl_nil, List.filter_nil]
  simp only [State.afterMove, hpins, List.not_mem_nil, if_false, hroom]
  show List.foldl _ _ s.tier.moves = _
  rw [hmoves]
  rfl

theorem moveOf_only {s : State} {m : Move} {page : Nat} (h : s.tier.moves = [m]) (hpage : m.page = page) : s.moveOf page = some m := by
  simp [State.moveOf, h, hpage]

theorem entry_exhausted (s : State) (ex : List (Nat × Stroke × Bool)) (v p : Nat) :
    (({ s with tier := { s.tier with exhausted := ex } } : State).put .tier 0 F.TIER_STATUS_EXHAUSTED v).entry p = s.entry p :=
  entry_of_plan ((congrArg Prod.fst (put_tierCore _ .tier 0 F.TIER_STATUS_EXHAUSTED v 0 rfl)).trans
    (tierPlan_tier s { s.tier with exhausted := ex } rfl)) rfl p

/-- The end of the only move: its page is flipped, and nothing waits for the room it leaves. -/
theorem flip_afterMove {s : State} {m : Move} {page : Nat} (hmoves : s.tier.moves = [m]) (hpage : m.page = page)
    (hslots : s.hub.slots = []) (hpins : s.tier.deferredPins = []) (e : PEntry) (d : SMap Dipt) {t : State}
    (ht : t = ({ s.flip page e with dipts := d } : State).afterMove page) :
    t.entry page = e ∧ (∀ p, p ≠ page → t.entry p = s.entry p) ∧ t.moveOf page = none ∧ t.home = s.home ∧ t.ring = s.ring ∧ t.codec = s.codec := by
  obtain ⟨hhome, hring, hcodec, hmv, hdef, hsl⟩ := flip_keeps s page e
  have hnone : (s.flip page e).tier.moves = [] := by simp [hmv, hmoves, hpage]
  obtain ⟨ex, hafter⟩ := afterMove_idle (s := { s.flip page e with dipts := d }) hnone (by rw [hsl, hslots]; rfl) (hdef.trans hpins) page
  rw [ht, hafter]
  have hentry (p : Nat) := entry_exhausted { s.flip page e with dipts := d } ex (b2n (!ex.isEmpty)) p
  refine ⟨(hentry page).trans (entry_flip_same s page e), fun p hp => (hentry p).trans (entry_flip_other s e hp), ?_, hhome, hring, hcodec⟩
  show List.find? _ (s.flip page e).tier.moves = none
  rw [hnone]
  rfl

end Sys2Proof.Machine
end

section
/-! PROOFS. What ends on a codec lane (R105, R162, R165, R172, R173). -/

namespace Sys2Proof.Machine

/-- A lane without its work. -/
def State.clearLane (s : State) (slab n : Nat) : State :=
  { s with codec := { s.codec with lanes := sset none s.codec.lanes (16 * slab + n) none } }

@[simp] theorem clearLane_lane (s : State) (slab n : Nat) : sget none (s.clearLane slab n).codec.lanes (16 * slab + n) = none := by
  simp only [State.clearLane, sget_sset_same]

/-- With no work waiting the lane is free. -/
theorem freeLane_idle {s : State} (h : s.codec.waiting = []) (slab n : Nat) : s.freeLane slab n = s.clearLane slab n :=
  grantLanes_idle (s := s.clearLane slab n) h slab

/-! ### Reads -/

/-- The data of a host's read is at hand (R27). -/
theorem ready_host {s : State} {rd : Rd} {a : Nat} (hwho : rd.req.who = .host a) (hmerge : rd.merge = none) (hpoison : rd.poison = 0) :
    s.ready rd = s.putRd { rd with st := .ready, needs := [] } := by
  simp only [State.ready, hwho, hmerge, hpoison, if_true]

/-- A good image gives the read the line it asked for (R162, R165). -/
theorem decodeRead_good {s : State} {rd : Rd} {sub : List Byte} (hhead : memHeadOk rd.image (rd.loc.gm1 + 1) = true)
    (hsub : decodeSubOf rd.image (rd.req.line / 16) = some sub) : s.decodeRead rd = s.ready { rd with data := imageLine sub (rd.req.line % 16) } := by
  simp only [State.decodeRead, hhead, hsub, Bool.not_true, Bool.false_eq_true, if_false]

theorem rdOf_only {s : State} {rd : Rd} {id : Nat} (h : s.home.reads = [rd]) (hid : rd.req.id = id) : s.rdOf id = some rd := by
  simp [State.rdOf, h, hid]

theorem putRd_only {s : State} {rd x : Rd} (h : s.home.reads = [x]) (hid : x.req.id = rd.req.id) :
    s.putRd rd = { s with home := { s.home with reads := [rd] } } := by
  simp [State.putRd, h, hid]

theorem decodeDone_host {s : State} {slab lane a : Nat} {w : LaneWork} {rd : Rd} {sub : List Byte}
    (hlane : sget none s.codec.lanes (16 * slab + lane) = some w) (hoff : w.offload = false) (hid : w.id < 2 ^ 32)
    (hwait : s.codec.waiting = []) (hreads : s.home.reads = [rd]) (hrd : rd.req.id = w.id) (hwho : rd.req.who = .host a) (hst : rd.st = .decode)
    (hmerge : rd.merge = none) (hpoison : rd.poison = 0) (hhead : memHeadOk rd.image (rd.loc.gm1 + 1) = true)
    (hsub : decodeSubOf rd.image (rd.req.line / 16) = some sub) :
    s.decodeDone slab lane = ({ s.clearLane slab lane with
      home := { s.home with reads := [{ rd with data := imageLine sub (rd.req.line % 16), st := .ready, needs := [] }] } } : State).settle := by
  have hsmall : ¬ 2 ^ 32 ≤ w.id := Nat.not_le.2 hid
  have hfind : (s.clearLane slab lane).rdOf w.id = some rd := rdOf_only hreads hrd
  simp only [State.decodeDone, hlane, hoff, Bool.false_or, decide_eq_true_eq, if_neg hsmall, freeLane_idle hwait, hfind, hst, if_true]
  exact congrArg State.settle <| (decodeRead_good hhead hsub).trans <|
    (ready_host (rd := { rd with data := imageLine sub (rd.req.line % 16) }) hwho hmerge hpoison).trans (putRd_only hreads rfl)

/-- The end of a decode for a host's read (R162, R165). -/
theorem codecLanes_decode (s : State) (slab lane a : Nat) (w : LaneWork) (rd : Rd) (sub : List Byte) (hr : s.runs = true)
    (hlane : sget none s.codec.lanes (16 * slab + lane) = some w) (hoff : w.offload = false) (hid : w.id < 2 ^ 32)
    (hwait : s.codec.waiting = []) (hreads : s.home.reads = [rd]) (hqueue : s.home.queue = []) (hsend : s.home.senders = [])
    (hrecall : s.home.waiting = []) (hrd : rd.req.id = w.id) (hwho : rd.req.who = .host a) (hst : rd.st = .decode)
    (hmerge : rd.merge = none) (hpoison : rd.poison = 0) (hhead : memHeadOk rd.image (rd.loc.gm1 + 1) = true)
    (hsub : decodeSubOf rd.image (rd.req.line / 16) = some sub) (hfree : s.ring.freeing = []) :
    Ends (.codecDecodeDone slab lane) s (fun t => (∃ x, t.home.reads = [x] ∧ x.req = rd.req ∧ x.st = .ready ∧
      x.data = imageLine sub (rd.req.line % 16) ∧ x.poison = 0) ∧ sget none t.codec.lanes (16 * slab + lane) = none ∧
      t.tier = s.tier ∧ t.regs = s.regs ∧ t.out = s.out) := by
  have hnot : ¬ 2 ^ 33 ≤ w.id := by omega
  have hdone : s.cmdCodecDecodeDone slab lane = { s.clearLane slab lane with
      home := { s.home with reads := [{ rd with data := imageLine sub (rd.req.line % 16), st := .ready, needs := [] }] } } := by
    simp only [State.cmdCodecDecodeDone, hlane, Bool.and_eq_true, decide_eq_true_eq, hnot, and_false, if_false]
    rw [decodeDone_host hlane hoff hid hwait hreads hrd hwho hst hmerge hpoison hhead hsub]
    exact settle_idle hqueue hsend hrecall hfree
  refine ends_hub_same (f := fun s => s.cmdCodecDecodeDone slab lane) rfl hr ?_ ?_
  · rw [hdone]
    rfl
  · rw [hdone]
    exact ⟨⟨_, rfl, rfl, rfl, rfl, hpoison⟩, clearLane_lane s slab lane, rfl, rfl, rfl⟩

/-! ### Encodes -/

/-- A page of zeros has no image (R105, R166). -/
theorem strataEncode_zero {page : List Byte} (h : page.all (fun b => b = 0) = true) (effort : Nat) : strataEncode effort page = .zero := by
  rw [strataEncode, if_pos h]

/-- What an encode costs is energy (R485). -/
theorem encodeCost_parts (s : State) (k e : Nat) (a : Account) (xs : List (Nat × Nat)) (kib : Nat) :
    ∃ x, ((({ s with energy := { s.energy with encKib := k } } : State).spend a xs).surcharge e kib) = { s with energy := x } := by
  unfold State.spend
  split
  · exact ⟨_, rfl⟩
  · exact ⟨_, rfl⟩

/-- The encode of a demotion that finds zeros only turns the page to zero (R105, R166). -/
theorem encodeDemote_zero {s : State} {m : Move} {bytes : List Byte} (hread : s.readHotPage m.page = (some bytes, s))
    (hzero : bytes.all (fun b => b = 0) = true) (slab : Nat) (selfFail : Bool) :
    ∃ x, s.encodeDemote m slab selfFail =
      (({ s with energy := x } : State).flip m.page (s.zeroEntry m.page)).afterMove m.page := by
  obtain ⟨x, hx⟩ := encodeCost_parts s (s.energy.encKib + 4) m.effort (moveAccount m) [(5, 4)] 4
  have hentry : ({ s with energy := x } : State).zeroEntry m.page = s.zeroEntry m.page := rfl
  refine ⟨x, ?_⟩
  unfold State.encodeDemote
  simp only [hread, strataEncode_zero hzero]
  rw [hx, hentry]

/-- The end of an encode takes its page's move further (R168). -/
theorem encodeDone_demote {s : State} {page sl n : Nat} {m : Move}
    (hlane : (List.range 2).findSome? (fun x => (s.laneOf x (encodeId page) false).map (fun y => (x, y))) = some (sl, n))
    (hrecall : s.home.waiting = []) (hwait : s.codec.waiting = []) (hmove : s.moveOf page = some m) (hkind : m.kind = .demote)
    (himage : m.image = []) (selfFail : Bool) :
    s.encodeDone page selfFail = ((s.clearLane sl n).encodeDemote m sl selfFail).settle := by
  have hmove' : (s.clearLane sl n).moveOf page = some m := hmove
  unfold State.encodeDone
  rw [hlane]
  simp only [hrecall, freeLane_idle hwait, hmove', himage, hkind, List.any_nil, List.isEmpty_nil, Bool.not_true, Bool.false_eq_true, if_false, if_true]

/-- The end of an encode that finds a page of zeros (R105, R166). -/
theorem codecLanes_encode (s : State) (page sl n : Nat) (m : Move) (bytes : List Byte) (hr : s.runs = true)
    (hlane : (List.range 2).findSome? (fun x => (s.laneOf x (encodeId page) false).map (fun y => (x, y))) = some (sl, n))
    (hqueue : s.home.queue = []) (hsend : s.home.senders = []) (hrecall : s.home.waiting = []) (hwait : s.codec.waiting = [])
    (hmoves : s.tier.moves = [m]) (hpage : m.page = page) (hkind : m.kind = .demote) (himage : m.image = [])
    (hslots : s.hub.slots = []) (hpins : s.tier.deferredPins = [])
    (hread : (s.freeLane sl n).readHotPage page = (some bytes, s.freeLane sl n)) (hzero : bytes.all (fun b => b = 0) = true)
    (hfree : s.ring.freeing = []) :
    Ends (.encodeDone page false) s (fun t => (t.entry page).st = .zero ∧ (t.entry page).heat = (s.entry page).heat ∧
      (t.entry page).pinned = (s.entry page).pinned ∧ t.moveOf page = none ∧ (∀ p, p ≠ page → t.entry p = s.entry p) ∧
      sget none t.codec.lanes (16 * sl + n) = none) := by
  subst hpage
  rw [freeLane_idle hwait] at hread
  obtain ⟨x, hx⟩ := encodeDemote_zero hread hzero sl false
  obtain ⟨hentry, hother, hmove, hhome, hring, hcodec⟩ :=
    flip_afterMove (s := { s.clearLane sl n with energy := x }) hmoves rfl hslots hpins ((s.clearLane sl n).zeroEntry m.page) _ hx
  have hdone : s.cmdEncodeDone m.page false = (s.clearLane sl n).encodeDemote m sl false := by
    rw [State.cmdEncodeDone, encodeDone_demote hlane hrecall hwait (moveOf_only hmoves rfl) hkind himage]
    refine settle_idle ?_ ?_ ?_ ?_
    · rw [hhome]; exact hqueue
    · rw [hhome]; exact hsend
    · rw [hhome]; exact hrecall
    · rw [hring]; exact hfree
  refine ends_hub (f := fun s => s.cmdEncodeDone m.page false) rfl hr ?_
  simp only [hdone]
  have hcut (p : Nat) (t : State) : ((t.within s).cutAsked s).entry p = t.entry p := entry_congr (by simp) (by simp) p
  simp only [hcut, hentry]
  refine ⟨rfl, rfl, rfl, ?_, hother, ?_⟩
  · simpa [State.moveOf] using hmove
  · simp [hcodec]

/-! ### Offload steps -/

/-- A write of an attached host's memory is one message (R304). -/
theorem hostStore_open {s : State} {a : Nat} (h : s.hostOpen a = true) {data : List Byte} (hdata : data ≠ []) (addr : Nat) :
    s.hostStore {} a addr data = (true, s.emit (.hostWrite a addr data)) := by
  have hempty : data.isEmpty = false := by simpa using hdata
  simp [State.hostStore, h, hempty]

/-- Output that fits a host buffer goes there in one write (R176). -/
theorem oWrite_host {s : State} {j : OJob} (hopen : s.hostOpen (s.get .ofld j.slab F.OFLD_SQ_CTL_ATTACH j.q) = true) {dst len at_ : Nat}
    {data : List Byte} (hdata : data ≠ []) (hfits : at_ + data.length ≤ len) :
    s.oWrite j [(true, dst, len)] at_ data = (true, s.emit (.hostWrite (s.get .ofld j.slab F.OFLD_SQ_CTL_ATTACH j.q) (dst + at_) data)) := by
  have hpos : 0 < data.length := List.length_pos_iff.2 hdata
  have htake : data.take (len - at_) = data := List.take_of_length_le (by omega)
  have hroom : ¬ len ≤ at_ := by omega
  simp only [State.oWrite, hroom, if_false, if_true, htake, hostStore_open hopen hdata]
  simp

/-- The last step of a job writes what is left of its output (R172). -/
theorem oStep_last {s : State} {j : OJob} (hlast : j.stepsDone + 1 = j.steps) (hlist : oList j.desc = false) (hdst : oDstHost j.desc = true)
    (hopen : s.hostOpen (s.get .ofld j.slab F.OFLD_SQ_CTL_ATTACH j.q) = true) (hleft : j.written < j.out.length)
    (hfits : j.out.length ≤ oDstLen j.desc) (lane : Nat) :
    s.oStep j lane = ({ j with stepsDone := j.steps, lane := lane, written := j.out.length },
      s.emit (.hostWrite (s.get .ofld j.slab F.OFLD_SQ_CTL_ATTACH j.q) (oDst j.desc + j.written) (j.out.drop j.written))) := by
  have hupto : (j.upto j.steps).2 = j.out.length := by simp [OJob.upto]
  have hdata : j.out.drop j.written ≠ [] := by simpa using hleft
  have hwrite := oWrite_host (dst := oDst j.desc) (len := oDstLen j.desc) (at_ := j.written) hopen hdata (by rw [List.length_drop]; omega)
  simp only [State.oStep, hlast, hupto, List.take_length, OJob.buffers, hlist, hdst, Bool.false_eq_true, if_false, hwrite, Bool.not_true]

/-- The end of the only job, which keeps no context (R186). -/
theorem endJob_only {s : State} {j x : OJob} (hjobs : s.codec.jobs = [x]) (hid : x.id = j.id) (hctx : oUseCtx j.desc = false) :
    s.endJob j = ({ s with codec := { s.codec with jobs := [{ j with ended := some s.now }] } } : State).bump .ofld j.slab F.OFLD_JOB_COUNT_COUNT := by
  simp [State.endJob, State.setOJob, State.leaveCtx, hjobs, hid, hctx]

theorem get_bump_same (s : State) (b : Block) (n : Nat) (f : Fld) (k i : Nat) :
    (s.bump b n f k i).get b n f i = min (2 ^ f.w - 1) (s.get b n f i + k) := by
  have hpos : 0 < 2 ^ f.w := Nat.two_pow_pos _
  rw [State.bump, get_put_same, Nat.mod_eq_of_lt (by omega)]

/-- A job as its last step on a lane leaves it. -/
def OJob.finished (j : OJob) (lane : Nat) (now : Stroke) : OJob :=
  { j with stepsDone := j.steps, lane := lane, written := j.out.length, ended := some now }

/-- The state that the last step of the only job leaves (R172, R173). -/
def State.jobFinished (s : State) (slab lane : Nat) (j : OJob) : State :=
  (({ s with codec := { s.codec with jobs := [j.finished lane s.now] }
             out := s.out ++ [.hostWrite (s.get .ofld j.slab F.OFLD_SQ_CTL_ATTACH j.q) (oDst j.desc + j.written) (j.out.drop j.written)] }
    : State).bump .ofld j.slab F.OFLD_JOB_COUNT_COUNT).clearLane slab lane

theorem offStepDone_last {s : State} {slab lane : Nat} {w : LaneWork} {j : OJob} (hwait : s.codec.waiting = []) (hjobs : s.codec.jobs = [j])
    (hid : j.id = w.id) (hended : j.ended = none) (habort : j.aborted = false) (hlast : j.stepsDone + 1 = j.steps) (hlist : oList j.desc = false)
    (hdst : oDstHost j.desc = true) (hctx : oUseCtx j.desc = false)
    (hopen : s.hostOpen (s.get .ofld j.slab F.OFLD_SQ_CTL_ATTACH j.q) = true) (hleft : j.written < j.out.length)
    (hfits : j.out.length ≤ oDstLen j.desc) : s.offStepDone slab lane w = s.jobFinished slab lane j := by
  have hfind : s.codec.jobs.find? (fun x => x.id = w.id && x.ended.isNone) = some j := by simp [hjobs, hid, hended]
  have hstatus : (decide (j.status = 7) && decide (j.status ≠ 7)) = false := by
    by_cases h : j.status = 7 <;> simp [h]
  unfold State.offStepDone
  rw [hfind]
  simp only [oStep_last hlast hlist hdst hopen hleft hfits lane, hstatus, Bool.false_eq_true, if_false, if_true]
  rw [if_neg (by simp [habort])]
  rw [endJob_only (s := s.emit (.hostWrite (s.get .ofld j.slab F.OFLD_SQ_CTL_ATTACH j.q) (oDst j.desc + j.written) (j.out.drop j.written)))
    (j := { j with stepsDone := j.steps, lane := lane, written := j.out.length }) (x := j) hjobs rfl hctx]
  refine freeLane_idle ?_ slab lane
  exact hwait

/-- The last step of an offload job whose output goes to host memory (R172, R173). -/
theorem codecLanes_step (s : State) (slab lane : Nat) (w : LaneWork) (j : OJob) (hr : s.runs = true)
    (hlane : sget none s.codec.lanes (16 * slab + lane) = some w) (hoff : w.offload = true) (hwait : s.codec.waiting = [])
    (hjobs : s.codec.jobs = [j]) (hid : j.id = w.id) (hslab : j.slab = slab) (hended : j.ended = none) (habort : j.aborted = false)
    (hlast : j.stepsDone + 1 = j.steps) (hlist : oList j.desc = false) (hdst : oDstHost j.desc = true) (hctx : oUseCtx j.desc = false)
    (hopen : s.hostOpen (s.get .ofld slab F.OFLD_SQ_CTL_ATTACH j.q) = true) (hleft : j.written < j.out.length)
    (hfits : j.out.length ≤ oDstLen j.desc) (hqueue : s.home.queue = []) (hsend : s.home.senders = []) (hrecall : s.home.waiting = [])
    (hfree : s.ring.freeing = []) :
    Ends (.offloadStepDone slab lane) s (fun t =>
      t.codec.jobs = [{ j with stepsDone := j.steps, lane := lane, written := j.out.length, ended := some s.now }] ∧
      t.out = s.out ++ [.hostWrite (s.get .ofld slab F.OFLD_SQ_CTL_ATTACH j.q) (oDst j.desc + j.written) (j.out.drop j.written)] ∧
      sget none t.codec.lanes (16 * slab + lane) = none ∧ t.get .ofld slab F.OFLD_JOB_COUNT_COUNT =
        min (2 ^ F.OFLD_JOB_COUNT_COUNT.w - 1) (s.get .ofld slab F.OFLD_JOB_COUNT_COUNT + 1) ∧ t.tier = s.tier) := by
  subst hslab
  have hdone : s.cmdOffloadStepDone j.slab lane = s.jobFinished j.slab lane j := by
    simp only [State.cmdOffloadStepDone, hlane, hoff, if_true]
    rw [offStepDone_last hwait hjobs hid hended habort hlast hlist hdst hctx hopen hleft hfits]
    exact settle_idle hqueue hsend hrecall hfree
  refine ends_hub_same (f := fun s => s.cmdOffloadStepDone j.slab lane) rfl hr ?_ ?_
  · rw [hdone]
    rfl
  · rw [hdone]
    exact ⟨rfl, rfl, clearLane_lane _ _ _, get_bump_same (s := { s with codec := _, out := _ }) .., rfl⟩

/-- Settles O24, clause by clause. -/
theorem codecLanes : Obligations.CodecLanes := by
  refine ⟨?_, ?_, ?_⟩
  · intro s slab lane a w rd sub hr hlane hoff hid hwait hreads hqueue hsend hrecall hrd hwho hst hmerge hpoison hhead hsub _ hfree
    exact codecLanes_decode s slab lane a w rd sub hr hlane hoff hid hwait hreads hqueue hsend hrecall hrd hwho hst hmerge hpoison hhead hsub hfree
  · intro s page sl n m bytes hr hlane hqueue hsend hrecall _ hwait hmoves hpage hkind _ himage hslots hpins _ hread hzero _ hfree
    exact codecLanes_encode s page sl n m bytes hr hlane hqueue hsend hrecall hwait hmoves hpage hkind himage hslots hpins hread hzero hfree
  · intro s slab lane w j hr hlane hoff hwait hjobs hid hslab hended habort hlast hlist hdst hctx hopen hleft hfits hqueue hsend hrecall _ hfree
    exact codecLanes_step s slab lane w j hr hlane hoff hwait hjobs hid hslab hended habort hlast hlist hdst hctx hopen hleft hfits hqueue hsend
      hrecall hfree

end Sys2Proof.Machine
end

section
/-! PROOFS. Row buffers, moves and rewriting of rows (R97, R102, R103, R121). -/

namespace Sys2Proof.Machine

/-! ### The flip of a demotion -/

theorem modDipts_parts (s : State) (f : Nat → Dipt → Dipt) (ks : List Nat) :
    ∃ d, ks.foldl (fun x k => x.modDipt k (f k)) s = { s with dipts := d } := by
  refine List.foldlRecOn (motive := fun t => ∃ d : SMap Dipt, t = { s with dipts := d }) _ _ ⟨s.dipts, rfl⟩ (fun t ht k _ => ?_)
  obtain ⟨d, rfl⟩ := ht
  exact ⟨_, rfl⟩

/-- The entry of a page whose new image is written (R97). -/
def State.deepEntry (s : State) (m : Move) : PEntry :=
  { s.entry m.page with st := if m.plain then .plain else .deep, vein := m.vein, loc := m.loc, gm1 := (m.image.length + 511) / 512 - 1
                        handle := 0, donor := 0 }

theorem flipDeep_parts {s : State} {m : Move} (hsrc : m.src = .hot) :
    ∃ d, s.flipDeep m = ({ s.flip m.page (s.deepEntry m) with dipts := d } : State).afterMove m.page := by
  obtain ⟨d, hd⟩ := modDipts_parts (s.flip m.page (s.deepEntry m)) (fun _ d => { d with relocPages := d.relocPages.filter (· ≠ m.page) }) (List.range 8)
  refine ⟨d, ?_⟩
  unfold State.flipDeep
  simp only [hsrc, reduceCtorEq, if_false]
  exact congrArg (fun t => t.afterMove m.page) hd

theorem tierMovement_demote (s : State) (page : Nat) (errs : List LineErr) (m : Move) (hr : s.runs = true) (hmoves : s.tier.moves = [m])
    (hpage : m.page = page) (hkind : m.kind = .demote) (hsrc : m.src = .hot) (hrows : m.rowsWritten = true) (hpins : s.tier.deferredPins = [])
    (hslots : s.hub.slots = []) (hquiet : s.quiet) :
    Ends (.tierMoveDone page errs) s (fun t => (t.entry page).st = (if m.plain then .plain else .deep) ∧ (t.entry page).vein = m.vein ∧
      (t.entry page).loc = m.loc ∧ (t.entry page).gm1 = (m.image.length + 511) / 512 - 1 ∧ (t.entry page).ctx = (s.entry page).ctx ∧
      t.moveOf page = none ∧ (∀ p, p ≠ page → t.entry p = s.entry p)) := by
  subst hpage
  obtain ⟨hqueue, hsend, hrecall, -, -, -, hfree⟩ := hquiet
  obtain ⟨d, hd⟩ := flipDeep_parts (s := s) hsrc
  obtain ⟨hentry, hother, hmove, hhome, hring, -⟩ := flip_afterMove hmoves rfl hslots hpins (s.deepEntry m) d hd
  have hdone : s.cmdTierMoveDone m.page errs = s.flipDeep m := by
    simp only [State.cmdTierMoveDone, moveOf_only hmoves rfl, hkind, hrows, if_true]
    refine settle_idle ?_ ?_ ?_ ?_
    · rw [hhome]; exact hqueue
    · rw [hhome]; exact hsend
    · rw [hhome]; exact hrecall
    · rw [hring]; exact hfree
  refine ends_hub (f := fun s => s.cmdTierMoveDone m.page errs) rfl hr ?_
  have hcut (p : Nat) (t : State) : ((t.within s).cutAsked s).entry p = t.entry p := entry_congr (by simp) (by simp) p
  simp only [hdone, hcut, hentry]
  exact ⟨rfl, rfl, rfl, rfl, rfl, by simpa [State.moveOf] using hmove, hother⟩

/-! ### A row buffer that is 64 strokes old -/

theorem parityKey_of_plan {s t : State} (h : t.tierPlan = s.tierPlan) (v r l : Nat) : t.parityKey v r l = s.parityKey v r l := by
  simp only [State.parityKey, State.hotH, hotShare_of_plan h]

/-- Whether a place holds a parity line is said by the stored lines alone. -/
theorem stored_parity (s : State) (key : Nat) : (s.stored key).parity = (sget none s.media.lines key).any (fun x => x.parity) := by
  rw [sget_eq_sfind, State.stored]
  rcases sfind s.media.lines key with _ | _ | x <;> rfl

theorem holdCheck_lines (s : State) (v o c : Nat) (mac : Bool) (w : Nat) (write : Bool) :
    (s.holdCheck v o c mac w write).media.lines = s.media.lines := by
  unfold State.holdCheck
  dsimp only
  repeat' split
  all_goals rfl

theorem putStored_lines (s : State) (key : Nat) (x : Stored) : (s.putStored key x).media.lines = sset none s.media.lines key (some x) := by
  simp only [State.putStored, holdCheck_lines]

/-- A parity line put at one place leaves those at others. -/
theorem parity_putStored {s : State} {k key : Nat} {x : Stored} (hx : x.parity = true) (h : k = key ∨ (s.stored k).parity = true) :
    ((s.putStored key x).stored k).parity = true := by
  rw [stored_parity, putStored_lines]
  by_cases hk : k = key
  · rw [hk, sget_sset_same]
    exact hx
  · rw [sget_sset_other _ _ _ _ _ hk, ← stored_parity]
    exact h.resolve_left hk

/-- Lines of a row's parity granule, put one after another. -/
def State.putParity (s : State) (v r : Nat) (ls : List Nat) : State :=
  ls.foldl (fun t l => t.putStored (t.parityKey v r l) { parity := true }) s

theorem putParity_stored (v r l : Nat) (ls : List Nat) (s : State) (h : l ∈ ls ∨ (s.stored (s.parityKey v r l)).parity = true) :
    ((s.putParity v r ls).stored (s.parityKey v r l)).parity = true := by
  induction ls generalizing s with
  | nil => exact h.resolve_left (List.not_mem_nil)
  | cons x ls ih =>
    have hkey : (s.putStored (s.parityKey v r x) { parity := true }).parityKey v r l = s.parityKey v r l :=
      parityKey_of_plan (congrArg Prod.fst (putStored_tierCore ..)) v r l
    have hnext := ih (s.putStored (s.parityKey v r x) { parity := true })
    rw [hkey] at hnext
    refine hnext ?_
    rcases h with h | h
    · rcases List.mem_cons.1 h with rfl | h
      · exact .inr (parity_putStored rfl (.inl rfl))
      · exact .inl h
    · exact .inr (parity_putStored rfl (.inr h))

theorem retryPlaces_idle {s : State} (h : s.tier.moves = []) : s.retryPlaces = s := by
  simp [State.retryPlaces, h]

theorem tierMovement_rowBuffer (s : State) (vein : Nat) (b : RowBuf) (hr : s.runs = true) (hbuf : s.rowBuf vein = some b)
    (hold : 64 ≤ strokesSince b.first s.now) (hret : b.ret = s.retOfs vein) (hmoves : s.tier.moves = []) :
    Ends (.rowBufferTimeout vein) s (fun t => t.rowBuf vein = none ∧ (∀ l < 8, (t.stored (s.parityKey vein b.row l)).parity = true) ∧
      t.tier.pmap = s.tier.pmap) := by
  have hvein : b.vein = vein := by simpa using List.find?_some hbuf
  obtain ⟨d, u, hd, hu, hmedia, hwrite⟩ := writeRow_parts s b
  have hmap : u.tier.pmap = s.tier.pmap := congrArg (fun x => x.2.1) hu
  have humoves : u.tier.moves = [] := (congrArg (fun x => x.2.2) hu).trans hmoves
  have hdone : s.cmdRowBufferTimeout vein = s.writeRow b := by
    simp only [State.cmdRowBufferTimeout, hbuf, hold, hret, if_true]
    exact retryPlaces_idle (by simp [hwrite, humoves])
  refine ends_hub (f := fun s => s.cmdRowBufferTimeout vein) rfl hr ?_
  simp only [hdone]
  refine ⟨?_, fun l hl => ?_, ?_⟩
  · simp [State.rowBuf, hwrite, hvein]
  · have hkey : d.parityKey b.vein b.row l = s.parityKey vein b.row l := by
      rw [hvein]
      exact parityKey_of_plan (congrArg Prod.fst hd) _ _ _
    have hput := putParity_stored b.vein b.row l (List.range 8) d (.inl (List.mem_range.2 hl))
    rw [hkey, stored_parity] at hput
    rw [stored_parity, cutAsked_media, within_media, hwrite]
    show (sget none u.media.lines _).any _ = true
    rw [hmedia]
    exact hput
  · simp [hwrite, hmap]

/-! ### The rewriting of a row's only page -/

/-- A rewrite of one page is the only move, and the page map is the one given. -/
def Rewriting (page : Nat) (src : PState) (pm : SMap PEntry) (t : State) : Prop :=
  t.tier.pmap = pm ∧ ∃ m, t.tier.moves = [m] ∧ m.page = page ∧ m.kind = .deepToDeep ∧ m.src = src

section
variable {page : Nat} {src : PState} {pm : SMap PEntry}

theorem Rewriting.of_core {s t : State} (h : Rewriting page src pm s) (hcore : t.tierCore = s.tierCore) : Rewriting page src pm t := by
  have hmap : t.tier.pmap = s.tier.pmap := congrArg (fun x => x.2.1) hcore
  have hmoves : t.tier.moves = s.tier.moves := congrArg (fun x => x.2.2) hcore
  rw [Rewriting, hmap, hmoves]
  exact h

theorem Rewriting.setMove {s : State} (h : Rewriting page src pm s) {m : Move} (hpage : m.page = page) (hkind : m.kind = .deepToDeep)
    (hsrc : m.src = src) : Rewriting page src pm (s.setMove m) := by
  obtain ⟨hmap, m0, hmoves, hpage0, -, -⟩ := h
  exact ⟨hmap, m, by simp [State.setMove, hmoves, hpage, hpage0], hpage, hkind, hsrc⟩

theorem RowBuf.written_kind (b : RowBuf) (m : Move) : (b.written m).page = m.page ∧ (b.written m).kind = m.kind ∧ (b.written m).src = m.src := by
  unfold RowBuf.written
  split <;> exact ⟨rfl, rfl, rfl⟩

theorem Rewriting.writeRow {s : State} (h : Rewriting page src pm s) (b : RowBuf) : Rewriting page src pm (s.writeRow b) := by
  obtain ⟨d, u, -, hu, -, hwrite⟩ := writeRow_parts s b
  obtain ⟨hmap, m, hmoves, hpage, hkind, hsrc⟩ := h.of_core hu
  obtain ⟨hpage', hkind', hsrc'⟩ := b.written_kind m
  rw [hwrite]
  exact ⟨hmap, b.written m, by simp [hmoves], hpage'.trans hpage, hkind'.trans hkind, hsrc'.trans hsrc⟩

theorem Rewriting.dropRow {s : State} (h : Rewriting page src pm s) (b : RowBuf) : Rewriting page src pm (s.dropRow b) := by
  refine List.foldlRecOn (motive := Rewriting page src pm) _ _ h (fun t ht x _ => ?_)
  have hdrop : Rewriting page src pm (t.dropBuffered x.1) := ht.of_core (dropBuffered_tierCore ..)
  obtain ⟨m, hmoves, hpage, hkind, hsrc⟩ := hdrop.2
  dsimp only
  split
  next m' hm' =>
    obtain rfl : m = m' := by
      have hmem := List.mem_of_find?_eq_some hm'
      rw [hmoves] at hmem
      exact (List.mem_singleton.1 hmem).symm
    exact hdrop.setMove hpage hkind hsrc
  next => exact hdrop

theorem Rewriting.dropStaleRows {s : State} (h : Rewriting page src pm s) : Rewriting page src pm s.dropStaleRows := by
  refine List.foldlRecOn (motive := Rewriting page src pm) _ _ h (fun t ht b _ => ?_)
  split
  · exact ht
  · exact ht.dropRow b

theorem Rewriting.pushGranule {s : State} (h : Rewriting page src pm s) (v row p g : Nat) : Rewriting page src pm (s.pushGranule v row p g) := by
  unfold State.pushGranule
  dsimp only
  split
  · refine Rewriting.writeRow ?_ _
    exact h
  · exact h

theorem Rewriting.placeIn {s t : State} (h : Rewriting page src pm s) {m : Move} (hpage : m.page = page) (hkind : m.kind = .deepToDeep)
    (hsrc : m.src = src) {v : Nat} (ht : s.placeIn m v = some t) : Rewriting page src pm t := by
  unfold State.placeIn at ht
  extract_lets s0 n rr push place fresh at ht
  have hrr (t : State) : (rr t).tierCore = t.tierCore := spend_tierCore ..
  have hplace {t : State} (hr : Rewriting page src pm t) (row q : Nat) : Rewriting page src pm (place t row q) := by
    refine List.foldlRecOn (motive := fun acc : State × Nat => Rewriting page src pm acc.1) _ _ ?_ (fun acc ha g _ => ha.pushGranule ..)
    refine Rewriting.of_core ?_ (hrr _)
    exact hr.setMove hpage hkind hsrc
  have hfresh {t u : State} (hr : Rewriting page src pm t) (hu : fresh t = some u) : Rewriting page src pm u := by
    simp only [fresh] at hu
    obtain ⟨r0, -, hu⟩ := Option.bind_eq_some_iff.mp hu
    split at hu
    · obtain rfl := Option.some.inj hu
      exact hplace hr ..
    · obtain ⟨r1, -, rfl⟩ := Option.map_eq_some_iff.mp hu
      exact hplace hr ..
  have h0 : Rewriting page src pm s0 := h.dropStaleRows
  clear_value s0 place fresh
  split at ht
  · exact hfresh h0 ht
  · dsimp only at ht
    split at ht
    · obtain rfl := Option.some.inj ht
      exact hplace h0 ..
    · split at ht
      · obtain rfl := Option.some.inj ht
        exact hplace h0 ..
      · exact hfresh (h0.writeRow _) ht

theorem Rewriting.placeImage {s : State} (h : Rewriting page src pm s) {m : Move} (hpage : m.page = page) (hkind : m.kind = .deepToDeep)
    (hsrc : m.src = src) : Rewriting page src pm (s.placeImage m) := by
  unfold State.placeImage
  cases hv : s.outVeins.findSome? (s.placeIn m) with
  | none => exact h
  | some t =>
    obtain ⟨v, -, ht⟩ := List.exists_of_findSome?_eq_some hv
    exact h.placeIn hpage hkind hsrc ht

end

/-- A page whose image reads well is rewritten: it moves, and the move knows where it stood (R103). -/
theorem startRewrite_good {s : State} {page : Nat} (hst : (s.entry page).st = .deep ∨ (s.entry page).st = .plain) (hmoves : s.tier.moves = [])
    (hgrant : s.grantLeft .migr = true)
    (himage : ((s.spend .migr [(1, 8 * ((s.entry page).gm1 + 1)), (3, 8 * ((s.entry page).gm1 + 1))]).readImage page (s.entry page) []).2.1 = []) :
    ∃ u : State, u.tierCore = s.tierCore ∧ (s.startRewrite page).tierPlan = (u.setEntry page { s.entry page with st := .moving }).tierPlan ∧
      Rewriting page (s.entry page).st (u.setEntry page { s.entry page with st := .moving }).tier.pmap (s.startRewrite page) := by
  let t := s.spend .migr [(1, 8 * ((s.entry page).gm1 + 1)), (3, 8 * ((s.entry page).gm1 + 1))]
  let x := t.readImage page (s.entry page) []
  have hu : x.2.2.tierCore = s.tierCore := (readImage_tierCore ..).trans (spend_tierCore ..)
  have hstart : s.startRewrite page = (x.2.2.setEntry page { s.entry page with st := .moving }).giveImage
      { page := page, kind := .deepToDeep, src := (s.entry page).st, paid := true } x.1 (decide ((s.entry page).st = .plain)) := by
    have hok : ¬ ((!(decide ((s.entry page).st = .deep) || decide ((s.entry page).st = .plain)) || !(s.grantLeft .migr)) = true) := by
      rcases hst with h | h <;> simp [h, hgrant]
    unfold State.startRewrite
    simp only [Bool.false_eq_true, if_false, if_neg hok, himage]
    rfl
  have hnone : x.2.2.tier.moves = [] := (congrArg (fun y => y.2.2) hu).trans hmoves
  clear_value x t
  refine ⟨x.2.2, hu, hstart ▸ giveImage_tierPlan .., ?_⟩
  rw [hstart]
  refine Rewriting.placeImage ⟨rfl, _, ?_, rfl, rfl, rfl⟩ rfl rfl rfl
  simp [State.setMove, State.setEntry, hnone]

/-- A Vein short of free rows whose only row holds one page rewrites that page. -/
theorem cmdCompaction_only {s : State} {vein row page : Nat} {use : RowUse} (hok : s.veinOk vein = true)
    (hshort : 16 * s.freeRows vein < s.ownRows vein) (hrows : s.tier.rows = [(vein * 2 ^ 24 + row, use)]) (hrow : row < 2 ^ 24)
    (hlive : livePages use = [page]) (hmoves : s.tier.moves = []) : s.cmdCompaction vein = s.startRewrite page := by
  have hvein : (vein * 2 ^ 24 + row) / 2 ^ 24 = vein := by omega
  have hidle : s.moveOf page = none := by simp [State.moveOf, hmoves]
  simp only [State.cmdCompaction, hok, hshort, hrows, List.filter_cons, hvein, hlive]
  simp [hidle, hlive]

theorem tierMovement_compaction (s : State) (vein row page : Nat) (use : RowUse) (hr : s.runs = true) (hok : s.veinOk vein = true)
    (hshort : 16 * s.freeRows vein < s.ownRows vein) (hrows : s.tier.rows = [(vein * 2 ^ 24 + row, use)]) (hrow : row < 2 ^ 24)
    (hlive : livePages use = [page]) (hmoves : s.tier.moves = []) (hst : (s.entry page).st = .deep ∨ (s.entry page).st = .plain)
    (hgrant : s.grantLeft .migr = true)
    (himage : ((s.spend .migr [(1, 8 * ((s.entry page).gm1 + 1)), (3, 8 * ((s.entry page).gm1 + 1))]).readImage page (s.entry page) []).2.1 = []) :
    Ends (.compaction vein) s (fun t => (t.entry page).st = .moving ∧
      (t.moveOf page).any (fun m => decide (m.kind = .deepToDeep) && decide (m.src = (s.entry page).st)) = true ∧
      (∀ p, p ≠ page → t.entry p = s.entry p)) := by
  obtain ⟨u, hu, hplan, hmap, m, hmove, hpage, hkind, hsrc⟩ := startRewrite_good hst hmoves hgrant himage
  have hentry (p : Nat) : (s.startRewrite page).entry p = (u.setEntry page { s.entry page with st := .moving }).entry p := entry_of_plan hplan hmap p
  have hsame (p : Nat) : u.entry p = s.entry p := entry_of_plan (congrArg Prod.fst hu) (congrArg (fun x => x.2.1) hu) p
  refine ends_hub (f := fun s => s.cmdCompaction vein) rfl hr ?_
  have hcut (p : Nat) (t : State) : ((t.within s).cutAsked s).entry p = t.entry p := entry_congr (by simp) (by simp) p
  simp only [cmdCompaction_only hok hshort hrows hrow hlive hmoves, hcut, hentry]
  refine ⟨by rw [entry_setEntry_same], ?_, fun p hp => (entry_setEntry_other u _ hp).trans (hsame p)⟩
  simp [State.moveOf, hmove, hpage, hkind, hsrc]

/-! ### The change of HOT_SHARE -/

theorem changeShare_staged (s : State) (h0 h1 : Nat) : (s.changeShare h0 h1).staged = s.staged :=
  foldl_keeps State.staged _ _ _ (fun _ _ _ => rfl)

/-- What a release leaves of the plan is what the cut left (R94). -/
theorem releasePages_plan (s : State) (first n : Nat) (cut : State → State) : (s.releasePages first n cut).tierPlan = (cut s).tierPlan := by
  refine (foldl_tierPlan _ (fun t p => ?_) _ _).trans (foldl_tierPlan _ (fun t x => setEntry_tierPlan ..) _ _)
  exact (enter_tierPlan ..).trans (congrArg Prod.fst (newId_tierCore t))

/-- The activation of a commit that changes the share: the staged copy becomes active with no change under way, and REBALANCE_DONE is told. -/
theorem tierActivate_share {s : State} (hne : s.hotH ≠ hotChunks (s.getS .tier 0 F.TIER_HOT_HOT_SHARE)) :
    ∃ a b : State, a.staged = s.staged ∧ a.tier.rebalanceTo = none ∧ a.tier.poolHeld = [] ∧
      b.tierPlan = (a.copyStaged .tier 0).tierPlan ∧ s.tierActivate.tierPlan = (b.raise .tier 0 21).tierPlan := by
  unfold State.tierActivate
  extract_lets h0 h1 d0 d1 c0 c1 relief s1 pool _ s2 cut s3 s4 s5
  have hstaged : s2.staged = s.staged := by
    have h1' : s1 = s.changeShare h0 h1 := if_neg hne
    show s1.staged = s.staged
    rw [h1', changeShare_staged]
  have h3 : s3.tierPlan = (s2.copyStaged .tier 0).tierPlan := by
    simp only [s3]
    split
    · exact releasePages_plan ..
    · rfl
  have h4 : s4.tierPlan = s3.tierPlan := foldl_tierPlan _ (fun t x => congrArg Prod.fst (putStored_tierCore ..)) _ _
  have h5 : s5 = s4.raise .tier 0 21 := if_neg hne
  refine ⟨s2, s4, hstaged, rfl, rfl, h4.trans h3, ?_⟩
  rw [← h5]
  exact (settle_tierPlan _).trans ((retryPlaces_tierPlan _).trans (useRoom_tierPlan _))

theorem tierMovement_share (s : State) (hr : s.runs = true) (hpend : s.bit .tier 0 F.HDR_STATUS_COMMIT_PENDING = true)
    (hshare : s.shareChanges = true) (hdonate : s.donateChanges = false) (hready : s.shareReady = true) (hwf : swf 0 s.staged = true) :
    Ends .rebalanceDone s (fun t => t.get .tier 0 F.TIER_HOT_HOT_SHARE = s.getS .tier 0 F.TIER_HOT_HOT_SHARE ∧
      t.get .tier 0 F.HDR_STATUS_COMMIT_PENDING = 0 ∧ t.tier.rebalanceTo = none ∧ t.tier.poolHeld = [] ∧
      (t.get .tier 0 F.HDR_INT_STATUS_INT_BLOCK).testBit 5 = true) := by
  have hdone : s.cmdRebalanceDone = s.tierActivate := by simp [State.cmdRebalanceDone, hpend, hshare, hdonate, hready]
  have hne : s.hotH ≠ hotChunks (s.getS .tier 0 F.TIER_HOT_HOT_SHARE) := by
    have := of_decide_eq_true hshare
    simp only [State.hotH, hotChunks]
    omega
  obtain ⟨a, b, hstaged, hto, hheld, hb, ht⟩ := tierActivate_share hne
  have hact : (b.raise .tier 0 21).get .tier 0 F.TIER_HOT_HOT_SHARE = s.getS .tier 0 F.TIER_HOT_HOT_SHARE := by
    rw [get_raise_page (by decide), hotShare_of_plan hb, get_copyStaged_rwl (hstaged ▸ hwf) (by decide) rfl (by decide), State.getS, hstaged]
    rfl
  have hpending : (b.raise .tier 0 21).get .tier 0 F.HDR_STATUS_COMMIT_PENDING = 0 := by
    rw [get_raise_page (by decide), pending_of_plan hb]
    exact get_put_same ..
  have hbit : ((b.raise .tier 0 21).get .tier 0 F.HDR_INT_STATUS_INT_BLOCK).testBit 5 = true := by
    rw [show (21 : Nat) = 16 + 5 from rfl, raise_block b .tier 0 5 (by decide), Nat.testBit_mod_two_pow, Nat.testBit_or,
      Nat.testBit_two_pow_self, Bool.or_true]
    rfl
  refine ends_hub (f := fun s => s.cmdRebalanceDone) rfl hr ?_
  simp only [hdone, get_cutAsked, get_within, cutAsked_tier, within_tier]
  refine ⟨(hotShare_of_plan ht).trans hact, (pending_of_plan ht).trans hpending, ?_, ?_, (rebalanced_of_plan ht).trans hbit⟩
  · rw [rebalanceTo_of_plan ht, raise_tier, rebalanceTo_of_plan hb]
    exact hto
  · rw [poolHeld_of_plan ht, raise_tier, poolHeld_of_plan hb]
    exact hheld

/-- Settles O19, clause by clause. -/
theorem tierMovement : Obligations.TierMovement := by
  refine ⟨?_, ?_, ?_, ?_⟩
  · exact tierMovement_rowBuffer
  · intro s page errs m hr hmoves hpage hkind hsrc hrows hpins hslots hquiet _
    exact tierMovement_demote s page errs m hr hmoves hpage hkind hsrc hrows hpins hslots hquiet
  · intro s vein row page use hr hok hshort hrows hrow hlive hmoves hst hgrant himage _
    exact tierMovement_compaction s vein row page use hr hok hshort hrows hrow hlive hmoves hst hgrant himage
  · exact tierMovement_share

end Sys2Proof.Machine
end

end

section
/-! PROOFS. Reading a register field after a write in another page (R74, R75), the bits of a bit mask, and folds over the Veins. -/

namespace Sys2Proof.Machine

/-! ### Fields of different pages -/

theorem fkey_ne_of_pg_ne {b c : Block} {n m : Nat} (hpg : pg c m ≠ pg b n) {f g : Fld} {i j : Nat} (hf : f.bitOff i < 0x8000) (hg : g.bitOff j < 0x8000) :
    fkey (pg c m) g j ≠ fkey (pg b n) f i := by
  have hb := pg_aligned b n
  have hc := pg_aligned c m
  rw [fkey_eq, fkey_eq]
  omega

theorem get_put_of_pg_ne {b c : Block} {n m : Nat} (hpg : pg c m ≠ pg b n) {f g : Fld} {i j : Nat} (hf : f.bitOff i < 0x8000) (hg : g.bitOff j < 0x8000)
    (s : State) (v : Nat) : (s.put b n f v i).get c m g j = s.get c m g j :=
  get_put_other _ _ _ _ _ _ _ _ _ _ (fkey_ne_of_pg_ne hpg hf hg)

theorem get_raise_of_pg_ne {b c : Block} {n m : Nat} (hpg : pg c m ≠ pg b n) {g : Fld} {j : Nat} (hg : g.bitOff j < 0x8000) (s : State) (bit : Nat) :
    (s.raise b n bit).get c m g j = s.get c m g j := by
  have hb := pg_aligned b n
  have hc := pg_aligned c m
  refine get_raise _ _ _ _ _ _ _ _ ?_
  rw [fkey_eq]
  omega

theorem pg_vein_ne {v w : Nat} (h : v ≠ w) : pg .vein v ≠ pg .vein w := by
  simp only [pg, Block.perSlab, Block.off, Block.insts, if_true]
  omega

theorem pg_chan_ne_vein (c v : Nat) : pg .chan c ≠ pg .vein v := by
  simp only [pg, Block.perSlab, Block.off, Block.insts, if_true]
  omega

/-- Bit `k` of the block's interrupts stands once interrupt `16 + k` is raised (R60). -/
theorem testBit_raise_block (s : State) (b : Block) (n : Nat) {k : Nat} (hk : k < 16) :
    ((s.raise b n (16 + k)).get b n F.HDR_INT_STATUS_INT_BLOCK).testBit k = true := by
  rw [raise_block s b n k hk, Nat.testBit_mod_two_pow, Nat.testBit_or, Nat.testBit_two_pow_self, Bool.or_true, Bool.and_true, decide_eq_true hk]

/-! ### Small facts of the model's own functions -/

theorem testBit_setBit (v i : Nat) (b : Bool) : (setBit v i b).testBit i = b := by
  cases b with
  | true => simp [setBit]
  | false =>
    simp only [setBit, Bool.false_eq_true, if_false, Nat.and_two_pow]
    cases hv : v.testBit i with
    | false => simpa using hv
    | true =>
      rw [Nat.testBit_eq_decide_div_mod_eq, decide_eq_true_eq] at hv
      rw [Nat.testBit_eq_decide_div_mod_eq, Bool.toNat_true, Nat.mul_comm, Nat.sub_mul_div]
      simp only [decide_eq_false_iff_not]
      omega

theorem chanSt_modChan_same (s : State) (c : Nat) (f : ChanSt → ChanSt) : (s.modChan c f).chanSt c = f (s.chanSt c) := sget_sset_same ..
theorem veinSt_modVein_same (s : State) (v : Nat) (f : VeinSt → VeinSt) : (s.modVein v f).veinSt v = f (s.veinSt v) := sget_sset_same ..
theorem veinSt_modVein_other (s : State) {v w : Nat} (f : VeinSt → VeinSt) (h : w ≠ v) : (s.modVein v f).veinSt w = s.veinSt w :=
  sget_sset_other _ _ _ _ _ h
theorem chanSt_congr {s t : State} (h : t.chans = s.chans) (c : Nat) : t.chanSt c = s.chanSt c := congrArg (fun m => sget ({} : ChanSt) m c) h
theorem veinSt_congr {s t : State} (h : t.veins = s.veins) (v : Nat) : t.veinSt v = s.veinSt v := congrArg (fun m => sget ({} : VeinSt) m v) h

/-- A fold that deals with each item once: what the item `w` alone changes is changed once. -/
theorem foldl_once {σ α β : Type} (p : σ → β) (f : σ → α → σ) (g : β → β) {w : α} (hsame : ∀ t, p (f t w) = g (p t)) (l : List α) (hl : l.Nodup)
    (hw : w ∈ l) (hother : ∀ t, ∀ v ∈ l, v ≠ w → p (f t v) = p t) (s : σ) : p (l.foldl f s) = g (p s) := by
  obtain ⟨l₁, l₂, rfl⟩ := List.append_of_mem hw
  obtain ⟨-, hl₂, hdisj⟩ := List.nodup_append.1 hl
  have hafter : ∀ t, ∀ v ∈ l₂, p (f t v) = p t := fun t v hv =>
    hother t v (by simp [hv]) (fun e => (List.nodup_cons.1 hl₂).1 (e ▸ hv))
  have hbefore : ∀ t, ∀ v ∈ l₁, p (f t v) = p t := fun t v hv =>
    hother t v (by simp [hv]) (hdisj v hv w (by simp))
  rw [List.foldl_append, List.foldl_cons, foldl_keeps p f l₂ _ hafter, hsame, foldl_keeps p f l₁ s hbefore]

end Sys2Proof.Machine
end

section
/-! PROOFS. Temperature polls and refreshes outside the plan (R133, R137, R139, R140). -/

namespace Sys2Proof.Machine

/-! ### A poll -/

/-- A poll of the channel has its effect: the channel is in use and closed, the module is out of Rest, the slot is at phase 161 or later and not yet read. -/
structure State.PollDue (s : State) (chan : Nat) : Prop where
  lt : chan < 128
  closed : s.closed (chan / 8) (chan % 8) = true
  veinOk : s.veinOk (chan / 8) = true
  inUse : s.bit .chan chan F.CHAN_STATUS_RETIRED = false
  awake : s.get .rest 0 F.REST_STATUS_STATE ≠ 4
  phase : 161 ≤ s.tb.phase
  unread : (s.chanSt chan).polled ≠ some s.now

/-- The reading is taken, and a ZQ calibration of an earlier slot is latched. -/
def ChanSt.read (x : ChanSt) (now : Stroke) : ChanSt :=
  { x with polled := some now, zqPending := if x.zqPending = some now then x.zqPending else none }
/-- The slot's reading is shown, a change of it told (R133). -/
def State.showCode (s : State) (chan code : Nat) : State :=
  let t := (s.modChan chan (·.read s.now)).put .chan chan F.CHAN_STATUS_MR4_CODE code
  if code ≠ s.get .chan chan F.CHAN_STATUS_MR4_CODE then t.raise .chan chan 17 else t
/-- The Vein shows whether the channel is hot (R137). -/
def State.showHot (s : State) (chan : Nat) (hot : Bool) : State :=
  s.put .vein (chan / 8) F.VEIN_STATUS_CHAN_HOT (setBit (s.get .vein (chan / 8) F.VEIN_STATUS_CHAN_HOT) (chan % 8) hot)
/-- A hot reading asks for the hot plan (R139). -/
def State.askPlan (s : State) : State := { s with tb := { s.tb with hotSeen := true, hotBad := true } }
/-- A hot reading under another plan opens the channel's debt, which the hot plan repays (R140). -/
def State.askHot (s : State) (chan : Nat) : State :=
  if !s.askPlan.tb.hot && !(s.askPlan.chanSt chan).debtOn then s.askPlan.modChan chan (fun x => { x with debtOn := true, owed := 0 }) else s.askPlan

theorem cmdMr4Poll_low {s : State} {chan code : Nat} (h : s.PollDue chan) (hcode : code ≤ 3) :
    s.cmdMr4Poll chan code [] = (s.showCode chan code).showHot chan false := by
  have hphase : ¬s.tb.phase < 161 := by have := h.phase; omega
  have hlt : ¬127 < chan := by have := h.lt; omega
  have h7 : ¬7 < code := by omega
  have h5 : ¬5 ≤ code := by omega
  have h4 : ¬4 ≤ code := by omega
  have hne : code ≠ 7 := by omega
  simp [State.cmdMr4Poll, State.showCode, State.showHot, ChanSt.read, h.closed, h.veinOk, h.inUse, h.awake, h.unread, hphase, hlt, h7, h5, h4, hne]

theorem cmdMr4Poll_hot {s : State} {chan : Nat} (h : s.PollDue chan) :
    s.cmdMr4Poll chan 4 [] = ((s.showCode chan 4).showHot chan true).askHot chan := by
  have hphase : ¬s.tb.phase < 161 := by have := h.phase; omega
  have hlt : ¬127 < chan := by have := h.lt; omega
  simp [State.cmdMr4Poll, State.showCode, State.showHot, State.askHot, State.askPlan, ChanSt.read, h.closed, h.veinOk, h.inUse, h.awake, h.unread, hphase, hlt]

/-! ### What a poll shows -/

theorem showCode_chanSt (s : State) (chan code : Nat) : (s.showCode chan code).chanSt chan = (s.chanSt chan).read s.now := by
  unfold State.showCode
  split
  · rw [chanSt_congr (raise_chans ..), chanSt_congr (put_chans ..), chanSt_modChan_same]
  · rw [chanSt_congr (put_chans ..), chanSt_modChan_same]

theorem showCode_code (s : State) (chan : Nat) {code : Nat} (h : code ≤ 7) : (s.showCode chan code).get .chan chan F.CHAN_STATUS_MR4_CODE = code := by
  have hput (t : State) : (t.put .chan chan F.CHAN_STATUS_MR4_CODE code).get .chan chan F.CHAN_STATUS_MR4_CODE = code := by
    rw [get_put_same]
    exact Nat.mod_eq_of_lt (Nat.lt_of_le_of_lt h (by decide))
  unfold State.showCode
  split
  · rw [get_raise_page (by decide), hput]
  · exact hput _

theorem showCode_int {s : State} {chan code : Nat} (h : code ≠ s.get .chan chan F.CHAN_STATUS_MR4_CODE) :
    ((s.showCode chan code).get .chan chan F.HDR_INT_STATUS_INT_BLOCK).testBit 1 = true := by
  simp only [State.showCode, if_pos h]
  exact testBit_raise_block _ _ _ (k := 1) (by decide)

theorem showCode_parts (s : State) (chan code : Nat) : (s.showCode chan code).tier = s.tier ∧ (s.showCode chan code).vq = s.vq := by
  unfold State.showCode
  split
  · exact ⟨raise_tier .., raise_vq ..⟩
  · exact ⟨rfl, rfl⟩

theorem showCode_frame (s : State) (chan code : Nat) :
    { s with chans := (s.showCode chan code).chans }.OnlyRegsOut (s.showCode chan code)
      (intAddrs .chan chan ++ [bitAddr .chan chan F.CHAN_STATUS_MR4_CODE, bitAddr .vein (chan / 8) F.VEIN_STATUS_CHAN_HOT]) := by
  have hshown : { s with chans := (s.modChan chan (·.read s.now)).chans }.OnlyRegsOut
      ((s.modChan chan (·.read s.now)).put .chan chan F.CHAN_STATUS_MR4_CODE code) _ :=
    onlyOut_put (onlyOut_refl _ (intAddrs .chan chan ++ [bitAddr .chan chan F.CHAN_STATUS_MR4_CODE, bitAddr .vein (chan / 8) F.VEIN_STATUS_CHAN_HOT]))
      _ _ _ _ _ (by simp)
  unfold State.showCode
  split
  · rw [raise_chans]
    exact onlyOut_raise hshown _ _ _ (fun k hk => List.mem_append_left _ hk)
  · exact hshown

/-- CHAN_HOT stands in the Vein's page, what a poll shows of the channel in the channel's. -/
theorem showHot_chan (s : State) (chan : Nat) (hot : Bool) {f : Fld} (hf : f.bitOff 0 < 0x8000) :
    (s.showHot chan hot).get .chan chan f = s.get .chan chan f := get_put_of_pg_ne (pg_chan_ne_vein _ _) (by decide) hf ..

theorem showHot_hot (s : State) (chan : Nat) (hot : Bool) :
    ((s.showHot chan hot).get .vein (chan / 8) F.VEIN_STATUS_CHAN_HOT).testBit (chan % 8) = hot := by
  have h8 : chan % 8 < F.VEIN_STATUS_CHAN_HOT.w := Nat.mod_lt _ (by decide)
  rw [State.showHot, get_put_same, Nat.testBit_mod_two_pow, testBit_setBit, decide_eq_true h8, Bool.true_and]

theorem askHot_parts (s : State) (chan : Nat) :
    (s.askHot chan).regs = s.regs ∧ (s.askHot chan).tier = s.tier ∧ (s.askHot chan).vq = s.vq ∧ (s.askHot chan).tb.hotSeen = true ∧
      (s.askHot chan).tb.hotBad = true := by
  unfold State.askHot
  split <;> exact ⟨rfl, rfl, rfl, rfl, rfl⟩

/-! ### Polls -/

theorem poll_low {s : State} {chan code : Nat} (hr : s.runs = true) (h : s.PollDue chan) (hcode : code ≤ 3) :
    Ends (.mr4Poll chan code []) s (fun t => t.get .chan chan F.CHAN_STATUS_MR4_CODE = code ∧
      (code ≠ s.get .chan chan F.CHAN_STATUS_MR4_CODE → (t.get .chan chan F.HDR_INT_STATUS_INT_BLOCK).testBit 1 = true) ∧
      (t.chanSt chan).owed = (s.chanSt chan).owed ∧ (t.chanSt chan).polled = some s.now ∧
      (t.get .vein (chan / 8) F.VEIN_STATUS_CHAN_HOT).testBit (chan % 8) = false ∧
      { s with chans := t.chans }.OnlyRegsOut t
        (intAddrs .chan chan ++ [bitAddr .chan chan F.CHAN_STATUS_MR4_CODE, bitAddr .vein (chan / 8) F.VEIN_STATUS_CHAN_HOT])) := by
  have hst (t : State) (ht : t.chans = (s.showCode chan code).chans) : t.chanSt chan = (s.chanSt chan).read s.now :=
    (chanSt_congr ht chan).trans (showCode_chanSt s chan code)
  refine ends_hub (f := fun s => s.cmdMr4Poll chan code []) rfl hr ?_
  simp only [cmdMr4Poll_low h hcode, get_cutAsked, get_within]
  refine ⟨?_, fun hne => ?_, ?_, ?_, showHot_hot .., ?_⟩
  · rw [showHot_chan _ _ _ (by decide), showCode_code s chan (by omega)]
  · rw [showHot_chan _ _ _ (by decide), showCode_int hne]
  · rw [hst _ (by rw [cutAsked_chans]; rfl), ChanSt.read]
  · rw [hst _ (by rw [cutAsked_chans]; rfl), ChanSt.read]
  · rw [cutAsked_chans]
    exact onlyOut_hub (onlyOut_put (showCode_frame s chan code) _ _ _ _ _ (by simp))

theorem poll_hot {s : State} {chan : Nat} (hr : s.runs = true) (h : s.PollDue chan) :
    Ends (.mr4Poll chan 4 []) s (fun t => t.get .chan chan F.CHAN_STATUS_MR4_CODE = 4 ∧ t.tb.hotSeen = true ∧ t.tb.hotBad = true ∧
      (t.get .vein (chan / 8) F.VEIN_STATUS_CHAN_HOT).testBit (chan % 8) = true ∧ t.tier = s.tier ∧ t.vq = s.vq) := by
  obtain ⟨hregs, htier, hvq, hseen, hbad⟩ := askHot_parts ((s.showCode chan 4).showHot chan true) chan
  obtain ⟨hcodeTier, hcodeVq⟩ := showCode_parts s chan 4
  refine ends_hub (f := fun s => s.cmdMr4Poll chan 4 []) rfl hr ?_
  simp only [cmdMr4Poll_hot h, get_cutAsked, get_within, get_congr _ _ hregs, cutAsked_tb, cutAsked_tier, cutAsked_vq, within_tier, within_vq]
  refine ⟨?_, hseen, hbad, showHot_hot .., htier.trans hcodeTier, hvq.trans hcodeVq⟩
  rw [showHot_chan _ _ _ (by decide), showCode_code s chan (by decide)]

/-! ### A refresh outside the plan -/

theorem force_vein (s : State) (c : Nat) : c % 8 ∈ ((s.force c).veinSt (c / 8)).forcedNext := by
  unfold State.force
  rw [veinSt_congr (raise_veins ..), veinSt_congr (bump_veins ..), veinSt_modVein_same]
  exact mem_addOnce ..

theorem force_count (s : State) (c : Nat) : (s.force c).get .vein (c / 8) F.VEIN_FORCED_REF_COUNT =
    min (2 ^ F.VEIN_FORCED_REF_COUNT.w - 1) (s.get .vein (c / 8) F.VEIN_FORCED_REF_COUNT + 1) := by
  unfold State.force
  rw [get_raise_page (by decide), get_bump_same]
  rfl

theorem force_int (s : State) (c : Nat) : ((s.force c).get .vein (c / 8) F.HDR_INT_STATUS_INT_BLOCK).testBit 4 = true :=
  testBit_raise_block _ _ _ (k := 4) (by decide)

theorem force_frame (s : State) (c : Nat) : { s with veins := (s.force c).veins }.OnlyRegsOut (s.force c)
    (intAddrs .vein (c / 8) ++ [bitAddr .vein (c / 8) F.VEIN_FORCED_REF_COUNT]) := by
  unfold State.force
  rw [raise_veins]
  refine onlyOut_raise ?_ _ _ _ (fun k hk => List.mem_append_left _ hk)
  exact onlyOut_put (onlyOut_refl _ _) _ _ _ _ _ (by simp)

theorem forcedRefresh_full {s : State} {chan : Nat} (hr : s.runs = true) (hlt : chan < 128) (hok : s.veinOk (chan / 8) = true)
    (hfull : s.debtFull chan = true) (hnew : chan % 8 ∉ (s.veinSt (chan / 8)).forcedNext) :
    Ends (.forcedRefresh chan) s (fun t => chan % 8 ∈ (t.veinSt (chan / 8)).forcedNext ∧ t.get .vein (chan / 8) F.VEIN_FORCED_REF_COUNT =
      min (2 ^ F.VEIN_FORCED_REF_COUNT.w - 1) (s.get .vein (chan / 8) F.VEIN_FORCED_REF_COUNT + 1) ∧
      (t.get .vein (chan / 8) F.HDR_INT_STATUS_INT_BLOCK).testBit 4 = true ∧
      { s with veins := t.veins }.OnlyRegsOut t (intAddrs .vein (chan / 8) ++ [bitAddr .vein (chan / 8) F.VEIN_FORCED_REF_COUNT])) := by
  have hdo : s.cmdForcedRefresh chan = s.force chan := by simp [State.cmdForcedRefresh, hlt, hok, hfull, hnew]
  refine ends_hub (f := fun s => s.cmdForcedRefresh chan) rfl hr ?_
  simp only [hdo, get_cutAsked, get_within, cutAsked_veins, within_veins]
  refine ⟨?_, force_count s chan, force_int s chan, onlyOut_hub (force_frame s chan)⟩
  rw [veinSt_congr (cutAsked_veins ..), veinSt_congr (within_veins ..)]
  exact force_vein s chan

/-- Settles O22: each poll by what it shows, the refresh by what `force` leaves. -/
theorem refreshAndPolls : Obligations.RefreshAndPolls := by
  refine ⟨?_, ?_, ?_⟩
  · intro s chan code hr hlt hcode hclosed hok huse hawake hphase hunread
    exact poll_low hr ⟨hlt, hclosed, hok, huse, hawake, hphase, hunread⟩ hcode
  · intro s chan hr hlt hclosed hok huse hawake hphase hunread
    exact poll_hot hr ⟨hlt, hclosed, hok, huse, hawake, hphase, hunread⟩
  · intro s chan hr hlt hok hfull hnew
    exact forcedRefresh_full hr hlt hok hfull hnew

end Sys2Proof.Machine
end

section
/-! PROOFS. A slot of a channel and the panic level of an attach point (R143, R145, R146). -/

namespace Sys2Proof.Machine

/-! ### What a write drain leaves -/

/-- From `s` to `t` nothing changes but the write drains of the Veins (R143). -/
def State.OnlyDrains (s t : State) : Prop :=
  { s with veins := t.veins } = t ∧ ∀ v, ∃ l, t.veinSt v = { s.veinSt v with draining := l }

theorem onlyDrains_modVein (s : State) (v : Nat) (l : List Nat → List Nat) :
    s.OnlyDrains (s.modVein v (fun x => { x with draining := l x.draining })) := by
  refine ⟨rfl, fun w => ?_⟩
  by_cases h : w = v
  · subst h
    exact ⟨_, veinSt_modVein_same ..⟩
  · exact ⟨_, veinSt_modVein_other s _ h⟩

theorem onlyDrains_setDrain (s : State) (v o : Nat) : s.OnlyDrains (s.setDrain v o) := by
  unfold State.setDrain
  dsimp only
  split
  · exact onlyDrains_modVein s v (addOnce · o)
  · split
    · exact onlyDrains_modVein s v (·.filter (· ≠ o))
    · exact ⟨rfl, fun _ => ⟨_, rfl⟩⟩

theorem State.OnlyDrains.slotsOf {s t : State} (h : s.OnlyDrains t) (v o : Nat) : t.slotsOf v o = s.slotsOf v o := by
  obtain ⟨l, hl⟩ := h.2 v
  simp only [State.slotsOf, hl]

theorem State.OnlyDrains.dataSlots {s t : State} (h : s.OnlyDrains t) (v : Nat) : t.dataSlots v = s.dataSlots v := by
  rw [← h.1]
  rfl

theorem State.OnlyDrains.chanOpen {s t : State} (h : s.OnlyDrains t) (v o : Nat) : t.chanOpen v o = s.chanOpen v o := by
  obtain ⟨heq, hst⟩ := h
  obtain ⟨l, hl⟩ := hst v
  have hrefresh (x : Stroke) : t.refreshes v o x = s.refreshes v o x := by rw [← heq]; rfl
  have hok : t.veinOk v = s.veinOk v := by rw [← heq]; rfl
  have htb : t.tb = s.tb := by rw [← heq]
  have hl' : sget {} t.veins v = { s.veinSt v with draining := l } := hl
  simp only [State.chanOpen, State.closesNext, State.closed, State.now, hrefresh, hok, htb, hl, hl']
  rfl

theorem State.OnlyDrains.hub {s t : State} (h : s.OnlyDrains t) : t.hub = s.hub := by rw [← h.1]
theorem setDrain_hub (s : State) (v o : Nat) : (s.setDrain v o).hub = s.hub := (onlyDrains_setDrain s v o).hub

/-! ### The slot of a channel whose queue holds one access -/

theorem bestAcc_single (s : State) (hits : List Nat) (a : VAcc) : s.bestAcc hits [a] = some a := rfl

theorem servable_single {s : State} {a : VAcc} (hvq : s.vq = [a]) (hslot : s.slotsOf a.vein a.ofs < s.dataSlots a.vein) :
    s.servable a.vein a.ofs = [a] := by simp [State.servable, hvq, hslot]

/-- No other channel has a read that waits. -/
theorem readWaits_single {s : State} {a : VAcc} (hvq : s.vq = [a]) {o : Nat} (ho : o ≠ a.ofs) : s.readWaits a.vein o = false := by
  simp [State.readWaits, State.servable, hvq, ho.symm]

theorem retryWrites_idle {s : State} (h : s.hub.wrHeld = []) : s.retryWrites = s := by simp [State.retryWrites, h]
theorem retryAccs_idle {s : State} (h : s.hub.accHeld = []) : s.retryAccs = s := by simp [State.retryAccs, h]

/-- A channel gives a data slot (R131). -/
def State.giveSlot (s : State) (v o n : Nat) : State := s.modVein v (fun x => { x with slotsUsed := sset 0 x.slotsUsed o n })

theorem slotsOf_giveSlot (s : State) (v o n : Nat) : (s.giveSlot v o n).slotsOf v o = n := by
  rw [State.slotsOf, State.giveSlot, veinSt_modVein_same, sget_sset_same]

/-- The only access of an open channel with a data slot left is served (R145): `d` is the state once the channel's drain is set. -/
theorem cmdVeinSlotGrant_single {s d : State} {a : VAcc} {hits : List Nat} (hd : s.setDrain a.vein a.ofs = d) (hvq : s.vq = [a])
    (hsteer : a.steer = false) (hcount : a.count = 1) (hopen : s.chanOpen a.vein a.ofs = true)
    (hslot : s.slotsOf a.vein a.ofs < s.dataSlots a.vein) (hwr : s.hub.wrHeld = []) (hacc : s.hub.accHeld = []) :
    ∃ hit, s.cmdVeinSlotGrant a.vein a.ofs hits =
      ((({ d with vq := [] } : State).holdRow a (d.levelNow a) hit).giveSlot a.vein a.ofs (d.slotsOf a.vein a.ofs + 1)).setDrain a.vein a.ofs := by
  have hdrain : s.OnlyDrains d := hd ▸ onlyDrains_setDrain s a.vein a.ofs
  have hdvq : d.vq = [a] := by rw [← hdrain.1]; exact hvq
  have hdslot : d.slotsOf a.vein a.ofs < d.dataSlots a.vein := by rwa [hdrain.slotsOf, hdrain.dataSlots]
  have hothers : (List.range 8).any (fun o => o ≠ a.ofs && d.closesNext a.vein o && d.readWaits a.vein o) = false := by
    rw [List.any_eq_false]
    intro o _
    by_cases ho : o = a.ofs
    · simp [ho]
    · simp [readWaits_single hdvq ho]
  have hbest (hits : List Nat) : d.bestAcc hits (d.servable a.vein a.ofs) = some a := by
    rw [servable_single hdvq hdslot, bestAcc_single]
  have hrest : ([a].filter (fun x => x.vein = a.vein && x.ofs = a.ofs)).erase a = [] := by simp
  have hdwr : d.hub.wrHeld = [] := by rw [hdrain.hub, hwr]
  have hdacc : d.hub.accHeld = [] := by rw [hdrain.hub, hacc]
  refine ⟨decide (a.id ∈ if (d.rowsHeld a.vein a.ofs).isEmpty then [] else hits), ?_⟩
  simp only [State.cmdVeinSlotGrant, hd, hdrain.chanOpen, hopen, hbest, hothers, hrest, hsteer, hcount, hdvq, Bool.not_true, Bool.false_eq_true, if_false,
    Bool.and_false, List.filter_nil, List.isEmpty_nil, List.any_nil, Nat.le_refl, if_true, List.erase_cons_head]
  rw [retryWrites_idle (by rw [setDrain_hub]; exact hdwr), retryAccs_idle (by rw [setDrain_hub]; exact hdacc)]
  rfl

/-- Serving the only access of a channel takes it from the queue, gives the slot, and changes nothing but the queue and the Veins. -/
theorem slotGrant_single {s : State} {a : VAcc} {hits : List Nat} (hr : s.runs = true) (hvq : s.vq = [a]) (hsteer : a.steer = false)
    (hcount : a.count = 1) (hopen : s.chanOpen a.vein a.ofs = true) (hslot : s.slotsOf a.vein a.ofs < s.dataSlots a.vein)
    (hwr : s.hub.wrHeld = []) (hacc : s.hub.accHeld = []) :
    Ends (.veinSlotGrant a.vein a.ofs hits) s (fun t => t.vq = [] ∧ t.slotsOf a.vein a.ofs = s.slotsOf a.vein a.ofs + 1 ∧
      { s with vq := t.vq, veins := t.veins } = t) := by
  obtain ⟨hit, hcmd⟩ := cmdVeinSlotGrant_single (hits := hits) rfl hvq hsteer hcount hopen hslot hwr hacc
  refine ends_hub (f := fun s => s.cmdVeinSlotGrant a.vein a.ofs hits) rfl hr ?_
  simp only [hcmd]
  generalize hd : s.setDrain a.vein a.ofs = d
  have hdrain : s.OnlyDrains d := hd ▸ onlyDrains_setDrain s a.vein a.ofs
  generalize hg : State.giveSlot _ _ _ _ = g
  have hgive := onlyDrains_setDrain g a.vein a.ofs
  generalize g.setDrain a.vein a.ofs = u at hgive
  have hu : { s with vq := [], veins := u.veins } = u := by
    rw [← hgive.1, ← hg, ← hdrain.1]
    rfl
  have hslots : u.slotsOf a.vein a.ofs = s.slotsOf a.vein a.ofs + 1 := by
    rw [hgive.slotsOf, ← hg, slotsOf_giveSlot, hdrain.slotsOf]
  have hkeep : (u.within s).cutAsked s = u := by
    rw [within_same, cutAsked_idle] <;> rw [← hu]
  rw [hkeep]
  refine ⟨?_, hslots, ?_⟩
  · rw [← hu]
  · rw [show u.vq = [] from hu ▸ rfl]
    exact hu

/-! ### The panic level of an attach point -/

/-- What a Vein holds of panic (R146): the attach points in it, its mask and levels, and what its status shows. -/
structure PanicView where
  panic : List Nat
  mask : Nat
  on : Nat
  off : Nat
  shown : Nat

def State.panicView (s : State) (v : Nat) : PanicView where
  panic := (s.veinSt v).panic
  mask := s.get .vein v F.VEIN_PANIC_CTL_PANIC_MASK
  on := s.get .vein v F.VEIN_PANIC_CTL_PANIC_ON
  off := s.get .vein v F.VEIN_PANIC_CTL_PANIC_OFF
  shown := s.get .vein v F.VEIN_STATUS_PANIC

/-- The attach points in panic once `a` has reported `lvl`. -/
def PanicView.panicAfter (x : PanicView) (a lvl : Nat) : List Nat :=
  if a ∈ x.panic then (if lvl ≤ x.off then x.panic.filter (· ≠ a) else x.panic)
  else if x.mask.testBit a ∧ x.on ≤ lvl then x.panic ++ [a] else x.panic
def PanicView.report (x : PanicView) (a lvl : Nat) : PanicView :=
  { x with panic := x.panicAfter a lvl, shown := b2n (!(x.panicAfter a lvl).isEmpty) }

theorem mem_panicAfter (x : PanicView) (a lvl : Nat) :
    a ∈ x.panicAfter a lvl ↔ (a ∈ x.panic ∧ x.off < lvl) ∨ (a ∉ x.panic ∧ x.mask.testBit a = true ∧ x.on ≤ lvl) := by
  unfold PanicView.panicAfter
  by_cases hin : a ∈ x.panic
  · by_cases hoff : lvl ≤ x.off <;> simp [hin, hoff]
    omega
  · by_cases hon : x.mask.testBit a = true ∧ x.on ≤ lvl <;> simp [hin, hon]

theorem mem_panicAfter_other (x : PanicView) {a b : Nat} (lvl : Nat) (h : b ≠ a) : b ∈ x.panicAfter a lvl ↔ b ∈ x.panic := by
  unfold PanicView.panicAfter
  split
  · split <;> simp [h]
  · split <;> simp [h]

/-- The report as it reaches one Vein: who is in panic, told where one enters it. -/
def State.panicSet (s : State) (a lvl v : Nat) : State :=
  let was := a ∈ (s.veinSt v).panic
  let on := (s.get .vein v F.VEIN_PANIC_CTL_PANIC_MASK).testBit a && decide (s.get .vein v F.VEIN_PANIC_CTL_PANIC_ON ≤ lvl)
  let off := decide (lvl ≤ s.get .vein v F.VEIN_PANIC_CTL_PANIC_OFF)
  if was && off then s.modVein v (fun x => { x with panic := x.panic.filter (· ≠ a) })
  else if !was && on then (s.modVein v (fun x => { x with panic := x.panic ++ [a] })).raise .vein v 18
  else s
def State.panicStep (s : State) (a lvl v : Nat) : State :=
  (s.panicSet a lvl v).put .vein v F.VEIN_STATUS_PANIC (b2n (!((s.panicSet a lvl v).veinSt v).panic.isEmpty))

theorem cmdPanicLevelReport_attach {s : State} {a : Nat} (h : s.hasAttach a = true) :
    s.cmdPanicLevelReport a = s.forN 16 (fun t v => t.panicStep a (min 7 (s.ingress a * 8 / s.ingressSize a)) v) := by
  simp only [State.cmdPanicLevelReport, h, Bool.not_true, Bool.false_eq_true, if_false]
  rfl

/-- A report leaves a Vein as it is, changes its own entry, or tells the change by an interrupt as well. -/
theorem panicSet_cases {P : State → Prop} {s : State} {v : Nat} (hstay : P s) (hmod : ∀ f, P (s.modVein v f))
    (htell : ∀ f, P ((s.modVein v f).raise .vein v 18)) (a lvl : Nat) : P (s.panicSet a lvl v) := by
  unfold State.panicSet
  extract_lets was on off
  split
  · exact hmod _
  · split
    · exact htell _
    · exact hstay

theorem panicSet_panic (s : State) (a lvl v : Nat) : ((s.panicSet a lvl v).veinSt v).panic = (s.panicView v).panicAfter a lvl := by
  have htold (f : VeinSt → VeinSt) : ((s.modVein v f).raise .vein v 18).veinSt v = f (s.veinSt v) := by
    rw [veinSt_congr (raise_veins ..), veinSt_modVein_same]
  by_cases hin : a ∈ (s.veinSt v).panic
  · by_cases hoff : lvl ≤ s.get .vein v F.VEIN_PANIC_CTL_PANIC_OFF <;>
      simp [PanicView.panicAfter, State.panicView, State.panicSet, hin, hoff, veinSt_modVein_same]
  · by_cases hon : (s.get .vein v F.VEIN_PANIC_CTL_PANIC_MASK).testBit a = true ∧ s.get .vein v F.VEIN_PANIC_CTL_PANIC_ON ≤ lvl <;>
      simp [PanicView.panicAfter, State.panicView, State.panicSet, hin, hon, htold]

theorem panicSet_other (s : State) (a lvl : Nat) {v w : Nat} (h : w ≠ v) : (s.panicSet a lvl v).veinSt w = s.veinSt w := by
  have hmod (f : VeinSt → VeinSt) : (s.modVein v f).veinSt w = s.veinSt w := veinSt_modVein_other s f h
  exact panicSet_cases (P := fun t => t.veinSt w = s.veinSt w) rfl hmod (fun f => (veinSt_congr (raise_veins ..) w).trans (hmod f)) a lvl

/-- A report changes no field of a Vein's page outside HDR_INT_STATUS and PANIC. -/
theorem panicSet_get (s : State) (a lvl v w : Nat) {f : Fld} (hlow : 0xC0 ≤ f.bitOff 0) (hhigh : f.bitOff 0 < 0x8000) :
    (s.panicSet a lvl v).get .vein w f = s.get .vein w f := by
  refine panicSet_cases (P := fun t => t.get .vein w f = s.get .vein w f) rfl (fun _ => rfl) (fun g => ?_) a lvl
  by_cases hw : w = v
  · subst hw
    exact get_raise_page (.inr hlow) ..
  · exact get_raise_of_pg_ne (pg_vein_ne hw) hhigh ..

theorem panicStep_view_same (s : State) (a lvl v : Nat) : (s.panicStep a lvl v).panicView v = (s.panicView v).report a lvl := by
  have hctl {f : Fld} (hne : f.bitOff 0 ≠ F.VEIN_STATUS_PANIC.bitOff 0) (hlow : 0xC0 ≤ f.bitOff 0) (hhigh : f.bitOff 0 < 0x8000) :
      (s.panicStep a lvl v).get .vein v f = s.get .vein v f := (get_put_page hne ..).trans (panicSet_get s a lvl v v hlow hhigh)
  have hpanic : ((s.panicStep a lvl v).veinSt v).panic = (s.panicView v).panicAfter a lvl :=
    (congrArg VeinSt.panic (veinSt_congr (put_veins ..) v)).trans (panicSet_panic s a lvl v)
  have hshown : (s.panicStep a lvl v).get .vein v F.VEIN_STATUS_PANIC = b2n (!((s.panicView v).panicAfter a lvl).isEmpty) := by
    rw [State.panicStep, get_put_same, panicSet_panic]
    cases ((s.panicView v).panicAfter a lvl).isEmpty <;> rfl
  simp only [State.panicView, PanicView.report, hshown] at hpanic ⊢
  rw [hpanic, hctl (by decide) (by decide) (by decide), hctl (by decide) (by decide) (by decide), hctl (by decide) (by decide) (by decide)]

theorem panicStep_view_other (s : State) (a lvl : Nat) {v w : Nat} (h : w ≠ v) : (s.panicStep a lvl v).panicView w = s.panicView w := by
  have hget {f : Fld} (hlow : 0xC0 ≤ f.bitOff 0) (hhigh : f.bitOff 0 < 0x8000) : (s.panicStep a lvl v).get .vein w f = s.get .vein w f :=
    (get_put_of_pg_ne (pg_vein_ne h) (by decide) hhigh ..).trans (panicSet_get s a lvl v w hlow hhigh)
  have hst : (s.panicStep a lvl v).veinSt w = s.veinSt w := (veinSt_congr (put_veins ..) w).trans (panicSet_other s a lvl h)
  simp only [State.panicView, hst]
  rw [hget (by decide) (by decide), hget (by decide) (by decide), hget (by decide) (by decide), hget (by decide) (by decide)]

theorem panicStep_parts (s : State) (a lvl v : Nat) :
    ((s.panicStep a lvl v).tier, (s.panicStep a lvl v).vq, (s.panicStep a lvl v).chans) = (s.tier, s.vq, s.chans) := by
  refine panicSet_cases (P := fun t => (t.tier, t.vq, t.chans) = (s.tier, s.vq, s.chans)) rfl (fun _ => rfl) (fun f => ?_) a lvl
  rw [raise_tier, raise_vq, raise_chans]
  rfl

/-- A report reaches each Vein once. -/
theorem panicReport_view (s : State) (a lvl : Nat) {v : Nat} (hv : v < 16) :
    (s.forN 16 (fun t v => t.panicStep a lvl v)).panicView v = (s.panicView v).report a lvl :=
  foldl_once (·.panicView v) _ (·.report a lvl) (fun t => panicStep_view_same t a lvl v) _ List.nodup_range (List.mem_range.2 hv)
    (fun t _ _ hne => panicStep_view_other t a lvl hne.symm) s

theorem panicReport_parts (s : State) (a lvl : Nat) :
    let t := s.forN 16 (fun t v => t.panicStep a lvl v)
    (t.tier, t.vq, t.chans) = (s.tier, s.vq, s.chans) :=
  foldl_keeps (fun t : State => (t.tier, t.vq, t.chans)) _ _ s (fun t v _ => panicStep_parts t a lvl v)

theorem panicLevelReport_attach {s : State} {a lvl : Nat} (hr : s.runs = true) (ha : s.hasAttach a = true)
    (hlvl : lvl = min 7 (s.ingress a * 8 / s.ingressSize a)) :
    Ends (.panicLevelReport a) s (fun t =>
      (∀ v < 16, (a ∈ (t.veinSt v).panic ↔ (a ∈ (s.veinSt v).panic ∧ s.get .vein v F.VEIN_PANIC_CTL_PANIC_OFF < lvl) ∨
        (a ∉ (s.veinSt v).panic ∧ (s.get .vein v F.VEIN_PANIC_CTL_PANIC_MASK).testBit a = true ∧ s.get .vein v F.VEIN_PANIC_CTL_PANIC_ON ≤ lvl)) ∧
        (∀ x, x ≠ a → (x ∈ (t.veinSt v).panic ↔ x ∈ (s.veinSt v).panic)) ∧
        t.get .vein v F.VEIN_STATUS_PANIC = b2n (!(t.veinSt v).panic.isEmpty)) ∧
      t.tier = s.tier ∧ t.vq = s.vq ∧ t.chans = s.chans) := by
  refine ends_hub (f := fun s => s.cmdPanicLevelReport a) rfl hr ?_
  simp only [cmdPanicLevelReport_attach ha, ← hlvl]
  have hparts := panicReport_parts s a lvl
  have hview (v : Nat) (hv : v < 16) := panicReport_view s a lvl hv
  generalize s.forN 16 (fun t v => t.panicStep a lvl v) = u at hparts hview ⊢
  obtain ⟨htier, hvq, hchans⟩ : u.tier = s.tier ∧ u.vq = s.vq ∧ u.chans = s.chans := by simpa using hparts
  simp only [get_cutAsked, get_within, cutAsked_tier, cutAsked_vq, cutAsked_chans, within_tier, within_vq, within_chans]
  refine ⟨fun v hv => ?_, htier, hvq, hchans⟩
  have hpanic : (u.veinSt v).panic = (s.panicView v).panicAfter a lvl := congrArg PanicView.panic (hview v hv)
  have hshown : u.get .vein v F.VEIN_STATUS_PANIC = _ := congrArg PanicView.shown (hview v hv)
  have hst : ((u.within s).cutAsked s).veinSt v = u.veinSt v := veinSt_congr ((cutAsked_veins ..).trans (within_veins ..)) v
  rw [hst, hpanic]
  exact ⟨mem_panicAfter .., fun x hx => mem_panicAfter_other _ lvl hx, hshown⟩

/-- Settles O23: the drains aside, a slot changes its Vein and the queue alone; a report reaches each Vein once, and one already in panic keeps it until a
report at PANIC_OFF or below, whatever the mask says by then (log row 142). -/
theorem slotsAndPanic : Obligations.SlotsAndPanic := by
  refine ⟨?_, ?_⟩
  · rintro s _ _ hits a hr hvq rfl rfl hsteer hcount hopen hslot hwr hacc
    exact slotGrant_single hr hvq hsteer hcount hopen hslot hwr hacc
  · intro s a lvl hr ha hlvl
    exact panicLevelReport_attach hr ha hlvl

end Sys2Proof.Machine
end

section
/-! PROOFS. The start of an offload job (R173, R174, R188), on a ring of more entries than HEAD's 12 bits count. -/

namespace Sys2Proof.Machine

/-- Queue 0 of Slab 0's offload engine has a ring of 2^13 entries, a size that LOG2_SIZE's 4 bits hold and a commit would reject (R188). HEAD stands
at entry 4095, the last line of page 65, which is held in the line buffer and zero. -/
def wideRing : State :=
  { (((((linkedState.put .ofld 0 F.OFLD_QUEUE_EN_ENABLE 1).put .ofld 0 F.OFLD_SQ_CTL_LOG2_SIZE 13).put .ofld 0 F.OFLD_SQ_CTL_KEY_CTX 1).put .ofld 0
      F.OFLD_SQ_BASE_PAGE 2).put .ofld 0 F.OFLD_SQ_HEAD_HEAD 4095) with
    hub := { linkedState.hub with
      slots := [{ slab := 0, page := 65, runahead := false, ctx := 1, lines := [{ line := 63, data := 0, mask := fullMask }] }] } }

/-- The queue is enabled and has work, and nothing refuses or keeps back the read of its entry at HEAD. -/
theorem wideRing_ready : wideRing.runs = true ∧ wideRing.oEnabled 0 0 = true ∧ wideRing.oWaiting 0 0 ≠ 0 ∧
    wideRing.bit .ofld 0 F.OFLD_Q_STATUS_FULL_STALL 0 = false ∧ wideRing.oEntry 0 0 (wideRing.get .ofld 0 F.OFLD_SQ_HEAD_HEAD 0) = (65, 63) ∧
    wideRing.refusedBy (wideRing.jobReq (.codec 0) (wideRing.oKey 0 0) 65 63 .snoopRead) = none ∧ (wideRing.dirOf 65 63).unused = true ∧
    wideRing.heldLine 65 63 = some { line := 63, data := 0, mask := fullMask } := by
  decide +kernel

/-- A descriptor of zeros is a valid no-op without a context, a fence or a list. -/
theorem zeroDesc_noop : oUseCtx (lineBytes 0) = false ∧ oFlag (lineBytes 0) 6 = false ∧ oList (lineBytes 0) = false ∧
    oBad (lineBytes 0) [(oDstHost (lineBytes 0), oDst (lineBytes 0), oDstLen (lineBytes 0))] = none ∧ oOp (lineBytes 0) = 0 := by
  decide +kernel

/-- In the ring, entry 4096 comes after the one at HEAD. -/
theorem wideRing_next : (wideRing.get .ofld 0 F.OFLD_SQ_HEAD_HEAD 0 + 1) % wideRing.oSize 0 0 = 4096 := by decide +kernel

/-- The start of the no-op moves HEAD on to 0: its 12 bits do not hold 4096. -/
theorem wideRing_started : (wideRing.cmdOfldNoop 0 0 {}).get .ofld 0 F.OFLD_SQ_HEAD_HEAD 0 = 0 := by decide +kernel

theorem exec_ofldNoop {s : State} (hr : s.runs = true) (slab q : Nat) (env : JobEnv) :
    exec (.ofldNoop slab q env) s = .next (((s.cmdOfldNoop slab q env).within s).cutAsked s) := by
  show execOfldNoop slab q env s = _
  exact hub_of_runs hr

/-- Refutes O25: its clauses let the ring have any size and ask for HEAD + 1 modulo that size; HEAD is a field of 12 bits, which cannot hold the next
entry's number in a ring of more than 4096 entries (`wideRing`). -/
theorem not_offloadJobs : ¬ Obligations.OffloadJobs := by
  intro h
  obtain ⟨hnoop, -⟩ := h
  obtain ⟨hr, hen, hwork, hstall, hentry, hmay, hdir, hheld⟩ := wideRing_ready
  obtain ⟨hctx, hfence, hlist, hgood, hop⟩ := zeroDesc_noop
  have he := hnoop wideRing 0 0 65 63 _ _ {} hr hen hwork hstall rfl rfl rfl hentry hmay hdir hheld rfl rfl rfl hctx hfence hlist hgood rfl rfl rfl hop
    rfl rfl
  rw [ends_iff_of_exec (exec_ofldNoop hr ..)] at he
  obtain ⟨hhead, -⟩ := he
  rw [get_cutAsked, get_within, wideRing_started, wideRing_next] at hhead
  exact absurd hhead (by decide)

end Sys2Proof.Machine
end

section
/-! PROOFS. The check line and the MAC line of a chunk (R191, R244, R245): words side by side in a line. -/

namespace Sys2Proof.Machine

/-- The first `n` words of `w` bits side by side in a line, word 0 lowest: the layout of the check words (R191) and of the MACs (R244). -/
def packed (w : Nat) (f : Nat → BitVec w) (n : Nat) : Line := (List.range n).foldl (fun a j => a ||| ((f j).setWidth 512 <<< (w * j))) 0

theorem packed_succ (w : Nat) (f : Nat → BitVec w) (n : Nat) :
    packed w f (n + 1) = packed w f n ||| ((f n).setWidth 512 <<< (w * n)) := by
  simp [packed, List.range_succ]

theorem macBytes_eq_packed (m : Nat → BitVec 56) : macBytes m = packed 56 m 8 := rfl

theorem checkLine_eq_packed (s : State) (v ofs chunk : Nat) :
    s.checkLine v ofs chunk = packed 64 (fun j => (s.codeword (mediaKey v ofs chunk j)).extractLsb' 512 64) 8 := rfl

/-- Bit `i` of words side by side is bit `i % w` of word `i / w`, and no bit stands above the last word. -/
theorem getLsbD_packed {w : Nat} (f : Nat → BitVec w) {n : Nat} (hfit : w * n ≤ 512) (i : Nat) :
    (packed w f n).getLsbD i = (decide (i < w * n) && (f (i / w)).getLsbD (i % w)) := by
  induction n with
  | zero => simp [packed]
  | succ n ih =>
    rw [Nat.mul_succ] at hfit ⊢
    rw [packed_succ, BitVec.getLsbD_or, ih (by omega), BitVec.getLsbD_shiftLeft, BitVec.getLsbD_setWidth]
    by_cases hlow : i < w * n
    · simp [hlow, Nat.lt_add_right w hlow]
    by_cases hword : i < w * n + w
    · have hdiv : i / w = n := Nat.div_eq_of_lt_le (by rw [Nat.mul_comm]; omega) (by rw [Nat.mul_comm, Nat.mul_succ]; omega)
      have hmod : i % w = i - w * n := by rw [Nat.mod_eq_sub, hdiv]
      simp [hlow, hword, hdiv, hmod, show i < 512 by omega, show i - w * n < 512 by omega]
    · have habove : (f n).getLsbD (i - w * n) = false := BitVec.getLsbD_of_ge _ _ (by omega)
      simp [hlow, hword, habove]

/-- Word `j` of words side by side. -/
theorem packed_word {w : Nat} (f : Nat → BitVec w) {n j : Nat} (hfit : w * n ≤ 512) (hj : j < n) :
    (packed w f n).extractLsb' (w * j) w = f j := by
  refine BitVec.eq_of_getLsbD_eq fun i hi => ?_
  have hend : w * j + w ≤ w * n := Nat.mul_le_mul_left w hj
  have hdiv : (w * j + i) / w = j := by rw [Nat.mul_add_div (by omega), Nat.div_eq_of_lt hi, Nat.add_zero]
  have hmod : (w * j + i) % w = i := by rw [Nat.mul_add_mod, Nat.mod_eq_of_lt hi]
  simp [getLsbD_packed f hfit, hdiv, hmod, hi, show w * j + i < w * n by omega]

/-- Nothing stands above the words. -/
theorem packed_above {w : Nat} (f : Nat → BitVec w) {n : Nat} (hfit : w * n ≤ 512) : packed w f n >>> (w * n) = 0 := by
  refine BitVec.eq_of_getLsbD_eq fun i _ => ?_
  simp [getLsbD_packed f hfit]

/-- A word of an exclusive-or of lines is the exclusive-or of that word of each. -/
theorem extract_foldl_xor {α : Type} (g : α → Line) (l : List α) (start len : Nat) :
    (l.foldl (fun a p => a ^^^ g p) 0).extractLsb' start len = l.foldl (fun a p => a ^^^ (g p).extractLsb' start len) 0 := by
  have hword := List.foldl_hom (·.extractLsb' start len) (g₁ := fun a p => a ^^^ g p) (g₂ := fun a p => a ^^^ (g p).extractLsb' start len)
    (l := l) (init := 0) (fun _ _ => BitVec.extractLsb'_xor.symm)
  simpa using hword.symm

/-- The check word in a codeword stands above the line, with the part of the error that lies over it (R189). -/
theorem codeword_check (s : State) (key : Nat) :
    (s.codeword key).extractLsb' 512 64 = s.checkWordOf key ^^^ (s.stored key).err.extractLsb' 512 64 := by
  rw [State.codeword, BitVec.extractLsb'_xor, BitVec.extractLsb'_append_eq_left]

/-- Outside the parity granules a MAC line holds the MACs of its chunk's own lines (R244). -/
theorem macLine_data {s : State} {ofs chunk : Nat} (v : Nat) (h : ¬(s.hotH ≤ chunk ∧ (chunk - s.hotH) % 8 = ofs)) :
    s.macLine v ofs chunk = packed 56 (fun j => (s.stored (mediaKey v ofs chunk j)).mac) 8 := by
  simp [State.macLine, macBytes_eq_packed, h]

/-- At a row's parity granule a MAC line is the exclusive-or of the MAC lines of the row's data positions (R245). -/
theorem macLine_parity (s : State) (v r : Nat) :
    s.macLine v (r % 8) (s.hotH + r) =
      (s.rowData v r).foldl (fun a p => a ^^^ packed 56 (fun j => (s.stored (s.deepKey v (7 * r + p) j)).mac) 8) 0 := by
  simp [State.macLine, macBytes_eq_packed]

/-- Settles O28: check words and MACs stand side by side, and taking one word out of a line commutes with the exclusive-or over a row. -/
theorem reservationBytes : Obligations.ReservationBytes := by
  refine ⟨?_, ?_, ?_⟩
  · intro s v ofs chunk j hj
    rw [checkLine_eq_packed, packed_word _ (by decide) hj, codeword_check]
  · intro s v ofs chunk j hj hdata
    rw [macLine_data v hdata]
    exact ⟨packed_word _ (by decide) hj, packed_above _ (by decide)⟩
  · intro s v r j hj
    rw [macLine_parity, extract_foldl_xor]
    simp only [packed_word _ (show 56 * 8 ≤ 512 by decide) hj]

end Sys2Proof.Machine
end

section
/-! PROOFS. What the module has sent stays sent, and what an exhausted counter of a tree sends (R256, R554 to R556). -/

namespace Sys2Proof.Machine

/-! ### A fault only adds messages -/

theorem out_prefix_foldl {α : Type} {f : State → α → State} (h : ∀ t x, t.out <+: (f t x).out) (l : List α) (s : State) :
    s.out <+: (l.foldl f s).out := by
  induction l generalizing s with
  | nil => exact List.prefix_rfl
  | cons x l ih => exact (h s x).trans (ih _)

theorem out_prefix_setInts {s t : State} (h : t.out = s.out) (b : Block) (n mask : Nat) : s.out <+: (t.setInts (pg b n) mask).out :=
  h ▸ (onlyOut_setInts (onlyOut_refl t (intAddrs b n)) b n mask fun _ hk => hk).2.1

theorem out_prefix_msix (s : State) (a v : Nat) : s.out <+: (s.msix a v).out := by
  unfold State.msix
  split
  · exact List.prefix_append ..
  · exact List.prefix_rfl

theorem out_prefix_logEvent (s : State) (a : Nat) (e : EvRec) : s.out <+: (s.logEvent a e).out := by
  have hlog (c : Prop) [Decidable c] (f g : Attach → Attach) : s.out <+: (if c then s.modAtt a f else s.modAtt a g).out := by
    split <;> exact List.prefix_rfl
  unfold State.logEvent
  dsimp only
  split
  · exact (hlog ..).trans (out_prefix_msix ..)
  · exact hlog ..

theorem out_prefix_logWhere (s : State) (e : EvRec) (c : Nat → Bool) : s.out <+: (s.logWhere e c).out := by
  refine out_prefix_foldl (fun t a => ?_) _ s
  split
  · exact out_prefix_logEvent ..
  · exact List.prefix_rfl

theorem out_prefix_reportHosts (s : State) (r : FRec) : s.out <+: (s.reportHosts r).out := by
  unfold State.reportHosts
  split
  · exact List.prefix_rfl
  · exact out_prefix_logWhere ..

theorem out_prefix_fatal (s : State) (r : FRec) : s.out <+: (s.fatal r).out := by
  unfold State.fatal
  refine List.IsPrefix.trans ?_ ((out_prefix_logWhere _ _ _).trans (out_prefix_logEvent _ _ _))
  split <;> exact List.prefix_rfl

/-- A fault of level 3 goes out as an in-band interrupt whatever FLT_ROUTE says (R556), and nothing sent before it is taken back. -/
theorem record_fatal_sent (s : State) {r : Rep} (h : classBase r = 3) (dropped : Nat) :
    s.out <+: (s.record r dropped).out ∧ Msg.ibi (Block.id .flt) ∈ (s.record r dropped).out := by
  unfold State.record
  extract_lets base esc lvl rec_ f f1 s1 s2 s3 s4 s5 s6 s7
  have hlvl : lvl = 3 := by simp [lvl, esc, base, h]
  have hroute : (s5.get .flt 0 F.FLT_ROUTE_IBI_LEVELS ||| 8).testBit lvl = true := by
    rw [hlvl, Nat.testBit_or, show Nat.testBit 8 3 = true by decide, Bool.or_true]
  have hpage : s1.out <+: s2.out := by
    unfold s2
    split
    · exact out_prefix_setInts (by simp only [putP_out]) ..
    · exact List.prefix_rfl
  have hflt : s2.out <+: s5.out := by
    have h4 : s4.out = s2.out := by
      unfold s4
      split <;> simp only [put_out, bump_out, s3]
    exact out_prefix_setInts h4 ..
  have hsent : s6 = s5.emit (.ibi (Block.id .flt)) := if_pos hroute
  have hend : s6.out <+: (s7.fatal rec_).out := (out_prefix_reportHosts ..).trans (out_prefix_fatal ..)
  rw [hsent] at hend
  rw [if_pos hlvl]
  exact ⟨((hpage.trans hflt).trans (List.prefix_append ..)).trans hend, hend.subset (List.mem_append_right _ (List.mem_singleton_self _))⟩

/-! ### Counters of the tree -/

/-- An exhausted counter is a fault of level 3, class 0x11 (R256). -/
theorem fault_exhausted_sent (s : State) (b : Block) (n k : Nat) : s.out <+: (s.fault b n 0x11 { cls := 0x11, unit := k }).out ∧
    (s.faults.broken = [] → Msg.ibi (Block.id .flt) ∈ (s.fault b n 0x11 { cls := 0x11, unit := k }).out) := by
  unfold State.fault
  dsimp only
  split
  · obtain ⟨hkept, hsent⟩ := record_fatal_sent s
      (r := { cls := 0x11, unit := k, block := b.id, inst := n, loc := locOf b n, phase := s.tb.phase }) rfl 0
    exact ⟨hkept, fun _ => hsent⟩
  · next hwire => exact ⟨List.prefix_rfl, fun h => absurd (by simp [State.wireOk, h]) hwire⟩

theorem out_prefix_raiseCounter {s t : State} (h : t.out = s.out) (k level index : Nat) : s.out <+: (t.raiseCounter k level index).out := by
  have hone (c : Prop) [Decidable c] (u : State) (hu : u.out = t.out) :
      s.out <+: (if c then t.fault .cryp (t.ownerOf k) 0x11 { cls := 0x11, unit := k } else u).out := by
    rw [← h]
    split
    · exact (fault_exhausted_sent ..).1
    · rw [hu]
  unfold State.raiseCounter
  dsimp only
  split
  · exact hone _ _ rfl
  · exact hone _ _ rfl

/-- A counter below the root that is at its largest value is not raised: the fault is sent (R256). -/
theorem raiseCounter_full {s : State} {k level index : Nat} (hl : level < 6)
    (hfull : sget 0 s.crypto.nodes (nodeKey k (level + 1) (index / 8) (index % 8)) = 0xFFFFFFFFFFFFFF) (hwire : s.faults.broken = []) :
    Msg.ibi (Block.id .flt) ∈ (s.raiseCounter k level index).out := by
  simp only [State.raiseCounter, if_pos hl, if_pos hfull]
  exact (fault_exhausted_sent ..).2 hwire

end Sys2Proof.Machine
end

section
/-! PROOFS. The counter-tree cache (R251, R253, R265): what a use of a line puts into the cache and pushes out of it, and a rebuild whose fetch pushes
out a line under an exhausted counter. -/

namespace Sys2Proof.Machine

/-! ### The cache -/

@[simp] theorem treeFetch_out (s : State) (k level index : Nat) : (s.treeFetch k level index).out = s.out := rfl
@[simp] theorem treeStore_out (s : State) (k level index : Nat) : (s.treeStore k level index).out = s.out := rfl
@[simp] theorem treePut_out (s : State) (k level index : Nat) (dirty : Bool) : (s.treePut k level index dirty).out = s.out := rfl

theorem out_prefix_treeTrim (s : State) (owner : Nat) : s.out <+: (s.treeTrim owner).out := by
  unfold State.treeTrim
  dsimp only
  split
  · exact List.prefix_rfl
  · split
    · exact List.prefix_rfl
    · split
      · exact List.prefix_rfl
      · split
        · rw [treePut_out]
          refine out_prefix_raiseCounter ?_ ..
          rw [treeStore_out]
        · refine out_prefix_raiseCounter ?_ ..
          rw [treeStore_out]

/-- An overfull cache whose oldest line is dirty, under a parent's counter that is exhausted, sends the fault as the line leaves (R253, R256). -/
theorem treeTrim_exhausted {s : State} {owner : Nat} {old : TreeLine} {rest : List TreeLine}
    (hown : s.crypto.cache.filter (fun t => s.ownerOf t.dipt = owner) = old :: rest) (hover : treeCacheLines ≤ rest.length)
    (hdirty : old.dirty = true) (hl : old.level < 6)
    (hfull : sget 0 s.crypto.nodes (nodeKey old.dipt (old.level + 1) (old.index / 8) (old.index % 8)) = 0xFFFFFFFFFFFFFF)
    (hwire : s.faults.broken = []) : Msg.ibi (Block.id .flt) ∈ (s.treeTrim owner).out := by
  have hlen : ¬ (old :: rest).length ≤ treeCacheLines := by rw [List.length_cons]; omega
  simp only [State.treeTrim, hown, if_neg hlen, hdirty, Bool.not_true, Bool.false_eq_true, if_false, if_pos hl]
  exact raiseCounter_full hl hfull hwire

/-- A line that misses while its parent is cached is fetched alone and put into the cache; what it pushes out leaves. -/
theorem treeUse_miss {s : State} {k level index : Nat} (hl : level < 6) (hmiss : s.crypto.cache.any (fun t => t.isLine k level index) = false)
    (hparent : s.crypto.cache.any (fun t => t.isLine k (level + 1) (index / 8)) = true) (dirty : Bool) :
    s.treeUse k level index dirty = (((s.treeFetch k level index).treePut k level index false).treePut k level index dirty).forN 8
      (fun t _ => t.treeTrim (t.ownerOf k)) := by
  obtain ⟨n, hn⟩ : ∃ n, 7 - level = n + 2 := ⟨5 - level, by omega⟩
  have hchain : (List.range (7 - level)).takeWhile (fun j => !s.crypto.cache.any (fun t => t.isLine k (level + j) (index / 8 ^ j))) = [0] := by
    rw [hn, List.range_succ_eq_map, List.range_succ_eq_map]
    simp only [List.map_cons, List.takeWhile_cons, Nat.add_zero, Nat.pow_zero, Nat.div_one, hmiss, Nat.succ_eq_add_one, Nat.zero_add, Nat.pow_one,
      hparent, Bool.not_true, Bool.not_false, Bool.false_eq_true, if_true, if_false]
  simp only [State.treeUse, hmiss, hchain, Bool.false_eq_true, if_false, List.reverse_singleton, List.foldl_cons, List.foldl_nil, Nat.add_zero,
    Nat.pow_zero, Nat.div_one]

theorem cache_treePut (s : State) (k level index : Nat) (dirty : Bool) : (s.treePut k level index dirty).crypto.cache =
    s.crypto.cache.filter (fun t => !t.isLine k level index) ++
      [{ dipt := k, level := level, index := index, dirty := dirty || s.crypto.cache.any (fun t => t.isLine k level index && t.dirty) }] := rfl

/-- A line that was not cached stands in the cache as the newest once it was put there, clean and then as it is used. -/
theorem cache_treePut_twice {s : State} {k level index : Nat} (hmiss : s.crypto.cache.any (fun t => t.isLine k level index) = false) (dirty : Bool) :
    ((s.treePut k level index false).treePut k level index dirty).crypto.cache =
      s.crypto.cache ++ [{ dipt := k, level := level, index := index, dirty := dirty }] := by
  have hnone : ∀ t ∈ s.crypto.cache, t.isLine k level index = false := by simpa only [List.any_eq_false, Bool.not_eq_true] using hmiss
  have hkeep : s.crypto.cache.filter (fun t => !t.isLine k level index) = s.crypto.cache :=
    List.filter_eq_self.2 fun t ht => by rw [hnone t ht, Bool.not_false]
  have hclean : s.crypto.cache.any (fun t => t.isLine k level index && t.dirty) = false :=
    List.any_eq_false.2 fun t ht => by rw [hnone t ht, Bool.false_and]; exact Bool.false_ne_true
  have hself (b : Bool) : TreeLine.isLine { dipt := k, level := level, index := index, dirty := b } k level index = true := by simp [TreeLine.isLine]
  have hone : (s.treePut k level index false).crypto.cache = s.crypto.cache ++ [{ dipt := k, level := level, index := index }] := by
    rw [cache_treePut, hkeep, hclean, Bool.or_false]
  rw [cache_treePut, hone, List.filter_append, hkeep, List.any_append, hclean]
  simp [hself]

/-- A fetch into a full cache pushes out the oldest line; where that line's counter is exhausted, the fault is sent. -/
theorem raiseParent_exhausted {s : State} {k level index : Nat} {old : TreeLine} {rest : List TreeLine} (hlevel : level < 5)
    (hmiss : s.crypto.cache.any (fun t => t.isLine k (level + 1) (index / 8)) = false)
    (hparent : s.crypto.cache.any (fun t => t.isLine k (level + 1 + 1) (index / 8 / 8)) = true)
    (hcache : s.crypto.cache = old :: rest) (hlen : rest.length + 1 = treeCacheLines) (hown : ∀ t ∈ old :: rest, t.dipt % 8 = k % 8)
    (hdirty : old.dirty = true) (hl : old.level < 6)
    (hfull : sget 0 s.crypto.nodes (nodeKey old.dipt (old.level + 1) (old.index / 8) (old.index % 8)) = 0xFFFFFFFFFFFFFF)
    (hwire : s.faults.broken = []) : Msg.ibi (Block.id .flt) ∈ (s.raiseParent k level index).out := by
  rw [State.raiseParent, if_pos (by omega), treeUse_miss (by omega) hmiss hparent]
  refine (out_prefix_raiseCounter rfl ..).subset ?_
  rw [State.forN, show List.range 8 = 0 :: List.range' 1 7 from rfl, List.foldl_cons]
  generalize hu : ((s.treeFetch k (level + 1) (index / 8)).treePut k (level + 1) (index / 8) false).treePut k (level + 1) (index / 8) true = u
  have hput : u.crypto.cache = old :: (rest ++ [{ dipt := k, level := level + 1, index := index / 8, dirty := true }]) := by
    rw [← hu, cache_treePut_twice (s := s.treeFetch k (level + 1) (index / 8)) hmiss, ← List.cons_append, ← hcache]
    rfl
  have howned : u.crypto.cache.filter (fun t => u.ownerOf t.dipt = u.ownerOf k) = u.crypto.cache := by
    refine List.filter_eq_self.2 fun t ht => decide_eq_true ?_
    have hmod : t.dipt % 8 = k % 8 := by
      rw [hput, ← List.cons_append, List.mem_append, List.mem_singleton] at ht
      rcases ht with ht | rfl
      · exact hown t ht
      · rfl
    rw [State.ownerOf, State.ownerOf, hmod]
  have htrim : Msg.ibi (Block.id .flt) ∈ (u.treeTrim (u.ownerOf k)).out := by
    refine treeTrim_exhausted (howned.trans hput) ?_ hdirty hl ?_ ?_
    · rw [List.length_append, List.length_singleton, hlen]
    · rw [← hu]
      exact hfull
    · rw [← hu]
      exact hwire
  exact (out_prefix_foldl (fun t _ => out_prefix_treeTrim t _) _ _).subset htrim

/-! ### A rebuild over a full cache -/

/-- A full cache of Slab 0: the leaf line 0 of Diptych 0 is the oldest and dirty; the ledger's line 0 of level 2 and the leaf lines from 1 on are
clean. -/
def fullCache : List TreeLine :=
  { dipt := 0, level := 0, index := 0, dirty := true } :: { dipt := 8, level := 2, index := 0 } ::
    (List.range (treeCacheLines - 2)).map (fun i => { dipt := 0, level := 0, index := i + 1 })

theorem mem_fullCache {t : TreeLine} (h : t ∈ fullCache) : t.dipt % 8 = 0 ∧ t.isLine 8 1 0 = false := by
  simp only [fullCache, List.mem_cons, List.mem_map] at h
  rcases h with rfl | rfl | ⟨i, -, rfl⟩
  · decide
  · decide
  · simp [TreeLine.isLine]

/-- The module runs, with the full cache, the parent's counter for its oldest line exhausted, and line 4 of the ledger lost. -/
def exhaustedLeaf : State :=
  { State.reset with
    boot := { State.reset.boot with inReset := none }
    crypto := { State.reset.crypto with
      cache := fullCache
      nodes := [(nodeKey 0 1 0 0, 0xFFFFFFFFFFFFFF)]
      losses := [{ dipt := 8, level := 0, index := 4, ledger := true }] } }

theorem exec_subtreeRebuildDone {s : State} (hr : s.runs = true) (dipt level index : Nat) :
    exec (.subtreeRebuildDone dipt level index) s = .next (((s.cmdSubtreeRebuildDone dipt level index).within s).cutAsked s) := by
  show execSubtreeRebuildDone dipt level index s = _
  exact hub_of_runs hr

/-- A filter that keeps every entry of a key keeps what the key reads. -/
theorem sget_filter_kept {α : Type} {d : α} {m : SMap α} {f : Nat × α → Bool} {a : Nat} (h : ∀ v, f (a, v) = true) :
    sget d (m.filter f) a = sget d m a := by
  induction m with
  | nil => rfl
  | cons p m ih =>
    obtain ⟨k, v⟩ := p
    by_cases hk : a = k
    · subst hk
      simp [h v, sget]
    · rw [List.filter_cons]
      split <;> simp [sget, hk, ih]

theorem nodes_forN {f : State → Nat → State} {n : Nat} {s : State} (h : ∀ t i, (f t i).crypto.nodes = t.crypto.nodes) :
    (s.forN n f).crypto.nodes = s.crypto.nodes := foldl_keeps (fun t : State => t.crypto.nodes) f _ s fun t i _ => h t i

/-- The counters of the Diptychs' trees, the cache and the fault records stay when a ledger line is rebuilt; then its parent is raised (R265). -/
theorem rebuildLedger_parts {s : State} {index : Nat} (h : s.crypto.losses = [{ dipt := 8, level := 0, index := index, ledger := true }]) :
    ∃ u : State, s.cmdSubtreeRebuildDone 8 0 index = u.raiseParent 8 0 index ∧ u.crypto.cache = s.crypto.cache ∧ u.faults = s.faults ∧
      ∀ key, key / 8 / 4194304 / 8 ≠ 8 → sget 0 u.crypto.nodes key = sget 0 s.crypto.nodes key := by
  refine ⟨?rebuilt, ?done, ?cache, ?faults, ?nodes⟩
  case done =>
    simp only [State.cmdSubtreeRebuildDone, h, List.find?_cons, decide_true, Bool.and_self, if_true]
    rfl
  case cache => exact foldl_keeps (fun t : State => t.crypto.cache) _ _ _ fun _ _ _ => rfl
  case faults => exact foldl_keeps State.faults _ _ _ fun _ _ _ => rfl
  case nodes =>
    intro key hkey
    rw [nodes_forN]
    · exact sget_filter_kept fun v => by simp [hkey]
    · exact fun _ _ => rfl

/-- The rebuild fetches the lost line's parent, which pushes out the oldest line: the fault of its counter is sent. -/
theorem exhaustedLeaf_rebuilt : Msg.ibi (Block.id .flt) ∈ (exhaustedLeaf.cmdSubtreeRebuildDone 8 0 4).out := by
  obtain ⟨u, hu, hcache, hfaults, hnodes⟩ := rebuildLedger_parts (s := exhaustedLeaf) (index := 4) rfl
  replace hcache : u.crypto.cache = fullCache := hcache
  rw [hu]
  refine raiseParent_exhausted (by decide) ?_ ?_ hcache ?_ (fun t ht => (mem_fullCache ht).1) rfl (by decide) ?_ ?_
  · rw [hcache]
    exact List.any_eq_false.2 fun t ht => by rw [(mem_fullCache ht).2]; exact Bool.false_ne_true
  · rw [hcache]
    rfl
  · rw [List.length_cons, List.length_map, List.length_range]
    rfl
  · rw [hnodes _ (by decide)]
    decide
  · rw [hfaults]
    rfl

/-- Refutes O30: its second clause lets the cache be full. The rebuild's parent line then pushes out the oldest line, and where that line is dirty and
its parent's counter is at its largest value, the fault of R256 goes out as an in-band interrupt (`exhaustedLeaf`). -/
theorem not_treeMaintenance : ¬ Obligations.TreeMaintenance := by
  intro h
  obtain ⟨-, hrebuild⟩ := h
  have hr : exhaustedLeaf.runs = true := by decide
  have he := hrebuild exhaustedLeaf 4 hr rfl (by decide)
  rw [ends_iff_of_exec (exec_subtreeRebuildDone hr ..)] at he
  obtain ⟨-, -, -, hout⟩ := he
  have hsent := exhaustedLeaf_rebuilt
  rw [cutAsked_out, within_out] at hout
  rw [hout] at hsent
  exact absurd hsent List.not_mem_nil

end Sys2Proof.Machine
end

section
/-! PROOFS. The key store (R234 to R236, R272): the end of a command, the filling of a context, and the commands of the KEYS page. -/

namespace Sys2Proof.Machine

/-! ### The end of a command -/

/-- What the page of the key store shows once a command has ended with a code (R272). -/
def State.keysEnded (t : State) (slab err : Nat) : Prop :=
  t.get .keys slab F.KEYS_STATUS_ERR = err ∧ t.get .keys slab F.KEYS_STATUS_DONE = 1 ∧ t.get .keys slab F.KEYS_STATUS_BUSY = 0 ∧
    ∀ w < 28, t.get .keys slab F.KEYS_MATERIAL_DATA w = 0

/-- Every field below KEYS_MATERIAL keeps its value when KEYS_MATERIAL is cleared. -/
theorem get_clearMaterial_low (s : State) (slab : Nat) {g : Fld} (h : g.bitOff 0 < F.KEYS_MATERIAL_DATA.bitOff 0) :
    (s.forN 28 (fun t w => t.put .keys slab F.KEYS_MATERIAL_DATA 0 w)).get .keys slab g = s.get .keys slab g := by
  refine foldl_keeps (fun t : State => t.get .keys slab g) _ _ s fun t w _ => get_put_page (Nat.ne_of_lt ?_) ..
  exact Nat.lt_of_lt_of_le h (Nat.add_le_add_left (Nat.zero_le _) _)

theorem get_clearMaterial_word (s : State) (slab : Nat) {w : Nat} (hw : w < 28) :
    (s.forN 28 (fun t w => t.put .keys slab F.KEYS_MATERIAL_DATA 0 w)).get .keys slab F.KEYS_MATERIAL_DATA w = 0 := by
  refine foldl_once (fun t : State => t.get .keys slab F.KEYS_MATERIAL_DATA w) _ (fun _ => 0) (fun t => get_put_same ..) _
    List.nodup_range (List.mem_range.2 hw) (fun t v _ hv => get_put_page ?_ ..) s
  simp only [Fld.bitOff, F.KEYS_MATERIAL_DATA]
  omega

/-- A command's end shows its code, DONE and no material. -/
theorem keysDone_ended (s : State) (slab : Nat) {err : Nat} (h : err < 16) : (s.keysDone slab err).keysEnded slab err := by
  unfold State.keysEnded State.keysDone
  refine ⟨?_, ?_, ?_, fun w hw => get_clearMaterial_word _ _ hw⟩
  · rw [get_clearMaterial_low _ _ (by decide), get_put_page (by decide), get_put_page (by decide), get_put_same]
    exact Nat.mod_eq_of_lt h
  · rw [get_clearMaterial_low _ _ (by decide), get_put_page (by decide), get_put_same]
    rfl
  · rw [get_clearMaterial_low _ _ (by decide), get_put_same]
    rfl

/-- KEYS_ATTR stands below KEYS_MATERIAL and above KEYS_STATUS; a command's end leaves it alone. -/
theorem get_keysDone_attr (s : State) (slab err : Nat) {g : Fld}
    (hg : g ∈ [F.KEYS_ATTR_VALID, F.KEYS_ATTR_RELEASE, F.KEYS_ATTR_PROTECTED, F.KEYS_ATTR_ATTACH_MASK]) :
    (s.keysDone slab err).get .keys slab g = s.get .keys slab g := by
  have hlow : ∀ g ∈ [F.KEYS_ATTR_VALID, F.KEYS_ATTR_RELEASE, F.KEYS_ATTR_PROTECTED, F.KEYS_ATTR_ATTACH_MASK],
      g.bitOff 0 < F.KEYS_MATERIAL_DATA.bitOff 0 ∧ g.bitOff 0 ≠ F.KEYS_STATUS_ERR.bitOff 0 ∧ g.bitOff 0 ≠ F.KEYS_STATUS_DONE.bitOff 0 ∧
        g.bitOff 0 ≠ F.KEYS_STATUS_BUSY.bitOff 0 := by decide
  obtain ⟨hmat, herr, hdone, hbusy⟩ := hlow g hg
  unfold State.keysDone
  rw [get_clearMaterial_low _ _ hmat, get_put_page hbusy, get_put_page hdone, get_put_page herr]

/-- A command's end keeps whatever every write of its page keeps. -/
theorem keysDone_keeps {γ : Type} (p : State → γ) {slab : Nat} (h : ∀ t f v i, p (t.put .keys slab f v i) = p t) (s : State) (err : Nat) :
    p (s.keysDone slab err) = p s := by
  unfold State.keysDone
  refine (foldl_keeps p _ (List.range 28) _ fun t w _ => h t F.KEYS_MATERIAL_DATA 0 w).trans ?_
  rw [h, h, h]
@[simp] theorem keysDone_crypto (s : State) (slab err : Nat) : (s.keysDone slab err).crypto = s.crypto :=
  keysDone_keeps State.crypto (fun _ _ _ _ => rfl) s err
@[simp] theorem keysDone_draws (s : State) (slab err : Nat) : (s.keysDone slab err).draws = s.draws :=
  keysDone_keeps State.draws (fun _ _ _ _ => rfl) s err
@[simp] theorem keysDone_outside (s : State) (slab err : Nat) : (s.keysDone slab err).outside = s.outside :=
  keysDone_keeps State.outside (fun _ _ _ _ => rfl) s err

/-! ### Contexts -/

theorem ctx_congr {s t : State} (h : t.crypto = s.crypto) (c : Nat) : t.ctx c = s.ctx c := congrArg (fun x : Crypto => sget ({} : KeyCtx) x.ctxs c) h
theorem ctx_setCtx_same (s : State) (c : Nat) (k : KeyCtx) : (s.setCtx c k).ctx c = k := sget_sset_same ..
theorem ctx_setCtx_other (s : State) {c x : Nat} (k : KeyCtx) (h : x ≠ c) : (s.setCtx c k).ctx x = s.ctx x := sget_sset_other _ _ _ _ _ h
@[simp] theorem ctx_keysDone (s : State) (slab err c : Nat) : (s.keysDone slab err).ctx c = s.ctx c := ctx_congr (keysDone_crypto ..) c

/-- A valid context with the staged attributes and the keys given. -/
def State.stagedCtx (s : State) (slab : Nat) (m : KeyMaterial) : KeyCtx :=
  { valid := true, release := s.bit .keys slab F.KEYS_ATTR_RELEASE, prot := s.bit .keys slab F.KEYS_ATTR_PROTECTED
    mask := s.get .keys slab F.KEYS_ATTR_ATTACH_MASK, keys := m }

theorem stagedCtx_congr {s t : State} (h : t.regs = s.regs) (slab : Nat) (m : KeyMaterial) : t.stagedCtx slab m = s.stagedCtx slab m := by
  simp only [State.stagedCtx, State.bit, get_congr s t h]

/-- The context selected on a Slab can be filled: it is not the Primer, nothing holds it, and no command is under way (R235, R236). -/
structure State.keysFree (s : State) (slab c : Nat) : Prop where
  sel : c = s.keysSel slab
  notPrimer : c ≠ 0
  idle : s.bit .keys slab F.KEYS_STATUS_BUSY = false
  free : s.ctxBusy c = false

theorem keysFill_some {s t : State} {slab c : Nat} {keys : State → Option KeyMaterial × State} {m : KeyMaterial} (h : s.keysFree slab c)
    (hk : keys s = (some m, t)) : s.keysFill slab keys = (t.setCtx c (t.stagedCtx slab m)).keysDone slab 0 := by
  obtain ⟨rfl, hprimer, hidle, hfree⟩ := h
  simp only [State.keysFill, hidle, if_neg hprimer, hfree, hk, Bool.false_eq_true, if_false]
  rfl

theorem keysFill_none {s t : State} {slab c : Nat} {keys : State → Option KeyMaterial × State} (h : s.keysFree slab c) (hk : keys s = (none, t)) :
    s.keysFill slab keys = t.keysDone slab 3 := by
  obtain ⟨rfl, hprimer, hidle, hfree⟩ := h
  simp only [State.keysFill, hidle, if_neg hprimer, hfree, hk, Bool.false_eq_true, if_false]

/-! ### The commands -/

/-- A write of KEYS_CMD that no rule drops does what its operation does. -/
theorem ends_keysCmd {i : Instr} {s : State} {agent slab : Nat} {f : State → State} {P : State → Prop}
    (he : exec i s = hub s (fun s => s.fieldWrite agent .keys slab F.KEYS_CMD_OP f)) (hr : s.runs = true)
    (hw : s.mayWrite agent .keys slab F.KEYS_CMD_OP) (hout : (f s).outside = s.outside) (hp : P (f s)) : Ends i s P := by
  have hf := fieldWrite_ok hw f
  exact ends_hub_same he hr (by rw [hf, hout]) (by rwa [hf])

/-- A command that fills a free context with the keys `m`; drawing or fetching them led from `s` to `t`. -/
theorem ends_keysFill {i : Instr} {s t : State} {agent slab c : Nat} {keys : State → Option KeyMaterial × State} {m : KeyMaterial}
    (he : exec i s = hub s (fun s => s.fieldWrite agent .keys slab F.KEYS_CMD_OP (fun s => s.keysFill slab keys))) (hr : s.runs = true)
    (hw : s.mayWrite agent .keys slab F.KEYS_CMD_OP) (h : s.keysFree slab c) (hk : keys s = (some m, t)) (hregs : t.regs = s.regs)
    (hcrypto : t.crypto = s.crypto) (hout : t.outside = s.outside) :
    Ends i s fun u => u.ctx c = s.stagedCtx slab m ∧ (∀ x, x ≠ c → u.ctx x = s.ctx x) ∧ u.keysEnded slab 0 ∧ u.draws = t.draws := by
  have hfill := keysFill_some h hk
  refine ends_keysCmd he hr hw ?_ ?_
  · rw [hfill, keysDone_outside]
    exact hout
  · rw [hfill]
    refine ⟨?_, fun x hx => ?_, keysDone_ended _ _ (by decide), keysDone_draws ..⟩
    · rw [ctx_keysDone, ctx_setCtx_same, stagedCtx_congr hregs]
    · rw [ctx_keysDone, ctx_setCtx_other _ _ hx, ctx_congr hcrypto]

/-- The keys that the blob in KEYS_MATERIAL holds under a key-encryption key, if it unwraps (R235). -/
def State.unwrapped (s : State) (slab kek : Nat) : Option KeyMaterial :=
  (sget none s.secure.keks kek).bind (fun k => unwrapKeys k (s.keysMaterial slab 26))

/-- A blob that does not unwrap leaves every context alone. -/
theorem ends_keysUnwrap_none {s : State} {agent slab kek c : Nat} (hr : s.runs = true)
    (hw : s.mayWrite agent .keys slab F.KEYS_CMD_OP) (h : s.keysFree slab c) (hm : s.unwrapped slab kek = none) :
    Ends (.keysUnwrap agent slab kek) s fun t => (∀ x, t.ctx x = s.ctx x) ∧ t.keysEnded slab 3 := by
  have hfill : s.keysUnwrap slab kek = _ := keysFill_none (t := s) h (congrArg (·, s) hm)
  refine ends_keysCmd rfl hr hw ?_ ?_
  · rw [hfill, keysDone_outside]
  · rw [hfill]
    exact ⟨ctx_keysDone _ _ _, keysDone_ended _ _ (by decide)⟩

/-- A valid context's erase and its change of attributes note something for the next stroke edge and show BUSY (R236, R272). -/
theorem ends_keysWait {i : Instr} {s : State} {agent slab : Nat} {f : State → State} {x : Crypto}
    (he : exec i s = hub s (fun s => s.fieldWrite agent .keys slab F.KEYS_CMD_OP f)) (hr : s.runs = true)
    (hw : s.mayWrite agent .keys slab F.KEYS_CMD_OP) (hf : f s = { s with crypto := x }.put .keys slab F.KEYS_STATUS_BUSY 1) :
    Ends i s fun t => t.crypto = x ∧ t.get .keys slab F.KEYS_STATUS_BUSY = 1 ∧
      { s with crypto := t.crypto }.OnlyRegs t [bitAddr .keys slab F.KEYS_STATUS_BUSY] := by
  refine ends_keysCmd he hr hw ?_ ?_
  · rw [hf]
    rfl
  · rw [hf]
    exact ⟨rfl, get_put_same .., onlyRegs_put (onlyRegs_refl _ _) _ _ _ _ _ (List.mem_singleton_self _)⟩

theorem ends_keysErase {s : State} {agent slab c : Nat} (hr : s.runs = true) (hw : s.mayWrite agent .keys slab F.KEYS_CMD_OP)
    (hsel : c = s.keysSel slab) (hc : c ≠ 0) (hidle : s.bit .keys slab F.KEYS_STATUS_BUSY = false) (hvalid : (s.ctx c).valid = true) :
    Ends (.keysErase agent slab) s fun t => t.crypto = { s.crypto with eraseEdge := s.crypto.eraseEdge ++ [(c, slab)] } ∧
      t.get .keys slab F.KEYS_STATUS_BUSY = 1 ∧ { s with crypto := t.crypto }.OnlyRegs t [bitAddr .keys slab F.KEYS_STATUS_BUSY] := by
  subst hsel
  refine ends_keysWait rfl hr hw ?_
  simp [State.keysErase, hidle, hc, hvalid]

theorem ends_keysWriteAttr {s : State} {agent slab c : Nat} (hr : s.runs = true) (hw : s.mayWrite agent .keys slab F.KEYS_CMD_OP)
    (hsel : c = s.keysSel slab) (hc : c ≠ 0) (hidle : s.bit .keys slab F.KEYS_STATUS_BUSY = false) (hvalid : (s.ctx c).valid = true) :
    Ends (.keysWriteAttr agent slab) s fun t => t.crypto = { s.crypto with attrNext := s.crypto.attrNext ++
        [(c, s.bit .keys slab F.KEYS_ATTR_RELEASE, s.bit .keys slab F.KEYS_ATTR_PROTECTED, s.get .keys slab F.KEYS_ATTR_ATTACH_MASK)] } ∧
      t.get .keys slab F.KEYS_STATUS_BUSY = 1 ∧ { s with crypto := t.crypto }.OnlyRegs t [bitAddr .keys slab F.KEYS_STATUS_BUSY] := by
  subst hsel
  refine ends_keysWait rfl hr hw ?_
  simp [State.keysWriteAttr, hidle, hc, hvalid]

/-- KEYS_ATTR with the attributes of a context. -/
def State.showAttr (s : State) (slab : Nat) (k : KeyCtx) : State :=
  (((s.put .keys slab F.KEYS_ATTR_VALID (b2n k.valid)).put .keys slab F.KEYS_ATTR_RELEASE (b2n k.release)).put .keys slab F.KEYS_ATTR_PROTECTED
    (b2n k.prot)).put .keys slab F.KEYS_ATTR_ATTACH_MASK k.mask

theorem b2n_mod_two (b : Bool) : b2n b % 2 ^ 1 = b2n b := by cases b <;> rfl

theorem get_showAttr (s : State) (slab : Nat) (k : KeyCtx) :
    (s.showAttr slab k).get .keys slab F.KEYS_ATTR_VALID = b2n k.valid ∧ (s.showAttr slab k).get .keys slab F.KEYS_ATTR_RELEASE = b2n k.release ∧
    (s.showAttr slab k).get .keys slab F.KEYS_ATTR_PROTECTED = b2n k.prot ∧
    (s.showAttr slab k).get .keys slab F.KEYS_ATTR_ATTACH_MASK = k.mask % 2 ^ F.KEYS_ATTR_ATTACH_MASK.w := by
  unfold State.showAttr
  refine ⟨?_, ?_, ?_, get_put_same ..⟩
  · rw [get_put_page (by decide), get_put_page (by decide), get_put_page (by decide), get_put_same]
    exact b2n_mod_two _
  · rw [get_put_page (by decide), get_put_page (by decide), get_put_same]
    exact b2n_mod_two _
  · rw [get_put_page (by decide), get_put_same]
    exact b2n_mod_two _

theorem ends_keysReadAttr {s : State} {agent slab c : Nat} (hr : s.runs = true) (hw : s.mayWrite agent .keys slab F.KEYS_CMD_OP)
    (hsel : c = s.keysSel slab) (hc : c ≠ 0) (hidle : s.bit .keys slab F.KEYS_STATUS_BUSY = false) :
    Ends (.keysReadAttr agent slab) s fun t => t.get .keys slab F.KEYS_ATTR_VALID = b2n (s.ctx c).valid ∧
      t.get .keys slab F.KEYS_ATTR_RELEASE = b2n (s.ctx c).release ∧ t.get .keys slab F.KEYS_ATTR_PROTECTED = b2n (s.ctx c).prot ∧
      t.get .keys slab F.KEYS_ATTR_ATTACH_MASK = (s.ctx c).mask % 2 ^ F.KEYS_ATTR_ATTACH_MASK.w ∧ t.crypto = s.crypto ∧ t.keysEnded slab 0 := by
  subst hsel
  have hread : s.keysReadAttr slab = (s.showAttr slab (s.ctx (s.keysSel slab))).keysDone slab 0 := by
    simp only [State.keysReadAttr, hidle, if_neg hc, Bool.false_eq_true, if_false]
    rfl
  refine ends_keysCmd rfl hr hw ?_ ?_
  · rw [hread, keysDone_outside]
    rfl
  · obtain ⟨hvalid, hrelease, hprot, hmask⟩ := get_showAttr s slab (s.ctx (s.keysSel slab))
    rw [hread]
    refine ⟨?_, ?_, ?_, ?_, ?_, keysDone_ended _ _ (by decide)⟩
    · rw [get_keysDone_attr _ _ _ (by simp), hvalid]
    · rw [get_keysDone_attr _ _ _ (by simp), hrelease]
    · rw [get_keysDone_attr _ _ _ (by simp), hprot]
    · rw [get_keysDone_attr _ _ _ (by simp), hmask]
    · rw [keysDone_crypto]
      rfl

/-- The only context that drains, with no request under it left, is removed (R236). -/
theorem ends_keysEraseDone {s : State} {slab c : Nat} (hr : s.runs = true) (hdrain : s.crypto.erasing = [(c, slab)])
    (huse : s.ctxInUse c = false) : Ends (.keysEraseDone slab) s fun t =>
      t.crypto = { s.crypto with erasing := [], ctxs := sdel s.crypto.ctxs c } ∧ t.keysEnded slab 0 := by
  have hdone : s.cmdKeysEraseDone slab =
      ({ s with crypto := { s.crypto with erasing := [], ctxs := sdel s.crypto.ctxs c } } : State).keysDone slab 0 := by
    simp [State.cmdKeysEraseDone, hdrain, huse]
  refine ends_hub_same (f := fun s => s.cmdKeysEraseDone slab) rfl hr ?_ ?_
  · rw [hdone, keysDone_outside]
    rfl
  · rw [hdone]
    exact ⟨keysDone_crypto .., keysDone_ended _ _ (by decide)⟩

/-- Settles O31: a fill writes one context and ends, an erase and a change of attributes note themselves for the stroke edge, and every end shows its
code. -/
theorem keyStore : Obligations.KeyStore := by
  refine ⟨?_, ?_, ?_, ?_, ?_, ?_, ?_⟩
  · intro s agent slab c hr hw hsel hc hidle hfree
    obtain ⟨t, ht, hctx, hothers, ⟨herr, hdone, hbusy, hmat⟩, hdraws⟩ :=
      ends_keysFill (i := .keysGenerate agent slab) rfl hr hw ⟨hsel, hc, hidle, hfree⟩ rfl rfl rfl rfl
    exact ⟨t, ht, hctx, hothers, herr, hdone, hbusy, hmat, hdraws⟩
  · intro s agent slab c hr hw hsel hc hidle hfree
    obtain ⟨t, ht, hctx, hothers, hended, -⟩ :=
      ends_keysFill (i := .keysLoad agent slab) rfl hr hw ⟨hsel, hc, hidle, hfree⟩ rfl rfl rfl rfl
    exact ⟨t, ht, hctx, hothers, hended⟩
  · intro s agent slab kek c hr hw hsel hc hidle hfree
    have h : s.keysFree slab c := ⟨hsel, hc, hidle, hfree⟩
    cases hm : s.unwrapped slab kek with
    | some m =>
      obtain ⟨t, ht, hctx, hothers, ⟨herr, hdone, hbusy, hmat⟩, -⟩ :=
        ends_keysFill (i := .keysUnwrap agent slab kek) rfl hr hw h (congrArg (·, s) hm) rfl rfl rfl
      refine ⟨t, ht, hothers, hdone, hbusy, hmat, ?_⟩
      rw [State.unwrapped] at hm
      rw [hm]
      exact ⟨herr, hctx⟩
    | none =>
      obtain ⟨t, ht, hctx, herr, hdone, hbusy, hmat⟩ := ends_keysUnwrap_none hr hw h hm
      refine ⟨t, ht, fun x _ => hctx x, hdone, hbusy, hmat, ?_⟩
      rw [State.unwrapped] at hm
      rw [hm]
      exact ⟨herr, hctx c⟩
  · intro s agent slab c hr hw hsel hc hidle hvalid
    obtain ⟨t, ht, hcrypto, hbusy, hframe⟩ := ends_keysErase hr hw hsel hc hidle hvalid
    exact ⟨t, ht, by rw [hcrypto], hbusy, by rw [hcrypto], hframe⟩
  · intro s agent slab c hr hw hsel hc hidle hvalid
    obtain ⟨t, ht, hcrypto, hbusy, hframe⟩ := ends_keysWriteAttr hr hw hsel hc hidle hvalid
    exact ⟨t, ht, by rw [hcrypto], hbusy, by rw [hcrypto], hframe⟩
  · intro s agent slab c hr hw hsel hc hidle
    exact ends_keysReadAttr hr hw hsel hc hidle
  · intro s slab c hr hdrain huse _
    obtain ⟨t, ht, hcrypto, hended⟩ := ends_keysEraseDone hr hdrain huse
    have hctx (x : Nat) : t.ctx x = if x = c then {} else s.ctx x := by rw [State.ctx, hcrypto, sget_sdel]; rfl
    exact ⟨t, ht, by rw [hcrypto], by simp [hctx], fun x hx => by simp [hctx, hx], hended⟩

end Sys2Proof.Machine
end

section
/-! The statements of the host ports, of the mailbox and of the boot. As above, their proofs are elaborated one after another: each thread reserves a
stack of its own, and the tests of the model leave little of the check's memory. Nothing here has section variables. -/
set_option deprecated.oldSectionVars true

section
/-! PROOFS. What the mailbox answers: event records and their interrupt policy (R294, R300), and what it tells of the module (R294, R295, R297). -/

namespace Sys2Proof.Machine

/-! ### A mailbox command -/

/-- A mailbox that is linked and free does its command, whose effect is the event's whole outcome (R296). -/
theorem ends_mbox {i : Instr} {s : State} {a : Nat} {f : State → State} {P : State → Prop} (he : exec i s = hub s (fun s => s.mbox a f))
    (hr : s.runs = true) (hlink : a = 16 ∨ s.linkUp a = true) (hbusy : s.mboxBusy a = false) (hout : (f s).outside = s.outside) (hp : P (f s)) :
    Ends i s P := by
  refine ends_hub_same he hr ?_ ?_
  · rwa [mbox_free hlink hbusy]
  · rwa [mbox_free hlink hbusy]

/-- A command that only answers changes nothing else. -/
theorem ends_answer {i : Instr} {s : State} {a : Nat} {p : List Byte} {f : State → State} (he : exec i s = hub s (fun s => s.mbox a f))
    (hr : s.runs = true) (hlink : a = 16 ∨ s.linkUp a = true) (hbusy : s.mboxBusy a = false) (hf : f s = s.answer a 0 p) :
    Ends i s (fun t => t.out = s.out ++ [.answer a 0 p] ∧ { s with out := t.out } = t) := by
  refine ends_mbox he hr hlink hbusy ?_ ?_
  · rw [hf]; rfl
  · rw [hf]; exact ⟨rfl, rfl⟩

/-! ### Event records (R300) -/

theorem att_modAtt_same (s : State) (a : Nat) (f : Attach → Attach) : (s.modAtt a f).att a = f (s.att a) := sget_sset_same ..

/-- The whole of a log leaves: its records and its overflow. -/
theorem cmdClearEventRecords_all {s : State} {a log : Nat} (hlink : a = 16 ∨ s.linkUp a = true) (hbusy : s.mboxBusy a = false) (hlog : log ≤ 4)
    (hany : s.logOf a log ≠ []) : s.cmdClearEventRecords a log true [] = (s.modAtt a (fun t => { t with
      logs := t.logs.filter (fun e => !(e.log = log && e.handle ∈ (s.logOf a log).map (fun e => e.handle))), overflow := sdel t.overflow log })).answer a 0 := by
  rw [State.cmdClearEventRecords, mbox_free hlink hbusy]
  simp [Nat.not_lt.2 hlog, hany]

/-- Of a log's own records every one is named by its handle. -/
theorem filter_handles_own (logs : List EvRec) (log : Nat) :
    (logs.filter (fun e => !(e.log = log && e.handle ∈ (logs.filter (fun e => e.log = log)).map (fun e => e.handle)))).filter (fun e => e.log = log) = [] := by
  simp only [List.filter_filter, List.filter_eq_nil_iff]
  intro e he
  simp only [Bool.and_eq_true, decide_eq_true_eq, Bool.not_eq_true', Bool.and_eq_false_iff, decide_eq_false_iff_not, not_and]
  intro hlog hkept
  refine hkept.elim (fun h => h hlog) (fun h => h ?_)
  exact List.mem_map_of_mem (List.mem_filter.2 ⟨he, decide_eq_true hlog⟩)

theorem filter_handles_other (logs : List EvRec) (p : EvRec → Bool) {log k : Nat} (h : k ≠ log) :
    (logs.filter (fun e => !(e.log = log && p e))).filter (fun e => e.log = k) = logs.filter (fun e => e.log = k) := by
  rw [List.filter_filter]
  refine List.filter_congr (fun e _ => ?_)
  by_cases he : e.log = k
  · simp [he, h]
  · simp [he]

/-- Changes of one attach point after another. -/
theorem foldl_modAtt (s : State) (a : Nat) (g : Nat → Attach → Attach) (ls : List Nat) :
    ∃ m, ls.foldl (fun (u : State) l => u.modAtt a (g l)) s = { s with ports := { s.ports with att := m } } ∧
      sget {} m a = ls.foldl (fun x l => g l x) (s.att a) ∧ ∀ x, x ≠ a → sget {} m x = s.att x := by
  induction ls generalizing s with
  | nil => exact ⟨s.ports.att, rfl, rfl, fun _ _ => rfl⟩
  | cons l ls ih =>
    obtain ⟨m, hm, hsame, hother⟩ := ih (s.modAtt a (g l))
    exact ⟨m, hm, hsame.trans (by rw [att_modAtt_same, List.foldl_cons]), fun x hx => (hother x hx).trans (att_modAtt_other hx _)⟩

/-- Settles O36: each command is one answer, the two that write after a change of their attach point alone. -/
theorem mailboxEvents : Obligations.MailboxEvents := by
  refine ⟨?_, ?_, ?_, ?_⟩
  · intro s a log n first last hr hlink hbusy hlog hover
    refine ends_answer rfl hr hlink hbusy ?_
    simp only [Nat.not_lt.2 hlog, if_false, hover]
  · intro s a log hr hlink hbusy hlog hany _
    refine ends_hub_same (f := fun s => s.cmdClearEventRecords a log true []) rfl hr ?_ ?_
    · rw [cmdClearEventRecords_all hlink hbusy hlog hany]; rfl
    · rw [cmdClearEventRecords_all hlink hbusy hlog hany]
      have hatt (f : Attach → Attach) : ((s.modAtt a f).answer a 0).att a = f (s.att a) := att_modAtt_same s a f
      have hother (f : Attach → Attach) : ∀ x, x ≠ a → ((s.modAtt a f).answer a 0).att x = s.att x := fun x hx => att_modAtt_other hx f
      refine ⟨?_, fun k hk => ?_, ?_, hother _, rfl, rfl⟩
      · rw [State.logOf, hatt]
        exact filter_handles_own _ _
      · rw [State.logOf, hatt]
        exact filter_handles_other _ _ hk
      · rw [hatt]
        simp [sget_sdel]
  · intro s a hr hlink hbusy
    exact ends_answer rfl hr hlink hbusy rfl
  · intro s a p0 p1 p2 p3 p4 hr hlink hbusy
    obtain ⟨m, hm, hsame, hother⟩ := foldl_modAtt s a
      (fun l x => { x with policy := sset 0x10 x.policy l ([p0, p1, p2, p3, p4].getD l 0 % 256) }) (List.range 5)
    have hset : s.cmdSetEventInterruptPolicy a [p0, p1, p2, p3, p4] = ({ s with ports := { s.ports with att := m } } : State).answer a 0 := by
      rw [State.cmdSetEventInterruptPolicy, mbox_free hlink hbusy]
      exact congrArg (fun t => State.answer t a 0) hm
    refine ends_hub_same (f := fun s => s.cmdSetEventInterruptPolicy a [p0, p1, p2, p3, p4]) rfl hr ?_ ?_
    · rw [hset]; rfl
    · rw [hset]
      have hatt : (({ s with ports := { s.ports with att := m } } : State).answer a 0).att a = _ := hsame
      refine ⟨?_, by rw [hatt]; rfl, hother, rfl, rfl⟩
      rw [hatt]
      simp [List.range_succ, sget_sset_other]

/-! ### Fields of an answer -/

theorem leBytes_length (n v : Nat) : (leBytes n v).length = n := by
  induction n generalizing v with
  | zero => rfl
  | succ n ih => rw [leBytes, List.length_cons, ih]

theorem leNat_leBytes (n v : Nat) : leNat (leBytes n v) = v % 256 ^ n := by
  induction n generalizing v with
  | zero => rw [Nat.pow_zero, Nat.mod_one]; rfl
  | succ n ih =>
    calc leNat (leBytes (n + 1) v) = v % 256 + 256 * leNat (leBytes n (v / 256)) := by simp only [leBytes, leNat, BitVec.toNat_ofNat]
      _ = v % 256 ^ (n + 1) := by rw [ih, Nat.pow_succ', Nat.mod_mul]

/-- A slice that lies within a byte string is that part of it. -/
theorem sliceB_eq_take_drop {l : List Byte} {i n : Nat} (h : i + n ≤ l.length) : sliceB l i n = (l.drop i).take n := by
  refine List.ext_getElem (by simp [sliceB]; omega) (fun k hk _ => ?_)
  have hn : k < n := by simpa [sliceB] using hk
  simp [sliceB, List.getElem?_eq_getElem (show i + k < l.length by omega)]

/-- The first field of an answer. -/
theorem fieldB_first (n v : Nat) (post : List Byte) : fieldB (leBytes n v ++ post) 0 n = v % 256 ^ n := by
  rw [fieldB, sliceB_eq_take_drop (by simp [leBytes_length]), List.drop_zero, List.take_left' (leBytes_length n v), leNat_leBytes]

/-- A field beyond `pre`. -/
theorem fieldB_skip {pre : List Byte} {i : Nat} (h : pre.length ≤ i) (l : List Byte) (n : Nat) :
    fieldB (pre ++ l) i n = fieldB l (i - pre.length) n := by
  have hslice : sliceB (pre ++ l) i n = sliceB l (i - pre.length) n := by
    refine List.map_congr_left (fun k _ => ?_)
    rw [List.getD_append_right _ _ _ _ (by omega), Nat.sub_add_comm h]
  rw [fieldB, hslice, fieldB]

theorem effectsLog_length : effectsLog.length = 4 * mboxOpcodes.length := by
  simp [effectsLog, leBytes_length, mboxOpcodes]

/-- The time just set is the time shown (R297). -/
theorem timestamp_of_set {s : State} {v : Nat} (h : s.ports.tstamp = some (v, s.now)) (hv : v < 2 ^ 64) : s.timestamp = v := by
  simpa [State.timestamp, h, strokesSince] using hv

/-- An answer some of whose bytes are free. -/
theorem ends_drawn_answer {i : Instr} {s : State} {a d : Nat} {p : List Byte} {f : State → State} {P : List Byte → Prop}
    (he : exec i s = hub s (fun s => s.mbox a f)) (hr : s.runs = true) (hlink : a = 16 ∨ s.linkUp a = true) (hbusy : s.mboxBusy a = false)
    (hf : f s = ({ s with draws := d } : State).answer a 0 p) (hp : P p) :
    Ends i s (fun t => ∃ p, t.out = s.out ++ [.answer a 0 p] ∧ P p ∧ { s with out := t.out, draws := t.draws } = t) := by
  refine ends_mbox he hr hlink hbusy ?_ ?_
  · rw [hf]; rfl
  · rw [hf]; exact ⟨p, rfl, hp, rfl⟩

theorem drawBytes_eq (s : State) (n : Nat) :
    s.drawBytes n = (leBytes n (Config.freeValue (8 * n) s.draws).toNat, { s with draws := s.draws + 1 }) := rfl

/-- The two capacities stand after the revision code and 15 free bytes (R294). -/
theorem ends_identifyMemoryDevice {s : State} {a : Nat} (hr : s.runs = true) (hlink : a = 16 ∨ s.linkUp a = true) (hbusy : s.mboxBusy a = false) :
    Ends (.identifyMemoryDevice a) s (fun t => ∃ p, t.out = s.out ++ [.answer a 0 p] ∧
      (fieldB p 16 8 = s.get .tier 0 F.TIER_CAP_LOGICAL_CAP % 2 ^ 64 ∧ fieldB p 24 8 = s.get .tier 0 F.TIER_CAP_STATIC_CAP % 2 ^ 64) ∧
      { s with out := t.out, draws := t.draws } = t) := by
  refine ends_drawn_answer rfl hr hlink hbusy rfl ?_
  simp [drawBytes_eq, fieldB_skip, fieldB_first, leBytes_length]

/-- Life used and the temperature stand after three free bytes (R294). -/
theorem ends_getHealthInfo {s : State} {a : Nat} (hr : s.runs = true) (hlink : a = 16 ∨ s.linkUp a = true) (hbusy : s.mboxBusy a = false) :
    Ends (.getHealthInfo a) s (fun t => ∃ p, t.out = s.out ++ [.answer a 0 p] ∧
      (fieldB p 3 1 = 0xFF ∧ fieldB p 4 2 = ((s.hubTemp / 16) % 65536).toNat) ∧ { s with out := t.out, draws := t.draws } = t) := by
  have htemp : ((s.hubTemp / 16) % 65536).toNat < 256 ^ 2 := by omega
  refine ends_drawn_answer rfl hr hlink hbusy rfl ?_
  simpa [drawBytes_eq, fieldB_skip, fieldB_first, leBytes_length] using Nat.mod_eq_of_lt htemp

/-- The fields of Gnorrid Identify (R295). -/
theorem identify_fields (s : State) (a : Nat) : fieldB (s.identify a) 0 1 = 0x0B ∧ fieldB (s.identify a) 1 1 = s.role % 256 ∧
    fieldB (s.identify a) 2 3 = s.addr % 2 ^ 24 ∧ fieldB (s.identify a) 8 6 = s.now.toNat := by
  have hnow : s.now.toNat % 256 ^ 6 = s.now.toNat := Nat.mod_eq_of_lt s.now.isLt
  simpa [State.identify, fieldB_skip, fieldB_first, leBytes_length] using hnow

/-- Settles O37: each command is one answer; the set commands write their own part of the ports, and two answers hold free bytes. -/
theorem mailboxStatus : Obligations.MailboxStatus := by
  refine ⟨fun s a hr hlink hbusy => ?_, fun s a value hr hlink hbusy hvalue => ?_, fun s a hr hlink hbusy => ?_, fun s a cfg hr hlink hbusy => ?_,
    fun s a hr hlink hbusy => ?_, fun s a ofs n hr hlink hbusy hfits => ?_, fun s a hr hlink hbusy => ?_, fun s a hr hlink hbusy => ?_,
    fun s a hr hlink hbusy => ?_, fun s a hr hlink hbusy => ?_, fun s a hr hlink hbusy => ?_⟩
  case refine_1 => exact ends_answer rfl hr hlink hbusy rfl
  case refine_2 =>
    refine ends_mbox rfl hr hlink hbusy rfl ?_
    rw [Nat.mod_eq_of_lt hvalue]
    exact ⟨timestamp_of_set rfl hvalue, rfl, rfl⟩
  case refine_3 => exact ends_answer rfl hr hlink hbusy rfl
  case refine_4 => exact ends_mbox rfl hr hlink hbusy rfl ⟨rfl, rfl, rfl⟩
  case refine_5 => exact ends_answer rfl hr hlink hbusy (by rw [effectsLog_length])
  case refine_6 =>
    rw [← effectsLog_length] at hfits
    refine ends_answer rfl hr hlink hbusy ?_
    rw [if_neg (Nat.not_lt.2 hfits), sliceB_eq_take_drop hfits]
  case refine_7 =>
    obtain ⟨t, ht, p, hout, ⟨hlogical, hstatic⟩, hframe⟩ := ends_identifyMemoryDevice hr hlink hbusy
    exact ⟨t, ht, p, hout, hlogical, hstatic, hframe⟩
  case refine_8 =>
    have hzero : List.replicate 24 (0 : Byte) = leBytes 8 0 ++ (leBytes 8 0 ++ leBytes 8 0) := by decide
    exact ends_answer rfl hr hlink hbusy (by simp only [hzero, List.append_assoc])
  case refine_9 =>
    obtain ⟨t, ht, p, hout, ⟨hlife, htemp⟩, hframe⟩ := ends_getHealthInfo hr hlink hbusy
    exact ⟨t, ht, p, hout, hlife, htemp, hframe⟩
  case refine_10 => exact ends_mbox rfl hr hlink hbusy rfl ⟨⟨_, rfl, identify_fields s a⟩, rfl⟩
  case refine_11 => exact ends_answer rfl hr hlink hbusy rfl

end Sys2Proof.Machine
end

section
/-! PROOFS. Links of attach points (R273, R274, R276, R304, R332): the fields a half of a port shows, a link that trains, and one that falls. -/

namespace Sys2Proof.Machine

/-! ### The fields of a half -/

@[simp] theorem link_modAtt (s : State) (a : Nat) (h : Attach → Attach) (b : Nat) (g : Fld) : (s.modAtt a h).link b g = s.link b g := rfl

@[simp] theorem link_setLink_same (s : State) (a : Nat) (f : Fld) (v : Nat) : (s.setLink a f v).link a f = v % 2 ^ f.w := get_put_same ..

/-- Another field of the half, the two with one stride. -/
theorem link_setLink_other {f g : Fld} (hbase : g.bitOff 0 ≠ f.bitOff 0) (hstride : g.bst = f.bst) (s : State) (a v : Nat) :
    (s.setLink a f v).link a g = s.link a g := by
  refine get_put_page ?_ s .port (portOf a) v
  simp only [Fld.bitOff, hstride] at hbase ⊢
  omega

/-- A field of the page that no half of `f` is. -/
theorem get_setLink {f g : Fld} {j : Nat} (h0 : g.bitOff j ≠ f.bitOff 0) (h1 : g.bitOff j ≠ f.bitOff 1) (s : State) (a v : Nat) :
    (s.setLink a f v).get .port (portOf a) g j = s.get .port (portOf a) g j := by
  refine get_put_page ?_ s .port (portOf a) v
  obtain h | h : halfOf a = 0 ∨ halfOf a = 1 := Nat.mod_two_eq_zero_or_one a
  · rwa [h]
  · rwa [h]

theorem link_raise {g : Fld} (h : 0xC0 ≤ g.bitOff 0) (s : State) (a bit : Nat) : (s.raise .port (portOf a) bit).link a g = s.link a g := by
  refine get_raise_page (.inr (h.trans ?_)) s .port (portOf a) bit
  simp only [Fld.bitOff]
  omega

theorem link_congr {s t : State} (h : t.regs = s.regs) (a : Nat) (g : Fld) : t.link a g = s.link a g := get_congr _ _ h ..

@[simp] theorem raise_outside (s : State) (b : Block) (n k : Nat) : (s.raise b n k).outside = s.outside := by
  simp only [State.outside, raise_tb, raise_sup, raise_boot, raise_pending]

/-! ### A link that trains (R274) -/

/-- PORT_LINK of a half whose link has trained at width `w` and speed `v`, before the interrupt is raised. -/
def State.showTrained (s : State) (a w v : Nat) : State :=
  (((((((s.modAtt a (fun t => { t with memWait := false })).setLink a F.PORT_LINK_UP 1).setLink a F.PORT_LINK_WIDTH w).setLink a
    F.PORT_LINK_SPEED v).setLink a F.PORT_LINK_FLIT256 1).setLink a F.PORT_LINK_MEM_EN 1).setLink a F.PORT_LINK_TRAIN_NARROW 0).setLink a
    F.PORT_LINK_DEGRADED 0

theorem setLink_modAtt (s : State) (a : Nat) (h : Attach → Attach) (f : Fld) (v : Nat) :
    (s.modAtt a h).setLink a f v = (s.setLink a f v).modAtt a h := (rfl)

/-- Lanes of a link at full width, by the code of PORT_LINK. -/
def State.fullWidth (s : State) (a : Nat) : Nat := if s.bit .port (portOf a) F.PORT_CFG_SPLIT then 2 else 3

theorem cmdLinkUp_full {s : State} {a width speed : Nat} (hmay : s.mayTrain a = true) (hdown : s.linkUp a = false) (hwide : s.fullWidth a ≤ width)
    (hplain : s.plainPcie = false) (hnext : a ∉ s.home.departNext) (hdep : s.home.departing = []) (hdeg : s.link a F.PORT_LINK_DEGRADED = 0) :
    s.cmdLinkUp a width speed true true = (s.showTrained a (s.fullWidth a) (min speed (s.maxSpeed (portOf a)))).raise .port (portOf a) 16 := by
  have hpos : s.fullWidth a ≠ 0 := by unfold State.fullWidth; split <;> decide
  unfold State.fullWidth at *
  rw [State.cmdLinkUp, if_pos hmay, State.linkTrains]
  simp [Nat.min_eq_right hwide, hpos, hdown, hplain, hnext, hdep, hdeg, State.showTrained, setLink_modAtt, b2n]

theorem showTrained_fields (s : State) (a : Nat) {w v : Nat} (hw : w < 4) (hv : v < 8) :
    (s.showTrained a w v).link a F.PORT_LINK_UP = 1 ∧ (s.showTrained a w v).link a F.PORT_LINK_WIDTH = w ∧
    (s.showTrained a w v).link a F.PORT_LINK_SPEED = v ∧ (s.showTrained a w v).link a F.PORT_LINK_FLIT256 = 1 ∧
    (s.showTrained a w v).link a F.PORT_LINK_MEM_EN = 1 := by
  have hwidth : w % 2 ^ F.PORT_LINK_WIDTH.w = w := Nat.mod_eq_of_lt hw
  have hspeed : v % 2 ^ F.PORT_LINK_SPEED.w = v := Nat.mod_eq_of_lt hv
  simp (disch := decide) only [State.showTrained, link_setLink_same, link_setLink_other, hwidth, hspeed]
  decide

theorem hasAttach_showTrained (s : State) (a w v : Nat) : (s.showTrained a w v).hasAttach a = s.hasAttach a := by
  have hsplit : (s.showTrained a w v).get .port (portOf a) F.PORT_CFG_SPLIT = s.get .port (portOf a) F.PORT_CFG_SPLIT := by
    have hmod (t : State) (h : Attach → Attach) : (t.modAtt a h).get .port (portOf a) F.PORT_CFG_SPLIT = t.get .port (portOf a) F.PORT_CFG_SPLIT := rfl
    simp (disch := decide) only [State.showTrained, get_setLink, hmod]
  simp only [State.hasAttach, State.bit, hsplit]

/-- The CDAT shows the rate of a link that is up in both of its regions (R276). -/
theorem cdat_up {t : State} {a : Nat} (hatt : t.hasAttach a = true) (hup : t.link a F.PORT_LINK_UP = 1) :
    (t.cdat a).map (fun r => (r.readNs, r.mbps)) = List.replicate 2 (960,
      125 * [2500, 5000, 8000, 16000, 32000, 64000].getD (t.link a F.PORT_LINK_SPEED) 64000 *
        [0, 4, 8, 16].getD (t.link a F.PORT_LINK_WIDTH) 0 / 1000) := by
  have hlink : t.linkUp a = true := by simp [State.linkUp, hatt, hup]
  simp only [State.cdat, State.linkRate, if_pos hlink]
  rfl

theorem lanes_fullWidth (s : State) (a : Nat) :
    [0, 4, 8, 16].getD (s.fullWidth a) 0 = if s.bit .port (portOf a) F.PORT_CFG_SPLIT then 8 else 16 := by
  unfold State.fullWidth
  split <;> rfl

/-- The fields of PORT_LINK that a training writes, with its interrupt. -/
def trainedAddrs (a : Nat) : List Nat :=
  intAddrs .port (portOf a) ++ [F.PORT_LINK_UP, F.PORT_LINK_WIDTH, F.PORT_LINK_SPEED, F.PORT_LINK_FLIT256, F.PORT_LINK_MEM_EN,
    F.PORT_LINK_TRAIN_NARROW, F.PORT_LINK_DEGRADED].map (fun f => bitAddr .port (portOf a) f (halfOf a))

theorem onlyOut_trained (s : State) (a w v : Nat) :
    { s with ports := (s.showTrained a w v).ports }.OnlyRegsOut ((s.showTrained a w v).raise .port (portOf a) 16) (trainedAddrs a) := by
  have hfield (f : Fld) (hf : f ∈ [F.PORT_LINK_UP, F.PORT_LINK_WIDTH, F.PORT_LINK_SPEED, F.PORT_LINK_FLIT256, F.PORT_LINK_MEM_EN,
      F.PORT_LINK_TRAIN_NARROW, F.PORT_LINK_DEGRADED]) : bitAddr .port (portOf a) f (halfOf a) ∈ trainedAddrs a :=
    List.mem_append_right _ (List.mem_map_of_mem hf)
  have hput {r u : State} {f : Fld} (x : Nat) (hu : r.OnlyRegsOut u (trainedAddrs a)) (hf : f ∈ [F.PORT_LINK_UP, F.PORT_LINK_WIDTH,
      F.PORT_LINK_SPEED, F.PORT_LINK_FLIT256, F.PORT_LINK_MEM_EN, F.PORT_LINK_TRAIN_NARROW, F.PORT_LINK_DEGRADED]) :
      r.OnlyRegsOut (u.setLink a f x) (trainedAddrs a) := onlyOut_put hu .port (portOf a) f x (halfOf a) (hfield f hf)
  have hchain (r : State) : r.OnlyRegsOut (((((((r.setLink a F.PORT_LINK_UP 1).setLink a F.PORT_LINK_WIDTH w).setLink a F.PORT_LINK_SPEED v).setLink a
      F.PORT_LINK_FLIT256 1).setLink a F.PORT_LINK_MEM_EN 1).setLink a F.PORT_LINK_TRAIN_NARROW 0).setLink a F.PORT_LINK_DEGRADED 0) (trainedAddrs a) := by
    refine hput 0 (hput 0 (hput 1 (hput 1 (hput v (hput w (hput 1 (onlyOut_refl _ _) ?_) ?_) ?_) ?_) ?_) ?_) ?_
    all_goals simp
  have hports : { s with ports := (s.showTrained a w v).ports } = s.modAtt a (fun t => { t with memWait := false }) := rfl
  rw [hports]
  exact onlyOut_raise (hchain _) .port (portOf a) 16 (fun k hk => List.mem_append_left _ hk)

/-- LINK_UP at full width (R274, R276). -/
theorem ends_linkUp_full {s : State} {a width speed : Nat} (hr : s.runs = true) (hmay : s.mayTrain a = true) (hdown : s.linkUp a = false)
    (hwide : s.fullWidth a ≤ width) (hplain : s.plainPcie = false) (hnext : a ∉ s.home.departNext) (hdep : s.home.departing = [])
    (hdeg : s.link a F.PORT_LINK_DEGRADED = 0) :
    Ends (.linkUp a width speed true true) s (fun t => t.linkUp a = true ∧ t.link a F.PORT_LINK_WIDTH = s.fullWidth a ∧
      t.link a F.PORT_LINK_SPEED = min speed (s.maxSpeed (portOf a)) ∧ t.link a F.PORT_LINK_FLIT256 = 1 ∧ t.link a F.PORT_LINK_MEM_EN = 1 ∧
      (t.cdat a).map (fun r => (r.readNs, r.mbps)) = List.replicate 2 (960,
        125 * [2500, 5000, 8000, 16000, 32000, 64000].getD (min speed (s.maxSpeed (portOf a))) 64000 *
          (if s.bit .port (portOf a) F.PORT_CFG_SPLIT then 8 else 16) / 1000) ∧
      (t.get .port (portOf a) F.HDR_INT_STATUS_INT_BLOCK).testBit 0 = true ∧ { s with ports := t.ports }.OnlyRegsOut t (trainedAddrs a)) := by
  have hw : s.fullWidth a < 4 := by unfold State.fullWidth; split <;> decide
  have hv : min speed (s.maxSpeed (portOf a)) < 8 := by unfold State.maxSpeed; omega
  have hatt : s.hasAttach a = true := by
    simp only [State.mayTrain, Bool.and_eq_true] at hmay
    tauto
  have hcmd := cmdLinkUp_full (speed := speed) hmay hdown hwide hplain hnext hdep hdeg
  obtain ⟨hup, hwidth, hspeed, hflit, hmem⟩ := showTrained_fields s a hw hv
  refine ends_hub_same (f := fun s => s.cmdLinkUp a width speed true true) rfl hr ?_ ?_
  · rw [hcmd, raise_outside]
    rfl
  · rw [hcmd]
    generalize hu : s.showTrained a (s.fullWidth a) (min speed (s.maxSpeed (portOf a))) = u at *
    have hattR : (u.raise .port (portOf a) 16).hasAttach a = true := by
      have hsplit : (u.raise .port (portOf a) 16).get .port (portOf a) F.PORT_CFG_SPLIT = u.get .port (portOf a) F.PORT_CFG_SPLIT :=
        get_raise_page (.inr (by decide)) ..
      rw [State.hasAttach, State.bit, hsplit, ← State.bit, ← State.hasAttach, ← hu, hasAttach_showTrained, hatt]
    have hupR : (u.raise .port (portOf a) 16).link a F.PORT_LINK_UP = 1 := by rw [link_raise (by decide), hup]
    have hwidthR : (u.raise .port (portOf a) 16).link a F.PORT_LINK_WIDTH = s.fullWidth a := by rw [link_raise (by decide), hwidth]
    have hspeedR : (u.raise .port (portOf a) 16).link a F.PORT_LINK_SPEED = min speed (s.maxSpeed (portOf a)) := by
      rw [link_raise (by decide), hspeed]
    refine ⟨by simp [State.linkUp, hattR, hupR], hwidthR, hspeedR, by rw [link_raise (by decide), hflit], by rw [link_raise (by decide), hmem], ?_,
      testBit_raise_block _ _ _ (k := 0) (by decide), ?_⟩
    · rw [cdat_up hattR hupR, hwidthR, hspeedR, lanes_fullWidth]
    · rw [raise_ports, ← hu]
      exact onlyOut_trained ..

/-! ### A link that falls (R304, R332) -/

/-- No request is under way at a home (recalls and queued ones), and no copy at a donor is to be freed. -/
def State.homeIdle (s : State) : Prop := s.home.queue = [] ∧ s.home.senders = [] ∧ s.home.waiting = [] ∧ s.ring.freeing = []

/-- What a link that falls leaves alone once its fields are cleared: all but the ports, the homes, the regulation and the queues of the Veins. -/
def State.aside (s : State) : (Timebase × Sup × Bool × List Instr × Bool) × SMap Nat × Tier × Media := (s.outside, s.regs, s.tier, s.media)

/-- An abort of a mailbox command, no request of it being under way but in an unknown region (R304). -/
theorem abortMailbox_idle {s : State} (h : s.homeIdle) (a : Nat) : (s.abortMailbox a).aside = s.aside ∧ (s.abortMailbox a).homeIdle ∧
    (s.abortMailbox a).home.reads = s.home.reads ∧ (s.abortMailbox a).ports =
      { s.ports with fwOwner := if s.ports.fwOwner = some a then none else s.ports.fwOwner } := by
  obtain ⟨hqueue, hsend, hwait, hfree⟩ := h
  rw [State.abortMailbox, settle_idle]
  · exact ⟨rfl, ⟨by simp [hqueue], by simp [hsend], by simp [hwait], hfree⟩, rfl, rfl⟩
  all_goals simp [hqueue, hsend, hwait, hfree]

theorem foldl_readGone_parts (s : State) (p : HReq → Bool) (l : List HReq) :
    ∃ r, l.foldl (fun t r => if p r then t.readGone (r.cls.getD 0) r.page else t) s = { s with regu := r } := by
  induction l generalizing s with
  | nil => exact ⟨s.regu, rfl⟩
  | cons x l ih =>
    rw [List.foldl_cons]
    split
    · obtain ⟨r, hr⟩ := ih (s.readGone (x.cls.getD 0) x.page)
      exact ⟨r, hr⟩
    · exact ih s

/-- What is in flight of an attach point is dropped (R304). -/
theorem dropInFlight_idle {s : State} (h : s.homeIdle) (a : Nat) : (s.dropInFlight a).aside = s.aside ∧
    (s.dropInFlight a).home.reads = s.home.reads.filter (fun r => r.req.attach ≠ some a) ∧
    (s.dropInFlight a).ports = (s.modAtt a (fun t => { t with early := [] })).ports := by
  obtain ⟨hqueue, hsend, hwait, hfree⟩ := h
  obtain ⟨r, hr⟩ := foldl_readGone_parts s (fun r => r.admitted && r.kind.isRead) (((s.home.reads.filter (fun r => r.req.attach = some a)).map
    (fun r => r.req)) ++ (s.home.queue ++ s.home.senders ++ s.home.regionWait ++ s.regu.held ++ s.home.waiting.map (fun w => w.req)).filter
    (fun r => r.attach = some a))
  rw [State.dropInFlight]
  simp only [hr]
  rw [settle_idle]
  · exact ⟨rfl, by simp [State.modAtt, State.dropAccs], rfl⟩
  all_goals simp [State.modAtt, State.dropAccs, hqueue, hsend, hwait, hfree]

/-- From `s` to `t` the link of an attach point has fallen (R304, R332). -/
structure State.LinkFell (s t : State) (a : Nat) : Prop where
  outside : t.outside = s.outside
  down : t.linkUp a = false
  count : t.link a F.PORT_RETRAIN_COUNT = s.link a F.PORT_RETRAIN_COUNT
  pending : t.bit .port (portOf a) F.HDR_STATUS_COMMIT_PENDING = s.bit .port (portOf a) F.HDR_STATUS_COMMIT_PENDING
  departs : a ∈ t.home.departNext
  reads : t.home.reads = s.home.reads.filter (fun r => r.req.attach ≠ some a)
  early : (t.att a).early = []
  bme : (t.att a).bme = false
  tier : t.tier = s.tier
  media : t.media = s.media

/-- PORT_LINK of a half whose link goes down. -/
def State.showDown (s : State) (a : Nat) : State := linkFields.foldl (fun t f => t.setLink a f 0) s

theorem clearDecoders_home (s : State) (a : Nat) : (s.clearDecoders a).home = s.home := rfl
theorem clearDecoders_aside (s : State) (a : Nat) : (s.clearDecoders a).aside = s.aside := rfl

theorem showDown_home (s : State) (a : Nat) : (s.showDown a).home = s.home := by
  simp only [State.showDown, linkFields, List.foldl_cons, List.foldl_nil, State.setLink, put_home]

theorem showDown_fields (s : State) (a : Nat) : (s.showDown a).link a F.PORT_LINK_UP = 0 ∧
    (s.showDown a).link a F.PORT_RETRAIN_COUNT = s.link a F.PORT_RETRAIN_COUNT ∧
    (s.showDown a).get .port (portOf a) F.HDR_STATUS_COMMIT_PENDING = s.get .port (portOf a) F.HDR_STATUS_COMMIT_PENDING := by
  simp (disch := decide) only [State.showDown, linkFields, List.foldl_cons, List.foldl_nil, link_setLink_same, link_setLink_other, get_setLink,
    and_true]
  rfl

/-- The function of an attach point whose link has gone down (R304). -/
def Attach.unlinked (t : Attach) : Attach := { t with memWait := false, bme := false, d3 := false, msixOn := false }

theorem linkFalls_fell {s : State} {a : Nat} (hup : s.linkUp a = true) (h : s.homeIdle) : s.LinkFell (s.linkFalls a) a := by
  have hfalls : s.linkFalls a = ((((((s.showDown a).clearDecoders a).abortMailbox a).dropInFlight a).modAtt a
      Attach.unlinked).depart a).raise .port (portOf a) 16 := by
    rw [State.linkFalls, if_pos hup]
    rfl
  have hidle : ((s.showDown a).clearDecoders a).homeIdle := h
  obtain ⟨haside, hidle2, hreads, -⟩ := abortMailbox_idle hidle a
  obtain ⟨haside2, hreads2, hports⟩ := dropInFlight_idle hidle2 a
  obtain ⟨hdown, hcount, hpend⟩ := showDown_fields s a
  generalize (((s.showDown a).clearDecoders a).abortMailbox a).dropInFlight a = u at *
  have hreads3 : u.home.reads = s.home.reads.filter (fun r => r.req.attach ≠ some a) := by
    have hsame : ((s.showDown a).clearDecoders a).home.reads = s.home.reads := by
      rw [clearDecoders_home, showDown_home]
    rw [hreads2, hreads, hsame]
  have hearly : (u.att a).early = [] := by
    rw [State.att, hports]
    exact congrArg Attach.early (att_modAtt_same _ a _)
  have hkept : u.aside = (s.showDown a).aside := by rw [haside2, haside, clearDecoders_aside]
  simp only [State.aside, Prod.mk.injEq] at hkept
  obtain ⟨hout, hregs, htier, hmedia⟩ := hkept
  generalize hv : (u.modAtt a Attach.unlinked).depart a = v at hfalls
  have hregs2 : v.regs = (s.showDown a).regs := by rw [← hv]; exact hregs
  have hatt : (s.linkFalls a).att a = (u.att a).unlinked := by
    rw [hfalls, State.att, raise_ports, ← hv]
    exact att_modAtt_same u a Attach.unlinked
  constructor
  · rw [hfalls, raise_outside, ← hv]; exact hout
  · rw [State.linkUp, hfalls, link_raise (by decide), link_congr hregs2, hdown]; simp
  · rw [hfalls, link_raise (by decide), link_congr hregs2, hcount]
  · rw [State.bit, hfalls, get_raise_page (by decide), get_congr _ _ hregs2, hpend, State.bit]
  · rw [hfalls, raise_home, ← hv]; exact mem_addOnce ..
  · rw [hfalls, raise_home, ← hv]; exact hreads3
  · rw [hatt]; exact hearly
  · rw [hatt]; rfl
  · rw [hfalls, raise_tier, ← hv]; exact htier
  · rw [hfalls, raise_media, ← hv]; exact hmedia

theorem linkUp_countRetrain (s : State) (a : Nat) : (s.countRetrain a).linkUp a = s.linkUp a := by
  have hsplit : (s.countRetrain a).get .port (portOf a) F.PORT_CFG_SPLIT = s.get .port (portOf a) F.PORT_CFG_SPLIT :=
    get_setLink (by decide) (by decide) ..
  have hup : (s.countRetrain a).link a F.PORT_LINK_UP = s.link a F.PORT_LINK_UP := by
    rw [State.countRetrain, link_setLink_other (f := F.PORT_RETRAIN_COUNT) (g := F.PORT_LINK_UP) (by decide) rfl]
  simp only [State.linkUp, State.hasAttach, State.bit, hsplit, hup]

/-- The fall is counted as a retraining (R305). -/
theorem countRetrain_fell {s t : State} {a : Nat} (h : s.LinkFell t a) : (t.countRetrain a).outside = s.outside ∧
    (t.countRetrain a).linkUp a = false ∧
    (t.countRetrain a).link a F.PORT_RETRAIN_COUNT = min 0xFFFFFFFF (s.link a F.PORT_RETRAIN_COUNT + 1) ∧
    a ∈ (t.countRetrain a).home.departNext ∧ (t.countRetrain a).home.reads = s.home.reads.filter (fun r => r.req.attach ≠ some a) ∧
    ((t.countRetrain a).att a).early = [] ∧ ((t.countRetrain a).att a).bme = false ∧ (t.countRetrain a).tier = s.tier ∧
    (t.countRetrain a).media = s.media := by
  refine ⟨h.outside, (linkUp_countRetrain t a).trans h.down, ?_, h.departs, h.reads, h.early, h.bme, h.tier, h.media⟩
  rw [State.countRetrain, link_setLink_same, h.count]
  exact Nat.mod_eq_of_lt (by simp only [F.PORT_RETRAIN_COUNT]; omega)

/-- A conventional reset makes the link fall; no change of the port's form waits for it (R273, R304). -/
theorem convReset_fell {s : State} {a : Nat} (hup : s.linkUp a = true) (h : s.homeIdle)
    (hpend : s.bit .port (portOf a) F.HDR_STATUS_COMMIT_PENDING = false) : s.LinkFell (s.convReset a) a := by
  have hfell := linkFalls_fell hup h
  rw [State.convReset]
  simp only [hfell.pending, hpend, Bool.false_and, Bool.false_eq_true, if_false]
  exact hfell

/-- Settles O34: a training shows its fields and raises its interrupt, every fall is `LinkFell` with a retraining counted, and the function's own
commands leave the link alone. -/
theorem portLinks : Obligations.PortLinks := by
  refine ⟨?_, ?_, ?_, ?_, ?_, ?_⟩
  · intro s a width speed hr hmay hdown _ hwide hplain hnext hdep hdeg
    obtain ⟨t, ht, hfields⟩ := ends_linkUp_full hr hmay hdown hwide hplain hnext hdep hdeg
    exact ⟨t, ht, hfields⟩
  · intro s a hr hup hqueue hsend hwait hfree
    have hfell := linkFalls_fell hup ⟨hqueue, hsend, hwait, hfree⟩
    have hcmd : s.cmdLinkDown a = (s.linkFalls a).countRetrain a := if_pos hup
    obtain ⟨hout, hend⟩ := countRetrain_fell hfell
    refine ends_hub_same (f := fun s => s.cmdLinkDown a) rfl hr ?_ ?_
    · rw [hcmd, hout]
    · rw [hcmd]; exact hend
  · intro s a hr hatt hup hpend hqueue hsend hwait hfree
    obtain ⟨hout, hdown, hcount, hnext, hreads, -, -, htier, hmedia⟩ :=
      countRetrain_fell (convReset_fell hup ⟨hqueue, hsend, hwait, hfree⟩ hpend)
    have hcmd : s.cmdPerst a = (s.convReset a).countRetrain a := if_pos hatt
    refine ends_hub_same (f := fun s => s.cmdPerst a) rfl hr ?_ ?_
    · rw [hcmd, hout]
    · rw [hcmd]; exact ⟨hdown, hcount, hnext, hreads, htier, hmedia⟩
  · intro s a hr hup hpend hqueue hsend hwait hfree
    obtain ⟨hout, hdown, hcount, hnext, hreads, -, -, htier, hmedia⟩ :=
      countRetrain_fell (convReset_fell hup ⟨hqueue, hsend, hwait, hfree⟩ hpend)
    have hcmd : s.cmdHotReset a = (s.convReset a).countRetrain a := if_pos hup
    refine ends_hub_same (f := fun s => s.cmdHotReset a) rfl hr ?_ ?_
    · rw [hcmd, hout]
    · rw [hcmd]; exact ⟨hdown, hcount, hnext, hreads, htier, hmedia⟩
  · intro s a hr hup hqueue hsend hwait hfree
    obtain ⟨haside, -, hreads, hports⟩ := abortMailbox_idle ⟨hqueue, hsend, hwait, hfree⟩ a
    have hcmd : s.cmdFlr a = (s.abortMailbox a).modAtt a (fun t => { t with bme := false, d3 := false, msixOn := false }) := if_pos hup
    simp only [State.aside, Prod.mk.injEq] at haside
    obtain ⟨hout, hregs, htier, -⟩ := haside
    refine ends_hub_same (f := fun s => s.cmdFlr a) rfl hr ?_ ?_
    · rw [hcmd]; exact hout
    · rw [hcmd, att_modAtt_same]
      refine ⟨rfl, rfl, rfl, ?_, ?_, hregs, htier, hreads⟩
      · show (s.abortMailbox a).ports.fwOwner ≠ some a
        rw [hports]
        show (if _ then _ else _) ≠ _
        split
        · simp
        · assumption
      · show (s.abortMailbox a).ports.hdm = _
        rw [hports]
  · intro s a d3 bme msix hr hup
    have hcmd : s.cmdConfigSpaceWrite a d3 bme msix = s.modAtt a (fun t => { t with d3 := d3, bme := bme, msixOn := msix }) := if_pos hup
    refine ends_hub_same (f := fun s => s.cmdConfigSpaceWrite a d3 bme msix) rfl hr ?_ ?_
    · rw [hcmd]; rfl
    · rw [hcmd]
      exact ⟨att_modAtt_same .., fun x hx => att_modAtt_other hx _, rfl⟩

end Sys2Proof.Machine
end

section
/-! PROOFS. What a fault record of level 2 or 3 leaves alone (R539 to R550, R554 to R556): the parts of the module that a report does not speak of, and
every field outside the header of a page that is not the collector's own. -/

namespace Sys2Proof.Machine

/-! ### The parts beside a report -/

/-- The homes, the queues of the Veins, the ring, the Diptychs, and the Slabs that are absent. -/
abbrev State.served (s : State) : Home × List VAcc × Ring × SMap Dipt × List Nat := (s.home, s.vq, s.ring, s.dipts, s.boot.absent)

/-- What a report of a fault leaves alone: the clock, the supervisor, the power and the queue, the reset in progress, the tier, the media, what serves
it, and a field. -/
def State.beside (s : State) (c : Block) (m : Nat) (g : Fld) (j : Nat) :
    (Timebase × Sup × Bool × List Instr × Bool) × Option ResetRun × Tier × Media × (Home × List VAcc × Ring × SMap Dipt × List Nat) × Nat :=
  (s.outside, s.boot.inReset, s.tier, s.media, s.served, s.get c m g j)

/-- A field beyond the header, within the first page of its block. -/
abbrev Fld.beyondHeader (g : Fld) (j : Nat) : Prop := 0x800 ≤ g.bitOff j ∧ g.bitOff j < 0x8000

theorem putP_header_beside {g : Fld} {j : Nat} (hg : g.beyondHeader j) {p : Nat} (hp : p % 4096 = 0) {f : Fld} (hf : f.bitOff 0 < 0x800) (s : State)
    (c : Block) (m v : Nat) : (s.putP p f v).beside c m g j = s.beside c m g j := by
  have hne : fkey (pg c m) g j ≠ fkey p f 0 := by
    have hc := pg_aligned c m
    obtain ⟨hlow, hhigh⟩ := hg
    rw [fkey_eq, fkey_eq]
    omega
  have hget : (s.putP p f v).get c m g j = s.get c m g j := getP_putP_other _ _ _ _ _ _ _ _ hne
  rw [State.beside, hget]
  rfl

theorem setInts_beside {g : Fld} {j : Nat} (hg : g.beyondHeader j) {p : Nat} (hp : p % 4096 = 0) (s : State) (c : Block) (m mask : Nat) :
    (s.setInts p mask).beside c m g j = s.beside c m g j := by
  have hget : (s.setInts p mask).get c m g j = s.get c m g j := by
    refine getP_setInts _ _ _ _ _ _ ?_
    have hc := pg_aligned c m
    obtain ⟨hlow, hhigh⟩ := hg
    rw [fkey_eq]
    omega
  simp only [State.beside, State.outside, State.served, hget, setInts_tb, setInts_sup, setInts_boot, setInts_pending, setInts_tier, setInts_media,
    setInts_home, setInts_vq, setInts_ring, setInts_dipts]

theorem put_flt_beside {g : Fld} {j : Nat} (hg : g.beyondHeader j) {c : Block} {m : Nat} (hpg : pg c m ≠ pg .flt 0) {f : Fld} (hf : f.bitOff 0 < 0x8000)
    (s : State) (v : Nat) : (s.put .flt 0 f v).beside c m g j = s.beside c m g j := by
  rw [State.beside, get_put_of_pg_ne hpg hf hg.2]
  rfl

theorem logEvent_beside (s : State) (a : Nat) (e : EvRec) (c : Block) (m : Nat) (g : Fld) (j : Nat) :
    (s.logEvent a e).beside c m g j = s.beside c m g j := by
  obtain ⟨f, o, h⟩ := logEvent_parts s a e
  rw [h]
  rfl

theorem logWhere_beside (s : State) (e : EvRec) (p : Nat → Bool) (c : Block) (m : Nat) (g : Fld) (j : Nat) :
    (s.logWhere e p).beside c m g j = s.beside c m g j := by
  refine foldl_keeps (fun t => t.beside c m g j) _ _ s (fun t a _ => ?_)
  split
  · exact logEvent_beside ..
  · rfl

theorem fatal_beside (s : State) (r : FRec) (c : Block) (m : Nat) (g : Fld) (j : Nat) : (s.fatal r).beside c m g j = s.beside c m g j := by
  unfold State.fatal
  extract_lets _ s1 _ e s2 cold cause
  have h1 : s1.beside c m g j = s.beside c m g j := by
    unfold s1
    split <;> rfl
  have h2 : s2.beside c m g j = s1.beside c m g j := (logEvent_beside ..).trans (logWhere_beside ..)
  rw [← h1, ← h2]
  rfl

/-! ### A record -/

/-- A report of a class of level 2 or 3 is recorded, escalated or not (R541, R542): no attach point enters viral by it. -/
theorem record_beside {g : Fld} {j : Nat} (hg : g.beyondHeader j) {c : Block} {m : Nat} (hpg : pg c m ≠ pg .flt 0) (s : State) {r : Rep}
    (h : 2 ≤ classBase r) (dropped : Nat) : (s.record r dropped).beside c m g j = s.beside c m g j := by
  unfold State.record
  extract_lets base esc lvl rec_ f f1 s1 s2 s3 s4 s5 s6 s7
  have hpage : s2.beside c m g j = s.beside c m g j := by
    unfold s2
    split
    · next b _ =>
      rw [setInts_beside hg (pg_aligned ..), putP_header_beside hg (pg_aligned ..) (by decide), putP_header_beside hg (pg_aligned ..) (by decide),
        putP_header_beside hg (pg_aligned ..) (by decide)]
      rfl
    · rfl
  have hflt : s5.beside c m g j = s2.beside c m g j := by
    have h3 : s3.beside c m g j = s2.beside c m g j := by
      rw [put_flt_beside hg hpg (by decide), put_flt_beside hg hpg (by decide)]
    have h4 : s4.beside c m g j = s3.beside c m g j := by
      unfold s4
      split
      · rfl
      · rw [put_flt_beside hg hpg (by decide), State.bump, put_flt_beside hg hpg (by decide)]
    rw [← h3, ← h4]
    exact setInts_beside hg (pg_aligned ..) ..
  have hhosts : s7.beside c m g j = s5.beside c m g j := by
    have h6 : s6.beside c m g j = s5.beside c m g j := by
      unfold s6
      split <;> rfl
    rw [← h6]
    unfold s7 State.reportHosts
    split
    · rfl
    · exact logWhere_beside ..
  have hlvl : ¬(esc && decide (lvl = 2)) = true := by
    cases hesc : esc with
    | false => simp
    | true =>
      simp only [lvl, hesc, if_true, Bool.true_and, decide_eq_true_eq, base]
      omega
  rw [if_neg hlvl, ← hpage, ← hflt, ← hhosts]
  split
  · exact fatal_beside ..
  · rfl

theorem fault_beside {g : Fld} {j : Nat} (hg : g.beyondHeader j) {c : Block} {m : Nat} (hpg : pg c m ≠ pg .flt 0) (s : State) (b : Block) (n cls : Nat)
    (r : Rep) (h : ∀ x : Rep, x.cls = cls → 2 ≤ classBase x) : (s.fault b n cls r).beside c m g j = s.beside c m g j := by
  unfold State.fault
  dsimp only
  split
  · exact record_beside hg hpg s (h _ rfl) 0
  · rfl

end Sys2Proof.Machine
end

section
/-! PROOFS. Decoder commits, IDE streams and page interrupts of a port (R279, R280, R288, R290, R291, R293). -/

namespace Sys2Proof.Machine

theorem pg_port_ne_flt (n : Nat) : pg .port n ≠ pg .flt 0 := by
  simp only [ne_eq, pg, Block.perSlab, Block.off, Block.insts, if_true, Bool.false_eq_true, if_false]
  omega

/-! ### Viral (R287) -/

/-- PORT_VIRAL of a half that enters viral, with PORT_LINK.VIRAL. -/
def State.showViral (s : State) (a cause seq : Nat) : State :=
  ((s.setLink a F.PORT_LINK_VIRAL 1).setLink a F.PORT_VIRAL_CAUSE cause).setLink a F.PORT_VIRAL_HQ_SEQ seq

theorem enterViral_keeps (s : State) (a cause seq : Nat) : (s.enterViral a cause seq).outside = s.outside ∧ (s.enterViral a cause seq).tier = s.tier ∧
    (s.enterViral a cause seq).media = s.media ∧ a ∈ (s.enterViral a cause seq).home.departNext ∧
    ∀ g : Fld, 0xC0 ≤ g.bitOff 0 → (s.enterViral a cause seq).link a g = (s.showViral a cause seq).link a g := by
  have hviral : s.enterViral a cause seq = ({ (s.showViral a cause seq).raise .port (portOf a) 18 with home := { ((s.showViral a cause seq).raise .port
    (portOf a) 18).home with departNext := addOnce ((s.showViral a cause seq).raise .port (portOf a) 18).home.departNext a } } : State).logEvent a
    { evOf 2 0x0A 2 (portOf a) with hqSeq := seq, stroke := s.now } := rfl
  obtain ⟨f, o, hlog⟩ := logEvent_parts ({ (s.showViral a cause seq).raise .port (portOf a) 18 with home := { ((s.showViral a cause seq).raise .port
    (portOf a) 18).home with departNext := addOnce ((s.showViral a cause seq).raise .port (portOf a) 18).home.departNext a } } : State) a
    { evOf 2 0x0A 2 (portOf a) with hqSeq := seq, stroke := s.now }
  rw [hviral, hlog]
  refine ⟨raise_outside .., raise_tier .., raise_media .., mem_addOnce .., fun g hg => ?_⟩
  exact (link_congr rfl a g).trans (link_raise hg ..)

/-! ### IDE streams (R290) -/

/-- A failed stream of a half is shown insecure and counted. -/
def State.showIdeFail (s : State) (a : Nat) : State :=
  (s.setLink a F.PORT_LINK_IDE_SECURE 0).setLink a F.PORT_IDE_FAIL_COUNT (min 0xFFFFFFFF (s.link a F.PORT_IDE_FAIL_COUNT + 1))

theorem classBase_ide : ∀ x : Rep, x.cls = 0x14 → 2 ≤ classBase x := by
  intro x hx
  simp [classBase, hx]

theorem showIdeFail_fields (s : State) (a : Nat) : (s.showIdeFail a).link a F.PORT_LINK_IDE_SECURE = 0 ∧
    (s.showIdeFail a).link a F.PORT_IDE_FAIL_COUNT = min 0xFFFFFFFF (s.link a F.PORT_IDE_FAIL_COUNT + 1) := by
  have hcount : min 0xFFFFFFFF (s.link a F.PORT_IDE_FAIL_COUNT + 1) % 2 ^ F.PORT_IDE_FAIL_COUNT.w = min 0xFFFFFFFF (s.link a F.PORT_IDE_FAIL_COUNT + 1) :=
    Nat.mod_eq_of_lt (by simp only [F.PORT_IDE_FAIL_COUNT]; omega)
  simp (disch := decide) only [State.showIdeFail, link_setLink_same, link_setLink_other, hcount]
  decide

theorem beyondHeader_half {g : Fld} (hlow : 0x800 ≤ g.bitOff 0) (hhigh : g.bitOff 1 < 0x8000) (a : Nat) : g.beyondHeader (halfOf a) := by
  have ha : halfOf a ≤ 1 := Nat.le_of_lt_succ (Nat.mod_lt _ (by decide))
  have hstep : g.bst * halfOf a ≤ g.bst * 1 := Nat.mul_le_mul_left _ ha
  simp only [Fld.beyondHeader, Fld.bitOff] at *
  omega

/-- IDE_FAIL on a secure stream (R288, R290): the fault's record leaves the fields of the link and the module's memory alone. -/
theorem ends_ideFail {s : State} {a : Nat} (hr : s.runs = true) (hup : s.linkUp a = true) (hsecure : s.link a F.PORT_LINK_IDE_SECURE = 1) :
    Ends (.ideFail a) s (fun t => t.link a F.PORT_LINK_IDE_SECURE = 0 ∧
      t.link a F.PORT_IDE_FAIL_COUNT = min 0xFFFFFFFF (s.link a F.PORT_IDE_FAIL_COUNT + 1) ∧ t.link a F.PORT_LINK_VIRAL = 1 ∧
      t.link a F.PORT_VIRAL_CAUSE = 2 ∧ a ∈ t.home.departNext ∧ t.tier = s.tier ∧ t.media = s.media) := by
  have hcmd : s.cmdIdeFail a = _ := if_pos (by simp [hup, hsecure])
  generalize hu : ((s.showIdeFail a).fault .port (portOf a) 0x14 { cls := 0x14, agent := 0x10 + a, unit := portOf a }).raise .port (portOf a) 19 = u
  have hviral : s.cmdIdeFail a = u.enterViral a 2 (s.showIdeFail a).nextSeq := by rw [hcmd, ← hu]; rfl
  have hbeside {g : Fld} (hg : g.beyondHeader (halfOf a)) : u.outside = s.outside ∧ u.tier = s.tier ∧ u.media = s.media ∧
      u.link a g = (s.showIdeFail a).link a g := by
    have h : u.beside .port (portOf a) g (halfOf a) = (s.showIdeFail a).beside .port (portOf a) g (halfOf a) := by
      rw [← hu, ← fault_beside hg (pg_port_ne_flt _) (s.showIdeFail a) .port (portOf a) 0x14 { cls := 0x14, agent := 0x10 + a, unit := portOf a }
        classBase_ide]
      exact setInts_beside hg (pg_aligned ..) ..
    simp only [State.beside, Prod.mk.injEq] at h
    obtain ⟨hout, -, htier, hmedia, -, hlink⟩ := h
    exact ⟨hout, htier, hmedia, hlink⟩
  obtain ⟨hout, htier, hmedia, hide⟩ := hbeside (beyondHeader_half (g := F.PORT_LINK_IDE_SECURE) (by decide) (by decide) a)
  obtain ⟨-, -, -, hcount⟩ := hbeside (beyondHeader_half (g := F.PORT_IDE_FAIL_COUNT) (by decide) (by decide) a)
  obtain ⟨hide0, hcount0⟩ := showIdeFail_fields s a
  obtain ⟨hout2, htier2, hmedia2, hnext, hlink⟩ := enterViral_keeps u a 2 (s.showIdeFail a).nextSeq
  refine ends_hub_same (f := fun s => s.cmdIdeFail a) rfl hr ?_ ?_
  · rw [hviral, hout2, hout]
  · rw [hviral, htier2, hmedia2, hlink _ (by decide), hlink _ (by decide), hlink _ (by decide), hlink _ (by decide)]
    refine ⟨?_, ?_, ?_, ?_, hnext, htier, hmedia⟩
    all_goals simp (disch := decide) only [State.showViral, link_setLink_same, link_setLink_other]
    · rw [hide, hide0]
    · rw [hcount, hcount0]
    · rfl
    · rfl

/-! ### Rearming (R293) -/

/-- The bit of a half rearms the half's attach point. -/
def State.rearmIf (s : State) (a : Nat) (c : Bool) : State := if c then s.modAtt a (fun y => { y with rearm := true }) else s

theorem rearmIf_att (s : State) (a : Nat) (c : Bool) : (c = true → ((s.rearmIf a c).att a).rearm = true) ∧ (c = false → (s.rearmIf a c).att a = s.att a) ∧
    ∀ x, x ≠ a → (s.rearmIf a c).att x = s.att x := by
  cases c with
  | false => exact ⟨by simp, fun _ => rfl, fun _ _ => rfl⟩
  | true => exact ⟨fun _ => congrArg Attach.rearm (att_modAtt_same s a fun y => { y with rearm := true }), by simp,
      fun x hx => att_modAtt_other hx fun y => { y with rearm := true }⟩

theorem rearmIf_parts (s : State) (a : Nat) (c : Bool) : ∃ m, s.rearmIf a c = { s with ports := { s.ports with att := m } } := by
  cases c with
  | false => exact ⟨s.ports.att, rfl⟩
  | true => exact ⟨_, rfl⟩

/-- Settles O35: a setting that passes waits in `hdmNext`; a failed stream is recorded, which leaves its link's fields alone, and enters viral. -/
theorem portDecodersAndStreams : Obligations.PortDecodersAndStreams := by
  refine ⟨?_, ?_, ?_, ?_⟩
  · intro s a j base size ways gran pos skip lock x hr hup hj hfree hx hok
    have hcmd : s.cmdHdmCommit a j base size ways gran pos skip true lock =
        { s with ports := { s.ports with hdmNext := s.ports.hdmNext ++ [(8 * portOf a + (s.decNums a).getD j 8, x)] } } := by
      rw [hx] at hok ⊢
      unfold State.cmdHdmCommit
      simp only [hup, hfree, Nat.not_le.2 hj, hok]
      rfl
    refine ends_hub_same (f := fun s => s.cmdHdmCommit a j base size ways gran pos skip true lock) rfl hr ?_ ?_
    · rw [hcmd]; rfl
    · rw [hcmd]; exact ⟨rfl, rfl⟩
  · intro s a hr hup hsecure
    exact ends_ideFail hr hup hsecure
  · intro s a hr hup hrel hflit
    have hcmd : s.cmdIdeKm a = s.setLink a F.PORT_LINK_IDE_SECURE 1 := by simp [State.cmdIdeKm, hup, hrel, hflit]
    refine ends_hub_same (f := fun s => s.cmdIdeKm a) rfl hr ?_ ?_
    · rw [hcmd]; rfl
    · rw [hcmd]
      exact ⟨link_setLink_same .., onlyRegs_put (onlyRegs_refl s _) .port (portOf a) F.PORT_LINK_IDE_SECURE 1 (halfOf a) (by simp)⟩
  · intro s agent port mask hr hmay
    have hcmd : s.cmdPortIrqRearm agent port mask = (s.rearmIf (2 * port) (mask.testBit 0)).rearmIf (2 * port + 1) (mask.testBit 1) :=
      fieldWrite_ok hmay _
    obtain ⟨hset0, hkept0, hother0⟩ := rearmIf_att s (2 * port) (mask.testBit 0)
    obtain ⟨hset1, hkept1, hother1⟩ := rearmIf_att (s.rearmIf (2 * port) (mask.testBit 0)) (2 * port + 1) (mask.testBit 1)
    obtain ⟨m0, h0⟩ := rearmIf_parts s (2 * port) (mask.testBit 0)
    obtain ⟨m1, h1⟩ := rearmIf_parts (s.rearmIf (2 * port) (mask.testBit 0)) (2 * port + 1) (mask.testBit 1)
    have hfirst := hother1 (2 * port) (by omega)
    have hsecond := hother0 (2 * port + 1) (by omega)
    refine ends_hub_same (f := fun s => s.cmdPortIrqRearm agent port mask) rfl hr ?_ ?_
    · rw [hcmd, h1, h0]; rfl
    · rw [hcmd]
      refine ⟨fun h hh hb => ?_, fun h hh hb => ?_, ?_⟩
      · obtain rfl | rfl : h = 0 ∨ h = 1 := by omega
        · exact (congrArg Attach.rearm hfirst).trans (hset0 hb)
        · exact hset1 hb
      · obtain rfl | rfl : h = 0 ∨ h = 1 := by omega
        · exact hfirst.trans (hkept0 hb)
        · exact (hkept1 hb).trans hsecond
      · rw [h1, h0]

end Sys2Proof.Machine
end

section
/-! PROOFS. Verification of the parts of an image (R592 to R597): what is accepted, and what is recorded of a rejected part. -/

namespace Sys2Proof.Machine

/-! ### The pages of the boot engines -/

theorem fkey_mgmt_ne {f g : Fld} {i j : Nat} (h : g.bitOff j ≠ f.bitOff i) (hf : f.bitOff i < 0x8000) (hg : g.bitOff j < 0x8000) (n m : Nat) :
    fkey (pg .mgmt m) g j ≠ fkey (pg .mgmt n) f i := by
  simp only [fkey_eq, pg, Block.perSlab, Block.off, Block.insts, if_true]
  omega

theorem pg_vein_ne_mgmt (v n : Nat) : pg .mgmt n ≠ pg .vein v := by
  simp only [pg, Block.perSlab, Block.off, Block.insts, if_true]
  omega

/-- Another field of the boot engines' pages. -/
theorem get_put_mgmt {f g : Fld} (h : g.bitOff 0 ≠ f.bitOff 0) (hf : f.bitOff 0 < 0x8000) (hg : g.bitOff 0 < 0x8000) (s : State) (n m v : Nat) :
    (s.put .mgmt n f v).get .mgmt m g = s.get .mgmt m g := get_put_other _ _ _ _ _ _ _ _ _ _ (fkey_mgmt_ne h hf hg n m)

/-- A field that both boot engines show alike. -/
theorem get_putBoot_same (s : State) (f : Fld) (v : Nat) {d : Nat} (hd : d < 2) : (s.putBoot f v).get .mgmt d f = v % 2 ^ f.w := by
  obtain rfl | rfl : d = 0 ∨ d = 1 := by omega
  · rw [State.putBoot, get_put_other _ _ _ _ _ _ _ _ _ _ (by simp only [fkey_eq, pg, Block.perSlab, Block.off, Block.insts, if_true]; omega), get_put_same]
  · exact get_put_same ..

/-! ### The record of a rejected part -/

/-- What MGMT_BOOT_FAIL of a Slab shows, with its interrupt. -/
def State.failShown (s : State) (slab : Nat) : Nat × Nat × Nat × Bool :=
  (s.get .mgmt slab F.MGMT_BOOT_FAIL_CAUSE, s.get .mgmt slab F.MGMT_BOOT_FAIL_PART, s.get .mgmt slab F.MGMT_BOOT_FAIL_SLOT,
    (s.get .mgmt slab F.HDR_INT_STATUS_INT_BLOCK).testBit 0)

/-- What a boot that goes on keeps: the record of a rejected part, and whether the processors are released and a reset is in progress. -/
def State.bootKept (s : State) (slab : Nat) : (Nat × Nat × Nat × Bool) × Bool × Option ResetRun := (s.failShown slab, s.boot.released, s.boot.inReset)

theorem bootKept_congr {s t : State} (hregs : t.regs = s.regs) (hrel : t.boot.released = s.boot.released) (hrun : t.boot.inReset = s.boot.inReset)
    (slab : Nat) : t.bootKept slab = s.bootKept slab := by
  simp only [State.bootKept, State.failShown, get_congr s t hregs, hrel, hrun]

/-- A field of the boot engines' pages that is no part of the record. -/
abbrev Fld.besideFail (f : Fld) : Prop := f.bitOff 0 < 0x8000 ∧ f.bitOff 0 ≠ F.HDR_INT_STATUS_INT_BLOCK.bitOff 0 ∧
  f.bitOff 0 ∉ [F.MGMT_BOOT_FAIL_CAUSE.bitOff 0, F.MGMT_BOOT_FAIL_PART.bitOff 0, F.MGMT_BOOT_FAIL_SLOT.bitOff 0]

theorem put_mgmt_bootKept {f : Fld} (h : f.besideFail) (s : State) (n v slab : Nat) : (s.put .mgmt n f v).bootKept slab = s.bootKept slab := by
  obtain ⟨hf, hint, hfail⟩ := h
  simp only [List.mem_cons, List.not_mem_nil, or_false, not_or] at hfail
  obtain ⟨hcause, hpart, hslot⟩ := hfail
  rw [State.bootKept, State.failShown, get_put_mgmt (Ne.symm hcause) hf (by decide), get_put_mgmt (Ne.symm hpart) hf (by decide),
    get_put_mgmt (Ne.symm hslot) hf (by decide), get_put_mgmt (Ne.symm hint) hf (by decide)]
  rfl

theorem putBoot_bootKept {f : Fld} (h : f.besideFail) (s : State) (v slab : Nat) : (s.putBoot f v).bootKept slab = s.bootKept slab := by
  rw [State.putBoot, put_mgmt_bootKept h, put_mgmt_bootKept h]

theorem raise_fallback_bootKept (s : State) (n slab : Nat) : (s.raise .mgmt n 17).bootKept slab = s.bootKept slab := by
  have hfail {g : Fld} (hg : g.beyondHeader 0) : (s.raise .mgmt n 17).get .mgmt slab g = s.get .mgmt slab g := by
    have h := setInts_beside hg (pg_aligned .mgmt n) s .mgmt slab (2 ^ 17)
    simp only [State.beside, Prod.mk.injEq] at h
    obtain ⟨-, -, -, -, -, hget⟩ := h
    exact hget
  have hint : ((s.raise .mgmt n 17).get .mgmt slab F.HDR_INT_STATUS_INT_BLOCK).testBit 0 =
      (s.get .mgmt slab F.HDR_INT_STATUS_INT_BLOCK).testBit 0 := by
    by_cases hn : n = slab
    · subst hn
      rw [raise_block _ _ _ 1 (by decide), Nat.testBit_mod_two_pow, Nat.testBit_or]
      simp
    · rw [get_raise_of_pg_ne (by simp only [ne_eq, pg, Block.perSlab, Block.off, Block.insts, if_true]; omega) (by decide)]
  simp only [State.bootKept, State.failShown, hfail (g := F.MGMT_BOOT_FAIL_CAUSE) (by decide), hfail (g := F.MGMT_BOOT_FAIL_PART) (by decide),
    hfail (g := F.MGMT_BOOT_FAIL_SLOT) (by decide), hint, raise_boot]

theorem fallback_bootKept (s : State) (slab : Nat) : s.fallback.bootKept slab = s.bootKept slab := by
  have hfold : s.fallback.bootKept slab = (s.putBoot F.MGMT_BOOT_STATUS_FALLBACK 1).bootKept slab :=
    foldl_keeps (fun t => t.bootKept slab) _ _ _ (fun t d _ => raise_fallback_bootKept t d slab)
  rw [hfold, putBoot_bootKept (by decide)]

theorem showVein_bootKept (s : State) (v slab : Nat) : (s.showVein v).bootKept slab = s.bootKept slab := by
  have hput {f : Fld} (hf : f.bitOff 0 < 0x8000) (t : State) (x : Nat) : (t.put .vein v f x).bootKept slab = t.bootKept slab := by
    rw [State.bootKept, State.failShown, get_put_of_pg_ne (pg_vein_ne_mgmt v slab) hf (by decide), get_put_of_pg_ne (pg_vein_ne_mgmt v slab) hf (by decide),
      get_put_of_pg_ne (pg_vein_ne_mgmt v slab) hf (by decide), get_put_of_pg_ne (pg_vein_ne_mgmt v slab) hf (by decide)]
    rfl
  rw [State.showVein, State.setDeliverable, hput (by decide), hput (by decide), hput (by decide), hput (by decide), hput (by decide)]

/-! ### What follows a verdict -/

theorem showVeins_boot (s : State) (n : Nat) : (s.forN n (fun u v => u.showVein v)).boot = s.boot :=
  foldl_keeps State.boot _ _ s (fun _ _ _ => rfl)

theorem configDone_boot (s : State) (grade : Nat) (digest : BitVec 384) (isDefault : Bool) :
    (s.configDone grade digest isDefault).boot.accepted = setBit s.boot.accepted 2 true ∧
    (s.configDone grade digest isDefault).boot.digests = sput s.boot.digests 1 digest := by
  unfold State.configDone
  dsimp only
  split
  · rw [showVeins_boot]
    exact ⟨rfl, rfl⟩
  · exact ⟨rfl, rfl⟩

theorem configDone_bootKept (s : State) (grade : Nat) (digest : BitVec 384) (isDefault : Bool) (slab : Nat) :
    (s.configDone grade digest isDefault).bootKept slab = s.bootKept slab := by
  unfold State.configDone
  extract_lets b s1 s2 t
  have h2 : s2.bootKept slab = s.bootKept slab := by
    rw [putBoot_bootKept (by decide), putBoot_bootKept (by decide)]
    exact bootKept_congr rfl rfl rfl slab
  split
  · rw [← h2]
    exact (foldl_keeps (fun u : State => u.bootKept slab) _ _ _ (fun u v _ => showVein_bootKept u v slab)).trans (bootKept_congr rfl rfl rfl slab)
  · exact h2

theorem putFlash_bootKept (s : State) (a : Nat) (v : Byte) (slab : Nat) : (s.putFlash a v).bootKept slab = s.bootKept slab :=
  bootKept_congr rfl rfl rfl slab

theorem trySlot_bootKept (s : State) (slot : Nat) (pend : Bool) (slab : Nat) : (s.trySlot slot pend).bootKept slab = s.bootKept slab := by
  rw [State.trySlot, putBoot_bootKept (by decide), putBoot_bootKept (by decide)]
  exact bootKept_congr rfl rfl rfl slab

theorem slotFails_bootKept (s : State) (slab : Nat) : s.slotFails.bootKept slab = s.bootKept slab := by
  unfold State.slotFails
  extract_lets b s1 next t
  have h1 : s1.bootKept slab = s.bootKept slab := by
    unfold s1
    split
    · rw [fallback_bootKept, putFlash_bootKept]
    · rfl
  split
  · rw [trySlot_bootKept, fallback_bootKept, putBoot_bootKept (by decide), ← h1]
    exact bootKept_congr rfl rfl rfl slab
  · rw [trySlot_bootKept, h1]

theorem partFails_bootKept (s : State) (slab kind cause : Nat) : (s.partFails slab kind cause).bootKept slab = (s.partRejected slab kind cause).bootKept slab := by
  unfold State.partFails
  extract_lets s2 b t
  split
  · exact slotFails_bootKept ..
  · split
    · split
      · exact trySlot_bootKept ..
      · exact configDone_bootKept ..
    · rw [put_mgmt_bootKept (by decide), putBoot_bootKept (by decide)]
      exact bootKept_congr rfl rfl rfl slab

end Sys2Proof.Machine
end

section
/-! PROOFS. The boot's commands (R512, R592 to R598): the verdict on a part, the ring stream, the release of the processors, and READY. -/

namespace Sys2Proof.Machine

/-! ### The verdict on a part -/

theorem ends_bootVerifyDone {s : State} {slab kind : Nat} {err : Bool} {P : State → Prop} (hr : s.runs = true)
    (hp : P (s.cmdBootVerifyDone slab kind err)) : Ends (.bootVerifyDone slab kind err) s P := by
  refine ⟨_, rfl, ?_⟩
  rwa [caughtUp_of_runs hr]

/-- A part whose verification is due meets its verdict. -/
theorem cmdBootVerifyDone_due {s : State} {slab kind : Nat} {err : Bool} (hr : s.runs = true) (hdue : s.verifyDue slab kind = true) :
    s.cmdBootVerifyDone slab kind err =
      if s.partVerdict kind err = 0 then (s.partGood kind).within s
      else if s.verifyCut then ((s.partRejected slab kind (s.partVerdict kind err)).within s).beginCold 0x0B false true
      else (s.partFails slab kind (s.partVerdict kind err)).within s := by
  simp [State.cmdBootVerifyDone, (runs_iff.1 hr).1, hdue]

theorem partVerdict_le (s : State) (kind : Nat) (err : Bool) : s.partVerdict kind err ≤ 6 := by
  have hcheck (rd : Nat → Byte) (base : Nat) : partCheck rd base kind ≤ 6 := by
    unfold partCheck
    dsimp only
    repeat' split
    all_goals omega
  unfold State.partVerdict
  dsimp only
  split
  · exact le_refl 6
  · exact hcheck ..

theorem verifyDue_bounds {s : State} {slab kind : Nat} (h : s.verifyDue slab kind = true) : slab ≤ 1 ∧ (kind = 1 ∨ kind = 2 ∨ kind = 3) := by
  simp only [State.verifyDue, Bool.and_eq_true, Bool.or_eq_true, decide_eq_true_eq] at h
  omega

theorem partRejected_shown (s : State) (slab : Nat) {kind cause : Nat} (hkind : kind < 8) (hcause : cause < 256) :
    (s.partRejected slab kind cause).bootKept slab = ((cause, kind, s.boot.slot % 2, true), s.boot.released, s.boot.inReset) := by
  have hbit := testBit_raise_block (((s.put .mgmt slab F.MGMT_BOOT_FAIL_CAUSE cause).put .mgmt slab F.MGMT_BOOT_FAIL_PART kind).put .mgmt slab
    F.MGMT_BOOT_FAIL_SLOT s.boot.slot) .mgmt slab (k := 0) (by decide)
  have hc : cause % 2 ^ F.MGMT_BOOT_FAIL_CAUSE.w = cause := Nat.mod_eq_of_lt hcause
  have hk : kind % 2 ^ F.MGMT_BOOT_FAIL_PART.w = kind := Nat.mod_eq_of_lt hkind
  have hs : s.boot.slot % 2 ^ F.MGMT_BOOT_FAIL_SLOT.w = s.boot.slot % 2 := rfl
  simp only [State.bootKept, State.failShown, State.partRejected, hbit, raise_boot, put_boot]
  simp (disch := decide) only [get_raise_page, get_put_page, get_put_same, hc, hk, hs]

/-- A part that is accepted stands among the accepted ones with its digest (R593, R597); the reset goes on. -/
theorem partGood_boot {s : State} {kind : Nat} (hkind : kind = 1 ∨ kind = 2 ∨ kind = 3) :
    (s.partGood kind).boot.accepted.testBit (if kind = 1 then 2 else kind - 2) = true ∧
    sget 0 (s.partGood kind).boot.digests kind = partDigest (s.partAt kind).1 (s.partAt kind).2 ∧
    (s.partGood kind).boot.released = s.boot.released ∧ (s.partGood kind).boot.inReset = s.boot.inReset := by
  unfold State.partGood
  extract_lets x d b _ s1 s2
  by_cases h1 : kind = 1
  · subst h1
    have hkept := configDone_bootKept s (Config.gradeOf (readAt x.1 (x.2 + 256) (partLen x.1 x.2))) d false 0
    obtain ⟨hacc, hdig⟩ := configDone_boot s (Config.gradeOf (readAt x.1 (x.2 + 256) (partLen x.1 x.2))) d false
    simp only [State.bootKept, Prod.mk.injEq] at hkept
    simp only [if_true, hacc, hdig, testBit_setBit, sget_sput_same]
    exact ⟨trivial, rfl, hkept.2⟩
  · have hboot : s1.boot.accepted.testBit (kind - 2) = true ∧ sget 0 s1.boot.digests kind = d ∧ s1.boot.released = s.boot.released ∧
        s1.boot.inReset = s.boot.inReset := by
      exact ⟨(testBit_setBit s.boot.accepted (kind - 2) true :), (sget_sput_same 0 s.boot.digests kind d :), rfl, rfl⟩
    simp only [h1, if_false]
    split
    · split
      · exact hboot
      · exact hboot
    · exact hboot

theorem verdict_goes_on {s : State} {slab kind v : Nat} {err : Bool} (hr : s.runs = true) (hdue : s.verifyDue slab kind = true)
    (hv : v = s.partVerdict kind err) (hcut : v = 0 ∨ s.verifyCut = false) : Ends (.bootVerifyDone slab kind err) s (fun t =>
      (v = 0 → t.boot.accepted.testBit (if kind = 1 then 2 else kind - 2) = true ∧
        sget 0 t.boot.digests kind = partDigest (s.partAt kind).1 (s.partAt kind).2) ∧
      (v ≠ 0 → t.get .mgmt slab F.MGMT_BOOT_FAIL_CAUSE = v ∧ t.get .mgmt slab F.MGMT_BOOT_FAIL_PART = kind ∧
        t.get .mgmt slab F.MGMT_BOOT_FAIL_SLOT = s.boot.slot % 2 ∧ (t.get .mgmt slab F.HDR_INT_STATUS_INT_BLOCK).testBit 0 = true) ∧
      t.boot.released = s.boot.released ∧ t.boot.inReset = s.boot.inReset) := by
  obtain ⟨-, hkind⟩ := verifyDue_bounds hdue
  have hle := partVerdict_le s kind err
  refine ends_bootVerifyDone hr ?_
  rw [cmdBootVerifyDone_due hr hdue, ← hv]
  rw [← hv] at hle
  by_cases h0 : v = 0
  · obtain ⟨hacc, hdig, hrel, hrun⟩ := partGood_boot (s := s) hkind
    rw [if_pos h0]
    exact ⟨fun _ => ⟨hacc, hdig⟩, fun h => absurd h0 h, hrel, hrun⟩
  · have hkept := (partFails_bootKept s slab kind v).trans (partRejected_shown s slab (by omega) (by omega))
    simp only [State.bootKept, State.failShown, Prod.mk.injEq] at hkept
    obtain ⟨⟨hcause, hpart, hslot, hint⟩, hrel, hrun⟩ := hkept
    rw [if_neg h0, if_neg (by simp [hcut.resolve_left h0])]
    exact ⟨fun h => absurd h h0, fun _ => ⟨hcause, hpart, hslot, hint⟩, hrel, hrun⟩

/-! ### A rejected part cuts a warm reset short (R597) -/

theorem pg_rstc_ne_flt : pg .rstc 0 ≠ pg .flt 0 := by decide

/-- What a cold start leaves of the reset that began it and of the RSTC page. -/
theorem tripRecord_kept (s : State) {g : Fld} (hg : g.beyondHeader 0) : s.tripRecord.boot.inReset = s.boot.inReset ∧
    s.tripRecord.get .rstc 0 g = s.get .rstc 0 g := by
  unfold State.tripRecord
  extract_lets m s1 e s2
  have h1 : s1.beside .rstc 0 g 0 = s.beside .rstc 0 g 0 :=
    fault_beside hg pg_rstc_ne_flt s .psup 0 0x1F _ (fun x hx => by simp [classBase, hx])
  have h2 : s2.beside .rstc 0 g 0 = s1.beside .rstc 0 g 0 := by
    unfold s2
    generalize e = o
    cases o with
    | some ev => exact logWhere_beside ..
    | none => rfl
  have h := h2.trans h1
  simp only [State.beside, Prod.mk.injEq] at h
  obtain ⟨-, hrun, -, -, -, hget⟩ := h
  split
  · exact ⟨hrun, hget⟩
  · exact ⟨rfl, rfl⟩

/-- The fields of the RSTC page that tell of the reset. -/
abbrev Fld.ofReset (g : Fld) : Prop := g = F.RSTC_CAUSE_LAST ∨ g = F.RSTC_STATUS_VERIFY_CUT ∨ g = F.RSTC_STATUS_FLUSH_CUT

theorem ofReset_beyondHeader {g : Fld} (hg : g.ofReset) : g.beyondHeader 0 := by
  obtain rfl | rfl | rfl := hg <;> decide

theorem get_put_rstc {f g : Fld} (h : g.bitOff 0 ≠ f.bitOff 0) (s : State) (v : Nat) : (s.put .rstc 0 f v).get .rstc 0 g = s.get .rstc 0 g :=
  get_put_page h ..

/-- A write in another page than RSTC's. -/
theorem get_rstc_of_put {g : Fld} (hg : g.ofReset) {b : Block} {n : Nat} {f : Fld} (hpg : pg .rstc 0 ≠ pg b n) (hf : f.bitOff 0 < 0x8000) (s : State) (v : Nat) :
    (s.put b n f v).get .rstc 0 g = s.get .rstc 0 g := get_put_of_pg_ne hpg hf (ofReset_beyondHeader hg).2 s v

theorem get_rstc_of_putBoot {g : Fld} (hg : g.ofReset) {f : Fld} (hf : f.bitOff 0 < 0x8000) (s : State) (v : Nat) :
    (s.putBoot f v).get .rstc 0 g = s.get .rstc 0 g := by
  rw [State.putBoot, get_rstc_of_put hg (by decide) hf, get_rstc_of_put hg (by decide) hf]

/-- The latching of the straps writes other fields (R481, R591). -/
theorem straps_kept (s : State) {g : Fld} (hg : g.ofReset) : s.latchStraps.takeRole.get .rstc 0 g = s.get .rstc 0 g := by
  rw [State.takeRole, get_rstc_of_put hg (by decide) (by decide), get_rstc_of_put hg (by decide) (by decide), State.latchStraps,
    get_rstc_of_put hg (by decide) (by decide), get_rstc_of_put hg (by decide) (by decide)]
  obtain rfl | rfl | rfl := hg
  all_goals rw [get_put_rstc (by decide), get_put_rstc (by decide), get_put_rstc (by decide)]

/-- So does the start of the boot engines (R592). -/
theorem bootStart_kept (s : State) (cold : Bool) {g : Fld} (hg : g.ofReset) : (s.bootStart cold).boot.inReset = s.boot.inReset ∧
    (s.bootStart cold).get .rstc 0 g = s.get .rstc 0 g := by
  unfold State.bootStart
  extract_lets src s1 pend slot b s2 s3
  have h1 : s1.get .rstc 0 g = s.get .rstc 0 g := (get_rstc_of_putBoot hg (by decide) _ _).trans (get_rstc_of_putBoot hg (by decide) _ _)
  have h2 : s2.get .rstc 0 g = s1.get .rstc 0 g := rfl
  have h3 : s3.get .rstc 0 g = s.get .rstc 0 g := (get_rstc_of_putBoot hg (by decide) _ _).trans (h2.trans h1)
  split
  · refine ⟨rfl, (get_rstc_of_putBoot hg (by decide) _ _).trans h3⟩
  · exact ⟨rfl, h3⟩

/-- Once a cold start is not held, its reset goes on and RSTC tells of it as before. -/
theorem coldStart_kept {s : State} {r : ResetRun} (hrun : s.boot.inReset = some r) (hpin : r.pinHeld = false) (hheld : s.coldHeld = false) :
    s.coldStart.boot.inReset = some r ∧ ∀ g : Fld, g.ofReset → s.coldStart.get .rstc 0 g = s.get .rstc 0 g := by
  have hsame : ({ r with pinHeld := false } : ResetRun) = r := by rw [← hpin]
  have hstart : s.coldStart = (({ s with boot := { s.boot with inReset := some r } } : State).latchStraps.takeRole.bootStart true).tripRecord.pin s.tb
      { s.sup with tripDue := false } s.boot.powered s.pending := by
    rw [State.coldStart]
    simp only [hheld, Bool.false_eq_true, if_false, hrun, Option.map_some, hsame]
  generalize hu : ({ s with boot := { s.boot with inReset := some r } } : State) = u at hstart
  have hget (g : Fld) (hg : g.ofReset) : s.coldStart.boot.inReset = some r ∧ s.coldStart.get .rstc 0 g = s.get .rstc 0 g := by
    obtain ⟨htrip, htripget⟩ := tripRecord_kept (u.latchStraps.takeRole.bootStart true) (ofReset_beyondHeader hg)
    obtain ⟨hboot, hbootget⟩ := bootStart_kept u.latchStraps.takeRole true hg
    rw [hstart]
    refine ⟨htrip.trans (hboot.trans ?_), htripget.trans (hbootget.trans ((straps_kept u hg).trans ?_))⟩
    · rw [← hu]; rfl
    · rw [← hu]; rfl
  exact ⟨(hget F.RSTC_CAUSE_LAST (.inl rfl)).1, fun g hg => (hget g hg).2⟩

/-- What RSTC tells of a cold reset for a rejected part. -/
def State.cutShown (u : State) (previous n : Nat) : State :=
  ((((u.put .rstc 0 F.RSTC_CAUSE_LAST 0x0B).put .rstc 0 F.RSTC_CAUSE_PREVIOUS previous).put .rstc 0 F.RSTC_STATUS_FLUSH_CUT 0).put .rstc 0
    F.RSTC_STATUS_VERIFY_CUT 1).put .rstc 0 F.RSTC_COUNTS_COLD n

theorem cutShown_fields (u : State) (previous n : Nat) : (u.cutShown previous n).get .rstc 0 F.RSTC_CAUSE_LAST = 0x0B ∧
    (u.cutShown previous n).get .rstc 0 F.RSTC_STATUS_VERIFY_CUT = 1 ∧ (u.cutShown previous n).get .rstc 0 F.RSTC_STATUS_FLUSH_CUT = 0 := by
  refine ⟨?_, ?_, ?_⟩
  all_goals
    simp (disch := decide) only [State.cutShown, get_put_rstc, get_put_same]
    rfl

theorem beginCold_shown (s : State) : ∃ u : State, ∃ previous n : Nat, u.boot.straps = s.boot.straps ∧ u.boot.refPresent = s.boot.refPresent ∧
    u.boot.sysRst = s.boot.sysRst ∧ u.boot.inReset = some { cold := true, cause := 0x0B, start := 0 } ∧
    s.beginCold 0x0B false true = ((u.cutShown previous n).within s.coldBase).coldStart := by
  refine ⟨{ s.coldBase with boot := { s.coldBase.boot with coldCount := _, inReset := some { cold := true, cause := 0x0B, start := 0 } } },
    _, _, rfl, rfl, rfl, rfl, rfl⟩

/-- A cold reset for a rejected part (R586, R597). -/
theorem beginCold_verifyCut {s : State} (hpin : s.boot.sysRst = false) (href : s.boot.straps.2.1 ≠ 0 ∨ s.boot.refPresent = true) :
    (s.beginCold 0x0B false true).boot.inReset = some { cold := true, cause := 0x0B, start := 0 } ∧
    (s.beginCold 0x0B false true).get .rstc 0 F.RSTC_CAUSE_LAST = 0x0B ∧
    (s.beginCold 0x0B false true).get .rstc 0 F.RSTC_STATUS_VERIFY_CUT = 1 ∧
    (s.beginCold 0x0B false true).get .rstc 0 F.RSTC_STATUS_FLUSH_CUT = 0 := by
  obtain ⟨u, previous, n, hstraps, hpresent, hrst, hrun, hstart⟩ := beginCold_shown s
  rw [← hstraps, ← hpresent] at href
  rw [hstart]
  generalize s.coldBase = base
  have hheld : ((u.cutShown previous n).within base).coldHeld = false := by
    have : ((u.cutShown previous n).within base).coldHeld = (u.boot.sysRst || (u.boot.straps.2.1 = 0 && !u.boot.refPresent)) := rfl
    rw [this, hrst, hpin]
    obtain h | h := href <;> simp [h]
  obtain ⟨hkept, hget⟩ := coldStart_kept (s := (u.cutShown previous n).within base) hrun rfl hheld
  rw [hget _ (.inl rfl), hget _ (.inr (.inl rfl)), hget _ (.inr (.inr rfl))]
  exact ⟨hkept, cutShown_fields u previous n⟩

/-- A part rejected while a warm reset verifies cuts it short: a cold reset begins (R597). -/
theorem verdict_cuts {s : State} {slab kind v : Nat} {err : Bool} (hr : s.runs = true) (hdue : s.verifyDue slab kind = true)
    (hv : v = s.partVerdict kind err) (h0 : v ≠ 0) (hcut : s.verifyCut = true) (hpin : s.boot.sysRst = false)
    (href : s.boot.straps.2.1 ≠ 0 ∨ s.boot.refPresent = true) : Ends (.bootVerifyDone slab kind err) s (fun t =>
      t.boot.inReset = some { cold := true, cause := 0x0B, start := 0 } ∧ t.get .rstc 0 F.RSTC_CAUSE_LAST = 0x0B ∧
      t.get .rstc 0 F.RSTC_STATUS_VERIFY_CUT = 1 ∧ t.get .rstc 0 F.RSTC_STATUS_FLUSH_CUT = 0) := by
  refine ends_bootVerifyDone hr ?_
  rw [cmdBootVerifyDone_due hr hdue, ← hv, if_neg h0, if_pos hcut]
  have hboot : (s.partRejected slab kind v).boot = s.boot := by rw [State.partRejected]; simp only [raise_boot, put_boot]
  refine beginCold_verifyCut ?_ ?_
  · rw [within_boot_sysRst, hboot, hpin]
  · rwa [within_boot_straps, within_boot_refPresent, hboot]

/-! ### The ring stream (R595) -/

/-- `n` bytes of a stream stored from `a` on in the staging buffer, which wraps. -/
def stageBytes (m : SMap Byte) (a k : Nat) (bytes : List Byte) : SMap Byte :=
  (bytes.zipIdx k).foldl (fun m x => sset 0 m ((a + x.2) % 2 ^ 23) x.1) m

theorem sget_stageBytes_before (bytes : List Byte) (m : SMap Byte) (a : Nat) {k j : Nat} (hj : j < k) (hlen : k + bytes.length ≤ j + 2 ^ 23) :
    sget 0 (stageBytes m a k bytes) ((a + j) % 2 ^ 23) = sget 0 m ((a + j) % 2 ^ 23) := by
  refine foldl_keeps (fun m => sget 0 m ((a + j) % 2 ^ 23)) _ _ _ (fun m x hx => sget_sset_other _ _ _ _ _ ?_)
  have hfrom := List.le_snd_of_mem_zipIdx hx
  have hto := List.snd_lt_add_of_mem_zipIdx hx
  omega

theorem sget_stageBytes (bytes : List Byte) (m : SMap Byte) (a k : Nat) (hlen : k + bytes.length ≤ 2 ^ 23) {i : Nat} (hi : i < bytes.length) :
    sget 0 (stageBytes m a k bytes) ((a + (k + i)) % 2 ^ 23) = bytes.getD i 0 := by
  induction bytes generalizing m k i with
  | nil => exact absurd hi (Nat.not_lt_zero i)
  | cons b bytes ih =>
    rw [List.length_cons] at hlen hi
    have hstep : stageBytes m a k (b :: bytes) = stageBytes (sset 0 m ((a + k) % 2 ^ 23) b) a (k + 1) bytes := rfl
    rw [hstep]
    match i with
    | 0 => exact (sget_stageBytes_before bytes _ a (Nat.lt_succ_self k) (by omega)).trans (sget_sset_same ..)
    | i + 1 =>
      have hrest := ih (sset 0 m ((a + k) % 2 ^ 23) b) (k + 1) (by omega) (Nat.lt_of_succ_lt_succ hi)
      rwa [Nat.add_right_comm k 1 i] at hrest

theorem stream_length (words : List Nat) : (words.flatMap (fun w => leBytes 4 w)).length = 4 * words.length := by
  simp [List.length_flatMap, leBytes_length, Nat.mul_comm]

/-- Words of a stream are staged at ADDR, which advances (R595). -/
theorem words_staged {s : State} {agent : Nat} {words : List Nat} {a : Nat} (hr : s.runs = true) (hmay : s.mayWrite agent .mgmt 0 F.MGMT_BOOT_DATA_DATA)
    (hstage : s.get .mgmt 0 F.MGMT_BOOT_STATUS_STAGE = 2) (hlen : words.length ≤ 16) (ha : a = s.get .mgmt 0 F.MGMT_BOOT_ADDR_ADDR) :
    Ends (.mgmtBootData agent words) s (fun t => t.get .mgmt 0 F.MGMT_BOOT_ADDR_ADDR = (a + 4 * words.length) % 2 ^ 23 ∧
      (∀ i < 4 * words.length, sget 0 t.boot.staging ((a + i) % 2 ^ 23) = (words.flatMap (fun w => leBytes 4 w)).getD i 0) ∧
      t.boot.stagedLen = max s.boot.stagedLen (a + 4 * words.length) ∧
      { s with boot := t.boot }.OnlyRegs t [bitAddr .mgmt 0 F.MGMT_BOOT_ADDR_ADDR]) := by
  have hcmd : s.cmdMgmtBootData agent words = s.bootWords words := by
    rw [State.cmdMgmtBootData, fieldWrite_ok hmay, if_pos (by simp [hstage, hlen])]
  have hbytes := stream_length words
  refine ends_hub_same (f := fun s => s.cmdMgmtBootData agent words) rfl hr ?_ ?_
  · rw [hcmd]; rfl
  rw [hcmd, State.bootWords, ← ha]
  dsimp only
  rw [hbytes]
  refine ⟨?_, fun i hi => ?_, rfl, onlyRegs_put (onlyRegs_refl _ _) _ _ _ _ _ (List.mem_singleton_self _)⟩
  · rw [get_put_same]
    exact Nat.mod_mod _ _
  · have h := sget_stageBytes (words.flatMap (fun w => leBytes 4 w)) s.boot.staging a 0 (by omega) (i := i) (by omega)
    rwa [Nat.zero_add] at h

/-- END of the stream starts its verification (R595). -/
theorem stream_ends {s : State} {agent : Nat} (hr : s.runs = true) (hmay : s.mayWrite agent .mgmt 0 F.MGMT_BOOT_CTL_END)
    (hstage : s.get .mgmt 0 F.MGMT_BOOT_STATUS_STAGE = 2) : Ends (.mgmtBootEnd agent) s (fun t => t.get .mgmt 0 F.MGMT_BOOT_STATUS_STAGE = 1 ∧
      t.get .mgmt 1 F.MGMT_BOOT_STATUS_STAGE = 1 ∧
      s.OnlyRegs t [bitAddr .mgmt 0 F.MGMT_BOOT_STATUS_STAGE, bitAddr .mgmt 1 F.MGMT_BOOT_STATUS_STAGE]) := by
  have hcmd : s.cmdMgmtBootEnd agent = s.putBoot F.MGMT_BOOT_STATUS_STAGE 1 := by
    rw [State.cmdMgmtBootEnd, fieldWrite_ok hmay, State.bootEnd, if_pos hstage]
  refine ends_hub_same (f := fun s => s.cmdMgmtBootEnd agent) rfl hr ?_ ?_
  · rw [hcmd]; rfl
  rw [hcmd, get_putBoot_same _ _ _ (by decide), get_putBoot_same _ _ _ (by decide)]
  exact ⟨rfl, rfl, onlyRegs_put (onlyRegs_put (onlyRegs_refl _ _) _ _ _ _ _ (by simp)) _ _ _ _ _ (by simp)⟩

/-! ### The release of the processors (R597) -/

/-- A release with nothing left to do before it. -/
theorem releaseReady {s : State} {r : ResetRun} (htrained : s.boot.trained = true) (hfilled : s.boot.filled = true) (hwarm : s.boot.warmLeft = [])
    (hrun : s.boot.inReset = some r) (hstage : r.stage = .verify) :
    (s.boot.trained && s.boot.filled && s.boot.warmLeft.isEmpty && s.boot.inReset.any (fun r => r.stage = .verify)) = true := by
  simp [htrained, hfilled, hwarm, hrun, hstage]

theorem measSlot_extend_same (s : State) (n : Nat) (d : BitVec 384) :
    (s.extend n d).measSlot n = sha384 (leBytes 48 (s.measSlot n).toNat ++ leBytes 48 d.toNat) := by
  simp only [State.measSlot, State.extend, sget_sset_same]

theorem measSlot_extend_other (s : State) {n m : Nat} (h : m ≠ n) (d : BitVec 384) : (s.extend n d).measSlot m = s.measSlot m := by
  simp only [State.measSlot, State.extend, sget_sset_other _ _ _ _ _ h]

/-- The boot measurements extend slots 0 to 3 (R512). -/
theorem measureBoot_slots (s : State) :
    s.measureBoot.measSlot 0 = sha384 (leBytes 48 (s.measSlot 0).toNat ++ leBytes 48 (sget 0 s.boot.digests 2).toNat) ∧
    s.measureBoot.measSlot 1 = sha384 (leBytes 48 (s.measSlot 1).toNat ++ leBytes 48 (sget 0 s.boot.digests 3).toNat) ∧
    s.measureBoot.measSlot 2 = sha384 (leBytes 48 (s.measSlot 2).toNat ++ leBytes 48 (sget 0 s.boot.digests 1).toNat) ∧
    ∀ n, 4 ≤ n → s.measureBoot.measSlot n = s.measSlot n := by
  refine ⟨?_, ?_, ?_, fun n hn => ?_⟩
  case refine_4 =>
    rw [State.measureBoot, measSlot_extend_other _ (by omega), measSlot_extend_other _ (by omega), measSlot_extend_other _ (by omega),
      measSlot_extend_other _ (by omega)]
  all_goals simp (disch := decide) only [State.measureBoot, measSlot_extend_same, measSlot_extend_other]

theorem get_putSecp_other {f g : Fld} (h : g.bitOff 0 ≠ f.bitOff 0) (hf : f.bitOff 0 < 0x8000) (hg : g.bitOff 0 < 0x8000) (s : State) (v d : Nat) :
    (s.putSecp f v).get .secp d g = s.get .secp d g := by
  have hne (n : Nat) : fkey (pg .secp d) g 0 ≠ fkey (pg .secp n) f 0 := by
    simp only [fkey_eq, pg, Block.perSlab, Block.off, Block.insts, if_true]
    omega
  rw [State.putSecp, get_put_other _ _ _ _ _ _ _ _ _ _ (hne 1), get_put_other _ _ _ _ _ _ _ _ _ _ (hne 0)]

/-- A field that both secure processors show alike. -/
theorem get_putSecp_same (s : State) (f : Fld) (v : Nat) {d : Nat} (hd : d < 2) : (s.putSecp f v).get .secp d f = v % 2 ^ f.w := by
  obtain rfl | rfl : d = 0 ∨ d = 1 := by omega
  · rw [State.putSecp, get_put_other _ _ _ _ _ _ _ _ _ _ (by simp only [fkey_eq, pg, Block.perSlab, Block.off, Block.insts, if_true]; omega), get_put_same]
  · exact get_put_same ..

theorem pg_mgmt_ne_secp (d n : Nat) : pg .mgmt d ≠ pg .secp n := by
  simp only [pg, Block.perSlab, Block.off, Block.insts, if_true]
  omega

/-- The secure processors' pages are other pages than the management processors'. -/
theorem get_mgmt_putSecp {f g : Fld} (hf : f.bitOff 0 < 0x8000) (hg : g.bitOff 0 < 0x8000) (s : State) (v d : Nat) :
    (s.putSecp f v).get .mgmt d g = s.get .mgmt d g := by
  rw [State.putSecp, get_put_of_pg_ne (pg_mgmt_ne_secp d 1) hf hg, get_put_of_pg_ne (pg_mgmt_ne_secp d 0) hf hg]

/-- What a released module's pages show. -/
def State.releaseShown (s : State) (mirror : Bool) : State :=
  ((s.putBoot F.MGMT_BOOT_STATUS_STAGE 5).putSecp F.SECP_STATUS_BOOT_DONE 1).putSecp F.SECP_STATUS_MIRROR_OK (b2n mirror)

theorem releaseShown_fields (s : State) (mirror : Bool) :
    (∀ d < 2, (s.releaseShown mirror).get .mgmt d F.MGMT_BOOT_STATUS_STAGE = 5) ∧
    ∀ d < 2, (s.releaseShown mirror).get .secp d F.SECP_STATUS_BOOT_DONE = 1 ∧ (s.releaseShown mirror).get .secp d F.SECP_STATUS_MIRROR_OK = b2n mirror := by
  refine ⟨fun d hd => ?_, fun d hd => ⟨?_, ?_⟩⟩
  · rw [State.releaseShown, get_mgmt_putSecp (by decide) (by decide), get_mgmt_putSecp (by decide) (by decide), get_putBoot_same _ _ _ hd]
    rfl
  · rw [State.releaseShown, get_putSecp_other (by decide) (by decide) (by decide), get_putSecp_same _ _ _ hd]
    rfl
  · rw [State.releaseShown, get_putSecp_same _ _ _ hd]
    cases mirror <;> rfl

theorem releaseShown_boot (s : State) (mirror : Bool) : (s.releaseShown mirror).boot = s.boot := (rfl)

/-- A measurement leaves the processors' roles, the boot record and what lies outside the hub. -/
theorem extend_kept (s : State) (n : Nat) (d : BitVec 384) :
    ((s.extend n d).primary, (s.extend n d).boot, (s.extend n d).outside) = (s.primary, s.boot, s.outside) := by
  have hext : ∃ slots counts, s.extend n d = { s with secure := { s.secure with slots := slots, counts := counts } } := ⟨_, _, rfl⟩
  obtain ⟨slots, counts, h⟩ := hext
  rw [h]
  rfl

theorem measureBoot_kept (s : State) : s.measureBoot.primary = s.primary ∧ s.measureBoot.boot = s.boot ∧ s.measureBoot.outside = s.outside := by
  have h : (s.measureBoot.primary, s.measureBoot.boot, s.measureBoot.outside) = (s.primary, s.boot, s.outside) := by
    rw [State.measureBoot, extend_kept, extend_kept, extend_kept, extend_kept]
  simpa using h

/-- The processors run, and the reset is over. -/
def State.started (s : State) : State := { s with boot := { s.boot with released := true, inReset := none } }

theorem releaseStarted_primary (s : State) (mirror : Bool) : (s.started.releaseShown mirror).primary = s.primary := (rfl)
theorem releaseStarted_outside (s : State) (mirror : Bool) : (s.started.releaseShown mirror).outside = s.outside := (rfl)
theorem releaseStarted_measSlot (s : State) (mirror : Bool) (n : Nat) : (s.started.releaseShown mirror).measSlot n = s.measSlot n := (rfl)

theorem release_due {s : State} {r : ResetRun} (htrained : s.boot.trained = true) (hfilled : s.boot.filled = true)
    (hwarm : s.boot.warmLeft = []) (hrun : s.boot.inReset = some r) (hverify : r.stage = .verify) (hstage : s.stage = 4) :
    s.cmdProcessorRelease = s.measureBoot.started.releaseShown s.boot.absent.isEmpty := by
  rw [State.started, (measureBoot_kept s).2.1, State.releaseShown]
  simp only [State.cmdProcessorRelease, releaseReady htrained hfilled hwarm hrun hverify, hstage, decide_true, Bool.and_self, if_true]

theorem processors_released {s : State} {r : ResetRun} (hr : s.runs = true) (htrained : s.boot.trained = true) (hfilled : s.boot.filled = true)
    (hwarm : s.boot.warmLeft = []) (hrun : s.boot.inReset = some r) (hverify : r.stage = .verify) (hstage : s.stage = 4) (hprimary : s.primary < 2) :
    Ends .processorRelease s (fun t => t.boot.released = true ∧ t.boot.inReset = none ∧ t.stage = 5 ∧
      (∀ d < 2, t.get .secp d F.SECP_STATUS_BOOT_DONE = 1 ∧ t.get .secp d F.SECP_STATUS_MIRROR_OK = b2n s.boot.absent.isEmpty) ∧
      t.measSlot 0 = sha384 (leBytes 48 (s.measSlot 0).toNat ++ leBytes 48 (sget 0 s.boot.digests 2).toNat) ∧
      t.measSlot 1 = sha384 (leBytes 48 (s.measSlot 1).toNat ++ leBytes 48 (sget 0 s.boot.digests 3).toNat) ∧
      t.measSlot 2 = sha384 (leBytes 48 (s.measSlot 2).toNat ++ leBytes 48 (sget 0 s.boot.digests 1).toNat) ∧
      (∀ n, 4 ≤ n → t.measSlot n = s.measSlot n) ∧ t.primary = s.primary) := by
  obtain ⟨hmgmt, hsecp⟩ := releaseShown_fields s.measureBoot.started s.boot.absent.isEmpty
  obtain ⟨h0, h1, h2, hkept⟩ := measureBoot_slots s
  obtain ⟨hprim, -, hout⟩ := measureBoot_kept s
  refine ends_hub_same (f := fun s => s.cmdProcessorRelease) rfl hr ?_ ?_
  · rw [release_due htrained hfilled hwarm hrun hverify hstage, releaseStarted_outside, hout]
  simp only [release_due htrained hfilled hwarm hrun hverify hstage, State.stage, releaseStarted_primary, hprim, releaseStarted_measSlot, h0, h1, h2,
    releaseShown_boot]
  exact ⟨rfl, rfl, hmgmt _ hprimary, hsecp, trivial, trivial, trivial, hkept, trivial⟩

/-- In recovery the secure processors start on their loader (R596). -/
theorem loader_started {s : State} {r : ResetRun} (hr : s.runs = true) (htrained : s.boot.trained = true) (hfilled : s.boot.filled = true)
    (hwarm : s.boot.warmLeft = []) (hrun : s.boot.inReset = some r) (hverify : r.stage = .verify) (hstage : s.stage = 6) :
    Ends .processorRelease s (fun t => { s with boot := { s.boot with
      inReset := none, loader := decide (s.get .rstc 0 F.RSTC_STRAPS_BOOT_SRC = 3 ∧ s.get .rstc 0 F.RSTC_STRAPS_CLK_MODE ≠ 3) } } = t) := by
  have hcmd : s.cmdProcessorRelease = { s with boot := { s.boot with
      inReset := none, loader := decide (s.get .rstc 0 F.RSTC_STRAPS_BOOT_SRC = 3 ∧ s.get .rstc 0 F.RSTC_STRAPS_CLK_MODE ≠ 3) } } := by
    simp [State.cmdProcessorRelease, releaseReady htrained hfilled hwarm hrun hverify, hstage]
  refine ends_hub_same (f := fun s => s.cmdProcessorRelease) rfl hr ?_ ?_
  · rw [hcmd]; rfl
  · rw [hcmd]

/-! ### READY (R277, R598) -/

theorem hostReady_noted {s : State} {agent slab : Nat} (hr : s.runs = true) (hmay : s.mayWrite agent .mgmt slab F.MGMT_CTL_HOST_READY)
    (hmgmt : isMgmt agent = true) : Ends (.hostReady agent slab) s (fun t => { s with boot := { s.boot with hostReady := true } } = t) := by
  have hcmd : s.cmdHostReady agent slab = { s with boot := { s.boot with hostReady := true } } := by
    rw [State.cmdHostReady, fieldWrite_ok hmay, if_pos hmgmt]
  refine ends_hub_same (f := fun s => s.cmdHostReady agent slab) rfl hr ?_ ?_
  · rw [hcmd]; rfl
  · rw [hcmd]

theorem ready_rises {s : State} (hr : s.runs = true) (hlow : s.bit .mod 0 F.MOD_READY_READY = false) (hhost : s.boot.hostReady = true)
    (hreleased : s.boot.released = true) (hrun : s.boot.inReset = none) (hfilled : s.boot.filled = true)
    (hseam : s.boot.seamUp = true ∨ s.boot.absent ≠ []) (hrest : s.restState = 0) : Ends .readyRise s (fun t =>
      t.get .mod 0 F.MOD_READY_READY = 1 ∧ { s with boot := { s.boot with readyAt := s.now } }.OnlyRegs t [bitAddr .mod 0 F.MOD_READY_READY]) := by
  have hdue : s.readyDue = true := by
    simpa [State.readyDue, hlow, hhost, hreleased, hrun, hfilled, hrest] using hseam
  have hcmd : s.cmdReadyRise = State.put { s with boot := { s.boot with readyAt := s.now } } .mod 0 F.MOD_READY_READY 1 := by
    rw [State.cmdReadyRise, if_pos hdue]
    rfl
  refine ends_hub_same (f := fun s => s.cmdReadyRise) rfl hr ?_ ?_
  · rw [hcmd]; rfl
  rw [hcmd, get_put_same]
  exact ⟨rfl, onlyRegs_put (onlyRegs_refl _ _) _ _ _ _ _ (List.mem_singleton_self _)⟩

/-- Settles O60, command by command: the verdict on a part, the ring stream, the release of the processors, and READY. -/
theorem bootToReady : Obligations.BootToReady := by
  unfold Obligations.BootToReady
  refine ⟨?_, ?_, ?_, ?_, ?_, ?_, ?_, ?_⟩
  · intro s slab kind v err hr hdue hv hcut
    exact verdict_goes_on hr hdue hv hcut
  · intro s slab kind v err hr hdue hv h0 hcut hpin href
    exact verdict_cuts hr hdue hv h0 hcut hpin href
  · intro s agent words a hr hmay hstage hlen ha
    exact words_staged hr hmay hstage hlen ha
  · intro s agent hr hmay hstage
    exact stream_ends hr hmay hstage
  · intro s r hr htrained hfilled hwarm hrun hverify hstage hprimary
    exact processors_released hr htrained hfilled hwarm hrun hverify hstage hprimary
  · intro s r hr htrained hfilled hwarm hrun hverify hstage
    exact loader_started hr htrained hfilled hwarm hrun hverify hstage
  · intro s agent slab hr hmay hmgmt
    exact hostReady_noted hr hmay hmgmt
  · intro s hr hlow hhost hreleased hrun hfilled hseam hrest
    exact ready_rises hr hlow hhost hreleased hrun hfilled hseam hrest

end Sys2Proof.Machine
end

section
/-! PROOFS. A write of a hot line (R29, R192, R248, R249, R253): where the line lies stays as it was, and the copies hold what was stored last. -/

namespace Sys2Proof.Machine

/-! ### Where hot lines lie -/

/-- A field that says where lines lie, on a page that no write of a line counts on. -/
structure Placing (c : Block) (m : Nat) (g : Fld) : Prop where
  beyond : g.beyondHeader 0
  cryp (n : Nat) : pg c m ≠ pg .cryp n
  hcac (n : Nat) : pg c m ≠ pg .hcac n
  dprt (n : Nat) : pg c m ≠ pg .dprt n
  pmap (n : Nat) : pg c m ≠ pg .pmap n
  flt : pg c m ≠ pg .flt 0

theorem placing_dipt {k : Nat} (hk : k < 8) {g : Fld} (hg : g.beyondHeader 0) : Placing .dipt k g := by
  refine ⟨hg, fun n => ?_, fun n => ?_, fun n => ?_, fun n => ?_, ?_⟩
  all_goals
    simp only [pg, Block.perSlab, Block.off, Block.insts, if_true, Bool.false_eq_true, if_false]
    omega

theorem placing_hotShare : Placing .tier 0 F.TIER_HOT_HOT_SHARE := by
  refine ⟨by decide, fun n => ?_, fun n => ?_, fun n => ?_, fun n => ?_, ?_⟩
  all_goals
    simp only [pg, Block.perSlab, Block.off, Block.insts, if_true, Bool.false_eq_true, if_false]
    omega

/-- What a Diptych says of the places of its lines. -/
def State.diptPlaces (s : State) (k : Nat) : DState × List Nat := ((s.dipt k).st, (s.dipt k).relocFrames)

/-- What places the lines of the hot tier: the absent Slabs, the Diptychs, and a field. -/
def State.places (s : State) (c : Block) (m : Nat) (g : Fld) : List Nat × (Nat → DState × List Nat) × Nat := (s.boot.absent, s.diptPlaces, s.get c m g)

/-- What a write of a hot line leaves: what lies outside the hub, the page map, the homes, the queues of the Veins, the ring, and what places lines. -/
def State.placed (s : State) (c : Block) (m : Nat) (g : Fld) :
    (Timebase × Sup × Bool × List Instr × Bool) × Tier × Home × List VAcc × Ring × List Nat × (Nat → DState × List Nat) × Nat :=
  (s.outside, s.tier, s.home, s.vq, s.ring, s.places c m g)

theorem placed_of_beside {s t : State} {c : Block} {m : Nat} {g : Fld} (h : t.beside c m g 0 = s.beside c m g 0) : t.placed c m g = s.placed c m g := by
  simp only [State.beside, Prod.mk.injEq] at h
  obtain ⟨hout, -, htier, -, ⟨hhome, hvq, hring, hdipts, habsent⟩, hget⟩ := h
  have hplaces : t.diptPlaces = s.diptPlaces := by
    funext k
    simp only [State.diptPlaces, State.dipt, hdipts]
  simp only [State.placed, State.places, hout, htier, hhome, hvq, hring, habsent, hplaces, hget]

section
variable {c : Block} {m : Nat} {g : Fld}

theorem foldl_placed {α : Type} (f : State → α → State) (h : ∀ t x, (f t x).placed c m g = t.placed c m g) (l : List α) (s : State) :
    (l.foldl f s).placed c m g = s.placed c m g := foldl_keeps (fun t : State => t.placed c m g) f l s (fun t x _ => h t x)

theorem put_placed {b : Block} {n : Nat} (hpg : pg c m ≠ pg b n) (hg : g.beyondHeader 0) {f : Fld} (hf : f.bitOff 0 < 0x8000) (s : State) (v : Nat) :
    (s.put b n f v).placed c m g = s.placed c m g := by
  rw [State.placed, State.places, get_put_of_pg_ne hpg hf hg.2]
  rfl

theorem bump_placed {b : Block} {n : Nat} (hpg : pg c m ≠ pg b n) (hg : g.beyondHeader 0) {f : Fld} (hf : f.bitOff 0 < 0x8000) (s : State) (k : Nat) :
    (s.bump b n f k).placed c m g = s.placed c m g := put_placed hpg hg hf ..

theorem raise_placed (hg : g.beyondHeader 0) (s : State) (b : Block) (n bit : Nat) : (s.raise b n bit).placed c m g = s.placed c m g :=
  placed_of_beside (setInts_beside hg (pg_aligned b n) ..)

theorem spend_placed (s : State) (a : Account) (xs : List (Nat × Nat)) : (s.spend a xs).placed c m g = s.placed c m g := by
  unfold State.spend
  split <;> rfl

/-! ### The counter tree -/

theorem raiseCounter_placed (h : Placing c m g) (s : State) (k level index : Nat) : (s.raiseCounter k level index).placed c m g = s.placed c m g := by
  have hfault (n : Nat) : (s.fault .cryp n 0x11 { cls := 0x11, unit := k }).placed c m g = s.placed c m g :=
    placed_of_beside (fault_beside h.beyond h.flt s .cryp n 0x11 _ (fun x hx => by simp [classBase, hx]))
  unfold State.raiseCounter
  dsimp only
  generalize 64 * (k % 8) + (if k = 8 then 32 else 0) + index = root
  split
  · split
    · exact hfault _
    · rfl
  · split
    · exact hfault _
    · rfl

theorem treeTrim_placed (h : Placing c m g) (s : State) (owner : Nat) : (s.treeTrim owner).placed c m g = s.placed c m g := by
  unfold State.treeTrim
  dsimp only
  split
  · rfl
  · split
    · rfl
    · split
      · rfl
      · split
        · exact (rfl : (State.treePut _ _ _ _ _).placed c m g = _).trans (raiseCounter_placed h ..)
        · exact raiseCounter_placed h ..

theorem treeUse_placed (h : Placing c m g) (s : State) (k level index : Nat) (dirty : Bool) :
    (s.treeUse k level index dirty).placed c m g = s.placed c m g := by
  have hput (t : State) (k level index : Nat) (dirty : Bool) : (t.treePut k level index dirty).placed c m g = t.placed c m g := rfl
  have hfetch (t : State) (k level index : Nat) : (t.treeFetch k level index).placed c m g = t.placed c m g := by
    unfold State.treeFetch
    rw [bump_placed (h.cryp _) h.beyond (by decide)]
    rfl
  unfold State.treeUse
  split
  · rw [hput, bump_placed (h.cryp _) h.beyond (by decide)]
  · unfold State.forN
    rw [foldl_placed _ (fun t _ => treeTrim_placed h ..), hput]
    exact foldl_placed _ (fun t j => (hput ..).trans (hfetch ..)) ..

theorem setLeaf_placed (h : Placing c m g) (s : State) (k p : Nat) (l : Leaf) : (s.setLeaf k p l).placed c m g = s.placed c m g :=
  treeUse_placed h ..

/-! ### Stored lines -/

theorem holdCheck_placed (s : State) (v o ch : Nat) (mac : Bool) (w : Nat) (write : Bool) :
    (s.holdCheck v o ch mac w write).placed c m g = s.placed c m g := by
  unfold State.holdCheck
  dsimp only
  repeat' split
  all_goals rfl

theorem putStored_placed (s : State) (key : Nat) (x : Stored) : (s.putStored key x).placed c m g = s.placed c m g :=
  (holdCheck_placed ..).trans (holdCheck_placed ..)

theorem noteMarker_placed (h : Placing c m g) (s : State) (k page line code : Nat) (injected : Bool) :
    (s.noteMarker k page line code injected).placed c m g = s.placed c m g := by
  have hlist (t : State) : (t.listPoison page line code injected).placed c m g = t.placed c m g := by
    unfold State.listPoison
    dsimp only
    split <;> rfl
  unfold State.noteMarker
  rw [hlist]
  refine foldl_placed _ (fun t v => ?_) ..
  rw [raise_placed h.beyond, spend_placed, bump_placed (h.dprt _) h.beyond (by decide)]

theorem hcInval_placed (h : Placing c m g) (s : State) (slab name : Nat) : (s.hcInval slab name).placed c m g = s.placed c m g := by
  unfold State.hcInval
  split
  · exact bump_placed (h.hcac _) h.beyond (by decide) ..
  · rfl

theorem hcUpdate_placed (s : State) (page k f i : Nat) (err : Codeword) : (s.hcUpdate page k f i err).placed c m g = s.placed c m g := by
  unfold State.hcUpdate
  dsimp only
  repeat' split
  all_goals rfl

theorem overflow_placed (h : Placing c m g) (s : State) (k f i page ctx : Nat) : (s.overflow k f i page ctx).placed c m g = s.placed c m g := by
  unfold State.overflow State.forN
  dsimp only
  refine (foldl_placed _ (fun t n => ?_) ..).trans <| (foldl_placed _ (fun t n => hcInval_placed h ..) ..).trans ?_
  · split
    · rfl
    · refine foldl_placed _ (fun u v => ?_) ..
      split
      · exact putStored_placed ..
      · exact (noteMarker_placed h ..).trans (putStored_placed ..)
  · rw [setLeaf_placed h, raise_placed h.beyond, bump_placed (h.cryp _) h.beyond (by decide)]

theorem flipFire_placed (h : Placing c m g) (s : State) (n : Nat) : (s.flipFire n).placed c m g = s.placed c m g := by
  rw [State.flipFire, raise_placed h.beyond, put_placed (h.dprt n) h.beyond (by decide), put_placed (h.dprt n) h.beyond (by decide),
    put_placed (h.dprt n) h.beyond (by decide)]

/-- A change of a Diptych that leaves its state and its moved frames. -/
theorem modDipt_placed {d : Dipt → Dipt} (hst : ∀ x, (d x).st = x.st) (hreloc : ∀ x, (d x).relocFrames = x.relocFrames) (s : State) (k : Nat) :
    (s.modDipt k d).placed c m g = s.placed c m g := by
  have hplaces : (s.modDipt k d).diptPlaces = s.diptPlaces := by
    funext j
    by_cases hj : j = k
    · rw [State.diptPlaces, State.dipt, State.modDipt, hj, sget_sset_same, hst, hreloc]
      rfl
    · rw [State.diptPlaces, State.dipt, State.modDipt, sget_sset_other _ _ _ _ _ hj]
      rfl
  simp only [State.placed, State.places, hplaces]
  rfl

theorem storeHot_placed (h : Placing c m g) (s : State) (k f i page ctx : Nat) (plain : Line) (marker : Bool) :
    (s.storeHot k f i page ctx plain marker).placed c m g = s.placed c m g := by
  unfold State.storeHot
  extract_lets flip x s1 s2
  have h1 : s1.placed c m g = s.placed c m g := foldl_placed _ (fun t v => putStored_placed ..) ..
  have h2 : s2.placed c m g = s1.placed c m g := by
    unfold s2
    generalize flip = o
    cases o with
    | some n => exact flipFire_placed h ..
    | none => rfl
  split
  · refine (modDipt_placed ?_ ?_ ..).trans (h2.trans h1)
    · exact fun _ => rfl
    · exact fun _ => rfl
  · exact h2.trans h1

theorem writeLine_placed (h : Placing c m g) (s : State) (k f i page ctx : Nat) (plain : Line) (poison : Nat) (injected : Bool) :
    (s.writeLine k f i page ctx plain poison injected).2.placed c m g = s.placed c m g := by
  unfold State.writeLine
  extract_lets l mi ovf s1 s2 err s3
  have h1 : s1.placed c m g = s.placed c m g := by
    unfold s1
    split
    · exact setLeaf_placed h ..
    · split
      · exact overflow_placed h ..
      · exact setLeaf_placed h ..
  have h2 : s2.placed c m g = s1.placed c m g := rfl
  have h3 : s3.placed c m g = s2.placed c m g := by
    unfold s3
    split
    · exact (rfl : (State.unlistPoison _ _ _).placed c m g = _).trans (storeHot_placed h ..)
    · exact (noteMarker_placed h ..).trans (storeHot_placed h ..)
  exact (hcUpdate_placed ..).trans (h3.trans (h2.trans h1))

end

/-! ### The places of lines -/

/-- Two states whose hot lines lie at the same places. -/
def State.samePlaces (t s : State) : Prop := ∀ c m g, Placing c m g → t.places c m g = s.places c m g

theorem samePlaces_of_placed {s t : State} (h : ∀ c m g, Placing c m g → t.placed c m g = s.placed c m g) : t.samePlaces s := by
  intro c m g hg
  have hall := h c m g hg
  simp only [State.placed, Prod.mk.injEq] at hall
  obtain ⟨-, -, -, -, -, hplaces⟩ := hall
  exact hplaces

theorem State.samePlaces.get {s t : State} (h : t.samePlaces s) {c : Block} {m : Nat} {g : Fld} (hg : Placing c m g) : t.get c m g = s.get c m g :=
  congrArg (fun x => x.2.2) (h c m g hg)

theorem State.samePlaces.absent {s t : State} (h : t.samePlaces s) : t.boot.absent = s.boot.absent := congrArg (fun x => x.1) (h _ _ _ placing_hotShare)

theorem State.samePlaces.dipt {s t : State} (h : t.samePlaces s) (k : Nat) :
    (t.dipt k).st = (s.dipt k).st ∧ (t.dipt k).relocFrames = (s.dipt k).relocFrames := by
  have hk := congrFun (congrArg (fun x => x.2.1) (h _ _ _ placing_hotShare)) k
  simpa [State.places, State.diptPlaces] using hk

theorem State.samePlaces.retOfs {s t : State} (h : t.samePlaces s) (v : Nat) : t.retOfs v = s.retOfs v := by
  have hget {g : Fld} (hg : g.beyondHeader 0) : t.get .dipt (v % 8) g = s.get .dipt (v % 8) g := h.get (placing_dipt (Nat.mod_lt _ (by decide)) hg)
  unfold State.retOfs State.bit
  rw [hget (g := F.DIPT_STATUS_RET_LO) (by decide), hget (g := F.DIPT_STATUS_RET_OFS_LO) (by decide),
    hget (g := F.DIPT_STATUS_RET_HI) (by decide), hget (g := F.DIPT_STATUS_RET_OFS_HI) (by decide)]

theorem State.samePlaces.writeVeins {s t : State} (h : t.samePlaces s) (k : Nat) : t.writeVeins k = s.writeVeins k := by
  have hget {g : Fld} (hg : g.beyondHeader 0) (v : Nat) : t.get .dipt (v % 8) g = s.get .dipt (v % 8) g :=
    h.get (placing_dipt (Nat.mod_lt _ (by decide)) hg)
  have hok (v : Nat) : t.veinOk v = s.veinOk v := by
    unfold State.veinOk State.mediaIn State.veinRet State.bit
    rw [h.absent]
    split
    · rw [hget (by decide)]
    · rw [hget (by decide)]
  exact List.filter_congr (fun v _ => hok v)

theorem State.samePlaces.hotKey {s t : State} (h : t.samePlaces s) (v f i : Nat) : t.hotKey v f i = s.hotKey v f i := by
  obtain ⟨hst, hreloc⟩ := h.dipt (v % 8)
  have hframes : t.framesOf (v % 8) = s.framesOf (v % 8) := by
    unfold State.framesOf State.diptRet State.hotH
    rw [hst, h.retOfs, h.retOfs, h.get placing_hotShare]
  unfold State.hotKey
  rw [h.retOfs, hframes, hreloc]

/-! ### What the copies hold -/

/-- A line is stored at a key, and `good` holds of it. -/
def State.keepsAt (s : State) (key : Nat) (good : Stored → Prop) : Prop := ∃ y, sget none s.media.lines key = some y ∧ good y

theorem State.keepsAt.congr {s t : State} {key : Nat} {good : Stored → Prop} (h : s.keepsAt key good) (hlines : t.media.lines = s.media.lines) :
    t.keepsAt key good := by
  rwa [State.keepsAt, hlines]

theorem State.keepsAt.stored {s : State} {key : Nat} {good : Stored → Prop} (h : s.keepsAt key good) : good (s.stored key) := by
  obtain ⟨y, hy, hgood⟩ := h
  rw [sget_eq_sfind] at hy
  have : s.stored key = y := by
    rw [State.stored]
    cases hfind : sfind s.media.lines key with
    | none => simp [hfind] at hy
    | some z =>
      obtain rfl : z = some y := by simpa [hfind] using hy
      rfl
  rwa [this]

theorem keepsAt_putStored {s : State} {key k : Nat} {good : Stored → Prop} {x : Stored} (hx : good x) (h : k = key ∨ s.keepsAt k good) :
    (s.putStored key x).keepsAt k good := by
  rw [State.keepsAt, putStored_lines]
  by_cases hk : k = key
  · rw [hk, sget_sset_same]
    exact ⟨x, rfl, hx⟩
  · rw [sget_sset_other _ _ _ _ _ hk]
    exact h.resolve_left hk

/-- A line stored in some Veins, each copy with what the Vein's flip leaves in it. -/
def State.storeCopies (s : State) (f i : Nat) (x : Nat → Stored) (vs : List Nat) : State := vs.foldl (fun t v => t.putStored (t.hotKey v f i) (x v)) s

theorem storeCopies_keepsAt {good : Stored → Prop} {x : Nat → Stored} (hx : ∀ v, good (x v)) (f i v : Nat) (vs : List Nat) (s : State)
    (h : v ∈ vs ∨ s.keepsAt (s.hotKey v f i) good) : (s.storeCopies f i x vs).keepsAt (s.hotKey v f i) good := by
  induction vs generalizing s with
  | nil => exact h.resolve_left List.not_mem_nil
  | cons w vs ih =>
    have hkey : (s.putStored (s.hotKey w f i) (x w)).hotKey v f i = s.hotKey v f i :=
      (samePlaces_of_placed (fun c m g _ => putStored_placed ..)).hotKey v f i
    have hnext := ih (s.putStored (s.hotKey w f i) (x w))
    rw [hkey] at hnext
    refine hnext ?_
    rcases h with h | h
    · rcases List.mem_cons.1 h with rfl | h
      · exact .inr (keepsAt_putStored (hx v) (.inl rfl))
      · exact .inl h
    · exact .inr (keepsAt_putStored (hx w) (.inr h))

theorem flipFire_media (s : State) (n : Nat) : (s.flipFire n).media = s.media := by
  rw [State.flipFire, raise_media]
  rfl

theorem storeHot_keepsAt {s : State} {k v : Nat} (hv : v ∈ s.writeVeins k) (f i page ctx : Nat) (plain : Line) (marker : Bool) :
    (s.storeHot k f i page ctx plain marker).keepsAt (s.hotKey v f i) (fun y => y.marker = marker ∧ y.sealedIn.plain = plain) := by
  unfold State.storeHot
  extract_lets flip x s1 s2
  have h1 : s1.keepsAt (s.hotKey v f i) (fun y => y.marker = marker ∧ y.sealedIn.plain = plain) :=
    storeCopies_keepsAt (x := fun v => { sealedIn := x, marker := marker, err := match flip with
      | some n => s.flipErr n v
      | none => 0 }) (fun v => ⟨rfl, rfl⟩) f i v _ s (.inl hv)
  have h2 : s2.media = s1.media := by
    unfold s2
    generalize flip = o
    cases o with
    | some n => exact flipFire_media s1 n
    | none => rfl
  split
  · exact h1.congr (congrArg Media.lines h2)
  · exact h1.congr (congrArg Media.lines h2)

theorem noteMarker_media (s : State) (k page line code : Nat) (injected : Bool) : (s.noteMarker k page line code injected).media = s.media := by
  have hlist (t : State) : (t.listPoison page line code injected).media = t.media := by
    unfold State.listPoison
    dsimp only
    split <;> rfl
  have hspend (t : State) (xs : List (Nat × Nat)) : (t.spend .fg xs).media = t.media := by
    unfold State.spend
    split <;> rfl
  rw [State.noteMarker, hlist]
  refine foldl_keeps (fun t : State => t.media) _ _ _ (fun t v _ => ?_)
  rw [raise_media, hspend]
  rfl

theorem hcUpdate_media (s : State) (page k f i : Nat) (err : Codeword) : (s.hcUpdate page k f i err).media = s.media := by
  unfold State.hcUpdate
  dsimp only
  repeat' split
  all_goals rfl

/-- A write of a hot line: its copies are a marker, or hold what was written (R248, R249). -/
theorem writeLine_keepsAt {s : State} {k v : Nat} (hv : v ∈ s.writeVeins k) (f i page ctx : Nat) (plain : Line) (poison : Nat) (injected : Bool) :
    (s.writeLine k f i page ctx plain poison injected).2.keepsAt (s.hotKey v f i)
      (fun y => y.marker = decide (poison ≠ 0) ∧ (poison = 0 → y.sealedIn.plain = plain)) := by
  unfold State.writeLine
  extract_lets l mi ovf s1 s2 err s3
  have hsame : s2.samePlaces s := samePlaces_of_placed (fun c m g h => by
    show s1.placed c m g = s.placed c m g
    unfold s1
    split
    · exact setLeaf_placed h ..
    · split
      · exact overflow_placed h ..
      · exact setLeaf_placed h ..)
  rw [← hsame.writeVeins] at hv
  rw [← hsame.hotKey]
  refine State.keepsAt.congr ?_ (congrArg Media.lines (hcUpdate_media s3 page k f i err))
  unfold s3
  by_cases hp : poison = 0
  · rw [if_pos hp]
    obtain ⟨y, hy, hmark, hplain⟩ := storeHot_keepsAt hv f i page ctx plain false
    exact ⟨y, hy, by simp [hmark, hp], fun _ => hplain⟩
  · rw [if_neg hp]
    obtain ⟨y, hy, hmark, -⟩ := storeHot_keepsAt hv f i page ctx (markerLine poison page i s.now) true
    exact State.keepsAt.congr ⟨y, hy, by simp [hmark, hp], fun h => absurd h hp⟩ (congrArg Media.lines (noteMarker_media ..))

end Sys2Proof.Machine
end

section
/-! PROOFS. Poison and media commands of a mailbox (R285, R286, R298, R299). -/

namespace Sys2Proof.Machine

/-! ### An empty directory -/

theorem dirWay_empty {s : State} (h : s.home.dir = []) (slab hl : Nat) : s.dirWay slab hl = none := by
  rw [State.dirWay, List.find?_eq_none]
  intro w _
  simp [h, sget, DirEnt.unused]

theorem maskEnt_empty (s : State) : s.maskEnt {} = {} := by
  have hhosts : (List.range 16).foldl (fun h a => if s.gone a then setBit h a false else h) 0 = 0 := by
    refine List.foldlRecOn (motive := fun h => h = 0) _ _ rfl (fun h hh a _ => ?_)
    rw [hh]
    split
    · simp [setBit]
    · rfl
  simp [State.maskEnt, hhosts]

theorem dirOf_empty {s : State} (h : s.home.dir = []) (page line : Nat) : s.dirOf page line = {} := by
  rw [State.dirOf, State.rawDir, dirWay_empty h]
  exact maskEnt_empty s

theorem dirHit_empty {s : State} (h : s.home.dir = []) (page line : Nat) : s.dirHit page line = s := by
  rw [State.dirHit, dirWay_empty h]

theorem dirPut_empty {s : State} (h : s.home.dir = []) (page line : Nat) : s.dirPut page line {} = s := by
  unfold State.dirPut
  dsimp only
  rw [dirWay_empty h]
  exact if_pos rfl

/-! ### The request of a poison command -/

/-- A request of a poison command (R286): it is in no class of the regulation, a clear writes every byte. -/
structure PoisonReq (r : HReq) : Prop where
  kind : r.kind = .inject ∧ r.poison = true ∨ r.kind = .clearP ∧ r.poison = false
  mask : r.mask = fullMask
  cls : r.cls = none

/-- A home at which nothing stands in the way of a request to the page. -/
structure HomeFree (s : State) (page : Nat) : Prop where
  quiet : s.quiet
  dir : s.home.dir = []
  hot : (s.entry page).st = .hot
  prefetch : s.hub.prefetch = []
  vq : s.vq = []
  lost : s.tier.lostLines = []
  loss : s.underLoss (s.entry page).vein (s.entry page).loc = false
  behind : (s.dipt (s.entry page).vein).behind = []

/-- The copies hold a marker, or the data of a clear. -/
def poisonedBy (r : HReq) (y : Stored) : Prop := y.marker = r.poison ∧ (r.poison = false → y.sealedIn.plain = r.data)

/-- What a poison command at its line leaves, beside the registers and the stored lines: every copy holds what it writes, it is answered, and the homes
and the page map are as before. -/
structure Poisoned (s t : State) (r : HReq) : Prop where
  copies : ∀ v ∈ s.writeVeins (s.entry r.page).vein, t.keepsAt (s.hotKey v (s.entry r.page).loc r.line) (poisonedBy r)
  answered : Msg.answer (r.attach.getD 16) 0 [] ∈ t.out
  outside : t.outside = s.outside
  home : t.home = s.home
  ring : t.ring = s.ring
  pmap : t.tier.pmap = s.tier.pmap
  places : t.samePlaces s

theorem queueWrite_poison {s : State} {r : HReq} (hvq : s.vq = []) (hr : PoisonReq r) (k f : Nat) :
    ∃ accs, s.queueWrite r k f true = { s with vq := accs, out := s.out ++ [.answer (r.attach.getD 16) 0 []] } := by
  have hroom : ((s.writeVeins k).map (fun v => s.hotWriteAcc r v f)).all (fun a => s.queued a.vein a.ofs true < 64) = true := by
    simp [State.queued, hvq]
  have hdone (t : State) : t.doneTo r 0 (s.writeVeins k) = t.emit (.answer (r.attach.getD 16) 0 []) := by
    obtain ⟨hkind, -⟩ | ⟨hkind, -⟩ := hr.kind <;> simp [State.doneTo, hkind]
  refine ⟨s.vq ++ (s.writeVeins k).map (fun v => s.hotWriteAcc r v f), ?_⟩
  rw [State.queueWrite]
  dsimp only
  rw [if_pos hroom, if_pos rfl, hdone]
  rfl

/-- The line of a poison command, written in every copy. -/
def State.poisonLine (s : State) (r : HReq) (k f : Nat) : State :=
  ((s.dropSlot r.page true).writeLine k f r.line r.page r.ctx (if r.poison then 0 else r.data) (if r.poison then 8 else 0) (r.kind = .inject)).2

/-- The write takes effect at once (R29, R286). -/
theorem writeHot_poison {s : State} {r : HReq} (hs : HomeFree s r.page) (hr : PoisonReq r) :
    s.writeHot r (s.entry r.page).vein (s.entry r.page).loc true =
      (s.poisonLine r (s.entry r.page).vein (s.entry r.page).loc).queueWrite r (s.entry r.page).vein (s.entry r.page).loc true := by
  obtain ⟨-, -, hhot, hprefetch, -, -, hloss, hbehind⟩ := hs
  generalize (s.entry r.page).loc = f at *
  have horder : s.orderedWrite r.page r.line = s.dropSlot r.page true := by
    have hnotice : s.noticeVein r.page = s := by simp [State.noticeVein, hhot]
    have hnone : (s.dropSlot r.page true).hub.prefetch = [] := hprefetch
    simp [State.orderedWrite, hnotice, hnone]
  generalize (s.entry r.page).vein = k at *
  have hclear : (s.dropSlot r.page true).clearBehind k f r.page r.ctx = s.dropSlot r.page true := by
    have : ((s.dropSlot r.page true).dipt k).behind = [] := hbehind
    simp [State.clearBehind, this]
  have hcharge (t : State) (b : Bool) : (if b then t.charge r.cls r.stamp 80 else t) = t := by simp [State.charge, hr.cls]
  rw [State.writeHot, State.poisonLine]
  dsimp only
  rw [horder, hclear, if_neg (by simp [hloss])]
  obtain ⟨hkind, hpoison⟩ | ⟨hkind, hpoison⟩ := hr.kind
  · simp [hpoison, hkind, hcharge]
  · simp [hpoison, hkind, hr.mask, hcharge]

/-- Every copy holds what a poison command writes. -/
theorem poisonLine_keepsAt (s : State) {r : HReq} {k f v : Nat} (hv : v ∈ s.writeVeins k) : (s.poisonLine r k f).keepsAt (s.hotKey v f r.line) (poisonedBy r) := by
  obtain ⟨y, hy, hmark, hplain⟩ := writeLine_keepsAt (s := s.dropSlot r.page true) hv f r.line r.page r.ctx (if r.poison then 0 else r.data)
    (if r.poison then 8 else 0) (r.kind = .inject)
  refine ⟨y, hy, ?_, fun hp => ?_⟩
  · rw [hmark]
    cases r.poison <;> rfl
  · simpa [hp] using hplain

theorem poisonLine_placed {c : Block} {m : Nat} {g : Fld} (h : Placing c m g) (s : State) (r : HReq) (k f : Nat) :
    (s.poisonLine r k f).placed c m g = s.placed c m g := (writeLine_placed h ..).trans rfl

theorem writeHot_poisoned {s : State} {r : HReq} (hs : HomeFree s r.page) (hr : PoisonReq r) :
    Poisoned s (s.writeHot r (s.entry r.page).vein (s.entry r.page).loc true) r := by
  have hplaced {c : Block} {m : Nat} {g : Fld} (h : Placing c m g) :=
    poisonLine_placed h s r (s.entry r.page).vein (s.entry r.page).loc
  have hkept := hplaced placing_hotShare
  simp only [State.placed, Prod.mk.injEq] at hkept
  obtain ⟨hout, htier, hhome, hvq, hring, -⟩ := hkept
  obtain ⟨accs, hqueue⟩ := queueWrite_poison (hvq.trans hs.vq) hr (s.entry r.page).vein (s.entry r.page).loc
  rw [writeHot_poison hs hr, hqueue]
  exact {
    copies := fun v hv => poisonLine_keepsAt s hv
    answered := List.mem_append_right _ (List.mem_singleton_self _)
    outside := hout
    home := hhome
    ring := hring
    pmap := congrArg Tier.pmap htier
    places := fun c m g h => samePlaces_of_placed (fun _ _ _ h => hplaced h) c m g h }

/-! ### The request at its home -/

/-- A lookup of the page map counts and keeps the entry at hand (R98). -/
theorem mapLookup_parts (s : State) (page : Nat) :
    ∃ m cache, s.mapLookup page = { s with regs := m, tier := { s.tier with mapCache := cache } } := by
  unfold State.mapLookup
  dsimp only
  split
  · exact ⟨_, s.tier.mapCache, rfl⟩
  · exact ⟨_, _, rfl⟩

theorem entry_mapLookup (s : State) (page p : Nat) : (s.mapLookup page).entry p = s.entry p :=
  have h : (s.mapLookup page).tierCore = s.tierCore := mapLookup_tierCore ..
  entry_of_plan (congrArg Prod.fst h) (congrArg (fun x => x.2.1) h) p

theorem mapLookup_samePlaces (s : State) (page : Nat) : (s.mapLookup page).samePlaces s := by
  intro c m g h
  have hbump (f : Fld) (hf : f.bitOff 0 < 0x8000) (n : Nat) : (s.bump .pmap n f).get c m g = s.get c m g :=
    get_put_of_pg_ne (h.pmap n) hf h.beyond.2 ..
  have hget : (s.mapLookup page).get c m g = s.get c m g := by
    unfold State.mapLookup
    by_cases hit : page ∈ s.tier.mapCache
    · rw [if_pos hit, if_pos hit]
      exact hbump _ (by decide) _
    · rw [if_neg hit, if_neg hit]
      exact hbump _ (by decide) _
  obtain ⟨m', cache, hparts⟩ := mapLookup_parts s page
  rw [State.places, hget, hparts]
  rfl

theorem homeFree_mapLookup {s : State} {page : Nat} (hs : HomeFree s page) : HomeFree (s.mapLookup page) page := by
  have hentry := entry_mapLookup s page page
  obtain ⟨m, cache, hparts⟩ := mapLookup_parts s page
  constructor
  case hot => rw [hentry]; exact hs.hot
  case loss => rw [hentry, hparts]; exact hs.loss
  case behind => rw [hentry, hparts]; exact hs.behind
  all_goals rw [hparts]
  case quiet => exact hs.quiet
  case dir => exact hs.dir
  case prefetch => exact hs.prefetch
  case vq => exact hs.vq
  case lost => exact hs.lost

/-- The request a home orders: it has met its key lookup, and bears the page's context. -/
def State.ordered (s : State) (r : HReq) : HReq := { r with looked := r.looked || (s.keyRefusal r).isNone, ctx := (s.entry r.page).ctx }

/-- A poison command is no request of a whole page, allocates no entry, is refused by nothing, and recalls nobody where nobody caches the line. -/
theorem perform_poison {s : State} {r : HReq} (hdir : s.home.dir = []) (hr : PoisonReq r) :
    s.perform r none = s.putWrite { r with ctx := (s.entry r.page).ctx } true := by
  obtain ⟨hkind, -⟩ | ⟨hkind, -⟩ := hr.kind
  all_goals
    simp [State.perform, State.dirAfter, dirHit_empty hdir, dirPut_empty hdir, hkind, ReqKind.isRead]

theorem process_poison {s : State} {r : HReq} (hdir : s.home.dir = []) (hr : PoisonReq r) :
    s.process r = (s.mapLookup r.page).perform r none := by
  have hdir' : (s.mapLookup r.page).home.dir = [] := by
    obtain ⟨m, cache, h⟩ := mapLookup_parts s r.page
    rw [h]
    exact hdir
  have hhosts : hostsOf {} = [] := by decide
  have hints : intHolders {} = [] := by decide
  obtain ⟨hkind, -⟩ | ⟨hkind, -⟩ := hr.kind
  all_goals
    have hrefused : (s.mapLookup r.page).refusedBy r = none := by simp [State.refusedBy, hkind]
    have hrecalls : (recallsFor r {}).1 = [] := by simp [recallsFor, hkind, hhosts, hints]
    rw [State.process]
    simp [hrefused, hkind, ReqKind.wholePage, ReqKind.isRead, State.allocates, dirOf_empty hdir', hrecalls]

theorem order_poison {s : State} {r : HReq} (hs : HomeFree s r.page) (hr : PoisonReq r) :
    s.order r = (s.mapLookup r.page).putWrite (s.ordered r) true := by
  obtain ⟨⟨hqueue, hsend, hwait, hreads, hunknown, hvictims, hfreeing⟩, hdir, -⟩ := hs
  generalize hr' : ({ r with looked := r.looked || (s.keyRefusal r).isNone } : HReq) = r'
  have hpoison : PoisonReq r' := by rw [← hr']; exact ⟨hr.kind, hr.mask, hr.cls⟩
  have hpage : r'.page = r.page := by rw [← hr']
  have hdirq : (r'.kind = .dirq && (s.victimEnt r'.page r'.line).isSome) = false := by simp [State.victimEnt, hvictims]
  have hregion : s.unknownRegion r'.page = false := by simp [State.unknownRegion, hunknown]
  have htracker : s.trackerFree r' = true := by simp [State.trackerFree, State.trackers, hreads, hwait, hqueue]
  have hgo : s.canGo s.home.queue r' = true := by
    obtain ⟨hkind, -⟩ | ⟨hkind, -⟩ := hpoison.kind
    all_goals simp [State.canGo, hqueue, hregion, hkind, ReqKind.wholePage, State.lineHeld, hwait, hreads, State.victimEnt, hvictims, State.allocates]
  have hprocess : s.order r = s.process r' := by
    rw [State.order, hr']
    simp [hdirq, hregion, htracker, hgo]
  have hdir' : (s.mapLookup r'.page).home.dir = [] := by
    obtain ⟨m, cache, h⟩ := mapLookup_parts s r'.page
    rw [h]
    exact hdir
  rw [hprocess, process_poison hdir hpoison, perform_poison hdir' hpoison, entry_mapLookup, hpage, ← hr', State.ordered]

theorem putWrite_hot {s : State} {r : HReq} (hs : HomeFree s r.page) :
    s.putWrite r true = s.writeHot r (s.entry r.page).vein (s.entry r.page).loc true := by
  simp [State.putWrite, hs.lost, hs.hot]

/-- A poison command at its home takes effect, and nothing waits behind it. -/
theorem enter_poison {s : State} {r : HReq} (hs : HomeFree s r.page) (hr : PoisonReq r) : Poisoned s (s.enter r) r := by
  have hs' : HomeFree (s.mapLookup r.page) (s.ordered r).page := homeFree_mapLookup hs
  have hr' : PoisonReq (s.ordered r) := ⟨hr.kind, hr.mask, hr.cls⟩
  have horder : s.order r = (s.mapLookup r.page).writeHot (s.ordered r) ((s.mapLookup r.page).entry (s.ordered r).page).vein
      ((s.mapLookup r.page).entry (s.ordered r).page).loc true := by rw [order_poison hs hr, putWrite_hot hs']
  obtain ⟨hcopies, hanswered, hout, hhome, hring, hpmap, hplaces⟩ := writeHot_poisoned hs' hr'
  rw [← horder] at hcopies hanswered hout hhome hring hpmap hplaces
  obtain ⟨m, cache, hparts⟩ := mapLookup_parts s r.page
  have hsame := mapLookup_samePlaces s r.page
  have hhome' : (s.order r).home = s.home := hhome.trans (by rw [hparts])
  have hring' : (s.order r).ring = s.ring := hring.trans (by rw [hparts])
  obtain ⟨hqueue, hsend, hwait, -, -, -, hfreeing⟩ := hs.quiet
  have hsettle : s.enter r = s.order r :=
    settle_idle ((congrArg Home.queue hhome').trans hqueue) ((congrArg Home.senders hhome').trans hsend) ((congrArg Home.waiting hhome').trans hwait)
      ((congrArg Ring.freeing hring').trans hfreeing)
  have hentry : (s.mapLookup r.page).entry (s.ordered r).page = s.entry r.page := entry_mapLookup ..
  rw [hsettle]
  refine ⟨fun v hv => ?_, hanswered, hout.trans (by rw [hparts]; rfl), hhome', hring', hpmap.trans (by rw [hparts]), fun c m g h => ?_⟩
  · rw [hentry, hsame.writeVeins] at hcopies
    have h := hcopies v hv
    rwa [hsame.hotKey] at h
  · exact (hplaces c m g h).trans (hsame c m g h)

/-! ### The commands of the mailbox (R286) -/

theorem entry_of_hot {s t : State} {p : Nat} (hhot : (s.entry p).st = .hot) (hmap : t.tier.pmap = s.tier.pmap) : t.entry p = s.entry p := by
  unfold State.entry at hhot ⊢
  rw [hmap]
  split at hhot
  · rfl
  · split at hhot <;> cases hhot

/-- The request of a mailbox's poison command. -/
def State.poisonReq (s : State) (a dpa : Nat) (k : ReqKind) (data : Line) : HReq :=
  { id := s.newId.1, kind := k, who := if a < 16 then .host a else .mgmt s.primary, page := dpa / 4096, line := dpa % 4096 / 64
    ctx := (s.entry (dpa / 4096)).ctx, stamp := s.now, phase := s.tb.phase, el := s.tb.elapsed.toNat, data := data, mask := fullMask
    poison := decide (k = .inject), code := 8 }

theorem poisonCmd_enters {s : State} {a dpa : Nat} (hlink : a = 16 ∨ s.linkUp a = true) (hbusy : s.mboxBusy a = false)
    (hhot : (s.entry (dpa / 4096)).st = .hot) (k : ReqKind) (data : Line) :
    s.poisonCmd a dpa k data = s.newId.2.enter (s.poisonReq a dpa k data) := by
  rw [State.poisonCmd, mbox_free hlink hbusy]
  dsimp only
  rw [if_neg (by simp [hhot])]
  rfl

theorem poisonReq_attach {s : State} {a : Nat} (hlink : a = 16 ∨ s.linkUp a = true) (dpa : Nat) (k : ReqKind) (data : Line) :
    (s.poisonReq a dpa k data).attach.getD 16 = a := by
  by_cases ha : a < 16
  · simp [State.poisonReq, HReq.attach, ha]
  · have : a = 16 := hlink.resolve_right (fun hup => ha (by
      simp only [State.linkUp, State.hasAttach, Bool.and_eq_true, decide_eq_true_eq] at hup
      obtain ⟨⟨hlt, -⟩, -⟩ := hup
      exact hlt))
    simp [State.poisonReq, HReq.attach, this]

/-- A poison command on a hot line of a page whose home is free. -/
theorem ends_poisonCmd {i : Instr} {s : State} {a dpa : Nat} {k : ReqKind} {data : Line}
    (he : exec i s = hub s (fun s => s.poisonCmd a dpa k data)) (hr : s.runs = true) (hlink : a = 16 ∨ s.linkUp a = true)
    (hbusy : s.mboxBusy a = false) (hs : HomeFree s (dpa / 4096)) (hk : k = .inject ∨ k = .clearP) : Ends i s (fun t =>
      (∀ v ∈ s.writeVeins (s.entry (dpa / 4096)).vein, (t.stored (t.hotKey v (s.entry (dpa / 4096)).loc (dpa % 4096 / 64))).marker = decide (k = .inject) ∧
        (k = .clearP → (t.stored (t.hotKey v (s.entry (dpa / 4096)).loc (dpa % 4096 / 64))).sealedIn.plain = data)) ∧
      Msg.answer a 0 [] ∈ t.out ∧ t.home.reads = [] ∧ (t.entry (dpa / 4096)).st = .hot ∧ (t.entry (dpa / 4096)).loc = (s.entry (dpa / 4096)).loc) := by
  have hs' : HomeFree s.newId.2 (s.poisonReq a dpa k data).page :=
    ⟨hs.quiet, hs.dir, hs.hot, hs.prefetch, hs.vq, hs.lost, hs.loss, hs.behind⟩
  have hreq : PoisonReq (s.poisonReq a dpa k data) := by
    refine ⟨?_, rfl, rfl⟩
    obtain rfl | rfl := hk
    · exact .inl ⟨rfl, rfl⟩
    · exact .inr ⟨rfl, rfl⟩
  obtain ⟨hcopies, hanswered, hout, hhome, -, hpmap, hplaces⟩ := enter_poison hs' hreq
  have hentry := entry_of_hot (s := s) (p := dpa / 4096) hs.hot hpmap
  rw [poisonReq_attach hlink] at hanswered
  refine ends_hub_same he hr ?_ ?_
  · rw [poisonCmd_enters hlink hbusy hs.hot]
    exact hout
  · rw [poisonCmd_enters hlink hbusy hs.hot, hentry]
    obtain ⟨-, -, -, hreads, -⟩ := hs.quiet
    refine ⟨fun v hv => ?_, hanswered, (congrArg Home.reads hhome).trans hreads, hs.hot, rfl⟩
    rw [hplaces.hotKey]
    obtain ⟨hmark, hplain⟩ := (hcopies v hv).stored
    exact ⟨hmark, fun hc => hplain (by rw [hc]; rfl)⟩

/-- Settles O38: the lists and the scan answer from the state; a poison command is followed through its home to the stored copies. -/
theorem mailboxMedia : Obligations.MailboxMedia := by
  unfold Obligations.MailboxMedia
  refine ⟨?_, ?_, ?_, ?_, ?_, ?_, ?_⟩
  · intro s a dpa len l hr hlink hbusy hover hl
    refine ends_answer (f := _) rfl hr hlink hbusy ?_
    simp only [hover, ← hl]
    rfl
  · intro s a dpa page line e hr hlink hbusy hpage hline he hhot hq hdir _ _ hpre _ hvq hlost hloss hbehind
    subst hpage hline he
    obtain ⟨t, hexec, hcopies, hrest⟩ := ends_poisonCmd (i := .injectPoison a dpa) (k := .inject) (data := 0) rfl hr hlink hbusy
      ⟨hq, hdir, hhot, hpre, hvq, hlost, hloss, hbehind⟩ (.inl rfl)
    exact ⟨t, hexec, fun v hv => (hcopies v hv).1, hrest⟩
  · intro s a dpa page line e data hr hlink hbusy hpage hline he hhot hq hdir _ _ hpre _ hvq hlost hloss hbehind
    subst hpage hline he
    obtain ⟨t, hexec, hcopies, hrest⟩ := ends_poisonCmd (i := .clearPoison a dpa data) (k := .clearP) rfl hr hlink hbusy
      ⟨hq, hdir, hhot, hpre, hvq, hlost, hloss, hbehind⟩ (.inr rfl)
    exact ⟨t, hexec, fun v hv => ⟨(hcopies v hv).1, (hcopies v hv).2 rfl⟩, hrest⟩
  · intro s a dpa len hr hlink hbusy
    exact ends_answer rfl hr hlink hbusy rfl
  · intro s a dpa len hr hlink hbusy hscan
    refine ends_mbox rfl hr hlink hbusy ?_ ?_
    · simp only [hscan]; rfl
    · simp only [hscan]
      exact ⟨rfl, rfl, rfl⟩
  · intro s a first n t0 hr hscan htime
    have hcmd : s.cmdScanMediaDone [] [] = { s with ports := { s.ports with scan := none, scanResult := (s.pagesIn first n).flatMap s.markersOf } } := by
      simp [State.cmdScanMediaDone, hscan, Nat.not_lt.2 htime]
    refine ends_hub_same (f := fun s => s.cmdScanMediaDone [] []) rfl hr ?_ ?_
    · rw [hcmd]; rfl
    · rw [hcmd]
      exact ⟨rfl, rfl, rfl⟩
  · intro s a hr hlink hbusy hscan
    refine ends_answer (f := _) rfl hr hlink hbusy ?_
    simp only [hscan]
    rfl

end Sys2Proof.Machine
end

end
